-- ==== Sys2Proof/Word.lean ====
section
/-!
DEFINITION. The word types of the QK7 (R3) and their plainest arithmetic.
-/

namespace Sys2Proof

/-- A byte (R3). -/
abbrev Byte := BitVec 8
/-- A word of a bundle, 32 bits (R3, R318). -/
abbrev Word := BitVec 32
/-- A scalar register or control register, 64 bits (R229, R245). -/
abbrev DWord := BitVec 64
/-- A vector tile, 2 KiB (R229). -/
abbrev Tile := BitVec 16384
/-- A virtual address, 52 bits (R163). -/
abbrev Va := BitVec 52
/-- A pod address, 56 bits (R95). -/
abbrev Pod := BitVec 56
/-- An endpoint id: die code in 15:11, unit in 10:0 (R47). -/
abbrev Ep := BitVec 16

/-- Bits hi:lo of a natural number, both ends included (R5). -/
def natBits (n lo len : Nat) : Nat := n / 2 ^ lo % 2 ^ len

end Sys2Proof
end

