-- ==== Sys2Proof/Packet.lean ====
section
/-!
DEFINITION. Packets of the packet plane (R44-R47) and flows (R51).
-/

namespace Sys2Proof

/-- A flow: packets of equal SRC, DST, LABEL, OCLS and VC (R51). -/
structure Flow where
  src : BitVec 16
  dst : BitVec 16
  label : BitVec 16
  ocls : BitVec 4
  vc : BitVec 2
deriving DecidableEq, Repr

/-- What a packet says beyond the header fields of R45, where the manual gives the content but no bit layout for it.
`read n` asks for n bytes; `atom` names the operation, the width and the operands of R366; `cmd` names the engine command
whose transfer it is; `tileWrite` names the rule of R425, the context, the offset in its region, the barrier offset, the
number of sectors whose last byte it writes, the arrivals that it brings and the sender's gang; `image` a piece of the boot image; the others carry what the rule of their name states. -/
inductive Msg where
  | none
  | read (n : Nat)
  | atom (op : Nat) (wide : Bool) (b c : BitVec 64) (want : Bool)
  | old (v : BitVec 64) (want : Bool)
  | fail (status : Nat)
  | engWrite (cmd : Nat)
  | tileWrite (rule : Nat) (ctx : Nat) (off : Nat) (bar : Option Nat) (closes : Nat) (arrv : Nat) (gang : Nat)
  | image
  | record (sid part : Nat) (idx : Nat) (last : Bool)
  | xst (gang : Nat) (task : Nat) (phase : Nat) (off : Nat)
  | resume (cid : Nat) (words : Nat)
  | stream (part : Nat) (body : BitVec 128)
  | collapse (cid : Nat) (cause : Nat)
  | sendAck (cid : Nat) (words : Nat)
  | setup (cid : Nat)
  | probeAck (cid : Nat)
  | probeRefusal (cid : Nat) (cause : Nat)
  | markerAck (fid : Nat) (flow : Nat)
  | relaySpace (fid : Nat) (bytes : Nat)
  | podReset (cls : Nat)
deriving DecidableEq, Repr

/-- A packet: the header of R45 and its payload (R44).  `poison` marks the payload (R62, R131); `bad` is an uncorrectable
error in the buffered header (R62). -/
structure Pkt where
  kind : BitVec 4
  part : BitVec 3
  mmh : Bool
  ocls : BitVec 4
  vc : BitVec 2
  disp : Bool
  merged : Bool
  src : BitVec 16
  dst : BitVec 16
  label : BitVec 16
  hint : BitVec 4
  seq : BitVec 12
  len : BitVec 3
  host : Bool
  tag : BitVec 16
  bytes : BitVec 9
  addr : BitVec 48
  pkg : BitVec 8
  ver : BitVec 32
  opc : BitVec 16
  orig : BitVec 16
  data : List Byte
  poison : Bool
  bad : Bool
  msg : Msg
deriving DecidableEq, Repr

/-- The flow of a packet (R51). -/
def Pkt.flow (p : Pkt) : Flow := ⟨p.src, p.dst, p.label, p.ocls, p.vc⟩

/-- A packet with every field clear. -/
def Pkt.zero : Pkt :=
  { kind := 0, part := 0, mmh := false, ocls := 0, vc := 0, disp := false, merged := false, src := 0, dst := 0, label := 0,
    hint := 0, seq := 0, len := 0, host := false, tag := 0, bytes := 0, addr := 0, pkg := 0, ver := 0, opc := 0, orig := 0,
    data := [], poison := false, bad := false, msg := .none }

/-- The body flits that n payload bytes take: 32 in the head flit and 64 in each body flit (R44). -/
def bodyFlits (n : Nat) : Nat := (n - 32 + 63) / 64

/-- What names an event of the opcode table and what it brings from outside the device; each event's meaning says which of
these it reads.  It is an input of the step (log entry 1, DESIGN CHOICE). -/
structure EvArg where
  a : Nat
  b : Nat
  c : Nat
  d : Nat
  ok : Bool
  flow : Flow
  data : List Byte
  pkt : Pkt
  bits : BitVec 256
  pairs : List (Nat × Nat)
deriving DecidableEq, Repr

/-- The argument that names nothing. -/
def EvArg.zero : EvArg :=
  { a := 0, b := 0, c := 0, d := 0, ok := true, flow := ⟨0, 0, 0, 0, 0⟩, data := [], pkt := Pkt.zero, bits := 0, pairs := [] }

/-- The argument that names one number. -/
def EvArg.of (a : Nat) : EvArg := { EvArg.zero with a := a }

/-- The argument that names two numbers. -/
def EvArg.of2 (a b : Nat) : EvArg := { EvArg.zero with a := a, b := b }

/-- The argument that names three numbers. -/
def EvArg.of3 (a b c : Nat) : EvArg := { EvArg.zero with a := a, b := b, c := c }

end Sys2Proof
end

