-- ==== Sys2Proof/Syntax.lean ====
section
/-!
DEFINITION. The abstract syntax: one constructor per row of spec/opcode_table.json.

The 214 instruction rows keep the fields that R320 gives their format, by the letters of the opcode table, and a
continuation word (R323) as `x`; the E bit belongs to the bundle and not to the instruction.  The 125 event rows stand last and
have no fields, as in the table: what names an event (its packet, endpoint, queue or context) and what it brings from
outside the device stand in the state (`EvArg`, `State.arg`).
-/

namespace Sys2Proof

/-- Payload of the X word of a global load (R323). -/
structure WgLd where
  oc : BitVec 4
  mmh : Bool
  sem : BitVec 2
  scope : BitVec 3
  off : BitVec 17
deriving DecidableEq, Repr

/-- Payload of the X word of a global store (R323); its MMH bit is 0 (R362). -/
structure WgSt where
  oc : BitVec 4
  sem : BitVec 2
  scope : BitVec 3
  off : BitVec 17
deriving DecidableEq, Repr

/-- Payload of the X word of an atomic other than `acas` (R323): class, semantics, scope and guard. -/
structure AtExt where
  oc : BitVec 4
  sem : BitVec 2
  scope : BitVec 3
  g : BitVec 5
deriving DecidableEq, Repr

/-- Payload of the X word of `acas` (R323): as for the other atomics, with the compare register. -/
structure CasExt where
  oc : BitVec 4
  sem : BitVec 2
  scope : BitVec 3
  c : BitVec 5
  g : BitVec 5
deriving DecidableEq, Repr

/-- Payload of the X word of `vcvt` (R323): rounding and salt register. -/
structure CvtExt where
  rnd : BitVec 2
  salt : BitVec 5
deriving DecidableEq, Repr

/-- Payload of the X word of `vldc` (R394). -/
structure VldcExt where
  t : BitVec 3
  rnd : BitVec 2
  salt : BitVec 5
deriving DecidableEq, Repr

/-- Payload of the X word of `vstc` (R394). -/
structure VstcExt where
  t : BitVec 3
  rnd : BitVec 2
  salt : BitVec 5
  kb : BitVec 5
deriving DecidableEq, Repr

/-- The instructions and events of the opcode table. -/
inductive Instr where
  | nop
  | add (d : BitVec 5) (a : BitVec 5) (b : BitVec 5)
  | sub (d : BitVec 5) (a : BitVec 5) (b : BitVec 5)
  | mul (d : BitVec 5) (a : BitVec 5) (b : BitVec 5)
  | mulh (d : BitVec 5) (a : BitVec 5) (b : BitVec 5)
  | mulhz (d : BitVec 5) (a : BitVec 5) (b : BitVec 5)
  | div (d : BitVec 5) (a : BitVec 5) (b : BitVec 5)
  | divz (d : BitVec 5) (a : BitVec 5) (b : BitVec 5)
  | rem (d : BitVec 5) (a : BitVec 5) (b : BitVec 5)
  | remz (d : BitVec 5) (a : BitVec 5) (b : BitVec 5)
  | and (d : BitVec 5) (a : BitVec 5) (b : BitVec 5)
  | or (d : BitVec 5) (a : BitVec 5) (b : BitVec 5)
  | xor (d : BitVec 5) (a : BitVec 5) (b : BitVec 5)
  | andn (d : BitVec 5) (a : BitVec 5) (b : BitVec 5)
  | shl (d : BitVec 5) (a : BitVec 5) (b : BitVec 5)
  | shr (d : BitVec 5) (a : BitVec 5) (b : BitVec 5)
  | sar (d : BitVec 5) (a : BitVec 5) (b : BitVec 5)
  | rol (d : BitVec 5) (a : BitVec 5) (b : BitVec 5)
  | min (d : BitVec 5) (a : BitVec 5) (b : BitVec 5)
  | max (d : BitVec 5) (a : BitVec 5) (b : BitVec 5)
  | minz (d : BitVec 5) (a : BitVec 5) (b : BitVec 5)
  | maxz (d : BitVec 5) (a : BitVec 5) (b : BitVec 5)
  | clz (d : BitVec 5) (a : BitVec 5)
  | ctz (d : BitVec 5) (a : BitVec 5)
  | popc (d : BitVec 5) (a : BitVec 5)
  | extB (d : BitVec 5) (a : BitVec 5)
  | extH (d : BitVec 5) (a : BitVec 5)
  | extW (d : BitVec 5) (a : BitVec 5)
  | extzB (d : BitVec 5) (a : BitVec 5)
  | extzH (d : BitVec 5) (a : BitVec 5)
  | extzW (d : BitVec 5) (a : BitVec 5)
  | mov (d : BitVec 5) (a : BitVec 5)
  | addi (d : BitVec 5) (a : BitVec 5) (i : BitVec 11) (x : Option (BitVec 28))
  | muli (d : BitVec 5) (a : BitVec 5) (i : BitVec 11) (x : Option (BitVec 28))
  | andi (d : BitVec 5) (a : BitVec 5) (i : BitVec 11) (x : Option (BitVec 28))
  | ori (d : BitVec 5) (a : BitVec 5) (i : BitVec 11) (x : Option (BitVec 28))
  | xori (d : BitVec 5) (a : BitVec 5) (i : BitVec 11) (x : Option (BitVec 28))
  | shli (d : BitVec 5) (a : BitVec 5) (i : BitVec 6)
  | shri (d : BitVec 5) (a : BitVec 5) (i : BitVec 6)
  | sari (d : BitVec 5) (a : BitVec 5) (i : BitVec 6)
  | movi (d : BitVec 5) (i : BitVec 16) (x : Option (BitVec 28))
  | movh (d : BitVec 5) (i : BitVec 16)
  | cmpEq (d : BitVec 4) (a : BitVec 5) (b : BitVec 5)
  | cmpNe (d : BitVec 4) (a : BitVec 5) (b : BitVec 5)
  | cmpLt (d : BitVec 4) (a : BitVec 5) (b : BitVec 5)
  | cmpLe (d : BitVec 4) (a : BitVec 5) (b : BitVec 5)
  | cmpLo (d : BitVec 4) (a : BitVec 5) (b : BitVec 5)
  | cmpLs (d : BitVec 4) (a : BitVec 5) (b : BitVec 5)
  | cmpiEq (d : BitVec 4) (a : BitVec 5) (i : BitVec 11) (x : Option (BitVec 28))
  | cmpiNe (d : BitVec 4) (a : BitVec 5) (i : BitVec 11) (x : Option (BitVec 28))
  | cmpiLt (d : BitVec 4) (a : BitVec 5) (i : BitVec 11) (x : Option (BitVec 28))
  | cmpiLe (d : BitVec 4) (a : BitVec 5) (i : BitVec 11) (x : Option (BitVec 28))
  | cmpiLo (d : BitVec 4) (a : BitVec 5) (i : BitVec 11) (x : Option (BitVec 28))
  | cmpiLs (d : BitVec 4) (a : BitVec 5) (i : BitVec 11) (x : Option (BitVec 28))
  | pand (d : BitVec 4) (a : BitVec 4) (b : BitVec 4)
  | por (d : BitVec 4) (a : BitVec 4) (b : BitVec 4)
  | pxor (d : BitVec 4) (a : BitVec 4) (b : BitVec 4)
  | pandn (d : BitVec 4) (a : BitVec 4) (b : BitVec 4)
  | pnot (d : BitVec 4) (a : BitVec 4)
  | sel (d : BitVec 5) (a : BitVec 5) (b : BitVec 5) (g : BitVec 5)
  | ldB (d : BitVec 5) (a : BitVec 5) (i : BitVec 6) (x : Option (BitVec 28))
  | ldH (d : BitVec 5) (a : BitVec 5) (i : BitVec 6) (x : Option (BitVec 28))
  | ldW (d : BitVec 5) (a : BitVec 5) (i : BitVec 6) (x : Option (BitVec 28))
  | ldD (d : BitVec 5) (a : BitVec 5) (i : BitVec 6) (x : Option (BitVec 28))
  | ldzB (d : BitVec 5) (a : BitVec 5) (i : BitVec 6) (x : Option (BitVec 28))
  | ldzH (d : BitVec 5) (a : BitVec 5) (i : BitVec 6) (x : Option (BitVec 28))
  | ldzW (d : BitVec 5) (a : BitVec 5) (i : BitVec 6) (x : Option (BitVec 28))
  | stB (g : BitVec 5) (a : BitVec 5) (b : BitVec 5) (i : BitVec 6) (x : Option (BitVec 28))
  | stH (g : BitVec 5) (a : BitVec 5) (b : BitVec 5) (i : BitVec 6) (x : Option (BitVec 28))
  | stW (g : BitVec 5) (a : BitVec 5) (b : BitVec 5) (i : BitVec 6) (x : Option (BitVec 28))
  | stD (g : BitVec 5) (a : BitVec 5) (b : BitVec 5) (i : BitVec 6) (x : Option (BitVec 28))
  | br (g : BitVec 5) (i : BitVec 16) (x : Option (BitVec 28))
  | call (d : BitVec 5) (i : BitVec 16) (x : Option (BitVec 28))
  | jmp (g : BitVec 5) (a : BitVec 5)
  | jcall (d : BitVec 5) (a : BitVec 5)
  | lvl (d : BitVec 5) (a : BitVec 5) (b : BitVec 5) (f : BitVec 6)
  | loop (n : BitVec 6)
  | loopSp (s : BitVec 4) (n : BitVec 6)
  | crr (d : BitVec 5) (c : BitVec 12)
  | crw (d : BitVec 5) (c : BitVec 12)
  | trap (i : BitVec 8)
  | tret
  | tend
  | ldgB (d : BitVec 5) (a : BitVec 5) (h : BitVec 4) (x : Option WgLd)
  | ldgH (d : BitVec 5) (a : BitVec 5) (h : BitVec 4) (x : Option WgLd)
  | ldgW (d : BitVec 5) (a : BitVec 5) (h : BitVec 4) (x : Option WgLd)
  | ldgD (d : BitVec 5) (a : BitVec 5) (h : BitVec 4) (x : Option WgLd)
  | ldgzB (d : BitVec 5) (a : BitVec 5) (h : BitVec 4) (x : Option WgLd)
  | ldgzH (d : BitVec 5) (a : BitVec 5) (h : BitVec 4) (x : Option WgLd)
  | ldgzW (d : BitVec 5) (a : BitVec 5) (h : BitVec 4) (x : Option WgLd)
  | stgB (g : BitVec 5) (a : BitVec 5) (b : BitVec 5) (h : BitVec 4) (x : Option WgSt)
  | stgH (g : BitVec 5) (a : BitVec 5) (b : BitVec 5) (h : BitVec 4) (x : Option WgSt)
  | stgW (g : BitVec 5) (a : BitVec 5) (b : BitVec 5) (h : BitVec 4) (x : Option WgSt)
  | stgD (g : BitVec 5) (a : BitVec 5) (b : BitVec 5) (h : BitVec 4) (x : Option WgSt)
  | ldgV (d : BitVec 5) (a : BitVec 5) (h : BitVec 4) (x : Option WgLd)
  | stgV (g : BitVec 5) (a : BitVec 5) (b : BitVec 5) (h : BitVec 4) (x : Option WgSt)
  | xst (g : BitVec 5) (a : BitVec 5) (b : BitVec 5) (c : BitVec 5)
  | aadd (d : BitVec 5) (a : BitVec 5) (b : BitVec 5) (h : BitVec 4) (z : BitVec 1) (x : AtExt)
  | asub (d : BitVec 5) (a : BitVec 5) (b : BitVec 5) (h : BitVec 4) (z : BitVec 1) (x : AtExt)
  | aand (d : BitVec 5) (a : BitVec 5) (b : BitVec 5) (h : BitVec 4) (z : BitVec 1) (x : AtExt)
  | aor (d : BitVec 5) (a : BitVec 5) (b : BitVec 5) (h : BitVec 4) (z : BitVec 1) (x : AtExt)
  | axor (d : BitVec 5) (a : BitVec 5) (b : BitVec 5) (h : BitVec 4) (z : BitVec 1) (x : AtExt)
  | amin (d : BitVec 5) (a : BitVec 5) (b : BitVec 5) (h : BitVec 4) (z : BitVec 1) (x : AtExt)
  | amax (d : BitVec 5) (a : BitVec 5) (b : BitVec 5) (h : BitVec 4) (z : BitVec 1) (x : AtExt)
  | aminz (d : BitVec 5) (a : BitVec 5) (b : BitVec 5) (h : BitVec 4) (z : BitVec 1) (x : AtExt)
  | amaxz (d : BitVec 5) (a : BitVec 5) (b : BitVec 5) (h : BitVec 4) (z : BitVec 1) (x : AtExt)
  | aswp (d : BitVec 5) (a : BitVec 5) (b : BitVec 5) (h : BitVec 4) (z : BitVec 1) (x : AtExt)
  | acas (d : BitVec 5) (a : BitVec 5) (b : BitVec 5) (h : BitVec 4) (z : BitVec 1) (x : CasExt)
  | afadd (d : BitVec 5) (a : BitVec 5) (b : BitVec 5) (h : BitVec 4) (z : BitVec 1) (x : AtExt)
  | trans (d : BitVec 4) (a : BitVec 5)
  | transAr (d : BitVec 4) (a : BitVec 5)
  | hstat (d : BitVec 5) (a : BitVec 4)
  | inv (a : BitVec 5) (b : BitVec 5)
  | invAll
  | fenceCm (s : BitVec 3) (m : BitVec 16)
  | fenceSc
  | gbar
  | phase (p : BitVec 3)
  | tlwait (s : BitVec 3) (a : BitVec 3) (b : BitVec 5)
  | tlinc (a : BitVec 3) (b : BitVec 5)
  | tlrd (d : BitVec 5) (a : BitVec 3)
  | tlmwait (s : BitVec 3) (a : BitVec 5) (b : BitVec 5) (h : BitVec 4)
  | tlmsig (s : BitVec 3) (a : BitVec 5) (b : BitVec 5) (h : BitVec 4)
  | tbinit (c : BitVec 5) (a : BitVec 5) (b : BitVec 5)
  | tbarr (a : BitVec 5) (b : BitVec 5)
  | tbwait (s : BitVec 3) (a : BitVec 5) (b : BitVec 5)
  | vadd (d : BitVec 5) (a : BitVec 5) (b : BitVec 5) (r : BitVec 3) (t : BitVec 3)
  | vsub (d : BitVec 5) (a : BitVec 5) (b : BitVec 5) (r : BitVec 3) (t : BitVec 3)
  | vmul (d : BitVec 5) (a : BitVec 5) (b : BitVec 5) (r : BitVec 3) (t : BitVec 3)
  | vdiv (d : BitVec 5) (a : BitVec 5) (b : BitVec 5) (r : BitVec 3) (t : BitVec 3)
  | vmin (d : BitVec 5) (a : BitVec 5) (b : BitVec 5) (r : BitVec 3) (t : BitVec 3)
  | vmax (d : BitVec 5) (a : BitVec 5) (b : BitVec 5) (r : BitVec 3) (t : BitVec 3)
  | viadd (d : BitVec 5) (a : BitVec 5) (b : BitVec 5) (r : BitVec 3) (t : BitVec 3)
  | vimul (d : BitVec 5) (a : BitVec 5) (b : BitVec 5) (r : BitVec 3) (t : BitVec 3)
  | vimax (d : BitVec 5) (a : BitVec 5) (b : BitVec 5) (r : BitVec 3) (t : BitVec 3)
  | vimin (d : BitVec 5) (a : BitVec 5) (b : BitVec 5) (r : BitVec 3) (t : BitVec 3)
  | vand (d : BitVec 5) (a : BitVec 5) (b : BitVec 5) (t : BitVec 3)
  | vor (d : BitVec 5) (a : BitVec 5) (b : BitVec 5) (t : BitVec 3)
  | vxor (d : BitVec 5) (a : BitVec 5) (b : BitVec 5) (t : BitVec 3)
  | vshl (d : BitVec 5) (a : BitVec 5) (b : BitVec 5) (t : BitVec 3)
  | vshr (d : BitVec 5) (a : BitVec 5) (b : BitVec 5) (t : BitVec 3)
  | vsar (d : BitVec 5) (a : BitVec 5) (b : BitVec 5) (t : BitVec 3)
  | vcmpEq (d : BitVec 5) (a : BitVec 5) (b : BitVec 5) (t : BitVec 3)
  | vcmpNe (d : BitVec 5) (a : BitVec 5) (b : BitVec 5) (t : BitVec 3)
  | vcmpLt (d : BitVec 5) (a : BitVec 5) (b : BitVec 5) (t : BitVec 3)
  | vcmpLe (d : BitVec 5) (a : BitVec 5) (b : BitVec 5) (t : BitVec 3)
  | vcmpGt (d : BitVec 5) (a : BitVec 5) (b : BitVec 5) (t : BitVec 3)
  | vcmpGe (d : BitVec 5) (a : BitVec 5) (b : BitVec 5) (t : BitVec 3)
  | vsel (d : BitVec 5) (a : BitVec 5) (b : BitVec 5) (g : BitVec 5)
  | vselm (d : BitVec 5) (a : BitVec 5) (b : BitVec 5) (c : BitVec 5)
  | visab (d : BitVec 5) (a : BitVec 5) (t : BitVec 3)
  | vispr (d : BitVec 5) (a : BitVec 5) (t : BitVec 3)
  | vfill (d : BitVec 5) (a : BitVec 5) (b : BitVec 5) (t : BitVec 3)
  | vneg (d : BitVec 5) (a : BitVec 5) (r : BitVec 3) (t : BitVec 3)
  | vmag (d : BitVec 5) (a : BitVec 5) (r : BitVec 3) (t : BitVec 3)
  | vexp (d : BitVec 5) (a : BitVec 5) (r : BitVec 3) (t : BitVec 3)
  | vlog (d : BitVec 5) (a : BitVec 5) (r : BitVec 3) (t : BitVec 3)
  | vrcp (d : BitVec 5) (a : BitVec 5) (r : BitVec 3) (t : BitVec 3)
  | vsqrt (d : BitVec 5) (a : BitVec 5) (r : BitVec 3) (t : BitVec 3)
  | vrsqrt (d : BitVec 5) (a : BitVec 5) (r : BitVec 3) (t : BitVec 3)
  | vtanh (d : BitVec 5) (a : BitVec 5) (r : BitVec 3) (t : BitVec 3)
  | vsigm (d : BitVec 5) (a : BitVec 5) (r : BitVec 3) (t : BitVec 3)
  | vgelu (d : BitVec 5) (a : BitVec 5) (r : BitVec 3) (t : BitVec 3)
  | vfma (d : BitVec 5) (a : BitVec 5) (b : BitVec 5) (r : BitVec 3) (t : BitVec 3) (c : BitVec 5)
  | vfms (d : BitVec 5) (a : BitVec 5) (b : BitVec 5) (r : BitVec 3) (t : BitVec 3) (c : BitVec 5)
  | vfnma (d : BitVec 5) (a : BitVec 5) (b : BitVec 5) (r : BitVec 3) (t : BitVec 3) (c : BitVec 5)
  | vredSum (d : BitVec 5) (a : BitVec 5) (x : BitVec 1) (t : BitVec 3)
  | vredMax (d : BitVec 5) (a : BitVec 5) (x : BitVec 1) (t : BitVec 3)
  | vredMin (d : BitVec 5) (a : BitVec 5) (x : BitVec 1) (t : BitVec 3)
  | vredMean (d : BitVec 5) (a : BitVec 5) (x : BitVec 1) (t : BitVec 3)
  | vredCount (d : BitVec 5) (a : BitVec 5) (x : BitVec 1) (t : BitVec 3)
  | vcvt (d : BitVec 5) (a : BitVec 5) (u : BitVec 3) (t : BitVec 3) (x : Option CvtExt)
  | vtrn (d : BitVec 5) (a : BitVec 5)
  | vperm (d : BitVec 5) (a : BitVec 5) (b : BitVec 5)
  | vbrow (d : BitVec 5) (a : BitVec 5) (f : BitVec 6)
  | vbcs (d : BitVec 5) (a : BitVec 5) (t : BitVec 3)
  | vmov (d : BitVec 5) (a : BitVec 5)
  | vext (d : BitVec 5) (a : BitVec 5) (b : BitVec 5) (t : BitVec 3)
  | vins (d : BitVec 5) (a : BitVec 5) (b : BitVec 5) (t : BitVec 3)
  | vtmask (d : BitVec 5) (a : BitVec 5)
  | vld (d : BitVec 5) (a : BitVec 5) (w : BitVec 4) (x : Option (BitVec 18))
  | vst (g : BitVec 5) (a : BitVec 5) (b : BitVec 5) (w : BitVec 4) (x : Option (BitVec 18))
  | vldc (d : BitVec 5) (a : BitVec 5) (w : BitVec 4) (x : VldcExt)
  | vstc (g : BitVec 5) (a : BitVec 5) (b : BitVec 5) (w : BitVec 4) (x : VstcExt)
  | mldb (a : BitVec 5) (w : BitVec 4)
  | mldbt (a : BitVec 5) (w : BitVec 4)
  | mma (t : BitVec 3) (a : BitVec 5) (w : BitVec 4)
  | mmaC (t : BitVec 3) (a : BitVec 5) (w : BitVec 4)
  | mdrnRaw (t : BitVec 3) (a : BitVec 5) (w : BitVec 4) (r : BitVec 2) (x : Option (BitVec 5))
  | mdrnRawa (t : BitVec 3) (a : BitVec 5) (w : BitVec 4) (r : BitVec 2) (x : Option (BitVec 5))
  | mdrnMean (t : BitVec 3) (a : BitVec 5) (w : BitVec 4) (r : BitVec 2) (x : Option (BitVec 5))
  | mdrnCount (t : BitVec 3) (a : BitVec 5) (w : BitVec 4) (r : BitVec 2) (x : Option (BitVec 5))
  | mclr (t : BitVec 3)
  | sclA (a : BitVec 5) (w : BitVec 4)
  | sclB (a : BitVec 5) (w : BitVec 4)
  | sclrA
  | sclrB
  | cpy (a : BitVec 5) (l : BitVec 3) (n : BitVec 1) (x : Option (BitVec 16))
  | cpyaw (d : BitVec 3) (a : BitVec 5) (l : BitVec 3) (n : BitVec 1) (x : Option (BitVec 16))
  | cpymc (a : BitVec 5) (l : BitVec 3) (n : BitVec 1) (x : Option (BitVec 16))
  | cpyrm (a : BitVec 5) (l : BitVec 3) (n : BitVec 1) (x : Option (BitVec 16))
  | rmapost (a : BitVec 5) (b : BitVec 5) (l : BitVec 3) (n : BitVec 1) (x : Option (BitVec 16))
  | sopen (d : BitVec 3) (a : BitVec 5)
  | spush (d : BitVec 5) (a : BitVec 3) (b : BitVec 5)
  | spop (d : BitVec 5) (a : BitVec 3)
  | sclose (a : BitVec 3)
  | sstat (d : BitVec 5) (a : BitVec 3)
  | ckopen (d : BitVec 3) (a : BitVec 5)
  | ckhold (a : BitVec 3) (b : BitVec 5)
  | cksend (c : BitVec 5) (a : BitVec 3) (b : BitVec 5) (l : BitVec 3) (n : BitVec 1) (x : Option (BitVec 16))
  | ckclose (a : BitVec 3)
  | ckstat (d : BitVec 5) (a : BitVec 3)
  | kvcommit (d : BitVec 5) (a : BitVec 5) (b : BitVec 5) (l : BitVec 3) (n : BitVec 1) (x : Option (BitVec 16))
  | launch (a : BitVec 5) (b : BitVec 5)
  | coldBoot
  | warmReset
  | bootImageReadResponse
  | t2size
  | t2waitExpiry
  | authenticationTimeout
  | powerSample
  | thermalTrip
  | pkgPowerWrite
  | registerWrite
  | cicadaTick
  | periodicDrain
  | sluiceDecay
  | packetRoute
  | readRequest
  | readResponse
  | write
  | writeAcknowledgement
  | atomicRequest
  | atomicResponse
  | engineData
  | pathMarker
  | markerAcknowledgement
  | reorderTimeout
  | requestTimeout
  | linkReplay
  | linkRetrainEnd
  | homeSliceFill
  | probeAcknowledgement
  | probeRefusal
  | circuitBeat
  | collapseNotice
  | resumePointReport
  | resumeReportTimeout
  | leaseExpiry
  | sendAcknowledgement
  | grainReservation
  | circuitSetupRequest
  | sailBoundary
  | grain
  | grainDelivery
  | relaySpaceReport
  | podNextHop
  | podAccessAdmission
  | sack
  | podResendTimeout
  | remoteAccessTimeout
  | flushingReadResponse
  | registrationStateWrite
  | rmaTailWrite
  | rmaEnableWrite
  | rmaErrstopWrite
  | rmaNop
  | rmaPut
  | rmaGet
  | rmaWait
  | rmaDescriptorRetire
  | hostMemoryAccess
  | queueTlWrite
  | queueEnableWrite
  | queueStopWrite
  | queueEntryTake
  | recordFetch
  | recordStart
  | gangNode
  | gangStart
  | gangRestore
  | copyNode
  | collectiveNode
  | circuitOpenNode
  | signalNode
  | subgraphNode
  | joinNode
  | waitNode
  | recordRetirement
  | create
  | destroy
  | swapout
  | swapin
  | fence
  | fwupd
  | retire
  | mailboxUnlistedCommand
  | swapoutSaveEnd
  | swapinRestoreEnd
  | fwupdEnd
  | coreRepair
  | memoryDieFailure
  | partRsWrite
  | priorityChange
  | invalidationRequest
  | invalidationMarking
  | invalidationConfirmation
  | walkNotice
  | placementEvaluation
  | plcRetHeadWrite
  | plcLostHeadWrite
  | resultWrite
  | trapEntry
  | wdog
  | bundleHoldRelease
  | phaseDrainEnd
  | mmaRowWrite
  | scaleLatchLanding
  | copyCommandStart
  | copyStageStart
  | copyCommandCompletion
  | circuitPortCommandStart
  | streamUnitCommandStart
  | rmapostCommandStart
  | launchCommandStart
  | streamOpenCheck
  | sampleFlit
  | streamSampleApplication
  | creditFlit
  | detachFlit
  | attachFlit
  | closeFlit
  | breakFlit
  | streamLossTimeout
  | gangBarrierCompletion
  | gangBarrierRelease
  | rejectedStoreReport
  | blackBoxEntryRead
  | c0ServiceFailure
deriving DecidableEq, Repr

end Sys2Proof
end

