-- ==== Sys2Proof/WellFormed.lean ====
section
/-!
DEFINITION. Well-formedness: the enumerated fields of R329 hold values that their rows list.
An instruction that fails `Instr.wf` is `IIL` when it is examined (R329).
-/

namespace Sys2Proof

/-- T codes: f32, bf16, f16, i32, i16 (R323). -/
def wfT (t : BitVec 3) : Bool := t.toNat ≤ 4

/-- The lane formats of the special functions: f32, bf16, f16 (R386). -/
def wfTFloat (t : BitVec 3) : Bool := t.toNat ≤ 2

/-- The lane formats of the logic and shift forms: i32, i16 (R387). -/
def wfTInt (t : BitVec 3) : Bool := t.toNat = 3 || t.toNat = 4

/-- RND codes 0 to 3 in a three-bit field (R323). -/
def wfRnd (r : BitVec 3) : Bool := r.toNat ≤ 3

/-- SCOPE codes `.core` to `.pod` (R323). -/
def wfScope (s : BitVec 3) : Bool := s.toNat ≤ 4

/-- SEM and SCOPE together: SCOPE is 0 when SEM is 0 (R325). -/
def wfSemScope (sem : BitVec 2) (scope : BitVec 3) : Bool := wfScope scope && (sem != 0 || scope == 0)

/-- A global load is plain or an acquire (R362). -/
def wfLd (x : Option WgLd) : Bool :=
  match x with
  | none => true
  | some e => e.sem.toNat ≤ 1 && wfSemScope e.sem e.scope

/-- A global store is plain or a release (R362). -/
def wfSt (x : Option WgSt) : Bool :=
  match x with
  | none => true
  | some e => (e.sem == 0 || e.sem == 2) && wfSemScope e.sem e.scope

/-- A CE word: an increment that is present is not 0 (R329), and TI = 0 carries no X (R328). -/
def wfInc (n : BitVec 1) (x : Option (BitVec 16)) : Bool :=
  match x with
  | none => true
  | some v => n == 1 && v != 0

/-- The enumerated fields of R329 hold listed values; an event is always well formed. -/
def Instr.wf : Instr → Bool
  | .nop => true
  | .add _ _ _ => true
  | .sub _ _ _ => true
  | .mul _ _ _ => true
  | .mulh _ _ _ => true
  | .mulhz _ _ _ => true
  | .div _ _ _ => true
  | .divz _ _ _ => true
  | .rem _ _ _ => true
  | .remz _ _ _ => true
  | .and _ _ _ => true
  | .or _ _ _ => true
  | .xor _ _ _ => true
  | .andn _ _ _ => true
  | .shl _ _ _ => true
  | .shr _ _ _ => true
  | .sar _ _ _ => true
  | .rol _ _ _ => true
  | .min _ _ _ => true
  | .max _ _ _ => true
  | .minz _ _ _ => true
  | .maxz _ _ _ => true
  | .clz _ _ => true
  | .ctz _ _ => true
  | .popc _ _ => true
  | .extB _ _ => true
  | .extH _ _ => true
  | .extW _ _ => true
  | .extzB _ _ => true
  | .extzH _ _ => true
  | .extzW _ _ => true
  | .mov _ _ => true
  | .addi _ _ _ _ => true
  | .muli _ _ _ _ => true
  | .andi _ _ _ _ => true
  | .ori _ _ _ _ => true
  | .xori _ _ _ _ => true
  | .shli _ _ _ => true
  | .shri _ _ _ => true
  | .sari _ _ _ => true
  | .movi _ _ _ => true
  | .movh _ _ => true
  | .cmpEq _ _ _ => true
  | .cmpNe _ _ _ => true
  | .cmpLt _ _ _ => true
  | .cmpLe _ _ _ => true
  | .cmpLo _ _ _ => true
  | .cmpLs _ _ _ => true
  | .cmpiEq _ _ _ _ => true
  | .cmpiNe _ _ _ _ => true
  | .cmpiLt _ _ _ _ => true
  | .cmpiLe _ _ _ _ => true
  | .cmpiLo _ _ _ _ => true
  | .cmpiLs _ _ _ _ => true
  | .pand _ _ _ => true
  | .por _ _ _ => true
  | .pxor _ _ _ => true
  | .pandn _ _ _ => true
  | .pnot _ _ => true
  | .sel _ _ _ _ => true
  | .ldB _ _ _ _ => true
  | .ldH _ _ _ _ => true
  | .ldW _ _ _ _ => true
  | .ldD _ _ _ _ => true
  | .ldzB _ _ _ _ => true
  | .ldzH _ _ _ _ => true
  | .ldzW _ _ _ _ => true
  | .stB _ _ _ _ _ => true
  | .stH _ _ _ _ _ => true
  | .stW _ _ _ _ _ => true
  | .stD _ _ _ _ _ => true
  | .br _ _ _ => true
  | .call _ _ _ => true
  | .jmp _ _ => true
  | .jcall _ _ => true
  | .lvl _ _ _ f => f.toNat ≤ 5
  | .loop _ => true
  | .loopSp _ _ => true
  | .crr _ _ => true
  | .crw _ _ => true
  | .trap _ => true
  | .tret => true
  | .tend => true
  | .ldgB _ _ _ x => wfLd x
  | .ldgH _ _ _ x => wfLd x
  | .ldgW _ _ _ x => wfLd x
  | .ldgD _ _ _ x => wfLd x
  | .ldgzB _ _ _ x => wfLd x
  | .ldgzH _ _ _ x => wfLd x
  | .ldgzW _ _ _ x => wfLd x
  | .stgB _ _ _ _ x => wfSt x
  | .stgH _ _ _ _ x => wfSt x
  | .stgW _ _ _ _ x => wfSt x
  | .stgD _ _ _ _ x => wfSt x
  | .ldgV _ _ _ x => wfLd x
  | .stgV _ _ _ _ x => wfSt x
  | .xst _ _ _ _ => true
  | .aadd _ _ _ _ _ x => wfSemScope x.sem x.scope
  | .asub _ _ _ _ _ x => wfSemScope x.sem x.scope
  | .aand _ _ _ _ _ x => wfSemScope x.sem x.scope
  | .aor _ _ _ _ _ x => wfSemScope x.sem x.scope
  | .axor _ _ _ _ _ x => wfSemScope x.sem x.scope
  | .amin _ _ _ _ _ x => wfSemScope x.sem x.scope
  | .amax _ _ _ _ _ x => wfSemScope x.sem x.scope
  | .aminz _ _ _ _ _ x => wfSemScope x.sem x.scope
  | .amaxz _ _ _ _ _ x => wfSemScope x.sem x.scope
  | .aswp _ _ _ _ _ x => wfSemScope x.sem x.scope
  | .acas _ _ _ _ _ x => wfSemScope x.sem x.scope
  | .afadd _ _ _ _ z x => wfSemScope x.sem x.scope && z == 0
  | .trans _ _ => true
  | .transAr _ _ => true
  | .hstat _ _ => true
  | .inv _ _ => true
  | .invAll => true
  | .fenceCm s _ => wfScope s
  | .fenceSc => true
  | .gbar => true
  | .phase p => p.toNat ≤ 4
  | .tlwait s _ _ => wfScope s
  | .tlinc _ _ => true
  | .tlrd _ _ => true
  | .tlmwait s _ _ _ => wfScope s
  | .tlmsig s _ _ _ => wfScope s
  | .tbinit _ _ _ => true
  | .tbarr _ _ => true
  | .tbwait s _ _ => wfScope s
  | .vadd _ _ _ r t => wfT t && wfRnd r
  | .vsub _ _ _ r t => wfT t && wfRnd r
  | .vmul _ _ _ r t => wfT t && wfRnd r
  | .vdiv _ _ _ r t => wfT t && wfRnd r
  | .vmin _ _ _ r t => wfT t && wfRnd r
  | .vmax _ _ _ r t => wfT t && wfRnd r
  | .viadd _ _ _ r t => wfT t && wfRnd r
  | .vimul _ _ _ r t => wfT t && wfRnd r
  | .vimax _ _ _ r t => wfT t && wfRnd r
  | .vimin _ _ _ r t => wfT t && wfRnd r
  | .vand _ _ _ t => wfTInt t
  | .vor _ _ _ t => wfTInt t
  | .vxor _ _ _ t => wfTInt t
  | .vshl _ _ _ t => wfTInt t
  | .vshr _ _ _ t => wfTInt t
  | .vsar _ _ _ t => wfTInt t
  | .vcmpEq _ _ _ t => wfT t
  | .vcmpNe _ _ _ t => wfT t
  | .vcmpLt _ _ _ t => wfT t
  | .vcmpLe _ _ _ t => wfT t
  | .vcmpGt _ _ _ t => wfT t
  | .vcmpGe _ _ _ t => wfT t
  | .vsel _ _ _ _ => true
  | .vselm _ _ _ _ => true
  | .visab _ _ t => wfT t
  | .vispr _ _ t => wfT t
  | .vfill _ _ _ t => wfT t
  | .vneg _ _ r t => wfT t && wfRnd r
  | .vmag _ _ r t => wfT t && wfRnd r
  | .vexp _ _ r t => wfTFloat t && wfRnd r
  | .vlog _ _ r t => wfTFloat t && wfRnd r
  | .vrcp _ _ r t => wfTFloat t && wfRnd r
  | .vsqrt _ _ r t => wfTFloat t && wfRnd r
  | .vrsqrt _ _ r t => wfTFloat t && wfRnd r
  | .vtanh _ _ r t => wfTFloat t && wfRnd r
  | .vsigm _ _ r t => wfTFloat t && wfRnd r
  | .vgelu _ _ r t => wfTFloat t && wfRnd r
  | .vfma _ _ _ r t _ => wfT t && wfRnd r
  | .vfms _ _ _ r t _ => wfT t && wfRnd r
  | .vfnma _ _ _ r t _ => wfT t && wfRnd r
  | .vredSum _ _ _ t => wfT t
  | .vredMax _ _ _ t => wfT t
  | .vredMin _ _ _ t => wfT t
  | .vredMean _ _ _ t => wfT t
  | .vredCount _ _ _ t => wfT t
  | .vcvt _ _ u t _ => wfT t && wfT u
  | .vtrn _ _ => true
  | .vperm _ _ _ => true
  | .vbrow _ _ _ => true
  | .vbcs _ _ t => wfT t
  | .vmov _ _ => true
  | .vext _ _ _ t => wfT t
  | .vins _ _ _ t => wfT t
  | .vtmask _ _ => true
  | .vld _ _ _ _ => true
  | .vst _ _ _ _ _ => true
  | .vldc _ _ _ x => wfT x.t
  | .vstc _ _ _ _ x => wfT x.t
  | .mldb _ _ => true
  | .mldbt _ _ => true
  | .mma _ _ _ => true
  | .mmaC _ _ _ => true
  | .mdrnRaw _ _ _ _ _ => true
  | .mdrnRawa _ _ _ _ _ => true
  | .mdrnMean _ _ _ _ _ => true
  | .mdrnCount _ _ _ _ _ => true
  | .mclr _ => true
  | .sclA _ _ => true
  | .sclB _ _ => true
  | .sclrA => true
  | .sclrB => true
  | .cpy _ _ n x => wfInc n x
  | .cpyaw _ _ _ n x => wfInc n x
  | .cpymc _ _ n x => wfInc n x
  | .cpyrm _ _ n x => wfInc n x
  | .rmapost _ _ _ n x => wfInc n x
  | .sopen _ _ => true
  | .spush _ _ _ => true
  | .spop _ _ => true
  | .sclose _ => true
  | .sstat _ _ => true
  | .ckopen _ _ => true
  | .ckhold _ _ => true
  | .cksend _ _ _ _ n x => wfInc n x
  | .ckclose _ => true
  | .ckstat _ _ => true
  | .kvcommit _ _ _ _ n x => wfInc n x
  | .launch _ _ => true
  | .coldBoot => true
  | .warmReset => true
  | .bootImageReadResponse => true
  | .t2size => true
  | .t2waitExpiry => true
  | .authenticationTimeout => true
  | .powerSample => true
  | .thermalTrip => true
  | .pkgPowerWrite => true
  | .registerWrite => true
  | .cicadaTick => true
  | .periodicDrain => true
  | .sluiceDecay => true
  | .packetRoute => true
  | .readRequest => true
  | .readResponse => true
  | .write => true
  | .writeAcknowledgement => true
  | .atomicRequest => true
  | .atomicResponse => true
  | .engineData => true
  | .pathMarker => true
  | .markerAcknowledgement => true
  | .reorderTimeout => true
  | .requestTimeout => true
  | .linkReplay => true
  | .linkRetrainEnd => true
  | .homeSliceFill => true
  | .probeAcknowledgement => true
  | .probeRefusal => true
  | .circuitBeat => true
  | .collapseNotice => true
  | .resumePointReport => true
  | .resumeReportTimeout => true
  | .leaseExpiry => true
  | .sendAcknowledgement => true
  | .grainReservation => true
  | .circuitSetupRequest => true
  | .sailBoundary => true
  | .grain => true
  | .grainDelivery => true
  | .relaySpaceReport => true
  | .podNextHop => true
  | .podAccessAdmission => true
  | .sack => true
  | .podResendTimeout => true
  | .remoteAccessTimeout => true
  | .flushingReadResponse => true
  | .registrationStateWrite => true
  | .rmaTailWrite => true
  | .rmaEnableWrite => true
  | .rmaErrstopWrite => true
  | .rmaNop => true
  | .rmaPut => true
  | .rmaGet => true
  | .rmaWait => true
  | .rmaDescriptorRetire => true
  | .hostMemoryAccess => true
  | .queueTlWrite => true
  | .queueEnableWrite => true
  | .queueStopWrite => true
  | .queueEntryTake => true
  | .recordFetch => true
  | .recordStart => true
  | .gangNode => true
  | .gangStart => true
  | .gangRestore => true
  | .copyNode => true
  | .collectiveNode => true
  | .circuitOpenNode => true
  | .signalNode => true
  | .subgraphNode => true
  | .joinNode => true
  | .waitNode => true
  | .recordRetirement => true
  | .create => true
  | .destroy => true
  | .swapout => true
  | .swapin => true
  | .fence => true
  | .fwupd => true
  | .retire => true
  | .mailboxUnlistedCommand => true
  | .swapoutSaveEnd => true
  | .swapinRestoreEnd => true
  | .fwupdEnd => true
  | .coreRepair => true
  | .memoryDieFailure => true
  | .partRsWrite => true
  | .priorityChange => true
  | .invalidationRequest => true
  | .invalidationMarking => true
  | .invalidationConfirmation => true
  | .walkNotice => true
  | .placementEvaluation => true
  | .plcRetHeadWrite => true
  | .plcLostHeadWrite => true
  | .resultWrite => true
  | .trapEntry => true
  | .wdog => true
  | .bundleHoldRelease => true
  | .phaseDrainEnd => true
  | .mmaRowWrite => true
  | .scaleLatchLanding => true
  | .copyCommandStart => true
  | .copyStageStart => true
  | .copyCommandCompletion => true
  | .circuitPortCommandStart => true
  | .streamUnitCommandStart => true
  | .rmapostCommandStart => true
  | .launchCommandStart => true
  | .streamOpenCheck => true
  | .sampleFlit => true
  | .streamSampleApplication => true
  | .creditFlit => true
  | .detachFlit => true
  | .attachFlit => true
  | .closeFlit => true
  | .breakFlit => true
  | .streamLossTimeout => true
  | .gangBarrierCompletion => true
  | .gangBarrierRelease => true
  | .rejectedStoreReport => true
  | .blackBoxEntryRead => true
  | .c0ServiceFailure => true

end Sys2Proof
end

