-- ==== Sys2Proof/Decode.lean ====
section
/-!
DEFINITION. The decoder: from the words of a bundle to instructions, or to the fate that R329 gives them; and after it
the encoder, written from the same tables (R318, R320, R323, R324-R328).
-/

namespace Sys2Proof

/-- Bits lo+n-1 : lo of a word. -/
def fld (w : BitVec 32) (lo n : Nat) : BitVec n := w.extractLsb' lo n

/-- Bits lo+n-1 : lo of an X payload. -/
def pfld (p : BitVec 28) (lo n : Nat) : BitVec n := p.extractLsb' lo n

/-- Why a head is not an instruction: `ien r` is R329's reason r, `iil` an unassigned opcode or an unlisted value. -/
inductive DecErr where
  | ien (r : Nat)
  | iil
deriving DecidableEq, Repr

abbrev Dec := Except DecErr Instr

/-- Fields that R320 requires to be zero: reason 5 when one is not (R329). -/
def chk (c : Bool) (r : Dec) : Dec := if c then r else .error (.ien 5)

/-- A head whose format admits no X (R323): reason 3 when it has one. -/
def noX (x : Option (BitVec 28)) (r : Dec) : Dec :=
  match x with
  | none => r
  | some _ => .error (.ien 3)

/-- A head with an optional X: its payload is read by `f`, and reason 5 is a payload bit that must be zero. -/
def optX {α : Type} (x : Option (BitVec 28)) (f : BitVec 28 → Option α) (k : Option α → Dec) : Dec :=
  match x with
  | none => k none
  | some p =>
    match f p with
    | some a => k (some a)
    | none => .error (.ien 5)

/-- A head that requires its X: reason 3 when it is missing. -/
def reqX {α : Type} (x : Option (BitVec 28)) (f : BitVec 28 → Option α) (k : α → Dec) : Dec :=
  match x with
  | none => .error (.ien 3)
  | some p =>
    match f p with
    | some a => k a
    | none => .error (.ien 5)

/-! Payloads of X words (R323). -/

def decImm (p : BitVec 28) : Option (BitVec 28) := some p
def encImm (v : BitVec 28) : BitVec 28 := v

def decLd (p : BitVec 28) : Option WgLd :=
  if pfld p 27 1 = 0 then
    some { oc := pfld p 0 4, mmh := pfld p 4 1 == 1, sem := pfld p 5 2, scope := pfld p 7 3, off := pfld p 10 17 }
  else none
def encLd (e : WgLd) : BitVec 28 := 0#1 ++ e.off ++ e.scope ++ e.sem ++ (if e.mmh then 1#1 else 0#1) ++ e.oc

def decSt (p : BitVec 28) : Option WgSt :=
  if pfld p 27 1 = 0 ∧ pfld p 4 1 = 0 then
    some { oc := pfld p 0 4, sem := pfld p 5 2, scope := pfld p 7 3, off := pfld p 10 17 }
  else none
def encSt (e : WgSt) : BitVec 28 := 0#1 ++ e.off ++ e.scope ++ e.sem ++ 0#1 ++ e.oc

def decAt (p : BitVec 28) : Option AtExt :=
  if pfld p 20 8 = 0 ∧ pfld p 10 5 = 0 ∧ pfld p 4 1 = 0 then
    some { oc := pfld p 0 4, sem := pfld p 5 2, scope := pfld p 7 3, g := pfld p 15 5 }
  else none
def encAt (e : AtExt) : BitVec 28 := 0#8 ++ e.g ++ 0#5 ++ e.scope ++ e.sem ++ 0#1 ++ e.oc

def decCas (p : BitVec 28) : Option CasExt :=
  if pfld p 20 8 = 0 ∧ pfld p 4 1 = 0 then
    some { oc := pfld p 0 4, sem := pfld p 5 2, scope := pfld p 7 3, c := pfld p 10 5, g := pfld p 15 5 }
  else none
def encCas (e : CasExt) : BitVec 28 := 0#8 ++ e.g ++ e.c ++ e.scope ++ e.sem ++ 0#1 ++ e.oc

def decC5 (p : BitVec 28) : Option (BitVec 5) := if pfld p 5 23 = 0 then some (pfld p 0 5) else none
def encC5 (c : BitVec 5) : BitVec 28 := 0#23 ++ c

def decOff (p : BitVec 28) : Option (BitVec 18) := if pfld p 18 10 = 0 then some (pfld p 0 18) else none
def encOff (v : BitVec 18) : BitVec 28 := 0#10 ++ v

def decCvt (p : BitVec 28) : Option CvtExt :=
  if pfld p 10 18 = 0 ∧ pfld p 0 3 = 0 then some { rnd := pfld p 3 2, salt := pfld p 5 5 } else none
def encCvt (e : CvtExt) : BitVec 28 := 0#18 ++ e.salt ++ e.rnd ++ 0#3

def decVldc (p : BitVec 28) : Option VldcExt :=
  if pfld p 10 18 = 0 then some { t := pfld p 0 3, rnd := pfld p 3 2, salt := pfld p 5 5 } else none
def encVldc (e : VldcExt) : BitVec 28 := 0#18 ++ e.salt ++ e.rnd ++ e.t

def decVstc (p : BitVec 28) : Option VstcExt :=
  if pfld p 15 13 = 0 then some { t := pfld p 0 3, rnd := pfld p 3 2, salt := pfld p 5 5, kb := pfld p 10 5 } else none
def encVstc (e : VstcExt) : BitVec 28 := 0#13 ++ e.kb ++ e.salt ++ e.rnd ++ e.t

def decInc (p : BitVec 28) : Option (BitVec 16) := if pfld p 16 12 = 0 then some (pfld p 0 16) else none
def encInc (v : BitVec 16) : BitVec 28 := 0#12 ++ v

/-- Class S (R324). -/
def decodeS (op : Nat) (w : BitVec 32) (x : Option (BitVec 28)) : Dec :=
  match op with
  | 0x00 => noX x (chk (decide (fld w 0 21 = 0)) (.ok .nop))
  | 0x01 => noX x (chk (decide (fld w 0 6 = 0)) (.ok (.add (fld w 16 5) (fld w 11 5) (fld w 6 5))))
  | 0x02 => noX x (chk (decide (fld w 0 6 = 0)) (.ok (.sub (fld w 16 5) (fld w 11 5) (fld w 6 5))))
  | 0x03 => noX x (chk (decide (fld w 0 6 = 0)) (.ok (.mul (fld w 16 5) (fld w 11 5) (fld w 6 5))))
  | 0x04 => noX x (chk (decide (fld w 0 6 = 0)) (.ok (.mulh (fld w 16 5) (fld w 11 5) (fld w 6 5))))
  | 0x05 => noX x (chk (decide (fld w 0 6 = 0)) (.ok (.mulhz (fld w 16 5) (fld w 11 5) (fld w 6 5))))
  | 0x06 => noX x (chk (decide (fld w 0 6 = 0)) (.ok (.div (fld w 16 5) (fld w 11 5) (fld w 6 5))))
  | 0x07 => noX x (chk (decide (fld w 0 6 = 0)) (.ok (.divz (fld w 16 5) (fld w 11 5) (fld w 6 5))))
  | 0x08 => noX x (chk (decide (fld w 0 6 = 0)) (.ok (.rem (fld w 16 5) (fld w 11 5) (fld w 6 5))))
  | 0x09 => noX x (chk (decide (fld w 0 6 = 0)) (.ok (.remz (fld w 16 5) (fld w 11 5) (fld w 6 5))))
  | 0x0A => noX x (chk (decide (fld w 0 6 = 0)) (.ok (.and (fld w 16 5) (fld w 11 5) (fld w 6 5))))
  | 0x0B => noX x (chk (decide (fld w 0 6 = 0)) (.ok (.or (fld w 16 5) (fld w 11 5) (fld w 6 5))))
  | 0x0C => noX x (chk (decide (fld w 0 6 = 0)) (.ok (.xor (fld w 16 5) (fld w 11 5) (fld w 6 5))))
  | 0x0D => noX x (chk (decide (fld w 0 6 = 0)) (.ok (.andn (fld w 16 5) (fld w 11 5) (fld w 6 5))))
  | 0x0E => noX x (chk (decide (fld w 0 6 = 0)) (.ok (.shl (fld w 16 5) (fld w 11 5) (fld w 6 5))))
  | 0x0F => noX x (chk (decide (fld w 0 6 = 0)) (.ok (.shr (fld w 16 5) (fld w 11 5) (fld w 6 5))))
  | 0x10 => noX x (chk (decide (fld w 0 6 = 0)) (.ok (.sar (fld w 16 5) (fld w 11 5) (fld w 6 5))))
  | 0x11 => noX x (chk (decide (fld w 0 6 = 0)) (.ok (.rol (fld w 16 5) (fld w 11 5) (fld w 6 5))))
  | 0x12 => noX x (chk (decide (fld w 0 6 = 0)) (.ok (.min (fld w 16 5) (fld w 11 5) (fld w 6 5))))
  | 0x13 => noX x (chk (decide (fld w 0 6 = 0)) (.ok (.max (fld w 16 5) (fld w 11 5) (fld w 6 5))))
  | 0x14 => noX x (chk (decide (fld w 0 6 = 0)) (.ok (.minz (fld w 16 5) (fld w 11 5) (fld w 6 5))))
  | 0x15 => noX x (chk (decide (fld w 0 6 = 0)) (.ok (.maxz (fld w 16 5) (fld w 11 5) (fld w 6 5))))
  | 0x16 => noX x (chk (decide (fld w 6 5 = 0) && decide (fld w 0 6 = 0)) (.ok (.clz (fld w 16 5) (fld w 11 5))))
  | 0x17 => noX x (chk (decide (fld w 6 5 = 0) && decide (fld w 0 6 = 0)) (.ok (.ctz (fld w 16 5) (fld w 11 5))))
  | 0x18 => noX x (chk (decide (fld w 6 5 = 0) && decide (fld w 0 6 = 0)) (.ok (.popc (fld w 16 5) (fld w 11 5))))
  | 0x19 => noX x (chk (decide (fld w 6 5 = 0)) ((match (fld w 0 6).toNat with | 0 => .ok (.extB (fld w 16 5) (fld w 11 5)) | 1 => .ok (.extH (fld w 16 5) (fld w 11 5)) | 2 => .ok (.extW (fld w 16 5) (fld w 11 5)) | _ => .error .iil)))
  | 0x1A => noX x (chk (decide (fld w 6 5 = 0)) ((match (fld w 0 6).toNat with | 0 => .ok (.extzB (fld w 16 5) (fld w 11 5)) | 1 => .ok (.extzH (fld w 16 5) (fld w 11 5)) | 2 => .ok (.extzW (fld w 16 5) (fld w 11 5)) | _ => .error .iil)))
  | 0x1B => noX x (chk (decide (fld w 6 5 = 0) && decide (fld w 0 6 = 0)) (.ok (.mov (fld w 16 5) (fld w 11 5))))
  | 0x20 => optX x decImm fun xv => .ok (.addi (fld w 16 5) (fld w 11 5) (fld w 0 11) xv)
  | 0x21 => optX x decImm fun xv => .ok (.muli (fld w 16 5) (fld w 11 5) (fld w 0 11) xv)
  | 0x22 => optX x decImm fun xv => .ok (.andi (fld w 16 5) (fld w 11 5) (fld w 0 11) xv)
  | 0x23 => optX x decImm fun xv => .ok (.ori (fld w 16 5) (fld w 11 5) (fld w 0 11) xv)
  | 0x24 => optX x decImm fun xv => .ok (.xori (fld w 16 5) (fld w 11 5) (fld w 0 11) xv)
  | 0x25 => noX x (chk (decide (fld w 6 5 = 0)) (.ok (.shli (fld w 16 5) (fld w 11 5) (fld w 0 6))))
  | 0x26 => noX x (chk (decide (fld w 6 5 = 0)) (.ok (.shri (fld w 16 5) (fld w 11 5) (fld w 0 6))))
  | 0x27 => noX x (chk (decide (fld w 6 5 = 0)) (.ok (.sari (fld w 16 5) (fld w 11 5) (fld w 0 6))))
  | 0x28 => optX x decImm fun xv => .ok (.movi (fld w 16 5) (fld w 0 16) xv)
  | 0x29 => noX x (.ok (.movh (fld w 16 5) (fld w 0 16)))
  | 0x30 => noX x (chk (decide (fld w 20 1 = 0)) ((match (fld w 0 6).toNat with | 0 => .ok (.cmpEq (fld w 16 4) (fld w 11 5) (fld w 6 5)) | 1 => .ok (.cmpNe (fld w 16 4) (fld w 11 5) (fld w 6 5)) | 2 => .ok (.cmpLt (fld w 16 4) (fld w 11 5) (fld w 6 5)) | 3 => .ok (.cmpLe (fld w 16 4) (fld w 11 5) (fld w 6 5)) | 4 => .ok (.cmpLo (fld w 16 4) (fld w 11 5) (fld w 6 5)) | 5 => .ok (.cmpLs (fld w 16 4) (fld w 11 5) (fld w 6 5)) | _ => .error .iil)))
  | 0x31 => optX x decImm fun xv => chk (decide (fld w 20 1 = 0)) (.ok (.cmpiEq (fld w 16 4) (fld w 11 5) (fld w 0 11) xv))
  | 0x32 => optX x decImm fun xv => chk (decide (fld w 20 1 = 0)) (.ok (.cmpiNe (fld w 16 4) (fld w 11 5) (fld w 0 11) xv))
  | 0x33 => optX x decImm fun xv => chk (decide (fld w 20 1 = 0)) (.ok (.cmpiLt (fld w 16 4) (fld w 11 5) (fld w 0 11) xv))
  | 0x34 => optX x decImm fun xv => chk (decide (fld w 20 1 = 0)) (.ok (.cmpiLe (fld w 16 4) (fld w 11 5) (fld w 0 11) xv))
  | 0x35 => optX x decImm fun xv => chk (decide (fld w 20 1 = 0)) (.ok (.cmpiLo (fld w 16 4) (fld w 11 5) (fld w 0 11) xv))
  | 0x36 => optX x decImm fun xv => chk (decide (fld w 20 1 = 0)) (.ok (.cmpiLs (fld w 16 4) (fld w 11 5) (fld w 0 11) xv))
  | 0x38 => noX x (chk (decide (fld w 20 1 = 0) && decide (fld w 15 1 = 0) && decide (fld w 10 1 = 0) && decide (fld w 0 6 = 0)) (.ok (.pand (fld w 16 4) (fld w 11 4) (fld w 6 4))))
  | 0x39 => noX x (chk (decide (fld w 20 1 = 0) && decide (fld w 15 1 = 0) && decide (fld w 10 1 = 0) && decide (fld w 0 6 = 0)) (.ok (.por (fld w 16 4) (fld w 11 4) (fld w 6 4))))
  | 0x3A => noX x (chk (decide (fld w 20 1 = 0) && decide (fld w 15 1 = 0) && decide (fld w 10 1 = 0) && decide (fld w 0 6 = 0)) (.ok (.pxor (fld w 16 4) (fld w 11 4) (fld w 6 4))))
  | 0x3B => noX x (chk (decide (fld w 20 1 = 0) && decide (fld w 15 1 = 0) && decide (fld w 10 1 = 0) && decide (fld w 0 6 = 0)) (.ok (.pandn (fld w 16 4) (fld w 11 4) (fld w 6 4))))
  | 0x3C => noX x (chk (decide (fld w 20 1 = 0) && decide (fld w 15 1 = 0) && decide (fld w 6 5 = 0) && decide (fld w 0 6 = 0)) (.ok (.pnot (fld w 16 4) (fld w 11 4))))
  | 0x3D => noX x (chk (decide (fld w 5 1 = 0)) (.ok (.sel (fld w 16 5) (fld w 11 5) (fld w 6 5) (fld w 0 5))))
  | 0x40 => optX x decImm fun xv => chk (decide (fld w 6 5 = 0)) (.ok (.ldB (fld w 16 5) (fld w 11 5) (fld w 0 6) xv))
  | 0x41 => optX x decImm fun xv => chk (decide (fld w 6 5 = 0)) (.ok (.ldH (fld w 16 5) (fld w 11 5) (fld w 0 6) xv))
  | 0x42 => optX x decImm fun xv => chk (decide (fld w 6 5 = 0)) (.ok (.ldW (fld w 16 5) (fld w 11 5) (fld w 0 6) xv))
  | 0x43 => optX x decImm fun xv => chk (decide (fld w 6 5 = 0)) (.ok (.ldD (fld w 16 5) (fld w 11 5) (fld w 0 6) xv))
  | 0x44 => optX x decImm fun xv => chk (decide (fld w 6 5 = 0)) (.ok (.ldzB (fld w 16 5) (fld w 11 5) (fld w 0 6) xv))
  | 0x45 => optX x decImm fun xv => chk (decide (fld w 6 5 = 0)) (.ok (.ldzH (fld w 16 5) (fld w 11 5) (fld w 0 6) xv))
  | 0x46 => optX x decImm fun xv => chk (decide (fld w 6 5 = 0)) (.ok (.ldzW (fld w 16 5) (fld w 11 5) (fld w 0 6) xv))
  | 0x48 => optX x decImm fun xv => .ok (.stB (fld w 16 5) (fld w 11 5) (fld w 6 5) (fld w 0 6) xv)
  | 0x49 => optX x decImm fun xv => .ok (.stH (fld w 16 5) (fld w 11 5) (fld w 6 5) (fld w 0 6) xv)
  | 0x4A => optX x decImm fun xv => .ok (.stW (fld w 16 5) (fld w 11 5) (fld w 6 5) (fld w 0 6) xv)
  | 0x4B => optX x decImm fun xv => .ok (.stD (fld w 16 5) (fld w 11 5) (fld w 6 5) (fld w 0 6) xv)
  | 0x50 => optX x decImm fun xv => .ok (.br (fld w 16 5) (fld w 0 16) xv)
  | 0x51 => optX x decImm fun xv => .ok (.call (fld w 16 5) (fld w 0 16) xv)
  | 0x52 => noX x (chk (decide (fld w 0 11 = 0)) (.ok (.jmp (fld w 16 5) (fld w 11 5))))
  | 0x53 => noX x (chk (decide (fld w 0 11 = 0)) (.ok (.jcall (fld w 16 5) (fld w 11 5))))
  | 0x58 => noX x (.ok (.lvl (fld w 16 5) (fld w 11 5) (fld w 6 5) (fld w 0 6)))
  | 0x59 => noX x (chk (decide (fld w 16 5 = 0) && decide (fld w 12 4 = 0) && decide (fld w 8 4 = 0) && decide (fld w 6 2 = 0)) (.ok (.loop (fld w 0 6))))
  | 0x5A => noX x (chk (decide (fld w 16 5 = 0) && decide (fld w 12 4 = 0) && decide (fld w 6 2 = 0)) (.ok (.loopSp (fld w 8 4) (fld w 0 6))))
  | 0x60 => noX x (chk (decide (fld w 12 4 = 0)) (.ok (.crr (fld w 16 5) (fld w 0 12))))
  | 0x61 => noX x (chk (decide (fld w 12 4 = 0)) (.ok (.crw (fld w 16 5) (fld w 0 12))))
  | 0x62 => noX x (chk (decide (fld w 16 5 = 0) && decide (fld w 8 8 = 0)) (.ok (.trap (fld w 0 8))))
  | 0x63 => noX x (chk (decide (fld w 0 21 = 0)) (.ok .tret))
  | 0x64 => noX x (chk (decide (fld w 0 21 = 0)) (.ok .tend))
  | _ => .error .iil

/-- Class W (R325). -/
def decodeW (op : Nat) (w : BitVec 32) (x : Option (BitVec 28)) : Dec :=
  match op with
  | 0x00 => optX x decLd fun xv => chk (decide (fld w 6 5 = 0) && decide (fld w 0 2 = 0)) (.ok (.ldgB (fld w 16 5) (fld w 11 5) (fld w 2 4) xv))
  | 0x01 => optX x decLd fun xv => chk (decide (fld w 6 5 = 0) && decide (fld w 0 2 = 0)) (.ok (.ldgH (fld w 16 5) (fld w 11 5) (fld w 2 4) xv))
  | 0x02 => optX x decLd fun xv => chk (decide (fld w 6 5 = 0) && decide (fld w 0 2 = 0)) (.ok (.ldgW (fld w 16 5) (fld w 11 5) (fld w 2 4) xv))
  | 0x03 => optX x decLd fun xv => chk (decide (fld w 6 5 = 0) && decide (fld w 0 2 = 0)) (.ok (.ldgD (fld w 16 5) (fld w 11 5) (fld w 2 4) xv))
  | 0x04 => optX x decLd fun xv => chk (decide (fld w 6 5 = 0) && decide (fld w 0 2 = 0)) (.ok (.ldgzB (fld w 16 5) (fld w 11 5) (fld w 2 4) xv))
  | 0x05 => optX x decLd fun xv => chk (decide (fld w 6 5 = 0) && decide (fld w 0 2 = 0)) (.ok (.ldgzH (fld w 16 5) (fld w 11 5) (fld w 2 4) xv))
  | 0x06 => optX x decLd fun xv => chk (decide (fld w 6 5 = 0) && decide (fld w 0 2 = 0)) (.ok (.ldgzW (fld w 16 5) (fld w 11 5) (fld w 2 4) xv))
  | 0x08 => optX x decSt fun xv => chk (decide (fld w 0 2 = 0)) (.ok (.stgB (fld w 16 5) (fld w 11 5) (fld w 6 5) (fld w 2 4) xv))
  | 0x09 => optX x decSt fun xv => chk (decide (fld w 0 2 = 0)) (.ok (.stgH (fld w 16 5) (fld w 11 5) (fld w 6 5) (fld w 2 4) xv))
  | 0x0A => optX x decSt fun xv => chk (decide (fld w 0 2 = 0)) (.ok (.stgW (fld w 16 5) (fld w 11 5) (fld w 6 5) (fld w 2 4) xv))
  | 0x0B => optX x decSt fun xv => chk (decide (fld w 0 2 = 0)) (.ok (.stgD (fld w 16 5) (fld w 11 5) (fld w 6 5) (fld w 2 4) xv))
  | 0x0C => optX x decLd fun xv => chk (decide (fld w 6 5 = 0) && decide (fld w 0 2 = 0)) (.ok (.ldgV (fld w 16 5) (fld w 11 5) (fld w 2 4) xv))
  | 0x0D => optX x decSt fun xv => chk (decide (fld w 0 2 = 0)) (.ok (.stgV (fld w 16 5) (fld w 11 5) (fld w 6 5) (fld w 2 4) xv))
  | 0x0E => reqX x decC5 fun xv => chk (decide (fld w 2 4 = 0) && decide (fld w 0 2 = 0)) (.ok (.xst (fld w 16 5) (fld w 11 5) (fld w 6 5) xv))
  | 0x10 => reqX x decAt fun xv => chk (decide (fld w 1 1 = 0)) (.ok (.aadd (fld w 16 5) (fld w 11 5) (fld w 6 5) (fld w 2 4) (fld w 0 1) xv))
  | 0x11 => reqX x decAt fun xv => chk (decide (fld w 1 1 = 0)) (.ok (.asub (fld w 16 5) (fld w 11 5) (fld w 6 5) (fld w 2 4) (fld w 0 1) xv))
  | 0x12 => reqX x decAt fun xv => chk (decide (fld w 1 1 = 0)) (.ok (.aand (fld w 16 5) (fld w 11 5) (fld w 6 5) (fld w 2 4) (fld w 0 1) xv))
  | 0x13 => reqX x decAt fun xv => chk (decide (fld w 1 1 = 0)) (.ok (.aor (fld w 16 5) (fld w 11 5) (fld w 6 5) (fld w 2 4) (fld w 0 1) xv))
  | 0x14 => reqX x decAt fun xv => chk (decide (fld w 1 1 = 0)) (.ok (.axor (fld w 16 5) (fld w 11 5) (fld w 6 5) (fld w 2 4) (fld w 0 1) xv))
  | 0x15 => reqX x decAt fun xv => chk (decide (fld w 1 1 = 0)) (.ok (.amin (fld w 16 5) (fld w 11 5) (fld w 6 5) (fld w 2 4) (fld w 0 1) xv))
  | 0x16 => reqX x decAt fun xv => chk (decide (fld w 1 1 = 0)) (.ok (.amax (fld w 16 5) (fld w 11 5) (fld w 6 5) (fld w 2 4) (fld w 0 1) xv))
  | 0x17 => reqX x decAt fun xv => chk (decide (fld w 1 1 = 0)) (.ok (.aminz (fld w 16 5) (fld w 11 5) (fld w 6 5) (fld w 2 4) (fld w 0 1) xv))
  | 0x18 => reqX x decAt fun xv => chk (decide (fld w 1 1 = 0)) (.ok (.amaxz (fld w 16 5) (fld w 11 5) (fld w 6 5) (fld w 2 4) (fld w 0 1) xv))
  | 0x19 => reqX x decAt fun xv => chk (decide (fld w 1 1 = 0)) (.ok (.aswp (fld w 16 5) (fld w 11 5) (fld w 6 5) (fld w 2 4) (fld w 0 1) xv))
  | 0x1A => reqX x decCas fun xv => chk (decide (fld w 1 1 = 0)) (.ok (.acas (fld w 16 5) (fld w 11 5) (fld w 6 5) (fld w 2 4) (fld w 0 1) xv))
  | 0x1B => reqX x decAt fun xv => chk (decide (fld w 1 1 = 0)) (.ok (.afadd (fld w 16 5) (fld w 11 5) (fld w 6 5) (fld w 2 4) (fld w 0 1) xv))
  | 0x20 => noX x (chk (decide (fld w 20 1 = 0) && decide (fld w 6 5 = 0) && decide (fld w 1 5 = 0)) ((match (fld w 0 1).toNat with | 0 => .ok (.trans (fld w 16 4) (fld w 11 5)) | _ => .ok (.transAr (fld w 16 4) (fld w 11 5)))))
  | 0x21 => noX x (chk (decide (fld w 15 1 = 0) && decide (fld w 6 5 = 0) && decide (fld w 0 6 = 0)) (.ok (.hstat (fld w 16 5) (fld w 11 4))))
  | 0x22 => noX x (chk (decide (fld w 16 5 = 0) && decide (fld w 1 5 = 0)) ((match (fld w 0 1).toNat with | 0 => .ok (.inv (fld w 11 5) (fld w 6 5)) | _ => chk (decide (fld w 11 5 = 0) && decide (fld w 6 5 = 0)) (.ok .invAll))))
  | 0x28 => noX x (chk (decide (fld w 19 2 = 0)) (.ok (.fenceCm (fld w 16 3) (fld w 0 16))))
  | 0x29 => noX x (chk (decide (fld w 19 2 = 0) && decide (fld w 0 16 = 0)) (if fld w 16 3 = 0 then .ok .fenceSc else .error .iil))
  | 0x2A => noX x (chk (decide (fld w 0 21 = 0)) (.ok .gbar))
  | 0x2B => noX x (chk (decide (fld w 19 2 = 0) && decide (fld w 16 3 = 0) && decide (fld w 3 13 = 0)) (.ok (.phase (fld w 0 3))))
  | 0x30 => noX x (chk (decide (fld w 16 2 = 0) && decide (fld w 14 2 = 0) && decide (fld w 0 6 = 0)) (.ok (.tlwait (fld w 18 3) (fld w 11 3) (fld w 6 5))))
  | 0x31 => noX x (chk (decide (fld w 16 5 = 0) && decide (fld w 14 2 = 0) && decide (fld w 0 6 = 0)) (.ok (.tlinc (fld w 11 3) (fld w 6 5))))
  | 0x32 => noX x (chk (decide (fld w 14 2 = 0) && decide (fld w 6 5 = 0) && decide (fld w 0 6 = 0)) (.ok (.tlrd (fld w 16 5) (fld w 11 3))))
  | 0x33 => noX x (chk (decide (fld w 16 2 = 0) && decide (fld w 0 2 = 0)) (.ok (.tlmwait (fld w 18 3) (fld w 11 5) (fld w 6 5) (fld w 2 4))))
  | 0x34 => noX x (chk (decide (fld w 16 2 = 0) && decide (fld w 0 2 = 0)) (.ok (.tlmsig (fld w 18 3) (fld w 11 5) (fld w 6 5) (fld w 2 4))))
  | 0x38 => noX x (chk (decide (fld w 0 6 = 0)) (.ok (.tbinit (fld w 16 5) (fld w 11 5) (fld w 6 5))))
  | 0x39 => noX x (chk (decide (fld w 16 5 = 0) && decide (fld w 0 6 = 0)) (.ok (.tbarr (fld w 11 5) (fld w 6 5))))
  | 0x3A => noX x (chk (decide (fld w 16 2 = 0) && decide (fld w 0 6 = 0)) (.ok (.tbwait (fld w 18 3) (fld w 11 5) (fld w 6 5))))
  | _ => .error .iil

/-- Class V (R326). -/
def decodeV (op : Nat) (w : BitVec 32) (x : Option (BitVec 28)) : Dec :=
  match op with
  | 0x00 => noX x (.ok (.vadd (fld w 16 5) (fld w 11 5) (fld w 6 5) (fld w 3 3) (fld w 0 3)))
  | 0x01 => noX x (.ok (.vsub (fld w 16 5) (fld w 11 5) (fld w 6 5) (fld w 3 3) (fld w 0 3)))
  | 0x02 => noX x (.ok (.vmul (fld w 16 5) (fld w 11 5) (fld w 6 5) (fld w 3 3) (fld w 0 3)))
  | 0x03 => noX x (.ok (.vdiv (fld w 16 5) (fld w 11 5) (fld w 6 5) (fld w 3 3) (fld w 0 3)))
  | 0x04 => noX x (.ok (.vmin (fld w 16 5) (fld w 11 5) (fld w 6 5) (fld w 3 3) (fld w 0 3)))
  | 0x05 => noX x (.ok (.vmax (fld w 16 5) (fld w 11 5) (fld w 6 5) (fld w 3 3) (fld w 0 3)))
  | 0x06 => noX x (.ok (.viadd (fld w 16 5) (fld w 11 5) (fld w 6 5) (fld w 3 3) (fld w 0 3)))
  | 0x07 => noX x (.ok (.vimul (fld w 16 5) (fld w 11 5) (fld w 6 5) (fld w 3 3) (fld w 0 3)))
  | 0x08 => noX x (.ok (.vimax (fld w 16 5) (fld w 11 5) (fld w 6 5) (fld w 3 3) (fld w 0 3)))
  | 0x09 => noX x (.ok (.vimin (fld w 16 5) (fld w 11 5) (fld w 6 5) (fld w 3 3) (fld w 0 3)))
  | 0x0A => noX x (if fld w 3 3 = 0 then .ok (.vand (fld w 16 5) (fld w 11 5) (fld w 6 5) (fld w 0 3)) else .error .iil)
  | 0x0B => noX x (if fld w 3 3 = 0 then .ok (.vor (fld w 16 5) (fld w 11 5) (fld w 6 5) (fld w 0 3)) else .error .iil)
  | 0x0C => noX x (if fld w 3 3 = 0 then .ok (.vxor (fld w 16 5) (fld w 11 5) (fld w 6 5) (fld w 0 3)) else .error .iil)
  | 0x0D => noX x (if fld w 3 3 = 0 then .ok (.vshl (fld w 16 5) (fld w 11 5) (fld w 6 5) (fld w 0 3)) else .error .iil)
  | 0x0E => noX x (if fld w 3 3 = 0 then .ok (.vshr (fld w 16 5) (fld w 11 5) (fld w 6 5) (fld w 0 3)) else .error .iil)
  | 0x0F => noX x (if fld w 3 3 = 0 then .ok (.vsar (fld w 16 5) (fld w 11 5) (fld w 6 5) (fld w 0 3)) else .error .iil)
  | 0x10 => noX x ((match (fld w 3 3).toNat with | 0 => .ok (.vcmpEq (fld w 16 5) (fld w 11 5) (fld w 6 5) (fld w 0 3)) | 1 => .ok (.vcmpNe (fld w 16 5) (fld w 11 5) (fld w 6 5) (fld w 0 3)) | 2 => .ok (.vcmpLt (fld w 16 5) (fld w 11 5) (fld w 6 5) (fld w 0 3)) | 3 => .ok (.vcmpLe (fld w 16 5) (fld w 11 5) (fld w 6 5) (fld w 0 3)) | 4 => .ok (.vcmpGt (fld w 16 5) (fld w 11 5) (fld w 6 5) (fld w 0 3)) | 5 => .ok (.vcmpGe (fld w 16 5) (fld w 11 5) (fld w 6 5) (fld w 0 3)) | _ => .error .iil))
  | 0x11 => noX x (chk (decide (fld w 5 1 = 0)) (.ok (.vsel (fld w 16 5) (fld w 11 5) (fld w 6 5) (fld w 0 5))))
  | 0x12 => reqX x decC5 fun xv => chk (decide (fld w 0 6 = 0)) (.ok (.vselm (fld w 16 5) (fld w 11 5) (fld w 6 5) xv))
  | 0x13 => noX x (chk (decide (fld w 6 5 = 0)) (if fld w 3 3 = 0 then .ok (.visab (fld w 16 5) (fld w 11 5) (fld w 0 3)) else .error .iil))
  | 0x14 => noX x (chk (decide (fld w 6 5 = 0)) (if fld w 3 3 = 0 then .ok (.vispr (fld w 16 5) (fld w 11 5) (fld w 0 3)) else .error .iil))
  | 0x15 => noX x (if fld w 3 3 = 0 then .ok (.vfill (fld w 16 5) (fld w 11 5) (fld w 6 5) (fld w 0 3)) else .error .iil)
  | 0x16 => noX x (chk (decide (fld w 6 5 = 0)) (.ok (.vneg (fld w 16 5) (fld w 11 5) (fld w 3 3) (fld w 0 3))))
  | 0x17 => noX x (chk (decide (fld w 6 5 = 0)) (.ok (.vmag (fld w 16 5) (fld w 11 5) (fld w 3 3) (fld w 0 3))))
  | 0x18 => noX x (chk (decide (fld w 6 5 = 0)) (.ok (.vexp (fld w 16 5) (fld w 11 5) (fld w 3 3) (fld w 0 3))))
  | 0x19 => noX x (chk (decide (fld w 6 5 = 0)) (.ok (.vlog (fld w 16 5) (fld w 11 5) (fld w 3 3) (fld w 0 3))))
  | 0x1A => noX x (chk (decide (fld w 6 5 = 0)) (.ok (.vrcp (fld w 16 5) (fld w 11 5) (fld w 3 3) (fld w 0 3))))
  | 0x1B => noX x (chk (decide (fld w 6 5 = 0)) (.ok (.vsqrt (fld w 16 5) (fld w 11 5) (fld w 3 3) (fld w 0 3))))
  | 0x1C => noX x (chk (decide (fld w 6 5 = 0)) (.ok (.vrsqrt (fld w 16 5) (fld w 11 5) (fld w 3 3) (fld w 0 3))))
  | 0x1D => noX x (chk (decide (fld w 6 5 = 0)) (.ok (.vtanh (fld w 16 5) (fld w 11 5) (fld w 3 3) (fld w 0 3))))
  | 0x1E => noX x (chk (decide (fld w 6 5 = 0)) (.ok (.vsigm (fld w 16 5) (fld w 11 5) (fld w 3 3) (fld w 0 3))))
  | 0x1F => noX x (chk (decide (fld w 6 5 = 0)) (.ok (.vgelu (fld w 16 5) (fld w 11 5) (fld w 3 3) (fld w 0 3))))
  | 0x20 => reqX x decC5 fun xv => .ok (.vfma (fld w 16 5) (fld w 11 5) (fld w 6 5) (fld w 3 3) (fld w 0 3) xv)
  | 0x21 => reqX x decC5 fun xv => .ok (.vfms (fld w 16 5) (fld w 11 5) (fld w 6 5) (fld w 3 3) (fld w 0 3) xv)
  | 0x22 => reqX x decC5 fun xv => .ok (.vfnma (fld w 16 5) (fld w 11 5) (fld w 6 5) (fld w 3 3) (fld w 0 3) xv)
  | 0x28 => noX x (chk (decide (fld w 7 4 = 0)) ((match (fld w 3 3).toNat with | 0 => .ok (.vredSum (fld w 16 5) (fld w 11 5) (fld w 6 1) (fld w 0 3)) | 1 => .ok (.vredMax (fld w 16 5) (fld w 11 5) (fld w 6 1) (fld w 0 3)) | 2 => .ok (.vredMin (fld w 16 5) (fld w 11 5) (fld w 6 1) (fld w 0 3)) | 3 => .ok (.vredMean (fld w 16 5) (fld w 11 5) (fld w 6 1) (fld w 0 3)) | 4 => .ok (.vredCount (fld w 16 5) (fld w 11 5) (fld w 6 1) (fld w 0 3)) | _ => .error .iil)))
  | 0x2A => optX x decCvt fun xv => chk (decide (fld w 6 5 = 0)) (.ok (.vcvt (fld w 16 5) (fld w 11 5) (fld w 3 3) (fld w 0 3) xv))
  | 0x30 => noX x (chk (decide (fld w 6 5 = 0) && decide (fld w 0 6 = 0)) (.ok (.vtrn (fld w 16 5) (fld w 11 5))))
  | 0x31 => noX x (chk (decide (fld w 0 6 = 0)) (.ok (.vperm (fld w 16 5) (fld w 11 5) (fld w 6 5))))
  | 0x32 => noX x (chk (decide (fld w 6 5 = 0)) (.ok (.vbrow (fld w 16 5) (fld w 11 5) (fld w 0 6))))
  | 0x33 => noX x (chk (decide (fld w 6 5 = 0)) (if fld w 3 3 = 0 then .ok (.vbcs (fld w 16 5) (fld w 11 5) (fld w 0 3)) else .error .iil))
  | 0x34 => noX x (chk (decide (fld w 6 5 = 0) && decide (fld w 0 6 = 0)) (.ok (.vmov (fld w 16 5) (fld w 11 5))))
  | 0x35 => noX x (if fld w 3 3 = 0 then .ok (.vext (fld w 16 5) (fld w 11 5) (fld w 6 5) (fld w 0 3)) else .error .iil)
  | 0x36 => noX x (if fld w 3 3 = 0 then .ok (.vins (fld w 16 5) (fld w 11 5) (fld w 6 5) (fld w 0 3)) else .error .iil)
  | 0x38 => noX x (chk (decide (fld w 6 5 = 0) && decide (fld w 0 6 = 0)) (.ok (.vtmask (fld w 16 5) (fld w 11 5))))
  | 0x3C => optX x decOff fun xv => chk (decide (fld w 6 5 = 0) && decide (fld w 0 2 = 0)) (.ok (.vld (fld w 16 5) (fld w 11 5) (fld w 2 4) xv))
  | 0x3D => optX x decOff fun xv => chk (decide (fld w 0 2 = 0)) (.ok (.vst (fld w 16 5) (fld w 11 5) (fld w 6 5) (fld w 2 4) xv))
  | 0x3E => reqX x decVldc fun xv => chk (decide (fld w 6 5 = 0) && decide (fld w 0 2 = 0)) (.ok (.vldc (fld w 16 5) (fld w 11 5) (fld w 2 4) xv))
  | 0x3F => reqX x decVstc fun xv => chk (decide (fld w 0 2 = 0)) (.ok (.vstc (fld w 16 5) (fld w 11 5) (fld w 6 5) (fld w 2 4) xv))
  | _ => .error .iil

/-- Class M (R327). -/
def decodeM (op : Nat) (w : BitVec 32) (x : Option (BitVec 28)) : Dec :=
  match op with
  | 0x01 => noX x (chk (decide (fld w 16 5 = 0) && decide (fld w 0 7 = 0)) (.ok (.mldb (fld w 11 5) (fld w 7 4))))
  | 0x02 => noX x (chk (decide (fld w 16 5 = 0) && decide (fld w 0 7 = 0)) (.ok (.mldbt (fld w 11 5) (fld w 7 4))))
  | 0x08 => noX x (chk (decide (fld w 19 2 = 0) && decide (fld w 0 6 = 0)) ((match (fld w 6 1).toNat with | 0 => .ok (.mma (fld w 16 3) (fld w 11 5) (fld w 7 4)) | _ => .ok (.mmaC (fld w 16 3) (fld w 11 5) (fld w 7 4)))))
  | 0x10 => optX x decC5 fun xv => chk (decide (fld w 19 2 = 0) && decide (fld w 0 2 = 0)) ((match (fld w 4 3).toNat with | 0 => .ok (.mdrnRaw (fld w 16 3) (fld w 11 5) (fld w 7 4) (fld w 2 2) xv) | 1 => .ok (.mdrnRawa (fld w 16 3) (fld w 11 5) (fld w 7 4) (fld w 2 2) xv) | 2 => .ok (.mdrnMean (fld w 16 3) (fld w 11 5) (fld w 7 4) (fld w 2 2) xv) | 3 => .ok (.mdrnCount (fld w 16 3) (fld w 11 5) (fld w 7 4) (fld w 2 2) xv) | _ => .error .iil))
  | 0x11 => noX x (chk (decide (fld w 19 2 = 0) && decide (fld w 0 16 = 0)) (.ok (.mclr (fld w 16 3))))
  | _ => .error .iil

/-- Class K (R327). -/
def decodeK (op : Nat) (w : BitVec 32) (x : Option (BitVec 28)) : Dec :=
  match op with
  | 0x01 => noX x (chk (decide (fld w 16 5 = 0) && decide (fld w 0 6 = 0)) ((match (fld w 6 1).toNat with | 0 => .ok (.sclA (fld w 11 5) (fld w 7 4)) | _ => .ok (.sclB (fld w 11 5) (fld w 7 4)))))
  | 0x02 => noX x (chk (decide (fld w 16 5 = 0) && decide (fld w 11 5 = 0) && decide (fld w 7 4 = 0) && decide (fld w 0 6 = 0)) ((match (fld w 6 1).toNat with | 0 => .ok .sclrA | _ => .ok .sclrB)))
  | _ => .error .iil

/-- Class C (R328). -/
def decodeC (op : Nat) (w : BitVec 32) (x : Option (BitVec 28)) : Dec :=
  match op with
  | 0x00 => if fld w 2 1 = 0 then noX x (let xv : Option (BitVec 16) := none; chk (decide (fld w 16 5 = 0) && decide (fld w 6 5 = 0) && decide (fld w 0 2 = 0)) (.ok (.cpy (fld w 11 5) (fld w 3 3) (fld w 2 1) xv))) else optX x decInc fun xv => chk (decide (fld w 16 5 = 0) && decide (fld w 6 5 = 0) && decide (fld w 0 2 = 0)) (.ok (.cpy (fld w 11 5) (fld w 3 3) (fld w 2 1) xv))
  | 0x01 => if fld w 2 1 = 0 then noX x (let xv : Option (BitVec 16) := none; chk (decide (fld w 19 2 = 0) && decide (fld w 6 5 = 0) && decide (fld w 0 2 = 0)) (.ok (.cpyaw (fld w 16 3) (fld w 11 5) (fld w 3 3) (fld w 2 1) xv))) else optX x decInc fun xv => chk (decide (fld w 19 2 = 0) && decide (fld w 6 5 = 0) && decide (fld w 0 2 = 0)) (.ok (.cpyaw (fld w 16 3) (fld w 11 5) (fld w 3 3) (fld w 2 1) xv))
  | 0x02 => if fld w 2 1 = 0 then noX x (let xv : Option (BitVec 16) := none; chk (decide (fld w 16 5 = 0) && decide (fld w 6 5 = 0) && decide (fld w 0 2 = 0)) (.ok (.cpymc (fld w 11 5) (fld w 3 3) (fld w 2 1) xv))) else optX x decInc fun xv => chk (decide (fld w 16 5 = 0) && decide (fld w 6 5 = 0) && decide (fld w 0 2 = 0)) (.ok (.cpymc (fld w 11 5) (fld w 3 3) (fld w 2 1) xv))
  | 0x03 => if fld w 2 1 = 0 then noX x (let xv : Option (BitVec 16) := none; chk (decide (fld w 16 5 = 0) && decide (fld w 6 5 = 0) && decide (fld w 0 2 = 0)) (.ok (.cpyrm (fld w 11 5) (fld w 3 3) (fld w 2 1) xv))) else optX x decInc fun xv => chk (decide (fld w 16 5 = 0) && decide (fld w 6 5 = 0) && decide (fld w 0 2 = 0)) (.ok (.cpyrm (fld w 11 5) (fld w 3 3) (fld w 2 1) xv))
  | 0x04 => if fld w 2 1 = 0 then noX x (let xv : Option (BitVec 16) := none; chk (decide (fld w 16 5 = 0) && decide (fld w 0 2 = 0)) (.ok (.rmapost (fld w 11 5) (fld w 6 5) (fld w 3 3) (fld w 2 1) xv))) else optX x decInc fun xv => chk (decide (fld w 16 5 = 0) && decide (fld w 0 2 = 0)) (.ok (.rmapost (fld w 11 5) (fld w 6 5) (fld w 3 3) (fld w 2 1) xv))
  | 0x08 => noX x (chk (decide (fld w 19 2 = 0) && decide (fld w 0 11 = 0)) (.ok (.sopen (fld w 16 3) (fld w 11 5))))
  | 0x09 => noX x (chk (decide (fld w 14 2 = 0) && decide (fld w 0 6 = 0)) (.ok (.spush (fld w 16 5) (fld w 11 3) (fld w 6 5))))
  | 0x0A => noX x (chk (decide (fld w 14 2 = 0) && decide (fld w 0 11 = 0)) (.ok (.spop (fld w 16 5) (fld w 11 3))))
  | 0x0B => noX x (chk (decide (fld w 16 5 = 0) && decide (fld w 14 2 = 0) && decide (fld w 0 11 = 0)) (.ok (.sclose (fld w 11 3))))
  | 0x0C => noX x (chk (decide (fld w 14 2 = 0) && decide (fld w 0 11 = 0)) (.ok (.sstat (fld w 16 5) (fld w 11 3))))
  | 0x10 => noX x (chk (decide (fld w 19 2 = 0) && decide (fld w 0 11 = 0)) (.ok (.ckopen (fld w 16 3) (fld w 11 5))))
  | 0x11 => noX x (chk (decide (fld w 16 5 = 0) && decide (fld w 14 2 = 0) && decide (fld w 0 6 = 0)) (.ok (.ckhold (fld w 11 3) (fld w 6 5))))
  | 0x12 => if fld w 2 1 = 0 then noX x (let xv : Option (BitVec 16) := none; chk (decide (fld w 14 2 = 0) && decide (fld w 0 2 = 0)) (.ok (.cksend (fld w 16 5) (fld w 11 3) (fld w 6 5) (fld w 3 3) (fld w 2 1) xv))) else optX x decInc fun xv => chk (decide (fld w 14 2 = 0) && decide (fld w 0 2 = 0)) (.ok (.cksend (fld w 16 5) (fld w 11 3) (fld w 6 5) (fld w 3 3) (fld w 2 1) xv))
  | 0x13 => noX x (chk (decide (fld w 16 5 = 0) && decide (fld w 14 2 = 0) && decide (fld w 0 11 = 0)) (.ok (.ckclose (fld w 11 3))))
  | 0x14 => noX x (chk (decide (fld w 14 2 = 0) && decide (fld w 0 11 = 0)) (.ok (.ckstat (fld w 16 5) (fld w 11 3))))
  | 0x18 => if fld w 2 1 = 0 then noX x (let xv : Option (BitVec 16) := none; chk (decide (fld w 0 2 = 0)) (.ok (.kvcommit (fld w 16 5) (fld w 11 5) (fld w 6 5) (fld w 3 3) (fld w 2 1) xv))) else optX x decInc fun xv => chk (decide (fld w 0 2 = 0)) (.ok (.kvcommit (fld w 16 5) (fld w 11 5) (fld w 6 5) (fld w 3 3) (fld w 2 1) xv))
  | 0x19 => noX x (chk (decide (fld w 16 5 = 0) && decide (fld w 0 6 = 0)) (.ok (.launch (fld w 11 5) (fld w 6 5))))
  | _ => .error .iil

/-- The opcode is assigned in its class (R324-R328). -/
def assigned (cls op : Nat) : Bool :=
  match cls with
  | 0 => [0x00, 0x01, 0x02, 0x03, 0x04, 0x05, 0x06, 0x07, 0x08, 0x09, 0x0A, 0x0B, 0x0C, 0x0D, 0x0E, 0x0F, 0x10, 0x11, 0x12, 0x13, 0x14, 0x15, 0x16, 0x17, 0x18, 0x19, 0x1A, 0x1B, 0x20, 0x21, 0x22, 0x23, 0x24, 0x25, 0x26, 0x27, 0x28, 0x29, 0x30, 0x31, 0x32, 0x33, 0x34, 0x35, 0x36, 0x38, 0x39, 0x3A, 0x3B, 0x3C, 0x3D, 0x40, 0x41, 0x42, 0x43, 0x44, 0x45, 0x46, 0x48, 0x49, 0x4A, 0x4B, 0x50, 0x51, 0x52, 0x53, 0x58, 0x59, 0x5A, 0x60, 0x61, 0x62, 0x63, 0x64].contains op
  | 1 => [0x00, 0x01, 0x02, 0x03, 0x04, 0x05, 0x06, 0x08, 0x09, 0x0A, 0x0B, 0x0C, 0x0D, 0x0E, 0x10, 0x11, 0x12, 0x13, 0x14, 0x15, 0x16, 0x17, 0x18, 0x19, 0x1A, 0x1B, 0x20, 0x21, 0x22, 0x28, 0x29, 0x2A, 0x2B, 0x30, 0x31, 0x32, 0x33, 0x34, 0x38, 0x39, 0x3A].contains op
  | 2 => [0x00, 0x01, 0x02, 0x03, 0x04, 0x05, 0x06, 0x07, 0x08, 0x09, 0x0A, 0x0B, 0x0C, 0x0D, 0x0E, 0x0F, 0x10, 0x11, 0x12, 0x13, 0x14, 0x15, 0x16, 0x17, 0x18, 0x19, 0x1A, 0x1B, 0x1C, 0x1D, 0x1E, 0x1F, 0x20, 0x21, 0x22, 0x28, 0x2A, 0x30, 0x31, 0x32, 0x33, 0x34, 0x35, 0x36, 0x38, 0x3C, 0x3D, 0x3E, 0x3F].contains op
  | 3 => [0x01, 0x02, 0x08, 0x10, 0x11].contains op
  | 4 => [0x01, 0x02].contains op
  | 5 => [0x00, 0x01, 0x02, 0x03, 0x04, 0x08, 0x09, 0x0A, 0x0B, 0x0C, 0x10, 0x11, 0x12, 0x13, 0x14, 0x18, 0x19].contains op
  | _ => false

/-- A head word and its X payload, read by class and opcode (R318); E is not looked at. -/
def decodeHead (w : BitVec 32) (x : Option (BitVec 28)) : Dec :=
  let op := (fld w 21 7).toNat
  match (fld w 28 3).toNat with
  | 0 => decodeS op w x
  | 1 => decodeW op w x
  | 2 => decodeV op w x
  | 3 => decodeM op w x
  | 4 => decodeK op w x
  | 5 => decodeC op w x
  | 6 => .error (.ien 3)
  | _ => .error (.ien 1)

/-- A head as R329 judges it alone: a listed instruction, or its reason. -/
def decodeInstr (w : BitVec 32) (x : Option (BitVec 28)) : Dec :=
  match decodeHead w x with
  | .ok i => if i.wf then .ok i else .error .iil
  | .error e => .error e

/-! Register names for R330: file * 32 + number, the files s, p, v, h, k, q, tl, a numbered 0 to 7. -/

def nS (r : BitVec 5) : List Nat := if r = 0 then [] else [r.toNat]
def nP (r : BitVec 4) : List Nat := if r = 0 then [] else [32 + r.toNat]
def nG (g : BitVec 5) : List Nat := nP (g.extractLsb' 0 4)
def nV (r : BitVec 5) : List Nat := [64 + r.toNat]
def nH (r : BitVec 4) : List Nat := [96 + r.toNat]
def nK (r : BitVec 3) : List Nat := [128 + r.toNat]
def nQ (r : BitVec 3) : List Nat := [160 + r.toNat]
def nTl (r : BitVec 3) : List Nat := [192 + r.toNat]
def nA (r : BitVec 3) : List Nat := [224 + r.toNat]

/-- Registers that a head reads and writes, as R330 counts them.  The fields are read by the opcode's format, whatever
its variant fields hold. -/
def regUses (cls op : Nat) (w : BitVec 32) (x : Option (BitVec 28)) : List Nat × List Nat :=
  let D := nS (fld w 16 5)
  let A := nS (fld w 11 5)
  let B := nS (fld w 6 5)
  let G := nG (fld w 16 5)
  let vD := nV (fld w 16 5)
  let vA := nV (fld w 11 5)
  let vB := nV (fld w 6 5)
  let pD := nP (fld w 16 4)
  let pA := nP (fld w 11 4)
  let pB := nP (fld w 6 4)
  let H := nH (fld w 2 4)
  let xs := fun (lo : Nat) => match x with
    | none => []
    | some p => nS (pfld p lo 5)
  let xv := match x with
    | none => []
    | some p => nV (pfld p 0 5)
  let xg := match x with
    | none => []
    | some p => nG (pfld p 15 5)
  let tl := if fld w 2 1 = 1 then nTl (fld w 3 3) else []
  match cls, op with
  | 0, 0x00 => ([], [])
  | 0, 0x59 => ([], [])
  | 0, 0x5A => ([], [])
  | 0, 0x62 => ([], [])
  | 0, 0x63 => ([], [])
  | 0, 0x64 => ([], [])
  | 0, 0x01 => (A ++ B, D)
  | 0, 0x02 => (A ++ B, D)
  | 0, 0x03 => (A ++ B, D)
  | 0, 0x04 => (A ++ B, D)
  | 0, 0x05 => (A ++ B, D)
  | 0, 0x06 => (A ++ B, D)
  | 0, 0x07 => (A ++ B, D)
  | 0, 0x08 => (A ++ B, D)
  | 0, 0x09 => (A ++ B, D)
  | 0, 0x0A => (A ++ B, D)
  | 0, 0x0B => (A ++ B, D)
  | 0, 0x0C => (A ++ B, D)
  | 0, 0x0D => (A ++ B, D)
  | 0, 0x0E => (A ++ B, D)
  | 0, 0x0F => (A ++ B, D)
  | 0, 0x10 => (A ++ B, D)
  | 0, 0x11 => (A ++ B, D)
  | 0, 0x12 => (A ++ B, D)
  | 0, 0x13 => (A ++ B, D)
  | 0, 0x14 => (A ++ B, D)
  | 0, 0x15 => (A ++ B, D)
  | 0, 0x16 => (A, D)
  | 0, 0x17 => (A, D)
  | 0, 0x18 => (A, D)
  | 0, 0x19 => (A, D)
  | 0, 0x1A => (A, D)
  | 0, 0x1B => (A, D)
  | 0, 0x20 => (A, D)
  | 0, 0x21 => (A, D)
  | 0, 0x22 => (A, D)
  | 0, 0x23 => (A, D)
  | 0, 0x24 => (A, D)
  | 0, 0x25 => (A, D)
  | 0, 0x26 => (A, D)
  | 0, 0x27 => (A, D)
  | 0, 0x28 => ([], D)
  | 0, 0x29 => (D, D)
  | 0, 0x30 => (A ++ B, pD)
  | 0, 0x31 => (A, pD)
  | 0, 0x32 => (A, pD)
  | 0, 0x33 => (A, pD)
  | 0, 0x34 => (A, pD)
  | 0, 0x35 => (A, pD)
  | 0, 0x36 => (A, pD)
  | 0, 0x38 => (pA ++ pB, pD)
  | 0, 0x39 => (pA ++ pB, pD)
  | 0, 0x3A => (pA ++ pB, pD)
  | 0, 0x3B => (pA ++ pB, pD)
  | 0, 0x3C => (pA, pD)
  | 0, 0x3D => (A ++ B ++ nG (fld w 0 5), D)
  | 0, 0x40 => (A, D)
  | 0, 0x41 => (A, D)
  | 0, 0x42 => (A, D)
  | 0, 0x43 => (A, D)
  | 0, 0x44 => (A, D)
  | 0, 0x45 => (A, D)
  | 0, 0x46 => (A, D)
  | 0, 0x48 => (A ++ B ++ G, [])
  | 0, 0x49 => (A ++ B ++ G, [])
  | 0, 0x4A => (A ++ B ++ G, [])
  | 0, 0x4B => (A ++ B ++ G, [])
  | 0, 0x50 => (G, [])
  | 0, 0x51 => ([], D)
  | 0, 0x52 => (A ++ G, [])
  | 0, 0x53 => (A, D)
  | 0, 0x58 => (A ++ B, D)
  | 0, 0x60 => ([], D)
  | 0, 0x61 => (D, D)
  | 1, 0x00 => (A ++ H, D)
  | 1, 0x01 => (A ++ H, D)
  | 1, 0x02 => (A ++ H, D)
  | 1, 0x03 => (A ++ H, D)
  | 1, 0x04 => (A ++ H, D)
  | 1, 0x05 => (A ++ H, D)
  | 1, 0x06 => (A ++ H, D)
  | 1, 0x08 => (A ++ B ++ G ++ H, [])
  | 1, 0x09 => (A ++ B ++ G ++ H, [])
  | 1, 0x0A => (A ++ B ++ G ++ H, [])
  | 1, 0x0B => (A ++ B ++ G ++ H, [])
  | 1, 0x0C => (A ++ H, vD)
  | 1, 0x0D => (A ++ vB ++ G ++ H, [])
  | 1, 0x0E => (A ++ B ++ G ++ xs 0, [])
  | 1, 0x10 => (A ++ B ++ H ++ xs 10 ++ xg, D)
  | 1, 0x11 => (A ++ B ++ H ++ xs 10 ++ xg, D)
  | 1, 0x12 => (A ++ B ++ H ++ xs 10 ++ xg, D)
  | 1, 0x13 => (A ++ B ++ H ++ xs 10 ++ xg, D)
  | 1, 0x14 => (A ++ B ++ H ++ xs 10 ++ xg, D)
  | 1, 0x15 => (A ++ B ++ H ++ xs 10 ++ xg, D)
  | 1, 0x16 => (A ++ B ++ H ++ xs 10 ++ xg, D)
  | 1, 0x17 => (A ++ B ++ H ++ xs 10 ++ xg, D)
  | 1, 0x18 => (A ++ B ++ H ++ xs 10 ++ xg, D)
  | 1, 0x19 => (A ++ B ++ H ++ xs 10 ++ xg, D)
  | 1, 0x1A => (A ++ B ++ H ++ xs 10 ++ xg, D)
  | 1, 0x1B => (A ++ B ++ H ++ xs 10 ++ xg, D)
  | 1, 0x20 => (A, nH (fld w 16 4))
  | 1, 0x21 => (nH (fld w 11 4), D)
  | 1, 0x22 => (A ++ B, [])
  | 1, 0x28 => ([], [])
  | 1, 0x29 => ([], [])
  | 1, 0x2A => ([], [])
  | 1, 0x2B => ([], [])
  | 1, 0x30 => (B ++ nTl (fld w 11 3), nTl (fld w 11 3))
  | 1, 0x31 => (B ++ nTl (fld w 11 3), nTl (fld w 11 3))
  | 1, 0x32 => (nTl (fld w 11 3), D ++ nTl (fld w 11 3))
  | 1, 0x33 => (A ++ B ++ H, [])
  | 1, 0x34 => (A ++ B ++ H, [])
  | 1, 0x38 => (A ++ B ++ D, [])
  | 1, 0x39 => (A ++ B, [])
  | 1, 0x3A => (A ++ B, [])
  | 2, 0x00 => (vA ++ vB, vD)
  | 2, 0x01 => (vA ++ vB, vD)
  | 2, 0x02 => (vA ++ vB, vD)
  | 2, 0x03 => (vA ++ vB, vD)
  | 2, 0x04 => (vA ++ vB, vD)
  | 2, 0x05 => (vA ++ vB, vD)
  | 2, 0x06 => (vA ++ vB, vD)
  | 2, 0x07 => (vA ++ vB, vD)
  | 2, 0x08 => (vA ++ vB, vD)
  | 2, 0x09 => (vA ++ vB, vD)
  | 2, 0x0A => (vA ++ vB, vD)
  | 2, 0x0B => (vA ++ vB, vD)
  | 2, 0x0C => (vA ++ vB, vD)
  | 2, 0x0D => (vA ++ vB, vD)
  | 2, 0x0E => (vA ++ vB, vD)
  | 2, 0x0F => (vA ++ vB, vD)
  | 2, 0x10 => (vA ++ vB, vD)
  | 2, 0x11 => (vA ++ vB ++ nG (fld w 0 5), vD)
  | 2, 0x12 => (vA ++ vB ++ xv, vD)
  | 2, 0x13 => (vA, vD)
  | 2, 0x14 => (vA, vD)
  | 2, 0x16 => (vA, vD)
  | 2, 0x17 => (vA, vD)
  | 2, 0x18 => (vA, vD)
  | 2, 0x19 => (vA, vD)
  | 2, 0x1A => (vA, vD)
  | 2, 0x1B => (vA, vD)
  | 2, 0x1C => (vA, vD)
  | 2, 0x1D => (vA, vD)
  | 2, 0x1E => (vA, vD)
  | 2, 0x1F => (vA, vD)
  | 2, 0x28 => (vA, vD)
  | 2, 0x30 => (vA, vD)
  | 2, 0x32 => (vA, vD)
  | 2, 0x34 => (vA, vD)
  | 2, 0x38 => (vA, vD)
  | 2, 0x15 => (vA ++ vB, vD)
  | 2, 0x31 => (vA ++ vB, vD)
  | 2, 0x20 => (vA ++ vB ++ xv, vD)
  | 2, 0x21 => (vA ++ vB ++ xv, vD)
  | 2, 0x22 => (vA ++ vB ++ xv, vD)
  | 2, 0x2A => (vA ++ xs 5, vD)
  | 2, 0x33 => (A, vD)
  | 2, 0x35 => (vA ++ B, D)
  | 2, 0x36 => (A ++ B ++ vD, vD)
  | 2, 0x3C => (A, vD)
  | 2, 0x3D => (A ++ vB ++ G, [])
  | 2, 0x3E => (A ++ xs 5, vD)
  | 2, 0x3F => (A ++ vB ++ G ++ xs 5 ++ xs 10, [])
  | 3, 0x01 => (A, [])
  | 3, 0x02 => (A, [])
  | 3, 0x08 => (vA, nA (fld w 16 3))
  | 3, 0x10 => (A ++ xs 0 ++ nA (fld w 16 3), [])
  | 3, 0x11 => ([], nA (fld w 16 3))
  | 4, 0x01 => (A, [])
  | 4, 0x02 => ([], [])
  | 5, 0x00 => (A ++ tl, tl)
  | 5, 0x02 => (A ++ tl, tl)
  | 5, 0x03 => (A ++ tl, tl)
  | 5, 0x01 => (A ++ tl, nA (fld w 16 3) ++ tl)
  | 5, 0x04 => (A ++ B ++ tl, tl)
  | 5, 0x08 => (A ++ nQ (fld w 16 3), nQ (fld w 16 3))
  | 5, 0x09 => (B ++ nQ (fld w 11 3), D ++ nQ (fld w 11 3))
  | 5, 0x0A => (nQ (fld w 11 3), D ++ nQ (fld w 11 3))
  | 5, 0x0C => (nQ (fld w 11 3), D ++ nQ (fld w 11 3))
  | 5, 0x0B => (nQ (fld w 11 3), nQ (fld w 11 3))
  | 5, 0x10 => (A ++ nK (fld w 16 3), nK (fld w 16 3))
  | 5, 0x11 => (B ++ nK (fld w 11 3), nK (fld w 11 3))
  | 5, 0x12 => (B ++ D ++ nK (fld w 11 3) ++ tl, nK (fld w 11 3) ++ tl)
  | 5, 0x13 => (nK (fld w 11 3), nK (fld w 11 3))
  | 5, 0x14 => (nK (fld w 11 3), D ++ nK (fld w 11 3))
  | 5, 0x18 => (A ++ B ++ tl, D ++ tl)
  | 5, 0x19 => (A ++ B, [])
  | _, _ => ([], [])

/-! Bundles (R317-R319, R329, R330). -/

/-- A head word of a bundle with the payload of the X word that stands directly after it. -/
structure Head where
  w : BitVec 32
  x : Option (BitVec 28)
deriving DecidableEq, Repr

def Head.cls (h : Head) : Nat := (fld h.w 28 3).toNat
def Head.op (h : Head) : Nat := (fld h.w 21 7).toNat
def Head.assigned (h : Head) : Bool := Sys2Proof.assigned h.cls h.op
def Head.words (h : Head) : Nat := if h.x.isSome then 2 else 1

/-- The words of a bundle: up to and including the first with E = 1, of the first eight (R317). -/
def bundleWords : Nat → List (BitVec 32) → List (BitVec 32)
  | 0, _ => []
  | _, [] => []
  | n + 1, w :: ws => if fld w 31 1 = 1 then [w] else w :: bundleWords n ws

/-- The heads of a bundle, and whether some X stands first or after another X (R319). -/
def groupHeads : List (BitVec 32) → List Head × Bool
  | [] => ([], false)
  | [w] => if (fld w 28 3).toNat = 6 then ([], true) else ([⟨w, none⟩], false)
  | w :: v :: ws =>
    if (fld w 28 3).toNat = 6 then
      let r := groupHeads (v :: ws)
      (r.1, true)
    else if (fld v 28 3).toNat = 6 then
      let r := groupHeads ws
      (⟨w, some (fld v 0 28)⟩ :: r.1, r.2)
    else
      let r := groupHeads (v :: ws)
      (⟨w, none⟩ :: r.1, r.2)

/-- Heads in the order S, W, V, M, K, C (R319). -/
def ordered : List Head → Bool
  | [] => true
  | [_] => true
  | a :: b :: l => a.cls ≤ b.cls && ordered (b :: l)

/-- Slots that the heads of a class take: a V head with an X counts twice (R319). -/
def slotCount (c : Nat) (l : List Head) : Nat :=
  ((l.filter (fun h => h.cls = c)).map (fun h => if c = 2 && h.x.isSome then 2 else 1)).sum

def countsOk (l : List Head) : Bool :=
  slotCount 0 l ≤ 1 && slotCount 1 l ≤ 1 && slotCount 2 l ≤ 2 && slotCount 3 l ≤ 1 && slotCount 4 l ≤ 1 && slotCount 5 l ≤ 2

/-- Slot positions of R306 and R319: S 0, W 1, V 2 then 3, M 4, K 5, C 6 then 7. -/
def slotPositions : List Head → Nat → Nat → List Nat
  | [], _, _ => []
  | h :: l, v, c =>
    match h.cls with
    | 0 => 0 :: slotPositions l v c
    | 1 => 1 :: slotPositions l v c
    | 2 => v :: slotPositions l (v + 1) c
    | 3 => 4 :: slotPositions l v c
    | 4 => 5 :: slotPositions l v c
    | _ => c :: slotPositions l v (c + 1)

/-- Two lists of registers meet. -/
def meets (a b : List Nat) : Bool := a.any (fun r => b.contains r)

/-- R330: one slot writes a register that another reads or writes. -/
def dependent : List (List Nat × List Nat) → Bool
  | [] => false
  | (r, w) :: l => l.any (fun q => meets w q.1 || meets w q.2 || meets q.2 r) || dependent l

/-- The reasons of R329 that apply to a head alone (3 and 5); none for an unassigned opcode. -/
def headReasons (h : Head) : List Nat :=
  if h.assigned then
    match decodeHead h.w h.x with
    | .error (.ien r) => [r]
    | _ => []
  else []

/-- Every reason of R329 that applies to the words of a bundle. -/
def ienReasons (ws : List (BitVec 32)) : List Nat :=
  let g := groupHeads ws
  let uses := g.1.map (fun h => if h.assigned then regUses h.cls h.op h.w h.x else ([], []))
  (if ws.any (fun w => (fld w 28 3).toNat = 7) then [1] else [])
  ++ (if ordered g.1 && countsOk g.1 then [] else [2])
  ++ (if g.2 then [3] else [])
  ++ (if ws.any (fun w => fld w 31 1 = 1) then [] else [4])
  ++ g.1.flatMap headReasons
  ++ (if dependent uses then [6] else [])

/-- The fate of a bundle's words (R329): `ien` with the lowest reason, `iil` with the opcode and slot of the first such
head and the instructions before it, or the instructions with their slot positions. -/
inductive BundleFate where
  | ien (r : Nat)
  | iil (op : Nat) (slot : Nat) (before : List (Nat × Instr))
  | ok (l : List (Nat × Instr))
deriving DecidableEq, Repr

def minReason : List Nat → Option Nat
  | [] => none
  | r :: l =>
    match minReason l with
    | none => some r
    | some q => some (min r q)

def decodeHeads : List (Nat × Head) → BundleFate
  | [] => .ok []
  | (p, h) :: l =>
    match decodeInstr h.w h.x with
    | .error _ => .iil h.op p []
    | .ok i =>
      match decodeHeads l with
      | .ok r => .ok ((p, i) :: r)
      | .iil op q r => .iil op q ((p, i) :: r)
      | f => f

/-- The examination of a bundle (R329): `ws` are its words by `bundleWords`. -/
def examine (ws : List (BitVec 32)) : BundleFate :=
  match minReason (ienReasons ws) with
  | some r => .ien r
  | none =>
    let hs := (groupHeads ws).1
    decodeHeads ((slotPositions hs 2 6).zip hs)

/-! The encoder. -/

/-- The head word, E clear, and the X payload of an instruction; an event has none. -/
def encode : Instr → Option (BitVec 32 × Option (BitVec 28))
  | .nop => some (0#1 ++ 0#3 ++ 0x00#7 ++ 0#21, none)
  | .add d a b => some (0#1 ++ 0#3 ++ 0x01#7 ++ d ++ a ++ b ++ 0#6, none)
  | .sub d a b => some (0#1 ++ 0#3 ++ 0x02#7 ++ d ++ a ++ b ++ 0#6, none)
  | .mul d a b => some (0#1 ++ 0#3 ++ 0x03#7 ++ d ++ a ++ b ++ 0#6, none)
  | .mulh d a b => some (0#1 ++ 0#3 ++ 0x04#7 ++ d ++ a ++ b ++ 0#6, none)
  | .mulhz d a b => some (0#1 ++ 0#3 ++ 0x05#7 ++ d ++ a ++ b ++ 0#6, none)
  | .div d a b => some (0#1 ++ 0#3 ++ 0x06#7 ++ d ++ a ++ b ++ 0#6, none)
  | .divz d a b => some (0#1 ++ 0#3 ++ 0x07#7 ++ d ++ a ++ b ++ 0#6, none)
  | .rem d a b => some (0#1 ++ 0#3 ++ 0x08#7 ++ d ++ a ++ b ++ 0#6, none)
  | .remz d a b => some (0#1 ++ 0#3 ++ 0x09#7 ++ d ++ a ++ b ++ 0#6, none)
  | .and d a b => some (0#1 ++ 0#3 ++ 0x0A#7 ++ d ++ a ++ b ++ 0#6, none)
  | .or d a b => some (0#1 ++ 0#3 ++ 0x0B#7 ++ d ++ a ++ b ++ 0#6, none)
  | .xor d a b => some (0#1 ++ 0#3 ++ 0x0C#7 ++ d ++ a ++ b ++ 0#6, none)
  | .andn d a b => some (0#1 ++ 0#3 ++ 0x0D#7 ++ d ++ a ++ b ++ 0#6, none)
  | .shl d a b => some (0#1 ++ 0#3 ++ 0x0E#7 ++ d ++ a ++ b ++ 0#6, none)
  | .shr d a b => some (0#1 ++ 0#3 ++ 0x0F#7 ++ d ++ a ++ b ++ 0#6, none)
  | .sar d a b => some (0#1 ++ 0#3 ++ 0x10#7 ++ d ++ a ++ b ++ 0#6, none)
  | .rol d a b => some (0#1 ++ 0#3 ++ 0x11#7 ++ d ++ a ++ b ++ 0#6, none)
  | .min d a b => some (0#1 ++ 0#3 ++ 0x12#7 ++ d ++ a ++ b ++ 0#6, none)
  | .max d a b => some (0#1 ++ 0#3 ++ 0x13#7 ++ d ++ a ++ b ++ 0#6, none)
  | .minz d a b => some (0#1 ++ 0#3 ++ 0x14#7 ++ d ++ a ++ b ++ 0#6, none)
  | .maxz d a b => some (0#1 ++ 0#3 ++ 0x15#7 ++ d ++ a ++ b ++ 0#6, none)
  | .clz d a => some (0#1 ++ 0#3 ++ 0x16#7 ++ d ++ a ++ 0#5 ++ 0#6, none)
  | .ctz d a => some (0#1 ++ 0#3 ++ 0x17#7 ++ d ++ a ++ 0#5 ++ 0#6, none)
  | .popc d a => some (0#1 ++ 0#3 ++ 0x18#7 ++ d ++ a ++ 0#5 ++ 0#6, none)
  | .extB d a => some (0#1 ++ 0#3 ++ 0x19#7 ++ d ++ a ++ 0#5 ++ 0#6, none)
  | .extH d a => some (0#1 ++ 0#3 ++ 0x19#7 ++ d ++ a ++ 0#5 ++ 1#6, none)
  | .extW d a => some (0#1 ++ 0#3 ++ 0x19#7 ++ d ++ a ++ 0#5 ++ 2#6, none)
  | .extzB d a => some (0#1 ++ 0#3 ++ 0x1A#7 ++ d ++ a ++ 0#5 ++ 0#6, none)
  | .extzH d a => some (0#1 ++ 0#3 ++ 0x1A#7 ++ d ++ a ++ 0#5 ++ 1#6, none)
  | .extzW d a => some (0#1 ++ 0#3 ++ 0x1A#7 ++ d ++ a ++ 0#5 ++ 2#6, none)
  | .mov d a => some (0#1 ++ 0#3 ++ 0x1B#7 ++ d ++ a ++ 0#5 ++ 0#6, none)
  | .addi d a i x => some (0#1 ++ 0#3 ++ 0x20#7 ++ d ++ a ++ i, x.map encImm)
  | .muli d a i x => some (0#1 ++ 0#3 ++ 0x21#7 ++ d ++ a ++ i, x.map encImm)
  | .andi d a i x => some (0#1 ++ 0#3 ++ 0x22#7 ++ d ++ a ++ i, x.map encImm)
  | .ori d a i x => some (0#1 ++ 0#3 ++ 0x23#7 ++ d ++ a ++ i, x.map encImm)
  | .xori d a i x => some (0#1 ++ 0#3 ++ 0x24#7 ++ d ++ a ++ i, x.map encImm)
  | .shli d a i => some (0#1 ++ 0#3 ++ 0x25#7 ++ d ++ a ++ 0#5 ++ i, none)
  | .shri d a i => some (0#1 ++ 0#3 ++ 0x26#7 ++ d ++ a ++ 0#5 ++ i, none)
  | .sari d a i => some (0#1 ++ 0#3 ++ 0x27#7 ++ d ++ a ++ 0#5 ++ i, none)
  | .movi d i x => some (0#1 ++ 0#3 ++ 0x28#7 ++ d ++ i, x.map encImm)
  | .movh d i => some (0#1 ++ 0#3 ++ 0x29#7 ++ d ++ i, none)
  | .cmpEq d a b => some (0#1 ++ 0#3 ++ 0x30#7 ++ 0#1 ++ d ++ a ++ b ++ 0#6, none)
  | .cmpNe d a b => some (0#1 ++ 0#3 ++ 0x30#7 ++ 0#1 ++ d ++ a ++ b ++ 1#6, none)
  | .cmpLt d a b => some (0#1 ++ 0#3 ++ 0x30#7 ++ 0#1 ++ d ++ a ++ b ++ 2#6, none)
  | .cmpLe d a b => some (0#1 ++ 0#3 ++ 0x30#7 ++ 0#1 ++ d ++ a ++ b ++ 3#6, none)
  | .cmpLo d a b => some (0#1 ++ 0#3 ++ 0x30#7 ++ 0#1 ++ d ++ a ++ b ++ 4#6, none)
  | .cmpLs d a b => some (0#1 ++ 0#3 ++ 0x30#7 ++ 0#1 ++ d ++ a ++ b ++ 5#6, none)
  | .cmpiEq d a i x => some (0#1 ++ 0#3 ++ 0x31#7 ++ 0#1 ++ d ++ a ++ i, x.map encImm)
  | .cmpiNe d a i x => some (0#1 ++ 0#3 ++ 0x32#7 ++ 0#1 ++ d ++ a ++ i, x.map encImm)
  | .cmpiLt d a i x => some (0#1 ++ 0#3 ++ 0x33#7 ++ 0#1 ++ d ++ a ++ i, x.map encImm)
  | .cmpiLe d a i x => some (0#1 ++ 0#3 ++ 0x34#7 ++ 0#1 ++ d ++ a ++ i, x.map encImm)
  | .cmpiLo d a i x => some (0#1 ++ 0#3 ++ 0x35#7 ++ 0#1 ++ d ++ a ++ i, x.map encImm)
  | .cmpiLs d a i x => some (0#1 ++ 0#3 ++ 0x36#7 ++ 0#1 ++ d ++ a ++ i, x.map encImm)
  | .pand d a b => some (0#1 ++ 0#3 ++ 0x38#7 ++ 0#1 ++ d ++ 0#1 ++ a ++ 0#1 ++ b ++ 0#6, none)
  | .por d a b => some (0#1 ++ 0#3 ++ 0x39#7 ++ 0#1 ++ d ++ 0#1 ++ a ++ 0#1 ++ b ++ 0#6, none)
  | .pxor d a b => some (0#1 ++ 0#3 ++ 0x3A#7 ++ 0#1 ++ d ++ 0#1 ++ a ++ 0#1 ++ b ++ 0#6, none)
  | .pandn d a b => some (0#1 ++ 0#3 ++ 0x3B#7 ++ 0#1 ++ d ++ 0#1 ++ a ++ 0#1 ++ b ++ 0#6, none)
  | .pnot d a => some (0#1 ++ 0#3 ++ 0x3C#7 ++ 0#1 ++ d ++ 0#1 ++ a ++ 0#5 ++ 0#6, none)
  | .sel d a b g => some (0#1 ++ 0#3 ++ 0x3D#7 ++ d ++ a ++ b ++ 0#1 ++ g, none)
  | .ldB d a i x => some (0#1 ++ 0#3 ++ 0x40#7 ++ d ++ a ++ 0#5 ++ i, x.map encImm)
  | .ldH d a i x => some (0#1 ++ 0#3 ++ 0x41#7 ++ d ++ a ++ 0#5 ++ i, x.map encImm)
  | .ldW d a i x => some (0#1 ++ 0#3 ++ 0x42#7 ++ d ++ a ++ 0#5 ++ i, x.map encImm)
  | .ldD d a i x => some (0#1 ++ 0#3 ++ 0x43#7 ++ d ++ a ++ 0#5 ++ i, x.map encImm)
  | .ldzB d a i x => some (0#1 ++ 0#3 ++ 0x44#7 ++ d ++ a ++ 0#5 ++ i, x.map encImm)
  | .ldzH d a i x => some (0#1 ++ 0#3 ++ 0x45#7 ++ d ++ a ++ 0#5 ++ i, x.map encImm)
  | .ldzW d a i x => some (0#1 ++ 0#3 ++ 0x46#7 ++ d ++ a ++ 0#5 ++ i, x.map encImm)
  | .stB g a b i x => some (0#1 ++ 0#3 ++ 0x48#7 ++ g ++ a ++ b ++ i, x.map encImm)
  | .stH g a b i x => some (0#1 ++ 0#3 ++ 0x49#7 ++ g ++ a ++ b ++ i, x.map encImm)
  | .stW g a b i x => some (0#1 ++ 0#3 ++ 0x4A#7 ++ g ++ a ++ b ++ i, x.map encImm)
  | .stD g a b i x => some (0#1 ++ 0#3 ++ 0x4B#7 ++ g ++ a ++ b ++ i, x.map encImm)
  | .br g i x => some (0#1 ++ 0#3 ++ 0x50#7 ++ g ++ i, x.map encImm)
  | .call d i x => some (0#1 ++ 0#3 ++ 0x51#7 ++ d ++ i, x.map encImm)
  | .jmp g a => some (0#1 ++ 0#3 ++ 0x52#7 ++ g ++ a ++ 0#11, none)
  | .jcall d a => some (0#1 ++ 0#3 ++ 0x53#7 ++ d ++ a ++ 0#11, none)
  | .lvl d a b f => some (0#1 ++ 0#3 ++ 0x58#7 ++ d ++ a ++ b ++ f, none)
  | .loop n => some (0#1 ++ 0#3 ++ 0x59#7 ++ 0#5 ++ 0#4 ++ 0#4 ++ 0#2 ++ n, none)
  | .loopSp s n => some (0#1 ++ 0#3 ++ 0x5A#7 ++ 0#5 ++ 0#4 ++ s ++ 0#2 ++ n, none)
  | .crr d c => some (0#1 ++ 0#3 ++ 0x60#7 ++ d ++ 0#4 ++ c, none)
  | .crw d c => some (0#1 ++ 0#3 ++ 0x61#7 ++ d ++ 0#4 ++ c, none)
  | .trap i => some (0#1 ++ 0#3 ++ 0x62#7 ++ 0#5 ++ 0#8 ++ i, none)
  | .tret => some (0#1 ++ 0#3 ++ 0x63#7 ++ 0#21, none)
  | .tend => some (0#1 ++ 0#3 ++ 0x64#7 ++ 0#21, none)
  | .ldgB d a h x => some (0#1 ++ 1#3 ++ 0x00#7 ++ d ++ a ++ 0#5 ++ h ++ 0#2, x.map encLd)
  | .ldgH d a h x => some (0#1 ++ 1#3 ++ 0x01#7 ++ d ++ a ++ 0#5 ++ h ++ 0#2, x.map encLd)
  | .ldgW d a h x => some (0#1 ++ 1#3 ++ 0x02#7 ++ d ++ a ++ 0#5 ++ h ++ 0#2, x.map encLd)
  | .ldgD d a h x => some (0#1 ++ 1#3 ++ 0x03#7 ++ d ++ a ++ 0#5 ++ h ++ 0#2, x.map encLd)
  | .ldgzB d a h x => some (0#1 ++ 1#3 ++ 0x04#7 ++ d ++ a ++ 0#5 ++ h ++ 0#2, x.map encLd)
  | .ldgzH d a h x => some (0#1 ++ 1#3 ++ 0x05#7 ++ d ++ a ++ 0#5 ++ h ++ 0#2, x.map encLd)
  | .ldgzW d a h x => some (0#1 ++ 1#3 ++ 0x06#7 ++ d ++ a ++ 0#5 ++ h ++ 0#2, x.map encLd)
  | .stgB g a b h x => some (0#1 ++ 1#3 ++ 0x08#7 ++ g ++ a ++ b ++ h ++ 0#2, x.map encSt)
  | .stgH g a b h x => some (0#1 ++ 1#3 ++ 0x09#7 ++ g ++ a ++ b ++ h ++ 0#2, x.map encSt)
  | .stgW g a b h x => some (0#1 ++ 1#3 ++ 0x0A#7 ++ g ++ a ++ b ++ h ++ 0#2, x.map encSt)
  | .stgD g a b h x => some (0#1 ++ 1#3 ++ 0x0B#7 ++ g ++ a ++ b ++ h ++ 0#2, x.map encSt)
  | .ldgV d a h x => some (0#1 ++ 1#3 ++ 0x0C#7 ++ d ++ a ++ 0#5 ++ h ++ 0#2, x.map encLd)
  | .stgV g a b h x => some (0#1 ++ 1#3 ++ 0x0D#7 ++ g ++ a ++ b ++ h ++ 0#2, x.map encSt)
  | .xst g a b c => some (0#1 ++ 1#3 ++ 0x0E#7 ++ g ++ a ++ b ++ 0#4 ++ 0#2, some (encC5 c))
  | .aadd d a b h z x => some (0#1 ++ 1#3 ++ 0x10#7 ++ d ++ a ++ b ++ h ++ 0#1 ++ z, some (encAt x))
  | .asub d a b h z x => some (0#1 ++ 1#3 ++ 0x11#7 ++ d ++ a ++ b ++ h ++ 0#1 ++ z, some (encAt x))
  | .aand d a b h z x => some (0#1 ++ 1#3 ++ 0x12#7 ++ d ++ a ++ b ++ h ++ 0#1 ++ z, some (encAt x))
  | .aor d a b h z x => some (0#1 ++ 1#3 ++ 0x13#7 ++ d ++ a ++ b ++ h ++ 0#1 ++ z, some (encAt x))
  | .axor d a b h z x => some (0#1 ++ 1#3 ++ 0x14#7 ++ d ++ a ++ b ++ h ++ 0#1 ++ z, some (encAt x))
  | .amin d a b h z x => some (0#1 ++ 1#3 ++ 0x15#7 ++ d ++ a ++ b ++ h ++ 0#1 ++ z, some (encAt x))
  | .amax d a b h z x => some (0#1 ++ 1#3 ++ 0x16#7 ++ d ++ a ++ b ++ h ++ 0#1 ++ z, some (encAt x))
  | .aminz d a b h z x => some (0#1 ++ 1#3 ++ 0x17#7 ++ d ++ a ++ b ++ h ++ 0#1 ++ z, some (encAt x))
  | .amaxz d a b h z x => some (0#1 ++ 1#3 ++ 0x18#7 ++ d ++ a ++ b ++ h ++ 0#1 ++ z, some (encAt x))
  | .aswp d a b h z x => some (0#1 ++ 1#3 ++ 0x19#7 ++ d ++ a ++ b ++ h ++ 0#1 ++ z, some (encAt x))
  | .acas d a b h z x => some (0#1 ++ 1#3 ++ 0x1A#7 ++ d ++ a ++ b ++ h ++ 0#1 ++ z, some (encCas x))
  | .afadd d a b h z x => some (0#1 ++ 1#3 ++ 0x1B#7 ++ d ++ a ++ b ++ h ++ 0#1 ++ z, some (encAt x))
  | .trans d a => some (0#1 ++ 1#3 ++ 0x20#7 ++ 0#1 ++ d ++ a ++ 0#5 ++ 0#5 ++ 0#1, none)
  | .transAr d a => some (0#1 ++ 1#3 ++ 0x20#7 ++ 0#1 ++ d ++ a ++ 0#5 ++ 0#5 ++ 1#1, none)
  | .hstat d a => some (0#1 ++ 1#3 ++ 0x21#7 ++ d ++ 0#1 ++ a ++ 0#5 ++ 0#6, none)
  | .inv a b => some (0#1 ++ 1#3 ++ 0x22#7 ++ 0#5 ++ a ++ b ++ 0#5 ++ 0#1, none)
  | .invAll => some (0#1 ++ 1#3 ++ 0x22#7 ++ 0#5 ++ 0#5 ++ 0#5 ++ 0#5 ++ 1#1, none)
  | .fenceCm s m => some (0#1 ++ 1#3 ++ 0x28#7 ++ 0#2 ++ s ++ m, none)
  | .fenceSc => some (0#1 ++ 1#3 ++ 0x29#7 ++ 0#21, none)
  | .gbar => some (0#1 ++ 1#3 ++ 0x2A#7 ++ 0#21, none)
  | .phase p => some (0#1 ++ 1#3 ++ 0x2B#7 ++ 0#2 ++ 0#3 ++ 0#13 ++ p, none)
  | .tlwait s a b => some (0#1 ++ 1#3 ++ 0x30#7 ++ s ++ 0#2 ++ 0#2 ++ a ++ b ++ 0#6, none)
  | .tlinc a b => some (0#1 ++ 1#3 ++ 0x31#7 ++ 0#5 ++ 0#2 ++ a ++ b ++ 0#6, none)
  | .tlrd d a => some (0#1 ++ 1#3 ++ 0x32#7 ++ d ++ 0#2 ++ a ++ 0#5 ++ 0#6, none)
  | .tlmwait s a b h => some (0#1 ++ 1#3 ++ 0x33#7 ++ s ++ 0#2 ++ a ++ b ++ h ++ 0#2, none)
  | .tlmsig s a b h => some (0#1 ++ 1#3 ++ 0x34#7 ++ s ++ 0#2 ++ a ++ b ++ h ++ 0#2, none)
  | .tbinit c a b => some (0#1 ++ 1#3 ++ 0x38#7 ++ c ++ a ++ b ++ 0#6, none)
  | .tbarr a b => some (0#1 ++ 1#3 ++ 0x39#7 ++ 0#5 ++ a ++ b ++ 0#6, none)
  | .tbwait s a b => some (0#1 ++ 1#3 ++ 0x3A#7 ++ s ++ 0#2 ++ a ++ b ++ 0#6, none)
  | .vadd d a b r t => some (0#1 ++ 2#3 ++ 0x00#7 ++ d ++ a ++ b ++ r ++ t, none)
  | .vsub d a b r t => some (0#1 ++ 2#3 ++ 0x01#7 ++ d ++ a ++ b ++ r ++ t, none)
  | .vmul d a b r t => some (0#1 ++ 2#3 ++ 0x02#7 ++ d ++ a ++ b ++ r ++ t, none)
  | .vdiv d a b r t => some (0#1 ++ 2#3 ++ 0x03#7 ++ d ++ a ++ b ++ r ++ t, none)
  | .vmin d a b r t => some (0#1 ++ 2#3 ++ 0x04#7 ++ d ++ a ++ b ++ r ++ t, none)
  | .vmax d a b r t => some (0#1 ++ 2#3 ++ 0x05#7 ++ d ++ a ++ b ++ r ++ t, none)
  | .viadd d a b r t => some (0#1 ++ 2#3 ++ 0x06#7 ++ d ++ a ++ b ++ r ++ t, none)
  | .vimul d a b r t => some (0#1 ++ 2#3 ++ 0x07#7 ++ d ++ a ++ b ++ r ++ t, none)
  | .vimax d a b r t => some (0#1 ++ 2#3 ++ 0x08#7 ++ d ++ a ++ b ++ r ++ t, none)
  | .vimin d a b r t => some (0#1 ++ 2#3 ++ 0x09#7 ++ d ++ a ++ b ++ r ++ t, none)
  | .vand d a b t => some (0#1 ++ 2#3 ++ 0x0A#7 ++ d ++ a ++ b ++ 0#3 ++ t, none)
  | .vor d a b t => some (0#1 ++ 2#3 ++ 0x0B#7 ++ d ++ a ++ b ++ 0#3 ++ t, none)
  | .vxor d a b t => some (0#1 ++ 2#3 ++ 0x0C#7 ++ d ++ a ++ b ++ 0#3 ++ t, none)
  | .vshl d a b t => some (0#1 ++ 2#3 ++ 0x0D#7 ++ d ++ a ++ b ++ 0#3 ++ t, none)
  | .vshr d a b t => some (0#1 ++ 2#3 ++ 0x0E#7 ++ d ++ a ++ b ++ 0#3 ++ t, none)
  | .vsar d a b t => some (0#1 ++ 2#3 ++ 0x0F#7 ++ d ++ a ++ b ++ 0#3 ++ t, none)
  | .vcmpEq d a b t => some (0#1 ++ 2#3 ++ 0x10#7 ++ d ++ a ++ b ++ 0#3 ++ t, none)
  | .vcmpNe d a b t => some (0#1 ++ 2#3 ++ 0x10#7 ++ d ++ a ++ b ++ 1#3 ++ t, none)
  | .vcmpLt d a b t => some (0#1 ++ 2#3 ++ 0x10#7 ++ d ++ a ++ b ++ 2#3 ++ t, none)
  | .vcmpLe d a b t => some (0#1 ++ 2#3 ++ 0x10#7 ++ d ++ a ++ b ++ 3#3 ++ t, none)
  | .vcmpGt d a b t => some (0#1 ++ 2#3 ++ 0x10#7 ++ d ++ a ++ b ++ 4#3 ++ t, none)
  | .vcmpGe d a b t => some (0#1 ++ 2#3 ++ 0x10#7 ++ d ++ a ++ b ++ 5#3 ++ t, none)
  | .vsel d a b g => some (0#1 ++ 2#3 ++ 0x11#7 ++ d ++ a ++ b ++ 0#1 ++ g, none)
  | .vselm d a b c => some (0#1 ++ 2#3 ++ 0x12#7 ++ d ++ a ++ b ++ 0#6, some (encC5 c))
  | .visab d a t => some (0#1 ++ 2#3 ++ 0x13#7 ++ d ++ a ++ 0#5 ++ 0#3 ++ t, none)
  | .vispr d a t => some (0#1 ++ 2#3 ++ 0x14#7 ++ d ++ a ++ 0#5 ++ 0#3 ++ t, none)
  | .vfill d a b t => some (0#1 ++ 2#3 ++ 0x15#7 ++ d ++ a ++ b ++ 0#3 ++ t, none)
  | .vneg d a r t => some (0#1 ++ 2#3 ++ 0x16#7 ++ d ++ a ++ 0#5 ++ r ++ t, none)
  | .vmag d a r t => some (0#1 ++ 2#3 ++ 0x17#7 ++ d ++ a ++ 0#5 ++ r ++ t, none)
  | .vexp d a r t => some (0#1 ++ 2#3 ++ 0x18#7 ++ d ++ a ++ 0#5 ++ r ++ t, none)
  | .vlog d a r t => some (0#1 ++ 2#3 ++ 0x19#7 ++ d ++ a ++ 0#5 ++ r ++ t, none)
  | .vrcp d a r t => some (0#1 ++ 2#3 ++ 0x1A#7 ++ d ++ a ++ 0#5 ++ r ++ t, none)
  | .vsqrt d a r t => some (0#1 ++ 2#3 ++ 0x1B#7 ++ d ++ a ++ 0#5 ++ r ++ t, none)
  | .vrsqrt d a r t => some (0#1 ++ 2#3 ++ 0x1C#7 ++ d ++ a ++ 0#5 ++ r ++ t, none)
  | .vtanh d a r t => some (0#1 ++ 2#3 ++ 0x1D#7 ++ d ++ a ++ 0#5 ++ r ++ t, none)
  | .vsigm d a r t => some (0#1 ++ 2#3 ++ 0x1E#7 ++ d ++ a ++ 0#5 ++ r ++ t, none)
  | .vgelu d a r t => some (0#1 ++ 2#3 ++ 0x1F#7 ++ d ++ a ++ 0#5 ++ r ++ t, none)
  | .vfma d a b r t c => some (0#1 ++ 2#3 ++ 0x20#7 ++ d ++ a ++ b ++ r ++ t, some (encC5 c))
  | .vfms d a b r t c => some (0#1 ++ 2#3 ++ 0x21#7 ++ d ++ a ++ b ++ r ++ t, some (encC5 c))
  | .vfnma d a b r t c => some (0#1 ++ 2#3 ++ 0x22#7 ++ d ++ a ++ b ++ r ++ t, some (encC5 c))
  | .vredSum d a x t => some (0#1 ++ 2#3 ++ 0x28#7 ++ d ++ a ++ 0#4 ++ x ++ 0#3 ++ t, none)
  | .vredMax d a x t => some (0#1 ++ 2#3 ++ 0x28#7 ++ d ++ a ++ 0#4 ++ x ++ 1#3 ++ t, none)
  | .vredMin d a x t => some (0#1 ++ 2#3 ++ 0x28#7 ++ d ++ a ++ 0#4 ++ x ++ 2#3 ++ t, none)
  | .vredMean d a x t => some (0#1 ++ 2#3 ++ 0x28#7 ++ d ++ a ++ 0#4 ++ x ++ 3#3 ++ t, none)
  | .vredCount d a x t => some (0#1 ++ 2#3 ++ 0x28#7 ++ d ++ a ++ 0#4 ++ x ++ 4#3 ++ t, none)
  | .vcvt d a u t x => some (0#1 ++ 2#3 ++ 0x2A#7 ++ d ++ a ++ 0#5 ++ u ++ t, x.map encCvt)
  | .vtrn d a => some (0#1 ++ 2#3 ++ 0x30#7 ++ d ++ a ++ 0#5 ++ 0#6, none)
  | .vperm d a b => some (0#1 ++ 2#3 ++ 0x31#7 ++ d ++ a ++ b ++ 0#6, none)
  | .vbrow d a f => some (0#1 ++ 2#3 ++ 0x32#7 ++ d ++ a ++ 0#5 ++ f, none)
  | .vbcs d a t => some (0#1 ++ 2#3 ++ 0x33#7 ++ d ++ a ++ 0#5 ++ 0#3 ++ t, none)
  | .vmov d a => some (0#1 ++ 2#3 ++ 0x34#7 ++ d ++ a ++ 0#5 ++ 0#6, none)
  | .vext d a b t => some (0#1 ++ 2#3 ++ 0x35#7 ++ d ++ a ++ b ++ 0#3 ++ t, none)
  | .vins d a b t => some (0#1 ++ 2#3 ++ 0x36#7 ++ d ++ a ++ b ++ 0#3 ++ t, none)
  | .vtmask d a => some (0#1 ++ 2#3 ++ 0x38#7 ++ d ++ a ++ 0#5 ++ 0#6, none)
  | .vld d a w x => some (0#1 ++ 2#3 ++ 0x3C#7 ++ d ++ a ++ 0#5 ++ w ++ 0#2, x.map encOff)
  | .vst g a b w x => some (0#1 ++ 2#3 ++ 0x3D#7 ++ g ++ a ++ b ++ w ++ 0#2, x.map encOff)
  | .vldc d a w x => some (0#1 ++ 2#3 ++ 0x3E#7 ++ d ++ a ++ 0#5 ++ w ++ 0#2, some (encVldc x))
  | .vstc g a b w x => some (0#1 ++ 2#3 ++ 0x3F#7 ++ g ++ a ++ b ++ w ++ 0#2, some (encVstc x))
  | .mldb a w => some (0#1 ++ 3#3 ++ 0x01#7 ++ 0#5 ++ a ++ w ++ 0#7, none)
  | .mldbt a w => some (0#1 ++ 3#3 ++ 0x02#7 ++ 0#5 ++ a ++ w ++ 0#7, none)
  | .mma t a w => some (0#1 ++ 3#3 ++ 0x08#7 ++ 0#2 ++ t ++ a ++ w ++ 0#1 ++ 0#6, none)
  | .mmaC t a w => some (0#1 ++ 3#3 ++ 0x08#7 ++ 0#2 ++ t ++ a ++ w ++ 1#1 ++ 0#6, none)
  | .mdrnRaw t a w r x => some (0#1 ++ 3#3 ++ 0x10#7 ++ 0#2 ++ t ++ a ++ w ++ 0#3 ++ r ++ 0#2, x.map encC5)
  | .mdrnRawa t a w r x => some (0#1 ++ 3#3 ++ 0x10#7 ++ 0#2 ++ t ++ a ++ w ++ 1#3 ++ r ++ 0#2, x.map encC5)
  | .mdrnMean t a w r x => some (0#1 ++ 3#3 ++ 0x10#7 ++ 0#2 ++ t ++ a ++ w ++ 2#3 ++ r ++ 0#2, x.map encC5)
  | .mdrnCount t a w r x => some (0#1 ++ 3#3 ++ 0x10#7 ++ 0#2 ++ t ++ a ++ w ++ 3#3 ++ r ++ 0#2, x.map encC5)
  | .mclr t => some (0#1 ++ 3#3 ++ 0x11#7 ++ 0#2 ++ t ++ 0#16, none)
  | .sclA a w => some (0#1 ++ 4#3 ++ 0x01#7 ++ 0#5 ++ a ++ w ++ 0#1 ++ 0#6, none)
  | .sclB a w => some (0#1 ++ 4#3 ++ 0x01#7 ++ 0#5 ++ a ++ w ++ 1#1 ++ 0#6, none)
  | .sclrA => some (0#1 ++ 4#3 ++ 0x02#7 ++ 0#5 ++ 0#5 ++ 0#4 ++ 0#1 ++ 0#6, none)
  | .sclrB => some (0#1 ++ 4#3 ++ 0x02#7 ++ 0#5 ++ 0#5 ++ 0#4 ++ 1#1 ++ 0#6, none)
  | .cpy a l n x => some (0#1 ++ 5#3 ++ 0x00#7 ++ 0#5 ++ a ++ 0#5 ++ l ++ n ++ 0#2, x.map encInc)
  | .cpyaw d a l n x => some (0#1 ++ 5#3 ++ 0x01#7 ++ 0#2 ++ d ++ a ++ 0#5 ++ l ++ n ++ 0#2, x.map encInc)
  | .cpymc a l n x => some (0#1 ++ 5#3 ++ 0x02#7 ++ 0#5 ++ a ++ 0#5 ++ l ++ n ++ 0#2, x.map encInc)
  | .cpyrm a l n x => some (0#1 ++ 5#3 ++ 0x03#7 ++ 0#5 ++ a ++ 0#5 ++ l ++ n ++ 0#2, x.map encInc)
  | .rmapost a b l n x => some (0#1 ++ 5#3 ++ 0x04#7 ++ 0#5 ++ a ++ b ++ l ++ n ++ 0#2, x.map encInc)
  | .sopen d a => some (0#1 ++ 5#3 ++ 0x08#7 ++ 0#2 ++ d ++ a ++ 0#11, none)
  | .spush d a b => some (0#1 ++ 5#3 ++ 0x09#7 ++ d ++ 0#2 ++ a ++ b ++ 0#6, none)
  | .spop d a => some (0#1 ++ 5#3 ++ 0x0A#7 ++ d ++ 0#2 ++ a ++ 0#11, none)
  | .sclose a => some (0#1 ++ 5#3 ++ 0x0B#7 ++ 0#5 ++ 0#2 ++ a ++ 0#11, none)
  | .sstat d a => some (0#1 ++ 5#3 ++ 0x0C#7 ++ d ++ 0#2 ++ a ++ 0#11, none)
  | .ckopen d a => some (0#1 ++ 5#3 ++ 0x10#7 ++ 0#2 ++ d ++ a ++ 0#11, none)
  | .ckhold a b => some (0#1 ++ 5#3 ++ 0x11#7 ++ 0#5 ++ 0#2 ++ a ++ b ++ 0#6, none)
  | .cksend c a b l n x => some (0#1 ++ 5#3 ++ 0x12#7 ++ c ++ 0#2 ++ a ++ b ++ l ++ n ++ 0#2, x.map encInc)
  | .ckclose a => some (0#1 ++ 5#3 ++ 0x13#7 ++ 0#5 ++ 0#2 ++ a ++ 0#11, none)
  | .ckstat d a => some (0#1 ++ 5#3 ++ 0x14#7 ++ d ++ 0#2 ++ a ++ 0#11, none)
  | .kvcommit d a b l n x => some (0#1 ++ 5#3 ++ 0x18#7 ++ d ++ a ++ b ++ l ++ n ++ 0#2, x.map encInc)
  | .launch a b => some (0#1 ++ 5#3 ++ 0x19#7 ++ 0#5 ++ a ++ b ++ 0#6, none)
  | .coldBoot => none
  | .warmReset => none
  | .bootImageReadResponse => none
  | .t2size => none
  | .t2waitExpiry => none
  | .authenticationTimeout => none
  | .powerSample => none
  | .thermalTrip => none
  | .pkgPowerWrite => none
  | .registerWrite => none
  | .cicadaTick => none
  | .periodicDrain => none
  | .sluiceDecay => none
  | .packetRoute => none
  | .readRequest => none
  | .readResponse => none
  | .write => none
  | .writeAcknowledgement => none
  | .atomicRequest => none
  | .atomicResponse => none
  | .engineData => none
  | .pathMarker => none
  | .markerAcknowledgement => none
  | .reorderTimeout => none
  | .requestTimeout => none
  | .linkReplay => none
  | .linkRetrainEnd => none
  | .homeSliceFill => none
  | .probeAcknowledgement => none
  | .probeRefusal => none
  | .circuitBeat => none
  | .collapseNotice => none
  | .resumePointReport => none
  | .resumeReportTimeout => none
  | .leaseExpiry => none
  | .sendAcknowledgement => none
  | .grainReservation => none
  | .circuitSetupRequest => none
  | .sailBoundary => none
  | .grain => none
  | .grainDelivery => none
  | .relaySpaceReport => none
  | .podNextHop => none
  | .podAccessAdmission => none
  | .sack => none
  | .podResendTimeout => none
  | .remoteAccessTimeout => none
  | .flushingReadResponse => none
  | .registrationStateWrite => none
  | .rmaTailWrite => none
  | .rmaEnableWrite => none
  | .rmaErrstopWrite => none
  | .rmaNop => none
  | .rmaPut => none
  | .rmaGet => none
  | .rmaWait => none
  | .rmaDescriptorRetire => none
  | .hostMemoryAccess => none
  | .queueTlWrite => none
  | .queueEnableWrite => none
  | .queueStopWrite => none
  | .queueEntryTake => none
  | .recordFetch => none
  | .recordStart => none
  | .gangNode => none
  | .gangStart => none
  | .gangRestore => none
  | .copyNode => none
  | .collectiveNode => none
  | .circuitOpenNode => none
  | .signalNode => none
  | .subgraphNode => none
  | .joinNode => none
  | .waitNode => none
  | .recordRetirement => none
  | .create => none
  | .destroy => none
  | .swapout => none
  | .swapin => none
  | .fence => none
  | .fwupd => none
  | .retire => none
  | .mailboxUnlistedCommand => none
  | .swapoutSaveEnd => none
  | .swapinRestoreEnd => none
  | .fwupdEnd => none
  | .coreRepair => none
  | .memoryDieFailure => none
  | .partRsWrite => none
  | .priorityChange => none
  | .invalidationRequest => none
  | .invalidationMarking => none
  | .invalidationConfirmation => none
  | .walkNotice => none
  | .placementEvaluation => none
  | .plcRetHeadWrite => none
  | .plcLostHeadWrite => none
  | .resultWrite => none
  | .trapEntry => none
  | .wdog => none
  | .bundleHoldRelease => none
  | .phaseDrainEnd => none
  | .mmaRowWrite => none
  | .scaleLatchLanding => none
  | .copyCommandStart => none
  | .copyStageStart => none
  | .copyCommandCompletion => none
  | .circuitPortCommandStart => none
  | .streamUnitCommandStart => none
  | .rmapostCommandStart => none
  | .launchCommandStart => none
  | .streamOpenCheck => none
  | .sampleFlit => none
  | .streamSampleApplication => none
  | .creditFlit => none
  | .detachFlit => none
  | .attachFlit => none
  | .closeFlit => none
  | .breakFlit => none
  | .streamLossTimeout => none
  | .gangBarrierCompletion => none
  | .gangBarrierRelease => none
  | .rejectedStoreReport => none
  | .blackBoxEntryRead => none
  | .c0ServiceFailure => none

/-- The X word of a payload, with the given E (R323). -/
def xWord (e : BitVec 1) (p : BitVec 28) : BitVec 32 := e ++ 0b110#3 ++ p

/-- The words of a one-slot bundle that holds the instruction, E set in the last (R317, R323). -/
def encodeBundle (i : Instr) : List (BitVec 32) :=
  match encode i with
  | none => []
  | some (w, none) => [w ||| 0x80000000#32]
  | some (w, some p) => [w, xWord 1#1 p]

/-- Little-endian bytes of a word (R3). -/
def wordBytes (w : BitVec 32) : List (BitVec 8) := [w.extractLsb' 0 8, w.extractLsb' 8 8, w.extractLsb' 16 8, w.extractLsb' 24 8]

/-- A word from its little-endian bytes. -/
def bytesWord (b0 b1 b2 b3 : BitVec 8) : BitVec 32 := b3 ++ b2 ++ b1 ++ b0

/-- The words of a list of bytes; bytes short of a word are dropped. -/
def bytesWords : List (BitVec 8) → List (BitVec 32)
  | b0 :: b1 :: b2 :: b3 :: l => bytesWord b0 b1 b2 b3 :: bytesWords l
  | _ => []

/-- The decoder from bytes: the first bundle that the bytes hold. -/
def decodeBytes (l : List (BitVec 8)) : BundleFate := examine (bundleWords 8 (bytesWords l))

/-- The instruction whose head word is the low 32 bits of `w`, its operands beyond the table's bits absent: E is set before
the word is laid out, so that the bytes are those of a one-word bundle (log entry 5, DESIGN CHOICE). -/
def decodeTableWord (nbits w : Nat) : Option Instr :=
  if nbits = 0 then none else
  match decodeBytes (wordBytes (BitVec.ofNat 32 (w % 2 ^ nbits) ||| 0x80000000#32)) with
  | .ok [(_, i)] => some i
  | _ => none

end Sys2Proof
end

