-- ==== Sys2Proof/Config.lean ====
section
/-!
DEFINITION. The free values: what the manual leaves open and the machine goes on from.  Each is an opaque constant without a
body, so that nothing can be proved of the value it takes.
-/

namespace Sys2Proof

/-- A byte of the tile store that nothing has written in its epoch (R137, R199; log entry 4, DESIGN CHOICE): epoch, core address. -/
opaque Config.freeTileByte : Nat → Nat → Byte

/-- An accumulator entry of a tile that has not been cleared since its allotment (R199, R299; log entry 4, DESIGN CHOICE): epoch, index. -/
opaque Config.freeAccEntry : Nat → Nat → BitVec 64

/-- A fresh undefined value, by the state's free counter: a byte that a copy command both reads and writes (R424; log entry 15, DESIGN CHOICE). -/
opaque Config.freeValue : Nat → BitVec 64

/-- R24: the 64-byte root key hash fused in a compute die (log entry 8, DESIGN CHOICE). -/
opaque Config.rootKeyHash : Nat → BitVec 512

/-- The one-way delay of a pod link that its training measures (R116; log entry 71, DESIGN CHOICE). -/
opaque Config.podDelay : Nat → BitVec 15

/-- R386: which of the values allowed by its bound a special function returns: function, lane format, input code; the value
is taken modulo the number of values allowed (log entry 11, DESIGN CHOICE). -/
opaque Config.specialPick : Nat → Nat → Nat → Nat

/-- R136: the way of a full set of the core data cache that is given up, by the free counter (log entry 12, DESIGN CHOICE). -/
opaque Config.dcacheVictim : Nat → Nat

/-- R202: a byte of the block at 0x100 of a save area, whose layout is the device's own: save count, offset (log entry 13, DESIGN CHOICE). -/
opaque Config.saveByte : Nat → Nat → Byte

/-- R192: the FP32 code of a collective's sum, whose order of combination is not defined, among the codes that the orders of
its addends can give: free counter (log entry 16, DESIGN CHOICE). -/
opaque Config.collectivePick : Nat → Nat

/-- R243: PWR.FACT.FACTOR of a compute die, calibrated at self-test. -/
opaque Config.powerFactor : Nat → BitVec 16

/-- R115: what becomes of a packet of a pod flow in use when POD.ID changes, by the free counter: kept or lost. -/
opaque Config.podFate : Nat → Bool

end Sys2Proof
end

