-- ==== Sys2Proof/Machine/Maps.lean ====
section
/-!
DEFINITION. Finite maps as lists of pairs, bit-field helpers, and little-endian bytes (R3, R5).
-/

namespace Sys2Proof

/-- A finite map: keys strictly rising; a key that is not listed has the default of its reader. -/
abbrev Map (α : Type) := List (Nat × α)

/-- The value at a key, or the default. -/
def mget {α : Type} (d : α) : List (Nat × α) → Nat → α
  | [], _ => d
  | (k, v) :: m, n => if n = k then v else mget d m n

/-- The value at a key, if the key is listed. -/
def mfind {α : Type} : List (Nat × α) → Nat → Option α
  | [], _ => none
  | (k, v) :: m, n => if n = k then some v else mfind m n

/-- The map with one key set, its keys kept in order. -/
def mset {α : Type} : List (Nat × α) → Nat → α → List (Nat × α)
  | [], n, x => [(n, x)]
  | (k, v) :: m, n, x =>
    if n = k then (n, x) :: m else if n < k then (n, x) :: (k, v) :: m else (k, v) :: mset m n x

/-- The map without one key. -/
def mdel {α : Type} : List (Nat × α) → Nat → List (Nat × α)
  | [], _ => []
  | (k, v) :: m, n => if n = k then m else (k, v) :: mdel m n

/-- Bits lo+n-1 : lo of a bit vector (R5). -/
def bits {w : Nat} (v : BitVec w) (lo n : Nat) : BitVec n := v.extractLsb' lo n

/-- Bits lo+n-1 : lo of a bit vector as a number (R5). -/
def bitsN {w : Nat} (v : BitVec w) (lo n : Nat) : Nat := (v.extractLsb' lo n).toNat

/-- One bit of a bit vector. -/
def bit {w : Nat} (v : BitVec w) (i : Nat) : Bool := v.getLsbD i

/-- The bit vector with bits lo+n-1 : lo replaced by the low n bits of a number. -/
def setBits {w : Nat} (v : BitVec w) (lo n x : Nat) : BitVec w :=
  let m : BitVec w := BitVec.ofNat w ((2 ^ n - 1) * 2 ^ lo)
  (v &&& ~~~m) ||| BitVec.ofNat w (x % 2 ^ n * 2 ^ lo)

/-- The n bytes of a number, little-endian (R3). -/
def leBytes : Nat → Nat → List Byte
  | 0, _ => []
  | n + 1, v => BitVec.ofNat 8 v :: leBytes n (v / 256)

/-- The number that bytes hold, little-endian (R3). -/
def leNat : List Byte → Nat
  | [] => 0
  | b :: l => b.toNat + 256 * leNat l

/-- x sign-extended from n bits to w bits, for a number below 2^n (R10). -/
def sextNat (w n x : Nat) : BitVec w := if x < 2 ^ (n - 1) then BitVec.ofNat w x else BitVec.ofInt w ((x : Int) - 2 ^ n)

/-- A two's-complement number of n bits read as an integer. -/
def toSigned (n x : Nat) : Int := if x % 2 ^ n < 2 ^ (n - 1) then (x % 2 ^ n : Nat) else (x % 2 ^ n : Nat) - (2 ^ n : Int)

/-- Ceiling division. -/
def cdiv (a b : Nat) : Nat := (a + b - 1) / b

/-- The first n elements of a function of the index. -/
def tab {α : Type} (n : Nat) (f : Nat → α) : List α := (List.range n).map f

/-- The elements of a list that satisfy a test, with the first one removed. -/
def dropFirst {α : Type} (p : α → Bool) : List α → List α
  | [] => []
  | a :: l => if p a then l else a :: dropFirst p l

/-- The list with the first element that satisfies a test changed. -/
def updFirst {α : Type} (p : α → Bool) (f : α → α) : List α → List α
  | [] => []
  | a :: l => if p a then f a :: l else a :: updFirst p f l

/-- H32 of R120. -/
def h32 (x : Nat) : Nat :=
  let m := 4294967296
  let h0 := (x % m + 0x9E3779B9 * (x / m % m)) % m
  let h1 := (h0 ^^^ (h0 / 65536)) * 0x7FEB352D % m
  let h2 := (h1 ^^^ (h1 / 32768)) * 0x846CA68B % m
  h2 ^^^ (h2 / 65536)

end Sys2Proof
end

