-- ==== Sys2Proof/Machine/State.lean ====
section
/-!
DEFINITION. The state of the QK7 package, as plain data, and the state right after reset.
Keys: a compute core is c = die * 64 + cluster * 16 + number; a context is x = 4 * c + context; a register of a management
window is die * 2^21 + offset / 8; an endpoint is its 16-bit id (R47).
-/

namespace Sys2Proof.Machine

open Sys2Proof

/-! ## Why a step stops -/

/-- Why a step stops with a fault. -/
inductive Fault where
  /-- Raised by `step` when C0 has failed, tripped or failed to boot: the whole device stops and makes no further step until
  a cold reset (R21, R24, R28).  Safe: the device does nothing either. -/
  | deviceStopped
deriving DecidableEq, Repr

/-- Why an instruction or event has no meaning here. -/
inductive Refusal where
  /-- Raised by an arm of `exec` whose meaning is not written.  Safe. -/
  | notModelled (mnemonic : String)
  /-- Raised by an event's meaning in a state in which its rule says that the event does not arise: nothing happens, because
  there is no such event.  Safe. -/
  | notEnabled (mnemonic : String)
deriving DecidableEq, Repr

/-! ## A context's parts -/

/-- A translation handle (R171). -/
structure Handle where
  st : BitVec 2
  aret : Bool
  size : BitVec 2
  rd : Bool
  wr : Bool
  nc : Bool
  fmt : Byte
  vpn : BitVec 36
  pa : Pod
deriving DecidableEq, Repr

/-- What an instruction's result writes at its write point (R226): a scalar, a predicate, bytes of a vector tile under a
mask, a handle, bytes of the tile store (`vstc`, R396). -/
inductive RegWrite where
  | sreg (r : Nat) (v : DWord)
  | preg (r : Nat) (b : Bool)
  | vreg (r : Nat) (v mask : Tile)
  | handle (r : Nat) (h : Handle)
  | tile (cells : List (Nat × Byte))
deriving DecidableEq, Repr

/-- A cause that is not an issue trap, with the image it will write (R303-R305). -/
structure Deferred where
  code : Nat
  reason : Nat
  extra : Nat
  slot : Nat
  addr : DWord
  opc : Va
  oct : Nat
deriving DecidableEq, Repr

/-- Whether a result in flight is complete (R227): its data is there, it waits for the accesses of a group, or its access
failed with a deferred cause (R304). -/
inductive RStat where
  | done
  | waiting (grp : Nat)
  | failed (d : Deferred)
deriving DecidableEq, Repr

/-- A result in flight: its write point in CT or HCT, what it writes, the loading form of R362 when it waits. -/
structure Result where
  wp : Nat
  eff : RegWrite
  form : Nat
  stat : RStat
deriving DecidableEq, Repr

/-- A level of a loop nest: armed, its count, and its pairs of physical register and stride (R348). -/
structure Level where
  armed : Bool
  count : BitVec 32
  pairs : List (Nat × DWord)
deriving DecidableEq, Repr

/-- A running loop (R349-R352): its levels from level 0 to the highest armed, the address of its body, its length in
bundles, stages (0 for `loop`), N, P, the pass, the number of bundles of the pass begun (0 directly after the loop's own
bundle), and the loop buffer: the address and words of each bundle of the body. -/
structure Loop where
  levels : List Level
  start : Va
  len : Nat
  stages : Nat
  n : Nat
  passes : Nat
  pass : Nat
  idx : Nat
  buf : List (Va × List Word)
deriving DecidableEq, Repr

/-- A freeze after a bundle, until the instruction is complete (R258, R261, R262, R310, R357, R370, R374); the number of an
invalidation is 0 while it is to be requested again (R278).  `rdc` is the RDC's part of the acquire actions, with the cycle in which it ends and
what it ends: 0 an acquire, 1 the acquire actions of a fence or a wait, 2 step 2 of `fence.sc` (R129, R258, R262). -/
inductive Await where
  | none
  | acquire (grp : Nat) (scope : Nat)
  | fenceCm (mask : Nat) (scope : Nat) (stage : Nat)
  | fenceSc (stage : Nat)
  | waitAcq (scope : Nat) (stage : Nat)
  | rdc (until_ ends : Nat)
  | inv (id vpn count : Nat) (all : Bool)
  | phase (split : Nat) (until_ : Nat)
  | tret
  | ending (fault : Bool)
deriving DecidableEq, Repr

/-- What a global access does (R251): the operation of an atomic is numbered by its opcode less 0x10, 12 is the timeline
maximum of R272; and, beside the accesses of R251, the poll of a wait (R272), a flushing read (R105), the fetch of an instruction-cache
line (R233). -/
inductive AccKind where
  | load
  | store
  | atomic (op : Nat) (wide : Bool) (b c : DWord) (want : Bool)
  | poll
  | flush
  | fetch
deriving DecidableEq, Repr

/-- Where a global access stands: it waits to be sent; it has left; a store lies in the core data cache, or its line is being written back
(R136); a remote store is posted, under a number of the machine's count (R97); it has been performed (R252).  A flushing read that has
returned with VIOL or REVOKED holds its cause until its release has been performed (R259). -/
inductive AccStat where
  | waiting
  | sent (cyc : Nat)
  | cached
  | leaving
  | posted (seq : Nat)
  | late (code reason : Nat)
  | done
deriving DecidableEq, Repr

/-- A global access of a context, at most one line: its tag, its place in program order, the group of the instruction, the
form that loads or stores, its pod address, bytes and semantics (R251, R255, R258, R259); `again` once a discarded merged
response has made the load leave a second time, under freeze (R65). -/
structure Acc where
  tag : Nat
  ord : Nat
  grp : Nat
  kind : AccKind
  pa : Pod
  n : Nat
  cls : BitVec 4
  sem : BitVec 2
  scope : BitVec 3
  mmh : Bool
  nc : Bool
  data : List Byte
  stat : AccStat
  alloc : Bool
  off : Nat
  opc : Va
  oct : Nat
  inh : Bool
  again : Bool
deriving DecidableEq, Repr

/-- A named increment of a timeline in issue order (R270): the command or, for `tlinc`, the place in program order before
which everything must have been performed (R376); `q` the order of the command's queue, 0 for `tlinc` (R200); `ready` when
it may be applied. -/
structure Inc where
  tl : Nat
  amt : Nat
  cmd : Nat
  q : Nat
  ord : Nat
  ready : Bool
deriving DecidableEq, Repr

/-- A command of an engine queue (R199, R420): the opcode of its form, its block of 64 bytes, its operands, what was resolved
at issue, and for a push the send buffer's record with its poison (R208). -/
structure Cmd where
  id : Nat
  op : Nat
  port : Nat
  cyc : Nat
  opc : Va
  oct : Nat
  blk : BitVec 512
  a : Nat
  b : Nat
  c : Nat
  src : Pod
  dst : Pod
  fmt : Byte
  tl : Option Nat
  inc : Nat
  stage : Nat
  ord : Nat
  data : List Byte
  poison : Bool
deriving DecidableEq, Repr

/-- A circuit handle's status (R91) and its circuit. -/
structure CkHandle where
  st : BitVec 3
  cause : BitVec 4
  leaseEnd : Nat
  resume : BitVec 24
  cid : Nat
deriving DecidableEq, Repr

/-- A sample on its way to a side (R213): its tick and occupancy. -/
structure Sample where
  tick : Nat
  occ : Nat
deriving DecidableEq, Repr

/-- A stream port (R205-R213, R221): its status fields, its counts (of which the 16-bit counts of R207 are the low bits), its
control terms, its descriptor, its peer, whether it holds an acquired record and how many it has acquired, the releases not
reported, the SENT that a CLOSE or a DETACH reply named, samples not applied, the latest tick applied, and a detach under way
(1 sent and waiting, 2 restored and waiting for the peer). -/
structure Port where
  st : BitVec 3
  role : Bool
  cause : BitVec 4
  occ : Nat
  iacc : Int
  pterm : Int
  late : Nat
  sent : Nat
  wr : Nat
  rd : Nat
  rdp : Nat
  acq : Nat
  held : Bool
  unrep : Nat
  desc : BitVec 512
  sid : Nat
  part : Nat
  peerX : Nat
  peerQ : Nat
  due : Option Nat
  samples : List Sample
  lastTick : Nat
  susp : BitVec 3
deriving DecidableEq, Repr

/-- A latch write on its way (R413): the array step at which it lands, the side (false for A) and its bytes. -/
structure LatchWrite where
  step : Nat
  side : Bool
  v : Tile
deriving DecidableEq, Repr

/-- A context (R199, R229, R247, R306).  `reload` is the plane load that runs again after a restore (R417): form, window, first
element, record; `epoch` the translation epoch at the save (R177); `fillCyc` the cycle in which data that a result waited for last came (R227); `walked` the VA that
has been walked again for a handle of the bundle presented (R173). -/
structure Ctx where
  task : Bool
  halted : Bool
  part : BitVec 3
  rset : Bool
  sup : Bool
  stage : BitVec 4
  taskIx : BitVec 6
  gang : Nat
  exch : Bool
  pri : BitVec 4
  dfc : BitVec 8
  age : BitVec 8
  ct : Nat
  hct : Nat
  pc : Va
  npc : Option Va
  sr : Map DWord
  pr : Map Bool
  vr : Map Tile
  hr : Map Handle
  kr : Map CkHandle
  qr : Map Port
  tlr : Map DWord
  vshape : DWord
  tw : Map DWord
  wBase : BitVec 8
  wMin : BitVec 8
  wMax : BitVec 8
  wCur : BitVec 8
  tsBase : BitVec 6
  tsSize : BitVec 7
  acm : BitVec 8
  phase : BitVec 16
  rrb : BitVec 3
  lastFrz : BitVec 4
  infl : List Result
  hinfl : List Result
  nest : Map Level
  loop : Option Loop
  hnest : Map Level
  hloop : Option Loop
  readyAt : Nat
  fillCyc : Nat
  hold : Option Nat
  await : Await
  sawait : Await
  released : Bool
  walkRetry : Option Nat
  walked : Option Nat
  poll : Option DWord
  pollTick : Option Nat
  opened : Option Nat
  inh : Bool
  psup : Bool
  secnt : BitVec 8
  ti : Map DWord
  deferred : List Deferred
  hdeferred : List Deferred
  trapi : Option Nat
  wdCount : Nat
  pcWritten : Bool
  la : Tile
  lb : Tile
  front : Option Nat
  latches : List LatchWrite
  floor : Nat
  remote : List (BitVec 8)
  accs : List Acc
  ord : Nat
  q1 : List Cmd
  q2 : List Cmd
  q3 : List Cmd
  q4 : List Cmd
  incs : List Inc
  reload : Option (Bool × BitVec 4 × Nat × BitVec 128)
  epoch : Nat
deriving DecidableEq, Repr

/-! ## A core's parts -/

/-- A tile store (R133): the bytes written, by 64-byte row and place in it, with the epoch of each 64 KiB block whose other bytes
are undefined, and the poisoned 32-byte sectors (R132). -/
structure TileStore where
  cells : Map (Map Byte)
  epoch : Map Nat
  poison : List Nat
deriving DecidableEq, Repr

/-- A finished row of an accumulator tile that waits for the write port (R408): its `mma`, tile row, the cycle in which it
is ready, and per column the sums of its blocks with the number of present products and the flags raised (R299). -/
structure AccRow where
  mma : Nat
  row : Nat
  last : Bool
  step : Nat
  cols : List (List (BitVec 64))
deriving DecidableEq, Repr

/-- An accumulator tile (R140): `epoch` some number when its unlisted entries are undefined, none when they are +0; the
listed entries, by row and column; the rows that wait; the `mma`s that keep it busy (R237). -/
structure AccTile where
  epoch : Option Nat
  ents : Map (Map (BitVec 64))
  rows : List AccRow
  busy : List Nat
deriving DecidableEq, Repr

/-- A B plane (R400): its elements' containers, by column and K, the format record, the owner and its load descriptor. -/
structure Plane where
  els : List (List Nat)
  thr : BitVec 128
  owner : Option Nat
  form : Bool
  win : BitVec 4
  e0 : Nat
deriving DecidableEq, Repr

/-- An `mma` that is entering (R406, R407): its context, tile, plane, window base, size and record, index vector, first step
and the number of rows entered. -/
structure MmaRun where
  id : Nat
  x : Nat
  t : Nat
  plane : Nat
  tw : DWord
  thr : BitVec 128
  idx : List Nat
  step : Nat
  entered : Nat
deriving DecidableEq, Repr

/-- A line of the core data cache (R136), with its poison (R131). -/
structure DLine where
  line : Nat
  part : BitVec 3
  valid : BitVec 64
  dirty : BitVec 64
  data : BitVec 512
  poison : Bool
deriving DecidableEq, Repr

/-- A line of the instruction cache (R224, R233): its pod address in units of 64 bytes, its partition, its bytes. -/
structure ILine where
  line : Nat
  part : BitVec 3
  data : BitVec 512
deriving DecidableEq, Repr

/-- The rounds of a bundle that have not been served (R239): its context, the rows left, the bytes of rows before the bundle and those
that it writes there, which engines see in the cycle of the row's round; whether the bundle writes a scale latch, and the rounds past. -/
structure Rounds where
  x : Nat
  rows : List Nat
  old : List (Nat × Map Byte)
  new : List (Nat × List (Nat × Byte))
  latch : Bool
  extra : Nat
deriving DecidableEq, Repr

/-- Engine data that has reached a core and is being written to its tile store (R238, R432): the packet, and the rows already written. -/
structure Landing where
  pkt : Pkt
  done : List Nat
deriving DecidableEq, Repr

/-- A leaf mapping of the translation cache (R164, R170): partition, VA[51:16] of its base, size, pod address of its base,
attributes; `stop` from a marking cycle until phase 2 (R175). -/
structure TlbEntry where
  part : BitVec 3
  vpn : BitVec 36
  size : BitVec 2
  pa : Pod
  rd : Bool
  wr : Bool
  x : Bool
  u : Bool
  nc : Bool
  fmt : Byte
  stop : Bool
deriving DecidableEq, Repr

/-- A non-leaf entry of the walk cache (R170): partition, level, VA[51:16] of what it covers, the next table's PA. -/
structure WalkEntry where
  part : BitVec 3
  level : Nat
  vpn : BitVec 36
  table : Pod
  stop : Bool
deriving DecidableEq, Repr

/-- An entry of the version filter (R65). -/
structure VfEntry where
  line : Nat
  ver : BitVec 32
  tick : Nat
deriving DecidableEq, Repr

/-- A command that an engine port of a core runs: a command of a context or of a copy node (R427, R433), the number of its
elements already read, the pieces outstanding (tag, first element, number of elements; a tag of 0 to 65,535), the bytes read
and not yet written with their poison, its stages completed, whether its arrivals have been applied at its targets, whether it
has stopped and why (a cause code), its stages begun or its step, the elements of the piece under way, the lines of memory that it is on, the places
in `buf` of bytes that come from poisoned sectors, and for a node the page that each of its streams of addresses is in (R193). -/
structure Run where
  cmd : Cmd
  x : Nat
  node : Option (Nat × Nat)
  pos : Nat
  out : List (Nat × Nat × Nat)
  buf : List Byte
  bad : Bool
  done : Nat
  arrived : Bool
  stopped : Bool
  cause : Nat
  step : Nat
  aux : Nat
  lines : List Nat
  hurt : List Nat
  pages : Map TlbEntry
deriving DecidableEq, Repr

/-- A core (R224, R250).  `inArray` holds the rows that have entered and are not ready (R404, R408): tile, plane, row;
`loads` the plane loads whose read rounds have not ended (R404, R405): the cycle of their end, context, plane number, plane;
`starts` the cycle in which each engine port (0, 1 copy, 2 circuit, 3 stream, 4 launch) last started a command; `corr` the corrected
errors of a step of 2^20 cycles: the step's number and their count (R161).  `mid` says that one of the two cycles of a narrowed array step has
passed, `arrNar` that the array is narrowed (R244).  `bank` are the tile-store rows served in cycle `bankCyc`, each with the rank that took its bank,
`rounds` the bundles with rounds left, `want` the rows that the bundle being issued accesses, `refused` for each engine agent the cycles in a row
in which a bank refused it, `early` the agents that have had their turn in this cycle (R238, R239); `lands` and `recs` the engine data being written,
of copies and of streams. -/
structure Core where
  active : Bool
  site : BitVec 5
  last : BitVec 2
  ts : TileStore
  acc : Map AccTile
  planes : Map Plane
  entry : Option MmaRun
  inArray : List (Nat × Nat × AccRow)
  loads : List (Nat × Nat × Nat × Plane)
  dc : List DLine
  split : BitVec 3
  dcDrain : Nat
  wbs : List (Nat × Nat × BitVec 3)
  corr : Nat × Nat
  tlb : List TlbEntry
  wcache : List WalkEntry
  thr : Map (Map (BitVec 128))
  roots : Map (DWord × DWord)
  vf : List VfEntry
  evt : Nat
  window : List Nat
  pfrz : DWord
  limit : BitVec 13
  eff : BitVec 13
  nar : Bool
  half : Bool
  arrNar : Bool
  mid : Bool
  limCyc : Nat
  div : Nat
  pipe0 : Nat
  pipe1 : Nat
  step : Nat
  runs : List Run
  starts : Map Nat
  ic : List ILine
  bank : List (Nat × Nat)
  bankCyc : Nat
  rounds : List Rounds
  want : List Nat
  refused : Map Nat
  early : List Nat
  lands : List Landing
  recs : List Landing
deriving DecidableEq, Repr

/-! ## The fabric -/

/-- Where a packet in the network stands: at a router of a compute die with the port it came in by, at a memory die's router
likewise (port 3 from Cj, 4 from C(j+1), 5 its own units), on a die-to-die link or memory port, where the sender's replay buffer holds
it until it has arrived good (R53), at the Filash die, at the UCIe boundary. -/
inductive Loc where
  | router (die : Nat) (x y : Nat) (inp : Nat)
  | mem (k : Nat) (inp : Nat)
  | wire (link : Nat)
  | filash
  | ucie (k : Nat)
deriving DecidableEq, Repr

/-- A packet in the network (R44) and the fabric cycle in which it arrives where it stands (R50, R52). -/
structure Flight where
  id : Nat
  loc : Loc
  pkt : Pkt
  arr : Nat
deriving DecidableEq, Repr

/-- A directed die-to-die link or memory port (R53): the sequence number that the sender's next flit takes, the one that the
receiver expects, and the errors in a row of the flit it expects. -/
structure Link where
  sent : BitVec 8
  got : BitVec 8
  errors : Nat
deriving DecidableEq, Repr

/-- The receiving side of a flow (R51): the SEQ it expects, the early arrivals it holds, the cycle in which a later
packet first waited, and the SEQs still to come of reads that were merged on their way (R63). -/
structure Recv where
  next : BitVec 12
  early : List Pkt
  since : Option Nat
  gone : List (BitVec 12)
deriving DecidableEq, Repr

/-- A read pending in a router's merge table (R63) and the requests merged into it. -/
structure MergeEntry where
  die : Nat
  router : Nat
  pkt : Pkt
  tick : Nat
  riders : List Pkt
deriving DecidableEq, Repr

/-- A meter entry of a sluice (R58): state 0 FREE, 1 METER, 2 PROBE, 3 PROMOTED, 4 HOLD. -/
structure Meter where
  src : BitVec 16
  dst : BitVec 16
  label : BitVec 16
  part : BitVec 3
  st : Nat
  count : Nat
deriving DecidableEq, Repr

/-- The sluice of a router output port (R58, R61). -/
structure Sluice where
  meters : Map Meter
  miss : Nat
deriving DecidableEq, Repr

/-- A line of an RDC (R127): its tag, its bytes and its poison. -/
structure RdcLine where
  line : Nat
  part : BitVec 3
  data : BitVec 512
  poison : Bool
deriving DecidableEq, Repr

/-- A home slice (R124, R125): its lines in order of use, each with its dirty mark; the lines that miss registers wait for; the
pending-write filter; the accesses that wait. -/
structure Slice where
  lines : List (Nat × Bool)
  miss : List Nat
  pend : List Nat
  wait : List Pkt
deriving DecidableEq, Repr

/-- A beat (R68): its words, END, SEQ and CHK, and the fabric cycle in which it reaches the millpond or endpoint to which it is on its way
(R70). -/
structure Beat where
  ws : List Word
  last : Bool
  seq : BitVec 4
  chk : BitVec 8
  due : Nat
deriving DecidableEq, Repr

/-- What stands in a departure or relay queue, or is on its way to it (R70, R82-R86): a beat of a program circuit, a packet of a promoted flow with
the fabric cycle in which its last beat is there. -/
inductive PondItem where
  | beat (cid : Nat) (b : Beat)
  | pkt (fid : Nat) (p : Pkt) (due : Nat)
deriving DecidableEq, Repr

/-- A millpond (R82): departure queues by destination die, the relay queue, relay reservations by flow in bytes. -/
structure Pond where
  dep : Map (List PondItem)
  relay : List (Nat × PondItem)
  resv : List (Nat × Nat)
deriving DecidableEq, Repr

/-- What a grain carries between its start and its delivery, and the CRC-32C over it (R78, R83). -/
structure GrainLoad where
  source : Nat
  dest : Nat
  arrive : Nat
  items : List PondItem
  crc : Nat
deriving DecidableEq, Repr

/-- A probe under way (R71-R73): what it reserves for (2 × id + 2 a program circuit, 2 × id + 3 a promoted one), its die and goal,
whether it ends at an endpoint's receive lane, the router it is at with the input port it came by and the outputs tried there, the
routers behind it with the same and the lane reserved at each, its backtracks, the send lane it started with, the cycle of its next
move, and the lane of a promoted circuit for which it waits. -/
structure ProbeRun where
  v : Nat
  die : Nat
  goal : Nat × Nat
  recv : Bool
  cur : Nat × Nat
  inp : Nat
  tried : List Nat
  stack : List ((Nat × Nat) × Nat × List Nat × Nat)
  backs : Nat
  send : List Nat
  due : Nat
  claim : Option Nat
deriving DecidableEq, Repr

/-- A program circuit (R89-R94).  `stage` 0 probing at home, 1 waits for the calendar, 2 waits for the far die, 3 probing there and waiting
for the acknowledgement, 4 open, 5 sending side ended, 6 over.  `far` are the beats in flight towards the receiver, `due` the
cycle in which a probe's acknowledgement arrives, 0 when none is on its way, or the cycle in which the calendar's turn was asked for, `usable`
the number of the first sail that may carry, `sseq` and `rseq` the SEQ of the next beat to be sent and to be received, `sentW` the words that
left the sender, `recvW` those written; `send` are the sends that are running, with the
words of each still to leave and the word count at which each ends. -/
structure Circuit where
  cid : Nat
  x : Nat
  k : Nat
  dx : Nat
  part : BitVec 3
  base : Nat
  limit : Nat
  bar : Option Nat
  g : Nat
  lease : Nat
  stage : Nat
  lanes : List Nat
  grains : List Nat
  far : List Beat
  due : Nat
  sseq : BitVec 4
  rseq : BitVec 4
  sentW : Nat
  recvW : Nat
  ackW : Nat
  clean : Bool
  cause : Nat
  collapsed : Option Nat
  report : Option Nat
  sends : List (Nat × Nat × Nat × Nat)
  node : Option (Nat × Nat)
  usable : Nat
deriving DecidableEq, Repr

/-- A promoted flow (R60, R84-R88): its key, partition, the sluice entry that promoted it, its circuit's lanes, the relay die
if it relays, the path change outstanding (type, relay die, marker flows not acknowledged, bytes sent on the new path), data
held back for the early window, which has no SEQ yet, bytes sent through the relay and not yet forwarded, the packets on the sender's lane and on
the lane into the receiver, each there with the SEQ of its first beat and the fabric cycle in which its last one arrives (R70), those that the receiver holds for a marker.  While `probing`, `leg` is the probe
under way, 0 before the first, and `due` the cycle in which its acknowledgement arrives, 0 when none is on its way; `prog` are the flits of the lane's first packet that
have passed, `sseq` and `rseq` the SEQ of the next beat on the receiving lane. -/
structure Promo where
  fid : Nat
  src : BitVec 16
  dst : BitVec 16
  label : BitVec 16
  part : BitVec 3
  sluice : Nat
  entry : Nat
  lanes : List Nat
  live : Bool
  probing : Bool
  relay : Option Nat
  change : Option (Nat × Nat × List Nat × Nat)
  backlog : List Pkt
  relayed : Nat
  leg : Nat
  due : Nat
  prog : Nat
  sseq : BitVec 4
  rseq : BitVec 4
  lane : List Pkt
  far : List (BitVec 4 × Nat × Pkt)
  heldNew : List Pkt
deriving DecidableEq, Repr

/-! ## Scheduler, partitions, host -/

/-- A launch record in flight (R189-R197).  `nodes` holds the nodes as fetched; `cnt` the remaining predecessor counts;
`st` of a node: 0 waits, 1 eligible, 2 running, 3 finished; `code`, `node` and `failCyc` the failure that
finished first and its cycle. -/
structure Rec where
  id : Nat
  part : BitVec 3
  q : Nat
  pa : Nat
  hdr : BitVec 512
  nodes : List (BitVec 512)
  depth : Nat
  parent : Option (Nat × Nat)
  dev : Bool
  started : Bool
  cnt : Map Nat
  st : Map Nat
  code : Nat
  node : Nat
  failCyc : Nat
deriving DecidableEq, Repr

/-- A gang (R191, R198, R201, R373): `st` 0 placed and loading, 1 running, 2 saved, 3 swapped out with its partition; `xs` the
context of each task; `halt` why its contexts halt: 0 they do not, 1 for a higher priority, 2 for a repair, 3 with its partition; `fault` when
a task of it ended with an error (R310). -/
structure Gang where
  id : Nat
  part : BitVec 3
  rcd : Nat
  node : Nat
  q : Nat
  prio : Nat
  st : Nat
  tasks : Nat
  xs : List Nat
  live : List Nat
  exch : Bool
  pre : Bool
  acm : Nat
  ts : Nat
  save : Va
  arrived : List Nat
  release : Option Nat
  saved : List (Nat × Ctx × List (Nat × AccTile) × TileStore)
  xstOut : Nat
  halt : Nat
  fault : Bool
deriving DecidableEq, Repr

/-- A partition's own state beside its registers: translation epoch and the last 64 invalidation ranges (R177), the coupling
table (R220): SID, producer context and port, consumer context and port, the descriptor; opens that wait for the check;
the contexts in shadow storage (R203); a swap under way (1 out, 2 in); the entry that each queue's walker fetches, and the
entries that device programs submitted, by queue and number (R156, R444). -/
structure Part where
  epoch : Nat
  kept : List (Nat × Nat × Nat × Bool)
  streams : Map (Nat × Nat × Nat × Nat × BitVec 512)
  opens : List (Nat × Nat × BitVec 512)
  saved : List (Nat × Ctx)
  swapping : Nat
  fetching : Map Nat
  devs : List (Nat × Nat)
deriving DecidableEq, Repr

/-- An invalidation request (R174, R175): whether C0 has started it; the cores that have marked, each with the number that the next
access or command took then; the cores that have confirmed. -/
structure Inval where
  id : Nat
  part : BitVec 3
  vpn : Nat
  count : Nat
  all : Bool
  host : Bool
  started : Bool
  marked : Map Nat
  confirmed : List Nat
deriving DecidableEq, Repr

/-- A page that a placement controller tracks (R142, R178): its frame, size, partition, leaf PTE address, aliased mark, the
counts per die, steps without a sample, steps without a dominant die. -/
structure PlcEntry where
  frame : Nat
  big : Bool
  part : BitVec 3
  pte : Option Nat
  aliased : Bool
  counts : Map Nat
  cold : Nat
  spread : Nat
deriving DecidableEq, Repr

/-- A placement controller (R142, R178): its entries, the walk notices that wait, a sampling count. -/
structure Plc where
  entries : List PlcEntry
  notices : List (Nat × Bool × Nat × Nat)
  sample : Nat
deriving DecidableEq, Repr

/-- A move of a page under way (R179): the controller's die, the page's entry, the pool and the destination frames taken from it, the leaves as
they were read, the number that the next access took when the page was blocked, the lines copied, and the failure that befalls it with the line
at which it does (R180), inputs of the model. -/
structure Move where
  die : Nat
  entry : PlcEntry
  frames : List Nat
  leaves : List (Nat × BitVec 128)
  mark : Nat
  pos : Nat
  fault : Nat
  at_ : Nat
deriving DecidableEq, Repr

/-- An error in a stored word that ECC will find when it is read (R131): where (0 a tile-store sector of a core, 1 a line of its data cache, 2 a line
of a compute die's RDC), the core or die, the sector or line, and whether ECC cannot correct it. -/
structure EccFault where
  place : Nat
  owner : Nat
  unit : Nat
  bad : Bool
deriving DecidableEq, Repr

/-- A packet that a pod flow's sender keeps until it is released (R103): its PSEQ, its pod tenant id, its resends, the tick of its last
sending. -/
structure PodHeld where
  seq : BitVec 16
  pkt : Pkt
  ptid : Nat
  sends : Nat
  tick : Nat
deriving DecidableEq, Repr

/-- A pod flow at its sender (R103): next PSEQ, the packets held, and the responses that wait for room in its window, each with its pod
tenant id. -/
structure PodSend where
  src : BitVec 16
  dpkg : BitVec 8
  cls : BitVec 2
  next : BitVec 16
  held : List PodHeld
  wait : List (Pkt × Nat)
deriving DecidableEq, Repr

/-- A packet at a pod link's output (R102): its tag, what the flits already sent spent (true a pool credit), and for a packet in transit the
link that it came by, its VC there and the POOL bits it came with. -/
structure PodWait where
  tag : BitVec 64
  pkt : Pkt
  spent : List Bool
  origin : Option (Nat × Nat × Nat)
deriving DecidableEq, Repr

/-- A pod link's output (R102): the pool credits and the reserve credits of each VC spent and not returned, the packets that wait for
credits; and the credits returned to the neighbour for what came by the link, by VC, 18 for the pool. -/
structure PodPort where
  pool : Nat
  spent : Map Nat
  wait : List PodWait
  back : Map Nat
deriving DecidableEq, Repr

/-- A pod flow at its receiver (R103): E, the packets received at or after E, the number received since the last SACK. -/
structure PodRecv where
  src : BitVec 16
  spkg : BitVec 8
  cls : BitVec 2
  e : BitVec 16
  got : List (BitVec 16 × BitVec 64 × Pkt)
  since : Nat
deriving DecidableEq, Repr

/-- A remote access that the Filash die has admitted and that its home has not acknowledged (R108): the tag it was given
here, the packet as it arrived, its pod tag, its registration. -/
structure Admitted where
  tag : Nat
  pkt : Pkt
  ptag : BitVec 64
  reg : Nat
deriving DecidableEq, Repr

/-- A descriptor that an RMA queue has started (R114): its number, its 64 bytes, its tags outstanding, bytes moved, whether it is
complete, its error, the core and command of the `rmapost` that wrote it, whether it has read poisoned data. -/
structure RmaRun where
  n : Nat
  desc : BitVec 512
  out : List (Nat × Nat × Nat)
  moved : Nat
  complete : Bool
  err : Nat
  owner : Option (Nat × Nat)
  bad : Bool
deriving DecidableEq, Repr

/-- Boot (R23-R28): the step, 0 to 8; whether the device has stopped; the image bytes fetched; what the physical steps of
boot find, which are inputs of the model (log entry 9, DESIGN CHOICE): what each of a die's two tries of step 4 finds (key 2 × die + try; 0 both
checks hold, 1 one fails, 2 no answer), dies that fail self-test or training,
core sites that fail self-test, UCIe modules that do not train, links that do not train, whether the Filash die aligns, pod links that do
not train.  `images` are the image bytes that each compute die's security controller holds, `want` the ranges that C0 has yet to
fetch, `fwd` those it has yet to forward to each die, `badImage` the dies whose check of the image failed, `authTries` the failed tries. -/
structure Boot where
  step : Nat
  stopped : Bool
  images : Map (Map Byte)
  want : List (Nat × Nat)
  fwd : Map (List (Nat × Nat))
  badImage : List Nat
  auth : Map Nat
  t2wait : Nat
  t2size : Nat
  placed : Nat
  plimit : Nat
  authTries : Map Nat
  badTest : List Nat
  badSites : List Nat
  badModules : List Nat
  badLinks : List Nat
  badPods : List Nat
  filashOk : Bool
deriving DecidableEq, Repr

/-- What the management controllers hold (R20, R29, R30, R35, R49, R54): fenced dies, links marked down, spares in use, power
alarm history in samples, header errors of mesh links and endpoint ports (R62), firmware updates in progress, host writes not acknowledged, GO and TL writes held back, writes of
a registration's STATE in this cycle (R108), whether a mailbox command is being carried out, repairs under way (core, WHY). -/
structure Mgmt where
  fenced : List Nat
  down : List Nat
  retrain : List Nat
  replays : Map Nat
  portErrs : Map Nat
  spare : Map Nat
  means : List Nat
  calm : Nat
  fw : List Nat
  hostOut : List Nat
  heldGo : Bool
  heldInv : Bool
  heldTl : List (Nat × Nat × BitVec 64)
  heldRs : List (Nat × BitVec 64)
  regWrites : List (Nat × Nat × Nat)
  modules : List Nat
  homes : List Nat
  cmdOpen : Bool
  repairs : List (Nat × Nat)
deriving DecidableEq, Repr

/-- A request that waits for its response at an endpoint that is no context (R62): endpoint, tag, and what it is for. -/
structure Req where
  ep : BitVec 16
  tag : Nat
  pkt : Pkt
  use : Nat
  a : Nat
  b : Nat
  c : Nat
deriving DecidableEq, Repr

/-- The state of the package. -/
structure State where
  boot : Boot
  mgmt : Mgmt
  running : Bool
  cicada : BitVec 64
  sub : Nat
  cyc : Nat
  agenda : List (Option Instr × EvArg)
  arg : EvArg
  timers : List (Nat × Instr × EvArg)
  cur : Nat
  todo : List Nat
  free : Nat
  mg : Map DWord
  mem : List Host.Cell
  ver : Map (BitVec 32)
  poison : List Nat
  ctxs : Map Ctx
  cores : Map Core
  net : List Flight
  nextId : Nat
  links : Map Link
  sendSeq : List (Flow × BitVec 12)
  recvs : List (Flow × Recv)
  rx : List Pkt
  merges : List MergeEntry
  sluices : Map Sluice
  rdc : Map (List RdcLine)
  slices : Map Slice
  lanes : Map Nat
  calendar : Map (BitVec 16)
  ponds : Map Pond
  grains : List GrainLoad
  circuits : List Circuit
  promos : List Promo
  probes : List ProbeRun
  recs : List Rec
  walks : Map Nat
  gangs : List Gang
  parts : Map Part
  invals : List Inval
  plcs : Map Plc
  moves : List Move
  ecc : List EccFault
  rma : Map (List RmaRun)
  podSend : List PodSend
  podRecv : List PodRecv
  podPorts : Map PodPort
  podOut : List (Nat × BitVec 64 × Pkt × List Bool)
  admitted : List Admitted
  flushes : List (Nat × Pkt × BitVec 64 × List Nat)
  viol : List (BitVec 16 × BitVec 8 × Nat)
  reqs : List Req
  bbx : Map (BitVec 256)
  badBbx : List (Nat × Nat)
  side : List (Nat × BitVec 64)
  hostOut : List (List Byte)
deriving DecidableEq, Repr

/-! ## The state right after reset -/

/-- A handle of a context loaded afresh: INVALID with VPN 0 (R171). -/
def Handle.init : Handle :=
  { st := 0, aret := false, size := 0, rd := false, wr := false, nc := false, fmt := 0, vpn := 0, pa := 0 }

/-- A circuit handle: FREE from reset (R91). -/
def CkHandle.init : CkHandle := { st := 0, cause := 0, leaseEnd := 0, resume := 0, cid := 0 }

/-- A stream port: FREE from reset (R205). -/
def Port.init : Port :=
  { st := 0, role := false, cause := 0, occ := 0, iacc := 0, pterm := 0, late := 0, sent := 0, wr := 0, rd := 0, rdp := 0,
    acq := 0, held := false, unrep := 0, desc := 0, sid := 0, part := 0, peerX := 0, peerQ := 0, due := none,
    samples := [], lastTick := 0, susp := 0 }

/-- A level that is not armed (R348). -/
def Level.init : Level := { armed := false, count := 0, pairs := [] }

/-- Scale latches of value 1.0 in every byte (R400). -/
def latchOne : Tile := BitVec.ofNat 16384 (127 * ((2 ^ 16384 - 1) / 255))

/-- A context that holds no task: R199's values where it gives them; the others are named in log entry 2, DESIGN CHOICE. -/
def Ctx.init : Ctx :=
  { task := false, halted := false, part := 0, rset := false, sup := false, stage := 0, taskIx := 0, gang := 0,
    exch := false, pri := 0, dfc := 0, age := 0, ct := 0, hct := 0, pc := 0, npc := none, sr := [], pr := [], vr := [],
    hr := [], kr := [], qr := [], tlr := [], vshape := 0, tw := [], wBase := 0, wMin := 1, wMax := 255, wCur := 0,
    tsBase := 0, tsSize := 0, acm := 0, phase := 0, rrb := 0, lastFrz := 0, infl := [], hinfl := [], nest := [],
    loop := none, hnest := [], hloop := none, readyAt := 0, fillCyc := 0, hold := none, await := .none, sawait := .none, released := false, walkRetry := none, walked := none, poll := none,
    pollTick := none, opened := none, inh := false, psup := false, secnt := 0, ti := [], deferred := [], hdeferred := [],
    trapi := none, wdCount := 0, pcWritten := false, la := latchOne, lb := latchOne, front := none, latches := [],
    floor := 0, remote := [], accs := [], ord := 0, q1 := [], q2 := [], q3 := [], q4 := [], incs := [], reload := none, epoch := 0 }

/-- An accumulator tile that nothing has cleared: its entries are undefined (R299). -/
def AccTile.init : AccTile := { epoch := some 0, ents := [], rows := [], busy := [] }

/-- A plane that has never been loaded: OWNER none (R400). -/
def Plane.init : Plane := { els := [], thr := 0, owner := none, form := false, win := 0, e0 := 0 }

/-- A core after reset: L = 3 (R185), CORE.PLIM 4,416 (R250), SPLIT 0 (R250). -/
def Core.init : Core :=
  { active := false, site := 0, last := 3, ts := ⟨[], [], []⟩, acc := [], planes := [], entry := none, inArray := [], loads := [],
    dc := [], split := 0, dcDrain := 0, wbs := [], corr := (0, 0), tlb := [], wcache := [], thr := [], roots := [], vf := [], evt := 0,
    window := [], pfrz := 0, limit := 4416, eff := 4416, nar := false, half := false, arrNar := false, mid := false, limCyc := 0, div := 0, pipe0 := 0,
    pipe1 := 0, step := 0, runs := [], starts := [], ic := [], bank := [], bankCyc := 0, rounds := [], want := [], refused := [], early := [],
    lands := [], recs := [] }

/-- A sluice whose entries are all FREE (R58). -/
def Sluice.init : Sluice := ⟨[], 0⟩
/-- A FREE meter entry (R58). -/
def Meter.init : Meter := ⟨0, 0, 0, 0, 0, 0⟩
/-- An empty home slice (R124). -/
def Slice.init : Slice := ⟨[], [], [], []⟩
/-- An empty millpond (R82). -/
def Pond.init : Pond := ⟨[], [], []⟩
/-- A placement controller that tracks nothing (R142). -/
def Plc.init : Plc := ⟨[], [], 0⟩
/-- The receiving side of a flow that has received nothing (R51). -/
def Recv.init : Recv := ⟨0, [], none, []⟩
/-- A link that has carried nothing (R53). -/
def Link.init : Link := ⟨0, 0, 0⟩
/-- A pod link's output with all its credits (R102). -/
def PodPort.init : PodPort := ⟨0, [], [], []⟩
/-- A partition before any invalidation (R177), with no open stream (R220). -/
def Part.init : Part :=
  { epoch := 0, kept := [], streams := [], opens := [], saved := [], swapping := 0, fetching := [], devs := [] }

/-- Boot step 0: nothing has run since reset (R23); the physical facts of boot are all healthy (log entry 9, DESIGN CHOICE). -/
def Boot.init : Boot :=
  { step := 0, stopped := false, images := [], want := [], fwd := [], badImage := [], auth := [], t2wait := 0, t2size := 0, placed := 0,
    plimit := 0, authTries := [], badTest := [], badSites := [], badModules := [], badLinks := [], badPods := [], filashOk := true }

/-- No die fenced, no link down, nothing pending. -/
def Mgmt.init : Mgmt :=
  { fenced := [], down := [], retrain := [], replays := [], portErrs := [], spare := [], means := [], calm := 0, fw := [],
    hostOut := [], heldGo := false, heldInv := false, heldTl := [], heldRs := [], regWrites := [], modules := [], homes := [],
    cmdOpen := false, repairs := [] }

/-- The package right after reset: boot step 0, the cicada at 0 and not started (R17, R23), every register at its reset
value, memory with nothing listed. -/
def State.reset : State :=
  { boot := Boot.init, mgmt := Mgmt.init, running := false, cicada := 0, sub := 0, cyc := 0, agenda := [],
    arg := EvArg.zero, timers := [], cur := 0, todo := [], free := 0, mg := [], mem := [], ver := [], poison := [], ctxs := [],
    cores := [], net := [], nextId := 1, links := [], sendSeq := [], recvs := [], rx := [], merges := [], sluices := [], rdc := [],
    slices := [], lanes := [], calendar := [], ponds := [], grains := [], circuits := [], promos := [], probes := [], recs := [], walks := [],
    gangs := [], parts := [], invals := [], plcs := [], moves := [], ecc := [], rma := [], podSend := [], podRecv := [], podPorts := [], podOut := [],
    admitted := [], flushes := [], viol := [], reqs := [], bbx := [], badBbx := [], side := [], hostOut := [] }

end Sys2Proof.Machine
end

