-- ==== Sys2Proof/Machine/Mem.lean ====
section
/-!
DEFINITION. Package memory as its homes see it (R117, R124, R252), with line versions (R64) and poison (R131, R132), and the
tile stores of the cores (R133).
-/

namespace Sys2Proof.Machine

open Sys2Proof

/-! ## Memory cells -/

/-- What a byte of memory that nothing has written reads as: 0 (log entry 3, DESIGN CHOICE). -/
def memDefault : Byte := 0

/-- The byte of package memory at an address. -/
def memByte (m : List Host.Cell) (a : Nat) : Byte := mget memDefault m a

/-- The canonical form of memory: addresses strictly rising, no entry equal to the default. -/
def memWf : List Host.Cell → Bool
  | [] => true
  | [(_, b)] => b != memDefault
  | (a, b) :: (c, d) :: m => a < c && b != memDefault && memWf ((c, d) :: m)

/-- n bytes from an address, of a memory that lists nothing below it. -/
def memRun : Nat → Nat → List Host.Cell → List Byte
  | 0, _, _ => []
  | n + 1, a, [] => memDefault :: memRun n (a + 1) []
  | n + 1, a, (k, b) :: m => if k = a then b :: memRun n (a + 1) m else memDefault :: memRun n (a + 1) ((k, b) :: m)

/-- n bytes from an address. -/
def memBytes (m : List Host.Cell) (a n : Nat) : List Byte := memRun n a (m.dropWhile (fun c => decide (c.1 < a)))

/-- The cells that bytes from an address take: a byte equal to the default is not listed. -/
def memCells : Nat → List Byte → List Host.Cell
  | _, [] => []
  | a, b :: l => if b = memDefault then memCells (a + 1) l else (a, b) :: memCells (a + 1) l

/-- The memory with bytes written from an address, in canonical form. -/
def memWrite (m : List Host.Cell) (a : Nat) (l : List Byte) : List Host.Cell :=
  m.takeWhile (fun c => decide (c.1 < a)) ++ memCells a l ++ m.dropWhile (fun c => decide (c.1 < a + l.length))

/-! ## Homes (R64, R124, R131, R132) -/

/-- Second-tier addresses (R117). -/
def isTier2 (pa : Nat) : Bool := 0x100000000000 ≤ pa && pa < 0x140000000000

/-- The version of a line; second-tier lines answer VER = 0 (R64, R123). -/
def lineVer (s : State) (line : Nat) : BitVec 32 := if isTier2 (line * 64) then 0 else mget 0 s.ver line

/-- The line is poisoned (R131). -/
def linePoison (s : State) (line : Nat) : Bool := s.poison.contains line

/-- The version after one more write to the line (R64). -/
def bumpVer (s : State) (line : Nat) : State :=
  if isTier2 (line * 64) then s else { s with ver := mset s.ver line (mget 0 s.ver line + 1) }

/-- Lines that n bytes from pa touch. -/
def linesOf (pa n : Nat) : List Nat := if n = 0 then [] else tab ((pa + n - 1) / 64 - pa / 64 + 1) (fun i => pa / 64 + i)

/-- n bytes from pa touch a poisoned line (R132). -/
def rangePoison (s : State) (pa n : Nat) : Bool := (linesOf pa n).any (linePoison s)

/-- The poison of a line after a write: cleared by a clean write of all 64 bytes, set by poisoned data, else kept (R132). -/
def poisonAfter (ps : List Nat) (line pa n : Nat) (bad : Bool) : List Nat :=
  if bad then (if ps.contains line then ps else line :: ps)
  else if pa ≤ line * 64 ∧ line * 64 + 64 ≤ pa + n then ps.filter (· != line) else ps

/-- A write performed at its home: the bytes, one version step for each line, the poison rule (R64, R132, R252). -/
def homeWrite (s : State) (pa : Nat) (l : List Byte) (bad : Bool) : State :=
  let ls := linesOf pa l.length
  let s1 := { s with mem := memWrite s.mem pa l, poison := ls.foldl (fun p n => poisonAfter p n pa l.length bad) s.poison }
  ls.foldl bumpVer s1

/-- The bytes that a read performed at its home returns (R252). -/
def homeRead (s : State) (pa n : Nat) : List Byte := memBytes s.mem pa n

/-! ## Tile stores (R132, R133) -/

/-- A byte of a tile store's 64-byte row: one that nothing has written in its epoch is a free value (log entry 4, DESIGN CHOICE). -/
def tsCell (t : TileStore) (row : Map Byte) (a : Nat) : Byte :=
  match mfind row (a % 64) with
  | some b => b
  | none => Config.freeTileByte (mget 0 t.epoch (a / 65536)) a

/-- The byte of a tile store at a core address. -/
def tsByte (t : TileStore) (a : Nat) : Byte := tsCell t (mget [] t.cells (a / 64)) a

/-- The 64 bytes of a row of a tile store. -/
def tsRow (t : TileStore) (r : Nat) : List Byte :=
  let row := mget [] t.cells r
  tab 64 (fun i => tsCell t row (64 * r + i))

/-- n bytes of a tile store (R10, `ts_read`). -/
def tsBytes (t : TileStore) (a n : Nat) : List Byte :=
  if n ≤ 8 then tab n (fun i => tsByte t (a + i))
  else ((tab ((a % 64 + n + 63) / 64) (fun i => tsRow t (a / 64 + i))).flatten.drop (a % 64)).take n

/-- A byte of a tile store, written. -/
def tsPutByte (cells : Map (Map Byte)) (a : Nat) (b : Byte) : Map (Map Byte) :=
  mset cells (a / 64) (mset (mget [] cells (a / 64)) (a % 64) b)

/-- Bytes written to a tile store (R10, `ts_write`), without the poison rule. -/
def tsPut (t : TileStore) (a : Nat) : List Byte → TileStore
  | [] => t
  | b :: l => tsPut { t with cells := tsPutByte t.cells a b } (a + 1) l

/-- The sectors of 32 bytes that n bytes touch. -/
def sectorsOf (a n : Nat) : List Nat := if n = 0 then [] else tab ((a + n - 1) / 32 - a / 32 + 1) (fun i => a / 32 + i)

/-- A sector that n bytes from a touch is poisoned. -/
def tsPoisoned (t : TileStore) (a n : Nat) : Bool := (sectorsOf a n).any (fun k => t.poison.contains k)

/-- The poison of a sector after a write: cleared by a clean write of all 32 bytes, set by poisoned data, else kept
(R132). -/
def sectorAfter (ps : List Nat) (k a n : Nat) (bad : Bool) : List Nat :=
  if bad then (if ps.contains k then ps else k :: ps)
  else if a ≤ k * 32 ∧ k * 32 + 32 ≤ a + n then ps.filter (· != k) else ps

/-- A store or engine write to a tile store in one access (R132). -/
def tsWrite (t : TileStore) (a : Nat) (l : List Byte) (bad : Bool) : TileStore :=
  let u := tsPut t a l
  { u with poison := (sectorsOf a l.length).foldl (fun p k => sectorAfter p k a l.length bad) u.poison }

/-- Bytes at separate addresses written in one access: a sector that they cover whole is clean afterwards (R132). -/
def tsPutCells (t : TileStore) (cells : List (Nat × Byte)) : TileStore :=
  let u := { t with cells := cells.foldl (fun m (c : Nat × Byte) => tsPutByte m c.1 c.2) t.cells }
  { u with poison := u.poison.filter (fun k => !(List.range 32).all (fun i => cells.any (fun c => c.1 == 32 * k + i))) }

/-- The bytes lo to hi − 1 of a tile store lose their contents: they are undefined until written (R137, R199). -/
def tsForget (t : TileStore) (lo hi epoch : Nat) : TileStore :=
  { cells := t.cells.filter (fun c => c.1 * 64 < lo || hi ≤ c.1 * 64),
    epoch := (tab ((hi - lo) / 65536) (fun i => lo / 65536 + i)).foldl (fun e k => mset e k epoch) t.epoch,
    poison := t.poison.filter (fun k => k * 32 < lo || hi ≤ k * 32) }

end Sys2Proof.Machine
end

