-- ==== Sys2Proof/Machine/Window.lean ====
section
/-!
DEFINITION. Management windows (R149): offsets, reset values, fields; host interrupts (R151-R153); the black-box record
(R37-R42); the address map (R117) and the homes of addresses (R31, R147).
-/

namespace Sys2Proof.Machine

open Sys2Proof

/-! ## Offsets -/

def oConfig : Nat := 0x0000
def oPower : Nat := 0x0008
def oBbx : Nat := 0x0010
def oMem : Nat := 0x0018
def oHint : Nat := 0x0020
def oHintMask : Nat := 0x0028
def oFact : Nat := 0x0030
def oMbCmd : Nat := 0x0040
def oMbArg0 : Nat := 0x0048
def oMbArg1 : Nat := 0x0050
def oRepLog : Nat := 0x0090
def oInv : Nat := 0x00A0
def oPartCfg (p : Nat) : Nat := 0x0100 + 8 * p
def oPartRs (p : Nat) : Nat := 0x0140 + 8 * p
def oRoot (p : Nat) : Nat := 0x0180 + 8 * p
def oThr (p : Nat) : Nat := 0x01C0 + 8 * p
def oThresh (p : Nat) : Nat := 0x0200 + 8 * p
def oSluSel : Nat := 0x0240
def oSluData : Nat := 0x0248
def oLink (n : Nat) : Nat := 0x0280 + 8 * n
def oHvec (p : Nat) : Nat := 0x0300 + 8 * p
def oCpCtl : Nat := 0x0400
def oPlim (p : Nat) : Nat := 0x0408 + 8 * p
def oMillPos : Nat := 0x0480
def oPlcCtl : Nat := 0x0600
def oPool (k : Nat) : Nat := 0x0610 + 16 * k
def oPlcRet : Nat := 0x0710
def oPlcAbort : Nat := 0x0720
def oPlcLost : Nat := 0x0730
def oPodId : Nat := 0x0800
def oPodCtl : Nat := 0x0808
def oPodPart (p : Nat) : Nat := 0x0810 + 8 * p
def oPodViol : Nat := 0x0850
def oPodLink (n : Nat) : Nat := 0x0900 + 8 * n
def oPodRoute (d : Nat) : Nat := 0x1000 + 8 * d
def oCal : Nat := 0x3000
def oQueue (p q : Nat) : Nat := 0x4000 + 0x400 * p + 32 * q
def oBbxEntry : Nat := 0x10000
def oReg (p i : Nat) : Nat := 0x200000 + 0x2000 * p + 32 * i
def oRma (p q : Nat) : Nat := 0x210000 + 0x800 * p + 32 * q

/-- A register that stands in every compute die's window (R42, R61, R67, R74, R77, R79, R81, R143, R144, R181, R182, R243); every other
stands in C0's only, PKG.POWER, PKG.CONFIG and PKG.MEM among them (log entry 55, DESIGN CHOICE). -/
def everyDie (off : Nat) : Bool :=
  off == oBbx || off == oFact || (decide (oThresh 0 ≤ off) && decide (off < oThresh 8)) || (decide (oSluSel ≤ off) && decide (off < oSluData + 16))
  || (decide (oLink 0 ≤ off) && decide (off < oLink 7)) || (decide (oCpCtl ≤ off) && decide (off < oPlim 8)) || off == oMillPos
  || (decide (oPlcCtl ≤ off) && decide (off < oPlcLost + 16)) || (decide (oCal ≤ off) && decide (off < oCal + 1792))
  || (decide (oBbxEntry ≤ off) && decide (off < oBbxEntry + 0x100000))

/-- Reset values of the registers of a die's window, by offset (the tables of R22, R42, R61, R74, R81, R112, R115, R143, R144, R151,
R155); 0 where the table says 0, where it says "—" (log entry 2, DESIGN CHOICE), and where the die's window has no register (R149). -/
def mgReset (die off : Nat) : DWord :=
  if die ≠ 0 ∧ ¬ everyDie off then 0
  else if off = oPower then 4400
  else if off = oHintMask then 1
  else if off = oCpCtl then BitVec.ofNat 64 (4 + 32 * 2 ^ 16)
  else if oPlim 0 ≤ off ∧ off ≤ oPlim 7 then 128
  else if off = oPlcCtl then BitVec.ofNat 64 (256 * 2 ^ 8 + 16 * 2 ^ 24 + 64 * 2 ^ 32)
  else if (oPool 0 ≤ off ∧ off ≤ oPool 9 ∧ off % 16 = 0) ∨ off = oPlcRet ∨ off = oPlcLost then BitVec.ofNat 64 (8 * 2 ^ 48)
  else if off = oPodCtl then BitVec.ofNat 64 (16 + 8 * 2 ^ 8)
  else if oRma 0 0 ≤ off ∧ off < oRma 8 0 ∧ off % 32 = 0 then BitVec.ofNat 64 (4 * 2 ^ 48)
  else 0

/-- Key of a register of a die's window. -/
def mgKey (die off : Nat) : Nat := die * 2 ^ 21 + off / 8

/-- A stored register of a die's window. -/
def mgGet (s : State) (die off : Nat) : DWord := mget (mgReset die off) s.mg (mgKey die off)

/-- The state with a register of a die's window set. -/
def mgSet (s : State) (die off : Nat) (v : DWord) : State := { s with mg := mset s.mg (mgKey die off) v }

/-- A field of a register, bits lo+n-1 : lo. -/
def mgF (s : State) (die off lo n : Nat) : Nat := bitsN (mgGet s die off) lo n

/-- The state with a field of a register set. -/
def mgSetF (s : State) (die off lo n x : Nat) : State := mgSet s die off (setBits (mgGet s die off) lo n x)

/-! ## Host interrupts (R151-R153) -/

/-- HINT.STATUS AND HINT.MASK. -/
def hintOn (s : State) : DWord := mgGet s 0 oHint &&& mgGet s 0 oHintMask

/-- The INTR message of R153, with bits 12:0 of STATUS AND MASK. -/
def intrMsg (s : State) : BitVec 64 := BitVec.ofNat 64 (1 + bitsN (hintOn s) 0 13 * 2 ^ 16)

/-- The UCIe module of die k is up: its die is healthy and its link (gateway 6) is not marked down (R146, R147). -/
def moduleUp (s : State) (k : Nat) : Bool := !s.mgmt.fenced.contains k && !s.mgmt.down.contains (k * 8 + 6)

/-- After a change of STATUS or MASK: one INTR message when their AND went from zero to non-zero, on module U[0], or on the
lowest-numbered module of U that is up, if one is (R152). -/
def hintEdge (old s : State) : State :=
  if hintOn old = 0 ∧ hintOn s ≠ 0 then
    match s.mgmt.modules.find? (moduleUp s) with
    | some k => { s with side := s.side ++ [(k, intrMsg s)] }
    | none => s
  else s

/-- A source of HINT.STATUS fires (R151). -/
def setHint (s : State) (b : Nat) : State := hintEdge s (mgSet s 0 oHint (mgGet s 0 oHint ||| BitVec.ofNat 64 (2 ^ b)))

def hintReady : Nat := 0
def hintMbDone : Nat := 1
def hintPAlarm : Nat := 2
def hintTrip : Nat := 3
def hintPodViol : Nat := 4
def hintRevoke : Nat := 5
def hintRma : Nat := 6
def hintFenced : Nat := 7
def hintRepair : Nat := 8
def hintQErr : Nat := 9
def hintFwDone : Nat := 10
def hintLinkDn : Nat := 11
def hintPlcAbort : Nat := 12

/-! ## Dies, links (R13, R29, R146) -/

def isFenced (s : State) (code : Nat) : Bool := s.mgmt.fenced.contains code

/-- The compute die Ck is healthy. -/
def dieOk (s : State) (k : Nat) : Bool := k < 8 && !isFenced s k

/-- The memory die Mk is healthy. -/
def memOk (s : State) (k : Nat) : Bool := k < 8 && !isFenced s (8 + k)

/-- The Filash die is healthy (PKG.CONFIG.FILASH, R36). -/
def filashOk (s : State) : Bool := mgF s 0 oConfig 16 1 == 1

/-- Link key of gateway n of die k (R146). -/
def linkKey (k n : Nat) : Nat := k * 8 + n

/-- Gateway n of die k is up. -/
def gwUp (s : State) (k n : Nat) : Bool := dieOk s k && !s.mgmt.down.contains (linkKey k n)

/-- The other end of a die-to-die link or memory port, as die code and gateway; a memory die's port carries the number of the
compute die's gateway (R13, R146). -/
def across (d n : Nat) : Nat × Nat :=
  if d < 8 then
    (if n = 0 then ((d + 1) % 8, 1) else if n = 1 then ((d + 7) % 8, 0) else if n = 2 then ((d + 4) % 8, 2)
     else if n = 3 then (8 + d, 3) else (8 + (d + 7) % 8, 4))
  else if n = 3 then (d - 8, 3) else ((d - 7) % 8, 4)

/-- The two ends of an electrical link between compute dies: a ring link is gateway 0 of Ck and gateway 1 of C(k+1), a chord
is gateway 2 of both (R13, R146). -/
def ringUp (s : State) (k : Nat) : Bool := gwUp s k 0 && gwUp s ((k + 1) % 8) 1
def chordUp (s : State) (k : Nat) : Bool := gwUp s k 2 && gwUp s ((k + 4) % 8) 2

/-- Healthy electrical neighbours of Ck in the order of R49: chord, ring up, ring down. -/
def neighbours (s : State) (k : Nat) : List (Nat × Nat) :=
  (if chordUp s k then [(2, (k + 4) % 8)] else []) ++ (if ringUp s k then [(0, (k + 1) % 8)] else [])
  ++ (if ringUp s ((k + 7) % 8) then [(1, (k + 7) % 8)] else [])

/-- Dies within n hops of a set, over healthy links (R49). -/
def reach (s : State) : Nat → List Nat → List Nat
  | 0, l => l
  | n + 1, l => reach s n ((l ++ l.flatMap (fun k => (neighbours s k).map (·.2))).eraseDups)

/-- Electrical hops from Ca to Cb over healthy links, searched from i upwards; 8 when there is no path (R49). -/
def hopsFrom (s : State) (a b : Nat) : Nat → Nat → Nat
  | 0, _ => 8
  | f + 1, i => if (reach s i [a]).contains b then i else hopsFrom s a b f (i + 1)

def hops (s : State) (a b : Nat) : Nat := hopsFrom s a b 8 0

/-- The next hop from Ck towards Cd: gateway and die, the first of the order of R49 on a shortest path. -/
def nextHop (s : State) (k d : Nat) : Option (Nat × Nat) :=
  (neighbours s k).find? (fun nb => hops s nb.2 d + 1 = hops s k d)

/-- A memory port of Mj at Ck is up: gateway 3 of Cj, gateway 4 of C(j+1) (R13, R146). -/
def memPortUp (s : State) (k j : Nat) : Bool :=
  (k = j && gwUp s k 3) || (k = (j + 1) % 8 && gwUp s k 4)

/-- The compute die by which a packet at Ck reaches Mj: the fewer hops, Cj on a tie, the other when one is fenced or its port
is down (R49). -/
def memDie (s : State) (k j : Nat) : Option Nat :=
  let a := j
  let b := (j + 1) % 8
  let ua := memPortUp s a j
  let ub := memPortUp s b j
  if ua && ub then some (if hops s k a ≤ hops s k b then a else b)
  else if ua then some a else if ub then some b else none

/-! ## The address map (R31, R117, R121, R147) -/

/-- PKG.MEM.PLACED, G and T2SIZE (R119). -/
def placed (s : State) : Nat := mgF s 0 oMem 0 6
def granules (s : State) : Nat := mgF s 0 oMem 8 24
def tier2Gib (s : State) : Nat := mgF s 0 oMem 32 13

/-- The address is populated (R117). -/
def populated (s : State) (pa : Nat) : Bool :=
  if pa < 0x8000000000 then pa / 65536 < granules s
  else if pa < 0x10000000000 then
    let k := (pa - 0x8000000000) / 0x1000000000
    memOk s k && (pa - 0x8000000000) % 0x1000000000 < placed s * 2 ^ 30
  else isTier2 pa && pa - 0x100000000000 < tier2Gib s * 2 ^ 30

/-- Every byte of a range is populated; the pieces of the map are multiples of 64 KiB. -/
def populatedRange (s : State) (pa n : Nat) : Bool := populated s pa && (n = 0 || populated s (pa + n - 1))

/-- Floor(h × N / 2^32) for a list of N things (R31, R147). -/
def hashPick (l : List Nat) (h : Nat) : Nat := l.getD (h * l.length / 4294967296) 0

/-- The memory die that is the home of a first-tier address (R31, R117). -/
def homeMem (s : State) (pa : Nat) : Nat :=
  if pa < 0x8000000000 then hashPick s.mgmt.homes (h32 (pa / 65536)) else (pa - 0x8000000000) / 0x1000000000

/-- The UCIe module that carries a second-tier line (R147). -/
def moduleOf (s : State) (pa : Nat) : Nat := hashPick s.mgmt.modules (h32 (pa / 64))

/-- An endpoint id (R47). -/
def epId (die unit : Nat) : Ep := BitVec.ofNat 16 (die * 2048 + unit)
def epDie (e : Ep) : Nat := e.toNat / 2048
def epUnit (e : Ep) : Nat := e.toNat % 2048

/-- The endpoint of the home of a package physical address; unit 1 is the atomic unit (R47, R117, R123). -/
def homeEp (s : State) (pa : Nat) (atomic : Bool) : Ep :=
  if isTier2 pa then epId 0x11 0 else epId (8 + homeMem s pa) (if atomic then 1 else 0)

/-! ## The black-box record (R37-R42) -/

/-- The compute die whose record holds an event of a die code (R37).  When Ck and C(k+1 mod 8) have both been fenced in service an event
of Mk goes to the record of the fenced C(k+1 mod 8), which is retained (log entry 56, DESIGN CHOICE). -/
def bbxDie (s : State) (code : Nat) : Nat :=
  if code < 8 then (if s.mgmt.fenced.contains code then 0 else code)
  else if code < 16 then (if s.mgmt.fenced.contains (code - 8) then (code - 8 + 1) % 8 else code - 8)
  else 0

/-- An entry of R39. -/
def bbxEntry (time cls code cause part unit count : Nat) (data : BitVec 128) : BitVec 256 :=
  data ++ BitVec.ofNat 16 count ++ BitVec.ofNat 16 unit ++ BitVec.ofNat 8 part ++ BitVec.ofNat 8 cause
    ++ BitVec.ofNat 8 code ++ BitVec.ofNat 8 cls ++ BitVec.ofNat 64 time

/-- The entry with one more identical event merged into it (R41). -/
def bbxMerge (e : BitVec 256) : BitVec 256 := setBits e 112 16 (min (bitsN e 112 16 + 1) 0xFFFF)

/-- The field values that must be equal for a merge (R41). -/
def bbxKeyOf (e : BitVec 256) : BitVec 112 := bits e 0 112

/-- An event is written to die d's record: merged into an entry of the same tick that is equal in all fields but TIME, COUNT and
DATA, else written at NEXT, and NEXT, WRAP and TOTAL advance; a bad entry is bad no more once it is overwritten (R41, R42).  The
cicada's value names the tick, also before the cicada starts (log entry 57, DESIGN CHOICE). -/
def bbxLogAt (d : Nat) (s : State) (cls code cause part unit : Nat) (data : BitVec 128) : State :=
  let e := bbxEntry s.cicada.toNat cls code cause part unit 0 data
  match s.bbx.find? (fun q => q.1 / 32768 = d && bbxKeyOf q.2 = bbxKeyOf e) with
  | some q => { s with bbx := mset s.bbx q.1 (bbxMerge q.2) }
  | none =>
    let nx := mgF s d oBbx 0 15
    let tot := mgF s d oBbx 16 32
    let s1 := { s with bbx := mset s.bbx (d * 32768 + nx) e, badBbx := s.badBbx.filter (fun b => b != (d, nx)) }
    let s2 := mgSetF s1 d oBbx 0 15 ((nx + 1) % 32768)
    let s3 := mgSetF s2 d oBbx 16 32 (min (tot + 1) 0xFFFFFFFF)
    if tot + 1 > 32768 then mgSetF s3 d oBbx 15 1 1 else s3

/-- An event of a die code is written to the record of R37. -/
def bbxLog (s : State) (cls code cause part unit : Nat) (data : BitVec 128) : State := bbxLogAt (bbxDie s code) s cls code cause part unit data

/-- An event of a die that is about to be fenced for it is written to C0's record (R37). -/
def bbxLogC0 (s : State) (cls code cause part unit : Nat) (data : BitVec 128) : State := bbxLogAt 0 s cls code cause part unit data

/-! ## Time (R17, R75, R250) -/

/-- CORE.CYC: 256 × cicada plus the cycles since its last advance; 0 until the cicada starts (R250). -/
def coreCyc (s : State) : Nat := if s.running then 256 * s.cicada.toNat + s.sub else 0

/-- MILL.POS (R75, R77). -/
def sailNumber (s : State) : Nat := coreCyc s / 1128
def sailIndex (s : State) : Nat := sailNumber s % 7
def sailOffset (s : State) : Nat := coreCyc s % 1128
def millPos (s : State) : DWord :=
  BitVec.ofNat 64 (sailOffset s + sailIndex s * 2 ^ 11 + (if sailOffset s ≥ 1034 then 2 ^ 14 else 0)
    + sailNumber s / 7 % 2 ^ 48 * 2 ^ 16)

/-- partner(i, s) and sail(i, j) of R76. -/
def partner (i s : Nat) : Nat := if i = 7 then s else if i = s then 7 else (2 * s + 7 - i) % 7
def directSail (i j : Nat) : Nat := if j = 7 then i else if i = 7 then j else 4 * (i + j) % 7

/-- A timer of the device: an event that falls due after n cycles. -/
def addTimer (s : State) (n : Nat) (e : Instr) (a : EvArg) : State := { s with timers := s.timers ++ [(s.cyc + n, e, a)] }

end Sys2Proof.Machine
end

