-- ==== Sys2Proof/Machine/Ops.lean ====
section
/-!
DEFINITION. The operations every instruction shares: contexts and cores, registers and their names (R229, R230, R309),
results and write points (R226, R227), the image and its causes (R303-R306), taking a trap (R308) and returning (R310), the
sequence of bundles with the hardware loop (R345-R353), and the issue of a bundle (R304, R305, R492).
-/

namespace Sys2Proof.Machine

open Sys2Proof

/-- The outcome of a meaning. -/
abbrev Res := Host.Outcome State Fault Refusal

/-- The meaning of an event: what its rule says it does where its rule says it arises, and no such event elsewhere. -/
def gate (on : Bool) (name : String) (eff : State → State) (s : State) : Res :=
  if on then .next (eff s) else .refused (.notEnabled name)

/-! ## Contexts and cores -/

def getX (s : State) (x : Nat) : Ctx := mget Ctx.init s.ctxs x
def setX (s : State) (x : Nat) (c : Ctx) : State := { s with ctxs := mset s.ctxs x c }
def modX (s : State) (x : Nat) (f : Ctx → Ctx) : State := setX s x (f (getX s x))
def getC (s : State) (k : Nat) : Core := mget Core.init s.cores k
def setC (s : State) (k : Nat) (c : Core) : State := { s with cores := mset s.cores k c }
def modC (s : State) (k : Nat) (f : Core → Core) : State := setC s k (f (getC s k))
def getPart (s : State) (p : Nat) : Part := mget Part.init s.parts p
def modPart (s : State) (p : Nat) (f : Part → Part) : State := { s with parts := mset s.parts p (f (getPart s p)) }

/-- The core of a context, its die, cluster and number (R248). -/
def coreOf (x : Nat) : Nat := x / 4
def dieOf (k : Nat) : Nat := k / 64
def clusterOf (k : Nat) : Nat := k / 16 % 4
def coreNum (k : Nat) : Nat := k % 16

/-- The contexts of a core that hold a task. -/
def tasksOn (s : State) (k : Nat) : List Nat := (tab 4 (fun i => 4 * k + i)).filter (fun x => (getX s x).task)

/-- The tile store of a context's core. -/
def getTs (s : State) (x : Nat) : TileStore := (getC s (coreOf x)).ts
def setTs (s : State) (x : Nat) (t : TileStore) : State := modC s (coreOf x) (fun k => { k with ts := t })

/-! ## Register names (R229, R230, R309) -/

/-- The physical register behind a scalar name: the handler bank behind s16-s23, the rotation behind s24-s31. -/
def physS (c : Ctx) (n : Nat) : Nat :=
  if n < 16 then n else if n < 24 then (if c.inh then n + 16 else n) else 24 + (n + 8 - c.rrb.toNat) % 8

/-- The physical predicate behind a name: the handler bank behind p4-p7, the rotation behind p8-p15. -/
def physP (c : Ctx) (n : Nat) : Nat :=
  if n < 4 then n else if n < 8 then (if c.inh then n + 12 else n) else 8 + (n + 8 - c.rrb.toNat) % 8

/-- The physical vector tile behind a name. -/
def physV (c : Ctx) (n : Nat) : Nat := if n < 24 then n else 24 + (n + 8 - c.rrb.toNat) % 8

/-- A physical scalar register; physical 0 reads zero. -/
def readPhysS (c : Ctx) (n : Nat) : DWord := if n = 0 then 0 else mget 0 c.sr n

/-- A scalar register by name: s0 reads zero (R229). -/
def readS (c : Ctx) (r : BitVec 5) : DWord := readPhysS c (physS c r.toNat)

/-- A predicate by name: p0 reads true (R229). -/
def readP (c : Ctx) (r : BitVec 4) : Bool := if r = 0 then true else mget false c.pr (physP c r.toNat)

/-- A vector tile by name. -/
def readV (c : Ctx) (r : BitVec 5) : Tile := mget 0 c.vr (physV c r.toNat)

/-- A guard holds (R322, R344). -/
def guardOn (c : Ctx) (g : BitVec 5) : Bool := (readP c (g.extractLsb' 0 4)) != g.getLsbD 4

def readH (c : Ctx) (h : Nat) : Handle := mget Handle.init c.hr h
def readK (c : Ctx) (k : Nat) : CkHandle := mget CkHandle.init c.kr k
def readQ (c : Ctx) (q : Nat) : Port := mget Port.init c.qr q
def readTl (c : Ctx) (t : Nat) : DWord := mget 0 c.tlr t
def readTw (c : Ctx) (w : Nat) : DWord := mget 0 c.tw w
def setH (c : Ctx) (h : Nat) (v : Handle) : Ctx := { c with hr := mset c.hr h v }
def setK (c : Ctx) (k : Nat) (v : CkHandle) : Ctx := { c with kr := mset c.kr k v }
def setQ (c : Ctx) (q : Nat) (v : Port) : Ctx := { c with qr := mset c.qr q v }
def setTl (c : Ctx) (t : Nat) (v : DWord) : Ctx := { c with tlr := mset c.tlr t v }

/-! ## Context time and results (R225-R228, R309) -/

/-- The time that the context's bundles count: CT, or HCT in handler mode. -/
def Ctx.time (c : Ctx) : Nat := if c.inh then c.hct else c.ct

/-- The results in flight of the mode the context is in. -/
def Ctx.results (c : Ctx) : List Result := if c.inh then c.hinfl else c.infl

def Ctx.setResults (c : Ctx) (l : List Result) : Ctx := if c.inh then { c with hinfl := l } else { c with infl := l }

/-- A result joins those in flight, after every result whose write point is not later. -/
def insResult : List Result → Result → List Result
  | [], r => [r]
  | a :: l, r => if a.wp ≤ r.wp then a :: insResult l r else r :: a :: l

/-- A result of the bundle at the context's present time, of latency L. -/
def Ctx.addResult (c : Ctx) (lat : Nat) (eff : RegWrite) (form : Nat) (stat : RStat) : Ctx :=
  c.setResults (insResult c.results ⟨c.time + lat, eff, form, stat⟩)

/-- Bytes of a tile replaced under a mask. -/
def maskTile (old v mask : Tile) : Tile := (old &&& ~~~mask) ||| (v &&& mask)

/-- The storage behind a core address: with exchange, the front range reaches bank PHASE[0] (R139). -/
def tsPhys (c : Ctx) (a : Nat) : Nat :=
  if c.exch && 0x380000 ≤ a && a < 0x3C0000 && bit c.phase 0 then a + 0x40000 else a

/-- One result is written. -/
def applyWrite (c : Ctx) (t : TileStore) : RegWrite → Ctx × TileStore
  | .sreg r v => ({ c with sr := mset c.sr r v }, t)
  | .preg r b => ({ c with pr := mset c.pr r b }, t)
  | .vreg r v m => ({ c with vr := mset c.vr r (maskTile (mget 0 c.vr r) v m) }, t)
  | .handle r h => ({ c with hr := mset c.hr r h }, t)
  | .tile cells => (c, tsPutCells t (cells.map (fun p => (tsPhys c p.1, p.2))))

/-- TI.PEND bit of a cause code (R306). -/
def pendBit (c : Ctx) (code : Nat) : Bool := bit (mget 0 c.ti 9) code
def setPend (c : Ctx) (code : Nat) (b : Bool) : Ctx :=
  { c with ti := mset c.ti 9 (setBits (mget 0 c.ti 9) code 1 (if b then 1 else 0)) }

/-- A deferred cause of the program arrives: only the first of a code that is pending keeps its image (R305). -/
def addDeferred (c : Ctx) (d : Deferred) : Ctx :=
  if pendBit c d.code then c else { setPend c d.code true with deferred := c.deferred ++ [d] }

/-- A deferred cause of an access: the handler's own are kept apart (R311). -/
def addCause (c : Ctx) (inh : Bool) (d : Deferred) : Ctx :=
  if inh then { c with hdeferred := c.hdeferred ++ [d] } else addDeferred c d

/-- Results due at time t are written in order, up to the first that is not complete; one whose access failed raises its
cause and writes nothing (R226, R227, R304). -/
def settleList (t : Nat) (inh : Bool) : List Result → Ctx → TileStore → List Result × Ctx × TileStore
  | [], c, ts => ([], c, ts)
  | r :: l, c, ts =>
    if r.wp ≤ t then
      match r.stat with
      | .done => let p := applyWrite c ts r.eff; settleList t inh l p.1 p.2
      | .failed d => settleList t inh l (addCause c inh d) ts
      | .waiting _ => (r :: l, c, ts)
    else (r :: l, c, ts)

/-- A result due at time t writes the tile store. -/
def tileDue (t : Nat) (l : List Result) : Bool :=
  l.any (fun r => decide (r.wp ≤ t) && match r.eff with | .tile _ => true | _ => false)

/-- The results due at the context's present time are written. -/
def settle (s : State) (x : Nat) : State :=
  let c := getX s x
  let r := settleList c.time c.inh c.results c (getTs s x)
  let s1 := if tileDue c.time c.results then setTs s x r.2.2 else s
  setX s1 x (r.2.1.setResults r.1)

/-- A result due now has not been written: the bundle waits (R227). -/
def notReady (c : Ctx) : Bool := c.results.any (fun r => r.wp ≤ c.time)

/-! ## The image (R303, R306) -/

/-- An address in TI.ADDR: plain, physical (bit 63), tile store (bit 62). -/
def tiVa (a : Nat) : DWord := BitVec.ofNat 64 (a % 2 ^ 56)
def tiPhys (a : Nat) : DWord := BitVec.ofNat 64 (a % 2 ^ 56 + 2 ^ 63)
def tiTs (a : Nat) : DWord := BitVec.ofNat 64 (a % 2 ^ 56 + 2 ^ 62)

def cIEN : Nat := 0x01
def cIIL : Nat := 0x02
def cPRIV : Nat := 0x03
def cSCHED : Nat := 0x04
def cALIGN : Nat := 0x05
def cBOUND : Nat := 0x06
def cHINV : Nat := 0x07
def cPFLT : Nat := 0x08
def cPPROT : Nat := 0x09
def cFMT : Nat := 0x0A
def cPOISON : Nat := 0x0B
def cBOVR : Nat := 0x0C
def cCKFAIL : Nat := 0x0D
def cREVOKED : Nat := 0x0E
def cFLOSS : Nat := 0x0F
def cCOUPLE : Nat := 0x10
def cTRAPI : Nat := 0x11
def cWDOG : Nat := 0x12
def cQDEAD : Nat := 0x13
def cPREEMPT : Nat := 0x14
def cSOFTERR : Nat := 0x15

/-- A cause found by a check: its code and what the image will hold (R303). -/
structure Cause where
  code : Nat
  reason : Nat
  extra : Nat
  addr : DWord
deriving DecidableEq, Repr

/-- A cause with only a code and TI.ADDR. -/
def causeAt (code : Nat) (addr : DWord) : Cause := ⟨code, 0, 0, addr⟩

/-- TI.CAUSE (R306): kind 0 issue, 1 deferred, 2 after, 3 event; ACT = 0. -/
def tiCause (code kind slot reason extra : Nat) : DWord :=
  BitVec.ofNat 64 (code % 256 + kind % 4 * 2 ^ 8 + slot % 16 * 2 ^ 10 + reason % 256 * 2 ^ 16 + extra % 256 * 2 ^ 24)

/-- A task begins to end (R357, R310): its results and its pending causes are discarded; it issues no further bundle. -/
def endTask (s : State) (x : Nat) (fault : Bool) : State :=
  modX s x (fun c => { c with await := .ending fault, infl := [], hinfl := [], deferred := [], hdeferred := [], loop := none,
                              hloop := none, hold := none, trapi := none, ti := mset c.ti 9 0 })

/-- What is being resolved for a bundle that was presented and has not issued is dropped, its polls with it. -/
def Ctx.fresh (c : Ctx) : Ctx :=
  { c with hold := none, poll := none, pollTick := none, opened := none, walkRetry := none, walked := none,
           accs := c.accs.filter (fun a => a.kind != .poll) }

/-- The image that a trap writes (R304, R306): TI.CAUSE with ACT = 0, TI.PC, TI.CT, TI.ADDR, TI.OPC, TI.OCT; the cause's pending bit
is cleared. -/
def trapImage (c : Ctx) (kind slot : Nat) (q : Cause) (opc : Va) (oct : Nat) : Map DWord :=
  let ti0 := mset (setPend c q.code false).ti 0 (tiCause q.code kind slot q.reason q.extra)
  let ti1 := mset ti0 1 (BitVec.zeroExtend 64 c.pc)
  let ti2 := mset ti1 2 (BitVec.ofNat 64 c.ct)
  let ti3 := mset ti2 3 q.addr
  let ti4 := mset ti3 4 (BitVec.zeroExtend 64 opc)
  mset ti4 5 (BitVec.ofNat 64 oct)

/-- A context that takes a trap in a cycle (R308): PSUP takes the privilege, INH is set, the context is a supervisor, HCT is 0,
and fetching starts at TI.HVEC; it is not ready for 12 cycles. -/
def trapCtx (cyc : Nat) (c : Ctx) (kind slot : Nat) (q : Cause) (opc : Va) (oct : Nat) : Ctx :=
  { c.fresh with ti := trapImage c kind slot q opc oct, psup := c.sup, inh := true, sup := true, hct := 0,
                 pc := BitVec.truncate 52 (mget 0 c.ti 7), readyAt := cyc + 13, hnest := [], hloop := none, hinfl := [],
                 hdeferred := [], sawait := c.await, await := .none, pcWritten := false, trapi := none }

/-- Taking a trap (R308).  In handler mode it is a double trap, which writes no image and ends the task as with END (R311); a handler
VA of zero is a double trap too, of a context that has entered handler mode (R309; log entry 19, DEDUCED). -/
def enterTrap (s : State) (x : Nat) (kind slot : Nat) (q : Cause) (opc : Va) (oct : Nat) : State :=
  let c := getX s x
  if c.inh then endTask s x true
  else
    let t := setX s x (trapCtx s.cyc c kind slot q opc oct)
    if mget 0 c.ti 7 == 0 then endTask t x true else t

/-- An issue trap: TI.PC and TI.OPC, TI.CT and TI.OCT name the bundle, which is cancelled (R304). -/
def issueTrap (s : State) (x slot : Nat) (q : Cause) : State :=
  enterTrap s x 0 slot q (getX s x).pc (getX s x).ct

/-- The cause of lowest code (R305). -/
def lowestCause : List Cause → Option Cause
  | [] => none
  | q :: l => match lowestCause l with
    | none => some q
    | some r => if r.code < q.code then some r else some q

/-- The deferred cause that is taken first: oldest TI.OCT, then lowest code (R305). -/
def firstDeferred : List Deferred → Option Deferred
  | [] => none
  | d :: l => match firstDeferred l with
    | none => some d
    | some e => if e.oct < d.oct ∨ (e.oct = d.oct ∧ e.code < d.code) then some e else some d

/-- At most one trap is taken at a boundary before the bundle is examined, in the order of R305; a handler's own deferred
cause is a double trap, and what the program has pending waits (R311). -/
def boundaryTrap (s : State) (x : Nat) : Option State :=
  let c := getX s x
  if c.inh then (if c.hdeferred.isEmpty then none else some (endTask s x true))
  else if pendBit c cPREEMPT then some (enterTrap s x 3 15 (causeAt cPREEMPT 0) c.pc c.ct)
  else match firstDeferred c.deferred with
    | some d =>
      let s1 := setX s x { c with deferred := dropFirst (fun e => e = d) c.deferred }
      some (enterTrap s1 x 1 d.slot ⟨d.code, d.reason, d.extra, d.addr⟩ d.opc d.oct)
    | none =>
      if pendBit c cSOFTERR then some (enterTrap s x 3 15 ⟨cSOFTERR, 0, 0, mget 0 c.ti 31⟩ c.pc c.ct)
      else if pendBit c cWDOG then some (enterTrap s x 3 15 (causeAt cWDOG 0) c.pc c.ct)
      else none

/-! ## The sequence of bundles (R345-R353) -/

/-- The nest and the loop of the mode the context is in (R353). -/
def Ctx.curNest (c : Ctx) : Map Level := if c.inh then c.hnest else c.nest
def Ctx.curLoop (c : Ctx) : Option Loop := if c.inh then c.hloop else c.loop
def Ctx.setNest (c : Ctx) (n : Map Level) : Ctx := if c.inh then { c with hnest := n } else { c with nest := n }
def Ctx.setLoop (c : Ctx) (l : Option Loop) : Ctx := if c.inh then { c with hloop := l } else { c with loop := l }

/-- digit(l, t) of R350 for the levels from level 0: `w` is the product of the counts below, `last` marks the top level. -/
def digitOf (w cnt : Nat) (last : Bool) (t : Nat) : Nat := if last then t / w else t / w % cnt

/-- The change of each named register at the boundary from pass t to pass t + 1 (R350). -/
def levelDeltas (t : Nat) : Nat → List Level → List (Nat × DWord)
  | _, [] => []
  | w, l :: ls =>
    let last := ls.isEmpty
    let n := l.count.toNat
    let d : DWord := BitVec.ofNat 64 (digitOf w n last (t + 1)) - BitVec.ofNat 64 (digitOf w n last t)
    l.pairs.map (fun p => (p.1, p.2 * d)) ++ levelDeltas t (w * n) ls

/-- The changes of one register summed (R350). -/
def sumDeltas (l : List (Nat × DWord)) (r : Nat) : DWord := l.foldl (fun a p => if p.1 = r then a + p.2 else a) 0

/-- The boundary between pass t and pass t + 1: the named registers, then the rotation and the stage predicate of `loop.sp`;
all of it takes effect for the first bundle of the next pass, after that bundle's results (R350, R351). -/
def passBoundary (c : Ctx) (l : Loop) : Ctx :=
  let ds := levelDeltas l.pass 1 l.levels
  let regs := (ds.map (·.1)).eraseDups
  let c1 := regs.foldl (fun k r => k.setResults (insResult k.results
    ⟨k.time, .sreg r (readPhysS c r + sumDeltas ds r), 0, .done⟩)) c
  let c2 := c1.setLoop (some { l with pass := l.pass + 1, idx := 1 })
  let c3 : Ctx := { c2 with pc := l.start }
  if l.stages = 0 then c3
  else
    let c4 := { c3 with rrb := c3.rrb + 1 }
    c4.setResults (insResult c4.results ⟨c4.time, .preg (physP c4 8) (decide (l.pass + 1 < l.n)), 0, .done⟩)

/-- The next bundle after one of n words has issued, or has been skipped: the target of a transfer, which ends a running
loop; else the next in the loop's order; else the bundle after it (R317, R347, R349, R352). -/
def sequence (words : Nat) (c : Ctx) : Ctx :=
  let here := c.pc + BitVec.ofNat 52 (4 * words)
  match c.npc with
  | some t => { c.setLoop none with pc := t, npc := none }
  | none =>
    match c.curLoop with
    | none => { c with pc := here }
    | some l =>
      if l.idx < l.len then { c.setLoop (some { l with idx := l.idx + 1 }) with pc := here }
      else if l.pass + 1 < l.passes then passBoundary c l
      else { c.setLoop none with pc := here }

/-- The context's time advances by one (R225, R309); in the program the watchdog counts afresh (R314). -/
def Ctx.tick (c : Ctx) : Ctx := if c.inh then { c with hct := c.hct + 1 } else { c with ct := c.ct + 1, wdCount := 0 }

/-- A taken transfer outside the start of the loop buffer leaves the context not ready for two cycles (R233, R347). -/
def branchGap (s : State) (c : Ctx) : Nat :=
  match c.npc with
  | none => c.readyAt
  | some t => if (c.curLoop.map (fun l => (l.buf.map (·.1)).head? == some t)).getD false then c.readyAt else s.cyc + 3

/-! ## Return from a handler (R310) -/

/-- ACT of TI.CAUSE and its kind (R306). -/
def Ctx.act (c : Ctx) : Nat := bitsN (mget 0 c.ti 0) 14 2
def Ctx.kind (c : Ctx) : Nat := bitsN (mget 0 c.ti 0) 8 2

/-- A wait that WDOG interrupted runs again in full; the acquire actions of `.die` are those of every wider scope (R257, R278, R314). -/
def Await.again : Await → Await
  | .fenceCm m sc _ => .fenceCm m sc 0
  | .fenceSc _ => .fenceSc 0
  | .waitAcq sc _ => .waitAcq sc 0
  | .rdc _ ends => if ends = 2 then .fenceSc 0 else .waitAcq 2 0
  | .inv _ v n all => .inv 0 v n all
  | a => a

/-- A context that leaves its handler in a cycle (R310, R352, R353): privilege and mode are restored, it resumes at TI.PC, and it is not
ready for 4 cycles; a TI.PC that the handler wrote ends a running loop. -/
def returnCtx (cyc : Nat) (c : Ctx) : Ctx :=
  { c.fresh with inh := false, sup := c.psup, hinfl := [], hnest := [], hloop := none, npc := none,
                 pc := BitVec.truncate 52 (mget 0 c.ti 1), readyAt := cyc + 5, wdCount := 0,
                 loop := if c.pcWritten then none else c.loop, pcWritten := false, await := c.sawait.again, sawait := .none }

/-- The return from a handler (R310, R352, R353): privilege and mode are restored, and by ACT the program goes on at TI.PC
with its CT, after the bundle at TI.PC when an issue trap is skipped (`skip`: the number of that bundle's words, none when
it cannot be found), or ends.  Deferred causes that the handler's own results raised are a double trap. -/
def returnFrom (s : State) (x : Nat) (skip : Option Nat) : State :=
  let c := getX s x
  if c.act = 2 ∨ c.act = 3 ∨ ¬ c.hdeferred.isEmpty then endTask s x true
  else
    let c1 := returnCtx s.cyc c
    match skip with
    | some n =>
      if c.act = 1 ∧ c.kind = 0 then settle (setX s x (sequence n { c1 with ct := c1.ct + 1 })) x
      else setX s x c1
    | none => setX s x c1

/-! ## Slots (R304, R305, R492) -/

/-- What a slot knows of its bundle: its words, and the slot's position in the order of R305. -/
structure Env where
  words : Nat
  pos : Nat

/-- What a slot does when its bundle is examined: its effect if the bundle issues; the causes its checks found; or a hold,
with its LASTFRZ cause and what happens while it is held. -/
inductive SlotOut where
  | go (eff : State → State)
  | trap (l : List Cause)
  | hold (cause : Nat) (eff : State → State)

/-- A slot of a bundle, examined on the state before the bundle. -/
abbrev Slot := Env → State → SlotOut

/-- A slot whose checks found the causes l, or else goes on. -/
def check (l : List Cause) (k : SlotOut) : SlotOut := if l.isEmpty then k else .trap l

/-- The first slot in order that found a cause, and its lowest (R305). -/
def firstTrap : List (Nat × SlotOut) → Option (Nat × Cause)
  | [] => none
  | (p, .trap l) :: r => match lowestCause l with
    | some q => some (p, q)
    | none => firstTrap r
  | _ :: r => firstTrap r

/-- The holds of a bundle. -/
def holdsOf : List (Nat × SlotOut) → List (Nat × (State → State))
  | [] => []
  | (_, .hold q f) :: r => (q, f) :: holdsOf r
  | _ :: r => holdsOf r

/-- The effects of a bundle's slots, in slot order. -/
def effects : List (Nat × SlotOut) → State → State
  | [], s => s
  | (_, .go f) :: r, s => effects r (f s)
  | _ :: r, s => effects r s

/-- A context freezes before its bundle, for a cause of LASTFRZ (R247). -/
def freeze (s : State) (x cause : Nat) : State :=
  modX s x (fun c => { c with hold := some cause, lastFrz := BitVec.ofNat 4 cause })

/-- The holds take hold: a walk or a handle being resolved comes first and alone, since a check waits for it (R492). -/
def beginHold (s : State) (x : Nat) (l : List (Nat × (State → State))) : State :=
  match l.find? (fun h => h.1 = 5 || h.1 = 6 || h.1 = 7) with
  | some h => freeze (h.2 s) x h.1
  | none => match l with
    | [] => s
    | h :: _ => freeze (l.foldl (fun t q => q.2 t) s) x h.1

/-! ## Writing results -/

/-- A scalar result of latency L; a write to s0 is discarded (R337). -/
def retS (d : BitVec 5) (lat : Nat) (v : DWord) (s : State) : State :=
  if d = 0 then s else modX s s.cur (fun c => c.addResult lat (.sreg (physS c d.toNat) v) 0 .done)

/-- A predicate result of latency L; a write to p0 is discarded (R337). -/
def retP (d : BitVec 4) (lat : Nat) (b : Bool) (s : State) : State :=
  if d = 0 then s else modX s s.cur (fun c => c.addResult lat (.preg (physP c d.toNat) b) 0 .done)

/-- A vector result of latency L: the bytes under the mask. -/
def retV (d : BitVec 5) (lat : Nat) (v mask : Tile) (s : State) : State :=
  modX s s.cur (fun c => c.addResult lat (.vreg (physV c d.toNat) v mask) 0 .done)

/-- A slot without checks that writes a scalar. -/
def slotS (d : BitVec 5) (lat : Nat) (f : Ctx → DWord) : Slot := fun _ s => .go (retS d lat (f (getX s s.cur)))

/-- A slot without checks that writes a predicate. -/
def slotP (d : BitVec 4) (lat : Nat) (f : Ctx → Bool) : Slot := fun _ s => .go (retP d lat (f (getX s s.cur)))

/-- A transfer of control (R345-R347): the bundle after this one is the one at the target. -/
def transfer (target : Va) (s : State) : State := modX s s.cur (fun c => { c with npc := some target })

end Sys2Proof.Machine
end

