-- ==== Sys2Proof/Machine/Net.lean ====
section
/-!
DEFINITION. The packet plane (R44-R67): endpoints and routers (R47, R48, R146), next hops (R49, R98, R101), sending and SEQ
order (R51), sluices (R58-R61), router read merging (R63), discards (R46, R47, R62).
-/

namespace Sys2Proof.Machine

open Sys2Proof

/-! ## Endpoints -/

/-- The endpoint of a core: its physical site (R34, R47). -/
def coreEp (s : State) (k : Nat) : Ep := epId (dieOf k) (17 * clusterOf k + (getC s k).site.toNat)

/-- The core at an endpoint. -/
def epCore (s : State) (e : Ep) : Option Nat :=
  (s.cores.find? (fun c => c.2.active && coreEp s c.1 == e)).map (·.1)

/-- The endpoint is a core site (R47, R60). -/
def isCoreEp (e : Ep) : Bool := epDie e < 8 && epUnit e < 68

/-- The endpoint of a compute die's security controller (R47). -/
def securityEp (k : Nat) : Ep := epId k 75

/-- An endpoint that exists, on a die that is not fenced (R47). -/
def epExists (s : State) (e : Ep) : Bool :=
  let d := epDie e
  let u := epUnit e
  (d < 8 && dieOk s d && (u ≤ 75 || (80 ≤ u && u ≤ 95))) || (8 ≤ d && d < 16 && memOk s (d - 8) && u ≤ 1)
  || (d == 16 && filashOk s && u == 0) || (d == 17 && u == 0)

/-- The router of a unit of a compute die (R48). -/
def unitXY (u : Nat) : Nat × Nat :=
  if u < 68 then (u % 17 % 9, 2 * (u / 17) + u % 17 / 9)
  else if u < 72 then (8, 2 * (u - 68) + 1)
  else if u < 76 then (8, 2 * (u - 72) + 1)
  else (8, 2 * ((u - 80) / 4) + 1)

/-- The router of a gateway's hub (R146). -/
def gatewayXY (n : Nat) : Nat × Nat := (8, 2 * ([1, 2, 3, 1, 2, 0, 0].getD n 0) + 1)

/-! ## Pod routes (R98, R100, R101) -/

/-- Pod link n is up: trained, its compute die healthy (R98, R116). -/
def podUp (s : State) (n : Nat) : Bool := mgF s 0 (oPodLink n) 0 1 == 1 && dieOk s (n / 2)

/-- The used hops of POD.ROUTE[d]: link and weight. -/
def podHops (s : State) (d : Nat) : List (Nat × Nat) :=
  let r := mgGet s 0 (oPodRoute d)
  (tab 4 (fun i => (bitsN r (8 * i) 4, bitsN r (8 * i + 4) 4))).filter (fun h => h.2 != 0 && podUp s h.1)

/-- The hop at which the running sum of weights exceeds n. -/
def hopAt : List (Nat × Nat) → Nat → Option Nat
  | [], _ => none
  | (l, w) :: r, n => if n < w then some l else hopAt r (n - w)

/-- The pod link that a packet takes next (R101). -/
def podLink (s : State) (p : Pkt) : Option Nat :=
  let hs := podHops s p.pkg.toNat
  let w := hs.foldl (fun a h => a + h.2) 0
  if w = 0 then none
  else hopAt hs (h32 (p.src.toNat * 2 ^ 24 + p.pkg.toNat * 2 ^ 16 + p.label.toNat) % w)

/-! ## Routing (R48, R49, R146, R147) -/

/-- What a packet does next: it moves by an output port to a place, it is delivered, its endpoint does not exist (R47), or no healthy
link leads on. -/
inductive Hop where
  | to (port : Nat) (l : Loc)
  | deliver
  | lost
  | dead
deriving DecidableEq, Repr

/-- The gateway by which a packet leaves compute die k, none when its destination is a unit of the die (R49, R98, R146). -/
def gatewayOf (s : State) (k : Nat) (p : Pkt) : Option (Option Nat) :=
  let d := epDie p.dst
  if d < 8 then
    if d = k then some none else (nextHop s k d).map (fun h => some h.1)
  else if d < 16 then
    (memDie s k (d - 8)).bind (fun a =>
      if a = k then some (some (if k = d - 8 then 3 else 4)) else (nextHop s k a).map (fun h => some h.1))
  else if d = 16 then
    let a := if p.pkg.toNat = mgF s 0 oPodId 0 8 then k else (match podLink s p with | some l => l / 2 | none => k)
    if a = k then some (some 5) else (nextHop s k a).map (fun h => some h.1)
  else
    let a := moduleOf s p.addr.toNat
    if !moduleUp s a then none
    else if a = k then some (some 6) else (nextHop s k a).map (fun h => some h.1)

/-- The place at which a directed link ends, by the key of its sending end. -/
def wireEnd (link : Nat) : Loc :=
  let e := across (link / 8) (link % 8)
  if e.1 < 8 then .router e.1 8 (gatewayXY e.2).2 (5 + e.2) else .mem (e.1 - 8) e.2

/-- Where a packet goes by gateway n of die k: onto a ring link, a chord link or a memory port, else straight to its far end. -/
def farEnd (k n : Nat) : Loc :=
  if n ≤ 4 then .wire (linkKey k n) else if n = 5 then .filash else .ucie k

/-- The compute die by which a packet enters the mesh from memory die j: of the two, the one with fewer hops to where the packet
goes, Cj on a tie, the other when one cannot be reached (log entry 58, DESIGN CHOICE). -/
def entryDie (s : State) (p : Pkt) (j : Nat) : Option Nat :=
  let d := epDie p.dst
  let goal := if d < 8 then d else if d < 16 then d - 8 else if d = 17 then moduleOf s p.addr.toNat else j
  let a := j
  let b := (j + 1) % 8
  if memPortUp s a j && (!memPortUp s b j || hops s a goal ≤ hops s b goal) then some a
  else if memPortUp s b j then some b else none

/-- Where a packet goes from where it stands. -/
def hopOf (s : State) (l : Loc) (p : Pkt) : Hop :=
  if !epExists s p.dst then .lost
  else match l with
  | .router k x y _ =>
    (match gatewayOf s k p with
    | none => .dead
    | some g =>
      let t := match g with | none => unitXY (epUnit p.dst) | some n => gatewayXY n
      if x < t.1 then .to 0 (.router k (x + 1) y 1)
      else if t.1 < x then .to 1 (.router k (x - 1) y 0)
      else if y < t.2 then .to 2 (.router k x (y + 1) 3)
      else if t.2 < y then .to 3 (.router k x (y - 1) 2)
      else match g with
        | none => .deliver
        | some n => .to 5 (farEnd k n))
  | .mem j _ =>
    if epDie p.dst = 8 + j then .deliver
    else (match entryDie s p j with
      | some a => .to 5 (.wire (linkKey (8 + j) (if a = j then 3 else 4)))
      | none => .dead)
  | .wire link => .to 5 (wireEnd link)
  | .filash =>
    if epDie p.dst = 16 then .deliver
    else
      let d := epDie p.dst
      let a := if d < 8 then d else if d < 16 then d - 8 else moduleOf s p.addr.toNat
      (match (tab 8 (fun i => (a + i) % 8)).find? (dieOk s) with
      | some e => .to 5 (.router e 8 (gatewayXY 5).2 10)
      | none => .dead)
  | .ucie k => if epDie p.dst = 17 then .deliver else if moduleUp s k then .to 5 (.router k 8 (gatewayXY 6).2 11) else .dead

/-- The places a packet passes from a place on, at most n of them. -/
def pathOf (s : State) (p : Pkt) : Nat → Loc → List Loc
  | 0, _ => []
  | n + 1, l => match hopOf s l p with
    | .to _ m => l :: pathOf s p n m
    | _ => [l]

/-! ## Sending (R51) -/

/-- The SEQ that a flow's next packet takes. -/
def nextSeq (s : State) (f : Flow) : BitVec 12 :=
  match s.sendSeq.find? (fun q => q.1 = f) with
  | some q => q.2
  | none => 0

/-- The flow has sent one more packet. -/
def bumpSeq (s : State) (f : Flow) : State :=
  if s.sendSeq.any (fun q => q.1 = f) then
    { s with sendSeq := updFirst (fun q => q.1 = f) (fun q => (q.1, q.2 + 1)) s.sendSeq }
  else { s with sendSeq := s.sendSeq ++ [(f, 1)] }

/-- Where a packet of an endpoint enters the plane. -/
def entryLoc (s : State) (p : Pkt) : Loc :=
  let d := epDie p.src
  if d < 8 then .router d (unitXY (epUnit p.src)).1 (unitXY (epUnit p.src)).2 4
  else if d < 16 then .mem (d - 8) 5
  else if d = 16 then .filash
  else .ucie (moduleOf s p.addr.toNat)

/-- A live promoted flow of a packet that travels its circuit: a write or engine data (R60, R84-R86). -/
def promoOf (s : State) (p : Pkt) : Option Promo :=
  if p.label = 0 || p.vc != 0 || (p.kind != 2 && p.kind != 6) then none
  else s.promos.find? (fun f => f.live && f.src == p.src && f.dst == p.dst && f.label == p.label)

/-- The bytes that a packet takes: its flits (R58, R86). -/
def flitBytes (p : Pkt) : Nat := 64 * (1 + p.len.toNat)

/-- The early window of a promoted flow: 16 KiB within one die, 1 MiB across the mill (R88). -/
def earlyWindow (f : Promo) : Nat := if epDie f.src = epDie f.dst then 16384 else 1048576

/-- A fabric cycle has come (R4). -/
def dueBy (s : State) (due : Nat) : Bool := decide (due ≤ 2 * s.cyc + 1)

/-- What is on its way until a fabric cycle has arrived: it is there when the cores have had their part of that cycle, so that bundles of the next
one see it (R50, R70, R460). -/
def arrived (s : State) (due : Nat) : Bool := s.todo.isEmpty && dueBy s due

/-- The fabric cycles between an endpoint and the router that it stands at; the Filash die's and the host's adapters have none (R50). -/
def endTime : Loc → Nat
  | .router _ _ _ _ => 4
  | .mem _ _ => 4
  | _ => 0

/-- The fabric cycles from one place to the next, those of a link or memory port before its other end (R50). -/
def hopTime : Loc → Loc → Nat
  | .wire _, _ => 0
  | .filash, _ => 20
  | _, .filash => 20
  | .ucie _, _ => 32
  | _, .ucie _ => 32
  | _, .wire link => if 8 ≤ link / 8 ∨ 3 ≤ link % 8 then 20 else 24
  | _, _ => 3

/-- A packet enters the packet plane where its endpoint stands (R50). -/
def enterNet (s : State) (p : Pkt) : State :=
  { s with net := s.net ++ [⟨s.nextId, entryLoc s p, p, 2 * s.cyc + 2 + endTime (entryLoc s p)⟩], nextId := s.nextId + 1 }

/-- The low 16 bits of the cicada, for ORIG (R45). -/
def origNow (s : State) : BitVec 16 := bits s.cicada 0 16

/-- HINT: the memory die that the sender believes is home, valid for a packet to a memory die (R45). -/
def hintOf (dst : Ep) : BitVec 4 := if 8 ≤ epDie dst ∧ epDie dst < 16 then BitVec.ofNat 4 (8 + (epDie dst - 8)) else 0

/-- The header fields that a packet's kind decides: HINT; ORIG of read requests, kept in read responses, else 0; VER of responses and
acknowledgements, else 0 (R45, R64). -/
def stamp (s : State) (p : Pkt) : Pkt :=
  { p with hint := hintOf p.dst, orig := if p.kind = 0 then origNow s else if p.kind = 1 then p.orig else 0,
           ver := if p.kind = 1 ∨ p.kind = 3 ∨ p.kind = 5 then p.ver else 0 }

/-- A packet takes the next SEQ of its flow (R51). -/
def numbered (s : State) (p : Pkt) : Pkt × State := ({ p with seq := nextSeq s p.flow }, bumpSeq s p.flow)

/-- A promoted flow with a packet on its circuit's lane, counted against the early window of a change outstanding (R88). -/
def ontoLane (p : Pkt) (f : Promo) : Promo :=
  { f with lane := f.lane ++ [p],
           change := f.change.map (fun (c : Nat × Nat × List Nat × Nat) => (c.1, c.2.1, c.2.2.1, c.2.2.2 + flitBytes p)) }

/-- The early window has no room for a packet, or others wait before it (R88). -/
def windowFull (f : Promo) (p : Pkt) : Bool :=
  !f.backlog.isEmpty || (match f.change with | some c => decide (earlyWindow f < c.2.2.2 + flitBytes p) | none => false)

/-- A packet leaves its endpoint with the next SEQ of its flow: on its circuit when its flow is promoted, else on the packet
plane (R51, R86); data beyond the early window is held back and takes its SEQ when it leaves (R87, R88). -/
def sendPkt (s : State) (p0 : Pkt) : State :=
  let p := stamp s p0
  match promoOf s p with
  | some f =>
    if windowFull f p then { s with promos := updFirst (fun g => g.fid = f.fid) (fun g => { g with backlog := g.backlog ++ [p] }) s.promos }
    else
      let r := numbered s p
      { r.2 with promos := updFirst (fun g => g.fid = f.fid) (ontoLane r.1) r.2.promos }
  | none => let r := numbered s p; enterNet r.2 r.1

/-- A packet that a router sends itself enters the plane there. -/
def sendAt (l : Loc) (s : State) (p0 : Pkt) : State :=
  let r := numbered s (stamp s p0)
  { r.2 with net := r.2.net ++ [⟨r.2.nextId, l, r.1, 2 * r.2.cyc⟩], nextId := r.2.nextId + 1 }

/-- A packet of a kind between two endpoints. -/
def mkPkt (kind : BitVec 4) (vc : BitVec 2) (part : BitVec 3) (src dst : Ep) (tag addr : Nat) (data : List Byte) (m : Msg) : Pkt :=
  { Pkt.zero with kind := kind, vc := vc, part := part, src := src, dst := dst, tag := BitVec.ofNat 16 tag,
                  addr := BitVec.ofNat 48 addr, data := data, bytes := BitVec.ofNat 9 data.length,
                  len := BitVec.ofNat 3 (bodyFlits data.length), msg := m }

/-- The answer to a packet: to its source, with its tag and address, on the response VC. -/
def answer (p : Pkt) (kind : BitVec 4) (data : List Byte) (m : Msg) : Pkt :=
  { mkPkt kind 1 p.part p.dst p.src 0 0 data m with tag := p.tag, addr := p.addr, ocls := p.ocls, host := p.host, pkg := p.pkg }

/-! ## Receiving (R51) -/

def recvOf (s : State) (f : Flow) : Recv :=
  match s.recvs.find? (fun q => q.1 = f) with
  | some q => q.2
  | none => Recv.init

def setRecv (s : State) (f : Flow) (r : Recv) : State :=
  if s.recvs.any (fun q => q.1 = f) then { s with recvs := updFirst (fun q => q.1 = f) (fun q => (q.1, r)) s.recvs }
  else { s with recvs := s.recvs ++ [(f, r)] }

/-- What a flow can hand over from the expected SEQ on: its early arrivals in SEQ order, past the SEQs of reads that were merged on their way (R51, R63;
log entry 62, DESIGN CHOICE). -/
def drainEarly : Nat → Recv → List Pkt × Recv
  | 0, r => ([], r)
  | f + 1, r =>
    if r.gone.contains r.next then drainEarly f { r with next := r.next + 1, gone := r.gone.filter (· != r.next) }
    else match r.early.find? (fun p => p.seq = r.next) with
      | some p => let d := drainEarly f { r with next := r.next + 1, early := dropFirst (fun q => q.seq = r.next) r.early }; (p :: d.1, d.2)
      | none => ([], r)

/-- Packets that an endpoint holds in its reorder store (R51). -/
def heldAt (s : State) (e : Ep) : Nat := (s.recvs.filter (fun q => q.1.dst == e)).foldl (fun a q => a + q.2.early.length) 0

/-- A SEQ that a flow has still to take; of the 4,096 values the 2,048 from the expected one on count as such, the others as treated
as lost (R51; log entry 59, DESIGN CHOICE). -/
def laterSeq (r : Recv) (q : BitVec 12) : Bool := decide ((q - r.next).toNat < 2048)

/-- The endpoint takes a packet now: the one its flow expects, a merged copy, one treated as lost, or a later one while the
reorder store of 128 has room (R51). -/
def accepts (s : State) (p : Pkt) : Bool :=
  let r := recvOf s p.flow
  p.merged || p.seq == r.next || !laterSeq r p.seq || decide (heldAt s p.dst < 128)

/-- The timer of a flow of which a later packet has reached its endpoint (R51). -/
def startReorder (s : State) (f : Flow) : State := addTimer s 262144 .reorderTimeout { EvArg.zero with flow := f }

/-- A packet that its endpoint cannot take waits in the network, and the flow's timer runs (R51). -/
def refusePkt (s : State) (p : Pkt) : State :=
  let r := recvOf s p.flow
  if r.since.isSome then s else startReorder (setRecv s p.flow { r with since := some s.cyc }) p.flow

/-- A flow hands over some packets and what follows them; its timer runs anew while a later packet waits (R51). -/
def releaseFrom (s : State) (f : Flow) (l : List Pkt) (r : Recv) : State :=
  let d := drainEarly (r.early.length + r.gone.length) r
  let s1 := { s with rx := s.rx ++ l ++ d.1 }
  if d.2.early.isEmpty then setRecv s1 f { d.2 with since := none } else startReorder (setRecv s1 f { d.2 with since := some s.cyc }) f

/-- A packet that its endpoint takes: handed over in SEQ order with the early arrivals that follow it, held early, or discarded when its
SEQ was treated as lost.  A merged copy is a packet of the router that made it and has no place in the order (R51, R63). -/
def receive (s : State) (p : Pkt) : State :=
  if p.merged then { s with rx := s.rx ++ [p] }
  else
    let f := p.flow
    let r := recvOf s f
    if p.seq = r.next then releaseFrom s f [p] { r with next := r.next + 1 }
    else if laterSeq r p.seq then refusePkt (setRecv s f { r with early := r.early ++ [p] }) p
    else s

/-- A packet of a flow does not come, because a router has merged it: its SEQ holds back no later one (R51, R63; log entry 62, DESIGN CHOICE). -/
def passSeq (s : State) (p : Pkt) : State :=
  let f := p.flow
  let r := recvOf s f
  if p.seq = r.next then releaseFrom s f [] { r with next := r.next + 1 }
  else if laterSeq r p.seq then setRecv s f { r with gone := p.seq :: r.gone }
  else s

/-! ## Accesses to other packages that the package refuses (R95, R106) -/

/-- A rejected or lost store recorded against its source and package, for the next flushing read (R106). -/
def recordStore (src : Ep) (pkg : BitVec 8) (st : Nat) (s : State) : State :=
  { s with viol := if s.viol.any (fun v => v.1 == src && v.2.1 == pkg) then s.viol else s.viol ++ [(src, pkg, st)] }

/-- A request asks for an answer: a read, an atomic, an engine write. -/
def wantsAnswer (p : Pkt) : Bool := p.kind == 0 || p.kind == 4 || (match p.msg with | .engWrite _ => true | _ => false)

/-- The kind of the answer to a request. -/
def answerKind (p : Pkt) : BitVec 4 := if p.kind = 0 then 1 else if p.kind = 4 then 5 else 3

/-- A packet is a request of this package to another. -/
def isRemoteRequest (s : State) (p : Pkt) : Bool :=
  epDie p.dst == 16 && p.pkg.toNat != mgF s 0 oPodId 0 8 && (p.kind == 0 || p.kind == 2 || p.kind == 4 || p.kind == 6)

/-! ## Discards (R46, R47, R62) -/

/-- A header that a router discards: an uncorrectable error, a reserved KIND, VC 3, BYTES beyond the flits (R46, R62). -/
def badHeader (p : Pkt) : Bool := p.bad || decide (9 ≤ p.kind.toNat) || p.vc == 3 || decide (32 + 64 * p.len.toNat < p.bytes.toNat)

/-- The saturating sum in a field of a register. -/
def mgBump (s : State) (die off lo n : Nat) : State := mgSetF s die off lo n (min (mgF s die off lo n + 1) (2 ^ n - 1))

/-- Key of a router's port. -/
def sluiceKey (k x y port : Nat) : Nat := k * 1024 + (9 * y + x) * 8 + port

/-- UNIT of an entry about what came in by a port of a router: a link has its gateway's number, as in a replay's entry; a mesh link or
endpoint port is 0x100 + 8 × router + port (R39; log entry 60, DESIGN CHOICE). -/
def portUnit (x y inp : Nat) : Nat := if 5 ≤ inp then inp - 5 else 0x100 + 8 * (9 * y + x) + inp

/-- The die code and UNIT of where a packet stands. -/
def placeUnit : Loc → Nat × Nat
  | .router k x y inp => (k, portUnit x y inp)
  | .mem j inp => (8 + j, if inp ≤ 4 then inp else 0x100)
  | .wire link => across (link / 8) (link % 8)
  | .filash => (0x10, 0)
  | .ucie _ => (0x11, 0)

/-- The packet is gone from the network. -/
def dropFlight (s : State) (f : Flight) : State := { s with net := dropFirst (fun g => g.id = f.id) s.net }

/-- The packet's endpoint does not exist or is on a fenced die: discarded, class 0x08, with PART 0xFF as for R62 (R47; log entry 61, DESIGN CHOICE,
DESIGN CHOICE). -/
def discardLost (s : State) (f : Flight) : State :=
  bbxLog (dropFlight s f) 0x08 (placeUnit f.loc).1 0 0xFF (placeUnit f.loc).2 0

/-- A packet whose endpoint does not exist: a remote access with the Filash die absent is refused by the router in that die's place, as R95
has it refused (log entry 72, DEDUCED); any other is discarded (R47). -/
def loseFlight (s : State) (f : Flight) : State :=
  if isRemoteRequest s f.pkt then
    if wantsAnswer f.pkt then sendAt f.loc (dropFlight s f) (answer f.pkt (answerKind f.pkt) [] (.fail 3))
    else recordStore f.pkt.src f.pkt.pkg 1 (dropFlight s f)
  else discardLost s f

/-- The error count of the link or endpoint port by which a packet came grows (R62, R67). -/
def countHeaderError (s : State) : Loc → State
  | .router k x y inp =>
    if 5 ≤ inp then mgBump s k (oLink (inp - 5)) 32 16
    else { s with mgmt := { s.mgmt with portErrs := mset s.mgmt.portErrs (sluiceKey k x y inp) (mget 0 s.mgmt.portErrs (sluiceKey k x y inp) + 1) } }
  | .mem j inp =>
    { s with mgmt := { s.mgmt with portErrs := mset s.mgmt.portErrs ((8 + j) * 1024 + inp) (mget 0 s.mgmt.portErrs ((8 + j) * 1024 + inp) + 1) } }
  | _ => s

/-- A packet with a corrupted header is discarded: counted, class 0x08 with PART 0xFF and the link or port it came by (R46, R62). -/
def discard (s : State) (f : Flight) : State := discardLost (countHeaderError s f.loc) f

/-- An uncorrectable error in a packet's payload: it goes on with its payload marked poisoned (R62). -/
def poisonPayload (s : State) (f : Flight) : State :=
  bbxLog { s with net := updFirst (fun g => g.id = f.id) (fun g => { g with pkt := { g.pkt with poison := true } }) s.net } 0x06
    (placeUnit f.loc).1 0 0xFF (placeUnit f.loc).2 0

/-! ## Sluices (R58-R60) -/

/-- The state of a meter entry by number. -/
def meterOf (sl : Sluice) (i : Nat) : Meter := mget Meter.init sl.meters i

/-- The entry among the numbers of a list with the smallest count in a state, the lowest number on a tie. -/
def smallest (sl : Sluice) (st : Nat) : List Nat → Option Nat
  | [] => none
  | i :: l =>
    let m := meterOf sl i
    match smallest sl st l with
    | none => if m.st = st then some i else none
    | some j => if m.st = st ∧ m.count ≤ (meterOf sl j).count then some i else some j

/-- The entry that a packet's flow has or claims (R58). -/
def meterSlot (sl : Sluice) (p : Pkt) : Option (Nat × Bool) :=
  match (List.range 64).find? (fun i => let m := meterOf sl i
      m.st != 0 && m.src == p.src && m.dst == p.dst && m.label == p.label) with
  | some i => some (i, true)
  | none =>
    match (List.range 64).find? (fun i => (meterOf sl i).st == 0) with
    | some i => some (i, false)
    | none =>
      match smallest sl 1 (List.range 64) with
      | some i => some (i, false)
      | none => (smallest sl 4 (List.range 64)).map (fun i => (i, false))

/-- PP.THRESH[part] of a die in bytes; 0 disables promotion (R60, R61). -/
def promoThreshold (s : State) (k part : Nat) : Nat := 4096 * mgF s k (oThresh part) 0 16

/-- A packet passes an output port: its flow is metered, and at the first output port after a core endpoint a flow to a core
endpoint that reaches the threshold is handed to the circuit port (R58, R60). -/
def meter (s : State) (k x y port inp : Nat) (p : Pkt) : State :=
  if p.label = 0 || p.vc = 2 then s
  else
    let key := sluiceKey k x y port
    let sl := mget Sluice.init s.sluices key
    match meterSlot sl p with
    | none => { s with sluices := mset s.sluices key { sl with miss := min (sl.miss + 1) 0xFFFFFFFF } }
    | some (i, old) =>
      let m0 := if old then meterOf sl i else ⟨p.src, p.dst, p.label, p.part, 1, 0⟩
      let m := { m0 with count := min (m0.count + 64 * (1 + p.len.toNat)) 0xFFFFFFFF }
      let t := promoThreshold s k p.part.toNat
      let busy := s.promos.any (fun f => f.src == p.src && f.dst == p.dst && f.label == p.label)
      let go := m.st == 1 && inp == 4 && isCoreEp p.src && isCoreEp p.dst && t != 0 && decide (t ≤ m.count) && !busy
      let m1 := if go then { m with st := 2 } else m
      let s1 := { s with sluices := mset s.sluices key { sl with meters := mset sl.meters i m1 } }
      if go then
        { s1 with nextId := s1.nextId + 1, promos := s1.promos ++
            [{ fid := s1.nextId, src := p.src, dst := p.dst, label := p.label, part := p.part, sluice := key, entry := i,
               lanes := [], live := false, probing := true, relay := none, change := none, backlog := [], relayed := 0,
               leg := 0, due := 0, prog := 0, sseq := 0, rseq := 0, lane := [], far := [], heldNew := [] }] }
      else s1

/-! ## Read merging (R63) -/

/-- The latest cicada value, not after now, whose low 16 bits are given (R65). -/
def departTick (s : State) (orig : BitVec 16) : Nat :=
  let n := s.cicada.toNat
  let back := (bits s.cicada 0 16 - orig).toNat
  n - back

/-- The router lies on the path that the response of a pending read will take (R63). -/
def onReturnPath (s : State) (p : Pkt) (k r : Nat) : Bool :=
  let q := answer p 1 [] .none
  (pathOf s q 64 (entryLoc s q)).any (fun l => match l with | .router d x y _ => d == k && 9 * y + x == r | _ => false)

/-- Bytes that a read asks for. -/
def readLen (p : Pkt) : Nat := match p.msg with | .read n => n | _ => 0

/-- A pending read brings what another asks for: within this package both ask for the line; a read of another package asks
for its own bytes. -/
def brings (e p : Pkt) : Bool :=
  e.dst == p.dst && e.pkg == p.pkg && decide (e.addr.toNat ≤ p.addr.toNat) && decide (p.addr.toNat + readLen p ≤ e.addr.toNat + readLen e)

/-- The pending read of a router that a merge-hinted read can ride on. -/
def mergeWith (s : State) (k r : Nat) (p : Pkt) : Option MergeEntry :=
  s.merges.find? (fun e => e.die == k && e.router == r && e.pkt.part == p.part
    && e.pkt.addr.toNat / 64 == p.addr.toNat / 64 && brings e.pkt p && decide (s.cicada.toNat ≤ e.tick + 1) && onReturnPath s e.pkt k r)

/-- A pending read is still of use: it may be ridden on, or it has riders whose time-outs have not passed; an entry whose response never
comes by leaves the table then (log entry 62, DESIGN CHOICE). -/
def mergeLive (s : State) (e : MergeEntry) : Bool :=
  decide (s.cicada.toNat ≤ e.tick + 1) || (!e.riders.isEmpty && decide (s.cicada.toNat ≤ e.tick + 1026))

/-- A read request with MMH at a router: it rides on a pending read, or becomes one while the table of 16 has room (R63; a full table
takes no new one: log entry 62, DESIGN CHOICE).  A second-tier read is never merged (R123), and a read that comes by a second time does not ride on
itself. -/
def mergeRequest (s0 : State) (k r : Nat) (p : Pkt) : Option State × State :=
  let s : State := { s0 with merges := s0.merges.filter (mergeLive s0) }
  if p.kind != 0 || !p.mmh || epDie p.dst == 17 then (none, s0)
  else if s.merges.any (fun e => e.die == k && e.router == r && e.pkt.src == p.src && e.pkt.tag == p.tag) then (none, s)
  else match mergeWith s k r p with
    | some e => (some (passSeq { s with merges := updFirst (fun f => f = e) (fun f => { f with riders := f.riders ++ [p] }) s.merges } p), s)
    | none =>
      if (s.merges.filter (fun e => e.die == k && e.router == r)).length < 16 then
        (none, { s with merges := s.merges ++ [⟨k, r, p, departTick s p.orig, []⟩] })
      else (none, s)

/-- The copies that a router sends when the response of a pending read passes it, each with the bytes that its requester asked for. -/
def mergeCopies (k x y t : Nat) (p : Pkt) : List Pkt → Nat → List Flight
  | [], _ => []
  | q :: l, n =>
    let d := (p.data.drop (q.addr.toNat - p.addr.toNat)).take (readLen q)
    let c : Pkt := { p with dst := q.src, tag := q.tag, addr := q.addr, ocls := q.ocls, merged := true, data := d,
                            bytes := BitVec.ofNat 9 d.length, len := BitVec.ofNat 3 (bodyFlits d.length) }
    ⟨n, .router k x y 4, c, t⟩ :: mergeCopies k x y t p l (n + 1)

/-- A read response passes a router, a copy that another router made for its read included: the pending read leaves the table and its riders are
answered (R63). -/
def mergeResponse (s : State) (k x y : Nat) (p : Pkt) : State :=
  if p.kind = 1 then
    match s.merges.find? (fun e => e.die == k && e.router == 9 * y + x && e.pkt.src == p.dst && e.pkt.tag == p.tag) with
    | some e =>
      { s with merges := dropFirst (fun f => f = e) s.merges, net := s.net ++ mergeCopies k x y (2 * s.cyc) p e.riders s.nextId,
               nextId := s.nextId + e.riders.length }
    | none => s
  else s

/-! ## Links (R53) -/

def wireOf (s : State) (k : Nat) : Link := mget Link.init s.links k
def setLink (s : State) (k : Nat) (l : Link) : State := { s with links := mset s.links k l }

/-- Flits of a packet (R44). -/
def flitCount (p : Pkt) : Nat := 1 + p.len.toNat

/-- Flits in a link's replay buffer: those of the packets that have not arrived good (R53). -/
def replayFlits (s : State) (link : Nat) : Nat :=
  s.net.foldl (fun n f => match f.loc with | .wire l => if l = link then n + flitCount f.pkt else n | _ => n) 0

/-- One bit enters a CRC-32C, low bit first. -/
def crcStep (c : Nat) : Nat := if c % 2 = 1 then c / 2 ^^^ 0x82F63B78 else c / 2

/-- One byte enters a CRC-32C. -/
def crcByte (c : Nat) (b : Byte) : Nat := crcStep (crcStep (crcStep (crcStep (crcStep (crcStep (crcStep (crcStep (c ^^^ b.toNat))))))))

/-- The CRC-32C of bytes, in the usual bit order (R53; log entry 63, PRESUMED). -/
def crc32c (l : List Byte) : Nat := l.foldl crcByte 0xFFFFFFFF ^^^ 0xFFFFFFFF

/-- A flit as it is received is good: its CRC-32C covers its 64 bytes and its sequence number, and the number is the one expected (R53). -/
def flitGood (l : Link) (flit : List Byte) (seq : BitVec 8) (crc : Nat) : Bool := crc32c (flit ++ [seq]) == crc && seq == l.got

/-! ## One hop (PACKET_ROUTE) -/

/-- A packet goes to its next place, where it arrives after the time of R50. -/
def moveFlight (s : State) (f : Flight) (p : Pkt) (l : Loc) : State :=
  { s with net := dropFirst (fun g => g.id = f.id) s.net ++ [⟨f.id, l, p, max f.arr (2 * s.cyc) + hopTime f.loc l⟩] }

/-- A packet leaves a place for the next: its flits take the link's sequence numbers when it goes onto one, and are acknowledged when it has
arrived from one (R53). -/
def crossLink (s : State) (f : Flight) (l : Loc) : State :=
  let s1 := match l with
    | .wire k => setLink s k { wireOf s k with sent := (wireOf s k).sent + BitVec.ofNat 8 (flitCount f.pkt) }
    | _ => s
  match f.loc with
  | .wire k => setLink s1 k { wireOf s1 k with got := (wireOf s1 k).got + BitVec.ofNat 8 (flitCount f.pkt), errors := 0 }
  | _ => s1

/-- A packet reaches its endpoint, which takes it or leaves it in the network (R51). -/
def deliverFlight (s : State) (f : Flight) : State := if accepts s f.pkt then receive (dropFlight s f) f.pkt else refusePkt s f.pkt

/-- A packet in the network makes its next move: discarded, delivered, merged, or one hop on, metered at the output port. -/
def routeFlight (s : State) (f : Flight) : State :=
  if badHeader f.pkt then discard s f
  else match f.loc with
  | .router k x y inp =>
    (match mergeRequest s k (9 * y + x) f.pkt with
    | (some t, _) => dropFlight t f
    | (none, s1) =>
      let s2 := mergeResponse s1 k x y f.pkt
      match hopOf s2 f.loc f.pkt with
      | .lost => loseFlight s2 f
      | .dead => dropFlight s2 f
      | .deliver => deliverFlight (if accepts s2 f.pkt then meter s2 k x y 4 inp f.pkt else s2) f
      | .to port l => moveFlight (crossLink (meter s2 k x y port inp f.pkt) f l) f f.pkt l)
  | _ =>
    match hopOf s f.loc f.pkt with
    | .lost => loseFlight s f
    | .dead => dropFlight s f
    | .deliver => deliverFlight s f
    | .to _ l => moveFlight (crossLink s f l) f f.pkt l

/-! ## Arbitration (R52) -/

/-- Two packets stand at the same router or on the same link. -/
def samePlace : Loc → Loc → Bool
  | .router k x y _, .router l u v _ => k == l && x == u && y == v
  | .mem j _, .mem i _ => j == i
  | .wire a, .wire b => a == b
  | .filash, .filash => true
  | .ucie a, .ucie b => a == b
  | _, _ => false

/-- The input port by which a packet came. -/
def inPort : Loc → Nat
  | .router _ _ _ i => i
  | .mem _ i => i
  | _ => 0

/-- A packet goes before another at their router: the priority VC first, then DISP, then the older arrival, then the lower input port (R52). -/
def goesBefore (a b : Flight) : Bool :=
  let va := decide (a.pkt.vc = 2)
  let vb := decide (b.pkt.vc = 2)
  if va != vb then va
  else if a.pkt.disp != b.pkt.disp then a.pkt.disp
  else if a.arr ≠ b.arr then decide (a.arr < b.arr)
  else decide (inPort a.loc < inPort b.loc)

/-- The packets of a list with one put in its place. -/
def insertFlight (f : Flight) : List Flight → List Flight
  | [] => [f]
  | g :: l => if goesBefore f g then f :: g :: l else g :: insertFlight f l

/-- Packets in the order in which routers forward them; on a link, in the order in which they left. -/
def inOrder (l : List Flight) : List Flight := l.foldl (fun l f => insertFlight f l) []

/-- The packets in the network, in that order. -/
def flightOrder (s : State) : List Flight := inOrder s.net

end Sys2Proof.Machine
end

