-- ==== Sys2Proof/Machine/Operands.lean ====
section
/-!
DEFINITION. The operand forms: immediates (R323, R340, R361), tile-store addresses and windows (R133, R134, R139, R359),
translation and walks (R163-R170, R312), handles (R171-R173, R360), tensor header records (R168, R169), and the fetch of a
bundle (R188, R317).
-/

namespace Sys2Proof.Machine

open Sys2Proof

/-! ## Immediates -/

/-- An immediate of n low bits and an optional continuation above them, sign-extended to 64 bits (R323). -/
def immOf {n : Nat} (i : BitVec n) : Option (BitVec 28) → DWord
  | none => BitVec.signExtend 64 i
  | some x => BitVec.signExtend 64 (x ++ i)

/-! ## Tile-store addresses (R133, R136, R139, R359) -/

/-- Bytes of the core's tile store that serve as its data cache (R136). -/
def dcBytes (k : Core) : Nat := 262144 * k.split.toNat

/-- A 64 KiB block of core addresses is open to the context: in its region or the front exchange range, outside the data
cache, and not unaddressed exchange storage. -/
def blockOpen (c : Ctx) (k : Core) (b : Nat) : Bool :=
  let region := c.tsBase.toNat ≤ b && b < c.tsBase.toNat + c.tsSize.toNat
  let front := c.exch && 0x38 ≤ b && b < 0x3C
  let cache := b < 0x38 && 0x38 ≤ b + dcBytes k / 65536
  (region || front) && !cache && !(c.exch && 0x3C ≤ b)

/-- The n bytes from core address a are open to the context (R133). -/
def tsOpen (c : Ctx) (k : Core) (a n : Nat) : Bool :=
  n == 0 || (a + n ≤ 4194304 && (tab ((a + n - 1) / 65536 - a / 65536 + 1) (fun i => a / 65536 + i)).all (blockOpen c k))

/-- The checks of a tile-store access of n bytes at e (R359). -/
def tsCheck (s : State) (x e n : Nat) : List Cause :=
  (if e % n = 0 then [] else [causeAt cALIGN (tiVa e)])
  ++ (if tsOpen (getX s x) (getC s (coreOf x)) e n then [] else [causeAt cBOUND (tiVa e)])

/-- The pieces of n bytes from core address a that are contiguous in storage: physical address, offset, length. -/
def tsParts (c : Ctx) (a n : Nat) : List (Nat × Nat × Nat) :=
  if a < 0x380000 ∧ 0x380000 < a + n then [(tsPhys c a, 0, 0x380000 - a), (tsPhys c 0x380000, 0x380000 - a, n - (0x380000 - a))]
  else [(tsPhys c a, 0, n)]

/-- n bytes of the context's tile store. -/
def loadTs (s : State) (x a n : Nat) : List Byte := (tsParts (getX s x) a n).flatMap (fun p => tsBytes (getTs s x) p.1 p.2.2)

/-- Bytes stored to the context's tile store in one access (R132). -/
def storeTs (s : State) (x a : Nat) (l : List Byte) (bad : Bool) : State :=
  setTs s x ((tsParts (getX s x) a l.length).foldl (fun t p => tsWrite t p.1 ((l.drop p.2.1).take p.2.2) bad) (getTs s x))

/-- n bytes from a touch a poisoned sector (R132, R361). -/
def poisonTs (s : State) (x a n : Nat) : Bool := (tsParts (getX s x) a n).any (fun p => tsPoisoned (getTs s x) p.1 p.2.2)

/-- The first of n bytes from a that lies in a poisoned sector, or a. -/
def firstPoison (s : State) (x a n : Nat) : Nat :=
  match (List.range n).find? (fun i => poisonTs s x (a + i) 1) with
  | some i => a + i
  | none => a

/-! ## Tile windows (R134) -/

def twBase (w : DWord) : Nat := 64 * bitsN w 0 16
def twSize (w : DWord) : Nat := 64 * bitsN w 16 17
def twThr (w : DWord) : Nat := bitsN w 33 8

/-- The checks of n bytes at byte offset o of window w: within the window, and each byte under R133; TI.ADDR holds the core
address, EXTRA the window (R134, R303). -/
def twCheck (s : State) (x w o n : Nat) : List Cause :=
  let tw := readTw (getX s x) w
  let a := twBase tw + o
  if o + n ≤ twSize tw ∧ twSize tw ≠ 0 ∧ tsOpen (getX s x) (getC s (coreOf x)) a n then []
  else [⟨cBOUND, 0, w, tiVa a⟩]

/-! ## Page tables and the translation cache (R163-R170) -/

/-- The package id (R95, R115). -/
def podPkg (s : State) : Nat := mgF s 0 oPodId 0 8

/-- A pod address names this package. -/
def isLocal (s : State) (pa : Nat) : Bool := pa / 2 ^ 48 == podPkg s

/-- The package physical address of a pod address. -/
def paOf (pa : Nat) : Nat := pa % 2 ^ 48

/-- Frames of a tracked page, its first byte, its bytes, and the addresses in it. -/
def pageFrames (e : PlcEntry) : Nat := if e.big then 32 else 1
def pageBase (e : PlcEntry) : Nat := 65536 * e.frame
def pageLen (e : PlcEntry) : Nat := 65536 * pageFrames e
def inPage (e : PlcEntry) (pa : Nat) : Bool := decide (pageBase e ≤ pa) && decide (pa < pageBase e + pageLen e)

/-- A pod address lies in a page that is being moved: a use of it waits (R179). -/
def moving (s : State) (pa : Nat) : Bool := s.moves.any (fun m => isLocal s pa && inPage m.entry (paOf pa))

/-- 16 bytes of memory as a page-table entry. -/
def rd16 (s : State) (a : Nat) : BitVec 128 := BitVec.ofNat 128 (leNat (memBytes s.mem a 16))

def pteV (e : BitVec 128) : Bool := bit e 0
def pteLeaf (e : BitVec 128) : Bool := bit e 1
def pteSpan (e : BitVec 128) : Bool := bit e 2
def ptePlace (e : BitVec 128) : Nat := bitsN e 8 2
def pteNomig (e : BitVec 128) : Bool := bit e 10
def ptePfn (e : BitVec 128) : Nat := bitsN e 64 40

/-- pte_ok of R166. -/
def pteOk (e : BitVec 128) : Bool :=
  bitsN e 11 5 == 0 && bitsN e 24 40 == 0 && bitsN e 104 24 == 0 && (pteLeaf e || bitsN e 2 22 == 0)

/-- The mapping that a leaf gives (R165): level 3 or 2. -/
def leafEntry (p : BitVec 3) (va : Nat) (e : BitVec 128) (l3 : Bool) : TlbEntry :=
  let span := pteSpan e
  let size : BitVec 2 := if l3 then (if span then 1 else 0) else (if span then 3 else 2)
  let pages := if l3 then (if span then 32 else 1) else (if span then 32768 else 4096)
  let vpn := va / 65536
  let pfn := ptePfn e
  let base := if l3 then (if span then pfn / 32 * 32 else pfn) else (if span then pfn / 32768 * 32768 else pfn)
  { part := p, vpn := BitVec.ofNat 36 (vpn / pages * pages), size := size, pa := BitVec.ofNat 56 (base * 65536), rd := bit e 3,
    wr := bit e 4, x := bit e 5, u := bit e 6, nc := bit e 7, fmt := bits e 16 8, stop := false }

/-- The alignment condition of R165 on a leaf. -/
def leafAligned (va : Nat) (e : BitVec 128) (l3 : Bool) : Bool :=
  let pfn := ptePfn e
  if l3 then !pteSpan e || pfn % 32 == va / 2 ^ 16 % 32
  else pfn % 4096 == 0 && (!pteSpan e || pfn / 4096 % 8 == va / 2 ^ 28 % 8)

/-- What a walk gives: the mapping, the address of the leaf read and the leaf, with the non-leaf entries it read; or a
reason (R166). -/
inductive WalkOut where
  | leaf (m : TlbEntry) (pte : Nat) (e : BitVec 128) (nl : List WalkEntry)
  | fault (reason : Nat)

/-- A non-leaf entry of the walk cache (R170). -/
def cachedTable (k : Core) (p : BitVec 3) (level vpn : Nat) : Option WalkEntry :=
  k.wcache.find? (fun e => e.part = p && e.level = level && e.vpn.toNat = vpn && !e.stop)

/-- The leaf level of the walk (R166): the level-3 table at `table`. -/
def walk3 (s : State) (p : BitVec 3) (va table : Nat) (nl : List WalkEntry) : WalkOut :=
  let a := table + 16 * (va / 2 ^ 16 % 4096)
  if populatedRange s a 16 then
    let e := rd16 s a
    if !pteV e then .fault 2
    else if !pteLeaf e || !pteOk e || !leafAligned va e true then .fault 3
    else .leaf (leafEntry p va e true) a e nl
  else .fault 4

/-- The walk from the level-2 table at `table`. -/
def walk2 (s : State) (p : BitVec 3) (va table : Nat) (nl : List WalkEntry) : WalkOut :=
  let a := table + 16 * (va / 2 ^ 28 % 4096)
  if populatedRange s a 16 then
    let e := rd16 s a
    if !pteV e then .fault 2
    else if !pteOk e then .fault 3
    else if pteLeaf e then
      (if leafAligned va e false then .leaf (leafEntry p va e false) a e nl else .fault 3)
    else if ptePfn e / 2 ^ 32 ≠ podPkg s then .fault 3
    else
      let t := ptePfn e % 2 ^ 32 * 65536
      walk3 s p va t (nl ++ [⟨p, 2, BitVec.ofNat 36 (va / 2 ^ 28), BitVec.ofNat 56 t, false⟩])
  else .fault 4

/-- The walk-cache entry that a lookup meets first has stopped hitting: level 2, then level 1 (R170, R175). -/
def walkStopped (k : Core) (p : BitVec 3) (va : Nat) : Bool :=
  let at_ (level vpn : Nat) : Option WalkEntry := k.wcache.find? (fun e => e.part = p && e.level = level && e.vpn.toNat = vpn)
  match at_ 2 (va / 2 ^ 28) with
  | some e => e.stop
  | none => ((at_ 1 (va / 2 ^ 40)).map (·.stop)).getD false

/-- The walk-cache entry that a walk of VA uses. -/
def walkUses (k : Core) (p : BitVec 3) (va : Nat) : Option WalkEntry :=
  match cachedTable k p 2 (va / 2 ^ 28) with
  | some e => some e
  | none => cachedTable k p 1 (va / 2 ^ 40)

/-- The core's copy of MMU.ROOT and MMU.THR of a partition, or the registers while it is empty (R163). -/
def rootsOf (s : State) (k : Nat) (p : BitVec 3) : DWord × DWord :=
  match mfind (getC s k).roots p.toNat with
  | some r => r
  | none => (mgGet s 0 (oRoot p.toNat), mgGet s 0 (oThr p.toNat))

/-- An empty copy of the registers is filled at the first walk or record load (R163). -/
def fillRoots (s : State) (k : Nat) (p : BitVec 3) : State :=
  let r := rootsOf s k p
  modC s k (fun c => { c with roots := mset c.roots p.toNat r })

/-- A walk of VA for partition p at core k, through the walk cache (R166, R170). -/
def walk (s : State) (k : Nat) (p : BitVec 3) (va : Nat) : WalkOut :=
  let c := getC s k
  match cachedTable c p 2 (va / 2 ^ 28) with
  | some e => walk3 s p va e.table.toNat []
  | none =>
    match cachedTable c p 1 (va / 2 ^ 40) with
    | some e => walk2 s p va e.table.toNat []
    | none =>
      let root := (rootsOf s k p).1
      if !bit root 48 then .fault 1
      else
        let a := bitsN root 16 32 * 65536 + 16 * (va / 2 ^ 40 % 4096)
        if populatedRange s a 16 then
          let e := rd16 s a
          if !pteV e then .fault 2
          else if pteLeaf e || !pteOk e || ptePfn e / 2 ^ 32 != podPkg s then .fault 3
          else
            let t := ptePfn e % 2 ^ 32 * 65536
            walk2 s p va t [⟨p, 1, BitVec.ofNat 36 (va / 2 ^ 40), BitVec.ofNat 56 t, false⟩]
        else .fault 4

/-- Pages of 64 KiB in a mapping of a size code (R171). -/
def pagesOf (size : BitVec 2) : Nat := if size = 0 then 1 else if size = 1 then 32 else if size = 2 then 4096 else 32768

/-- A mapping covers a page. -/
def covers (e : TlbEntry) (p : BitVec 3) (vpn : Nat) : Bool :=
  e.part == p && e.vpn.toNat ≤ vpn && vpn < e.vpn.toNat + pagesOf e.size

/-- The compute die whose controller tracks a frame: the first healthy die attached to its home, or the requester's for the
second tier (R142). -/
def plcDie (s : State) (k pa : Nat) : Nat :=
  if isTier2 pa then dieOf k
  else
    let j := homeMem s pa
    if dieOk s j && memPortUp s j j then j else (j + 1) % 8

/-- A walk that ends at a leaf the controller may move sends a walk notice (R178). -/
def walkNotice (s : State) (k : Nat) (m : TlbEntry) (pte : Nat) (e : BitVec 128) : State :=
  let d := plcDie s k (paOf m.pa.toNat)
  if isLocal s m.pa.toNat && (ptePlace e == 0 || ptePlace e == 2) && !m.nc && !pteNomig e && m.size.toNat ≤ 1
     && bit (mgGet s d oPlcCtl) m.part.toNat then
    let c := mget Plc.init s.plcs d
    { s with plcs := mset s.plcs d { c with notices := c.notices ++ [(m.pa.toNat / 65536, m.size == 1, m.part.toNat, pte)] } }
  else s

/-- The mapping and the non-leaf entries of a walk of VA enter the caches, the least recently used leaving; the entry that the walk used becomes the
most recent (R170). -/
def installWalk (s : State) (k : Nat) (p : BitVec 3) (va : Nat) (m : TlbEntry) (pte : Nat) (e : BitVec 128) (nl : List WalkEntry) : State :=
  let s1 := modC (fillRoots s k p) k (fun c =>
    let used := match walkUses c p va with | some w => w :: dropFirst (fun v => v = w) c.wcache | none => c.wcache
    { c with tlb := (m :: c.tlb.filter (fun t => !(t.part == m.part && t.vpn == m.vpn && t.size == m.size))).take 512, wcache := (nl ++ used).take 32 })
  walkNotice s1 k m pte e

/-- The pod address of a VA in a mapping. -/
def mappedAt (m : TlbEntry) (va : Nat) : Nat := (m.pa.toNat + (va - m.vpn.toNat * 65536)) % 2 ^ 56

/-- What a translation gives: a mapping; a fault; or a wait, in which the walk enters the caches or a first failure is
remembered until the next tick (R170, R312). -/
inductive TransOut where
  | ok (m : TlbEntry)
  | fault (reason : Nat)
  | wait (cause : Nat) (eff : State → State)

/-- A walk of a VA for the context x, after which the state goes on as `then_` says (R163, R166, R170, R312): an empty copy of MMU.ROOT is filled
first; reasons 2 and 3 are walked once more at the next tick. -/
def walkFor (s : State) (x va : Nat) (then_ : State → State) : TransOut :=
  let c := getX s x
  let k := coreOf x
  if walkStopped (getC s k) c.part va then .wait 5 id
  else if (mfind (getC s k).roots c.part.toNat).isNone then .wait 5 (fun t => fillRoots t k c.part)
  else
    match walk s k c.part va with
    | .leaf m pte e nl => .wait 5 (fun t => then_ (modX (installWalk t k c.part va m pte e nl) x (fun c => { c with walkRetry := none })))
    | .fault r =>
      if r = 2 ∨ r = 3 then
        match c.walkRetry with
        | some t => if t < s.cicada.toNat then .fault r else .wait 6 id
        | none => .wait 6 (fun t => modX t x (fun c => { c with walkRetry := some s.cicada.toNat }))
      else .fault r

/-- The translation of a VA for the context x: a mapping that has stopped hitting, and one of a page being moved, freeze it (R170, R175,
R179). -/
def translate (s : State) (x va : Nat) : TransOut :=
  match (getC s (coreOf x)).tlb.find? (fun e => covers e (getX s x).part (va / 65536)) with
  | some e => if e.stop then .wait 5 id else if moving s (mappedAt e va) then .wait 7 id else .ok e
  | none => walkFor s x va id

/-- The mapping just used becomes the most recent (R170). -/
def touchTlb (s : State) (x va : Nat) : State :=
  modC s (coreOf x) (fun k =>
    match k.tlb.find? (fun e => covers e (getX s x).part (va / 65536)) with
    | some e => { k with tlb := e :: dropFirst (fun f => f = e) k.tlb }
    | none => k)

/-! ## Handles (R171-R173, R360) -/

/-- The handle that a mapping gives (R172). -/
def handleOf (m : TlbEntry) (aret : Bool) : Handle :=
  { st := 1, aret := aret, size := m.size, rd := m.rd, wr := m.wr, nc := m.nc, fmt := m.fmt, vpn := m.vpn, pa := m.pa }

/-- The status word of a handle (R171). -/
def handleWord (h : Handle) : DWord :=
  (0#12 ++ h.vpn ++ h.fmt ++ BitVec.ofBool h.nc ++ BitVec.ofBool h.wr ++ BitVec.ofBool h.rd ++ h.size
    ++ BitVec.ofBool h.aret ++ h.st).setWidth 64

/-- What a handle stands for in an access: the handle is VALID; causes; or a wait (R173). -/
inductive HandleOut where
  | ok (h : Handle)
  | bad (l : List Cause)
  | wait (cause : Nat) (eff : State → State)

/-- A handle is resolved (R173): DRAINING holds, STALE and INVALID with ARET walk again, whatever the translation cache holds, INVALID without it
is HINV. -/
def resolveHandle (s : State) (x hn : Nat) (va : Nat) : HandleOut :=
  let c := getX s x
  let h := readH c hn
  let page := h.vpn.toNat * 65536
  if h.st = 1 then .ok h
  else if h.st = 2 then .wait 7 id
  else if h.st = 0 ∧ ¬ h.aret then .bad [⟨cHINV, 0, hn, 0⟩]
  else
    match if c.walked = some page then translate s x page else walkFor s x page (fun t => modX t x (fun d => { d with walked := some page })) with
    | .ok m =>
      if !c.sup && !m.u then .bad [⟨cPPROT, 1, hn, tiVa va⟩]
      else .wait 5 (fun t => modX (touchTlb t x page) x (fun c => { setH c hn (handleOf m h.aret) with walked := none }))
    | .fault r => .bad [⟨cPFLT, r, hn, tiVa va⟩]
    | .wait q f => .wait q f

/-- What a global operand gives: its handle, its pod address and VA; causes; or a wait. -/
inductive GlobOut where
  | ok (h : Handle) (pa va : Nat)
  | bad (l : List Cause)
  | wait (cause : Nat) (eff : State → State)

/-- The VA of byte o of a handle's page. -/
def handleVa (h : Handle) (o : Nat) : Nat := (h.vpn.toNat * 65536 + o) % 2 ^ 56

/-- Bytes of a page. -/
def pageBytes (size : BitVec 2) : Nat := 65536 * pagesOf size

/-- The checks of n bytes at offset o of a VALID handle: alignment, bound, population, permission (R118, R173, R360). -/
def globCheck (s : State) (h : Handle) (hn o n align : Nat) (rd wr : Bool) : List Cause :=
  let va := tiVa (handleVa h o)
  let pa := (h.pa.toNat + o) % 2 ^ 56
  let out := o + n > pageBytes h.size
  (if (h.pa.toNat + o) % align = 0 then [] else [⟨cALIGN, 0, hn, va⟩])
  ++ (if out then [⟨cBOUND, 0, hn, va⟩] else [])
  ++ (if !out && isLocal s pa && !populatedRange s (paOf pa) n then [⟨cPFLT, 5, hn, tiPhys (paOf pa)⟩] else [])
  ++ (if (rd && !h.rd) || (wr && !h.wr) then [⟨cPPROT, 1, hn, va⟩] else [])

/-- A global operand: handle hn at byte offset o, n bytes, aligned, with the permissions it needs (R360); a page being moved freezes the context
(R179). -/
def globalOperand (s : State) (x hn o n align : Nat) (rd wr : Bool) : GlobOut :=
  match resolveHandle s x hn (handleVa (readH (getX s x) hn) o) with
  | .bad l => .bad l
  | .wait q f => .wait q f
  | .ok h =>
    match globCheck s h hn o n align rd wr with
    | [] => if moving s ((h.pa.toNat + o) % 2 ^ 56) then .wait 7 id else .ok h ((h.pa.toNat + o) % 2 ^ 56) (handleVa h o)
    | l => .bad l

/-- A slot that needs a global operand. -/
def withGlobal (g : GlobOut) (k : Handle → Nat → Nat → SlotOut) : SlotOut :=
  match g with
  | .bad l => .trap l
  | .wait q f => .hold q f
  | .ok h pa va => k h pa va

/-! ## Tensor header records (R168, R169) -/

/-- Record i of a partition's table as the core holds it, or as memory holds it when the table is not loaded. -/
def thrRecord (s : State) (k : Nat) (p : BitVec 3) (i : Nat) : BitVec 128 :=
  match mfind (getC s k).thr p.toNat with
  | some t => mget 0 t i
  | none => rd16 s (bitsN (rootsOf s k p).2 12 36 * 4096 + 16 * i)

/-- The table of a partition as memory holds it; record 0 is never read. -/
def thrTable (s : State) (k : Nat) (p : BitVec 3) : Map (BitVec 128) :=
  let base := bitsN (rootsOf s k p).2 12 36 * 4096
  (tab 255 (fun i => (i + 1, rd16 s (base + 16 * (i + 1))))).filter (fun r => r.2 != 0)

/-- The core loads the table when it first needs it (R169). -/
def loadThr (s : State) (k : Nat) (p : BitVec 3) : State :=
  match mfind (getC s k).thr p.toNat with
  | some _ => s
  | none =>
    let s1 := fillRoots s k p
    modC s1 k (fun c => { c with thr := mset c.thr p.toNat (thrTable s1 k p) })

def thrType (r : BitVec 128) : Nat := bitsN r 0 4
def thrEbits (r : BitVec 128) : Nat := bitsN r 4 3
def thrMbits (r : BitVec 128) : Nat := bitsN r 7 3
def thrBias (r : BitVec 128) : Nat := bitsN r 16 8
def thrBscale (r : BitVec 128) : Bool := bit r 24
def thrRot (r : BitVec 128) : Nat := bitsN r 25 2
def thrRmode (r : BitVec 128) : Nat := bitsN r 27 2
def thrSeed (r : BitVec 128) : BitVec 32 := bits r 32 32
def thrKey (r : BitVec 128) : BitVec 32 := bits r 64 32

/-- A record that data can be decoded by (R169). -/
def thrOk (r : BitVec 128) : Bool :=
  let w := 1 + thrEbits r + thrMbits r
  thrType r < 8 && thrRmode r != 3 && bitsN r 10 6 == 0 && bitsN r 29 3 == 0 && bitsN r 96 32 == 0
  && (thrType r != 6 || (3 ≤ w && w ≤ 8 && thrEbits r != 0))

/-- The record of a window of the context; index 0 is unformatted, the raw record. -/
def windowRecord (s : State) (x w : Nat) : BitVec 128 :=
  let i := twThr (readTw (getX s x) w)
  if i = 0 then 0 else thrRecord s (coreOf x) (getX s x).part i

/-! ## Fetching a bundle (R188, R317) -/

/-- What the fetch of a bundle gives: its words, up to and including the first E or the eighth; a fault; or a wait. -/
inductive FetchOut where
  | ok (ws : List Word)
  | fault (q : Cause)
  | wait (cause : Nat) (eff : State → State)

/-- A word of memory. -/
def memWord (s : State) (pa : Nat) : Word := BitVec.ofNat 32 (leNat (memBytes s.mem pa 4))

/-- A line of the instruction cache: 64 KiB in 8 ways (R224). -/
def icFind (k : Core) (line : Nat) (part : BitVec 3) : Option ILine := k.ic.find? (fun l => l.line == line && l.part == part)

/-- An access beside those of R251, which waits to be sent. -/
def sideAcc (s : State) (c : Ctx) (kind : AccKind) (pa n : Nat) (nc : Bool) : Acc :=
  { tag := s.nextId % 65536, ord := c.ord, grp := s.nextId, kind := kind, pa := BitVec.ofNat 56 pa, n := n, cls := 0, sem := 0, scope := 0,
    mmh := false, nc := nc, data := [], stat := .waiting, alloc := true, off := 0, opc := c.pc, oct := c.time, inh := c.inh, again := false }

/-- A context fetches the line of an address, unless it does so already (R233). -/
def fetchLine (x pa : Nat) (nc : Bool) (s : State) : State :=
  let c := getX s x
  if c.accs.any (fun a => a.kind == .fetch && a.pa.toNat == pa / 64 * 64) then s
  else setX { s with nextId := s.nextId + 1 } x { c with accs := c.accs ++ [sideAcc s c .fetch (pa / 64 * 64) 64 nc] }

/-- The word at an address whose line the instruction cache holds: of this package as memory holds it (log entry 28, DESIGN CHOICE), of another as
the line came. -/
def icWord (s : State) (l : ILine) (pa : Nat) : Word :=
  if isLocal s pa then memWord s (paOf pa) else bits l.data (8 * (pa % 64)) 32

/-- The words of a bundle from VA, with n words left to examine: each through the instruction cache, whose miss freezes the context (R188, R233,
R317). -/
def fetchWords (s : State) (x : Nat) : Nat → Nat → FetchOut
  | 0, _ => .ok []
  | n + 1, va =>
    match translate s x va with
    | .fault r => .fault ⟨cPFLT, r, 0, tiVa va⟩
    | .wait q f => .wait q f
    | .ok m =>
      if !m.x || (!(getX s x).sup && !m.u) then .fault ⟨cPPROT, 2, 0, tiVa va⟩
      else
        let pa := mappedAt m va
        if isLocal s pa && !populatedRange s (paOf pa) 4 then .fault ⟨cPFLT, 5, 0, tiPhys (paOf pa)⟩
        else
          match icFind (getC s (coreOf x)) (pa / 64) (getX s x).part with
          | none => .wait 5 (fetchLine x pa m.nc)
          | some l =>
            let w := icWord s l pa
            if bit w 31 then .ok [w]
            else
              match fetchWords s x n ((va + 4) % 2 ^ 52) with
              | .ok ws => .ok (w :: ws)
              | r => r

/-- The bundle that the context is to issue next: a later pass of a running loop is replayed from the loop buffer (R352). -/
def fetchBundle (s : State) (x : Nat) : FetchOut :=
  let c := getX s x
  match c.curLoop with
  | some l =>
    if 0 < l.pass then
      match l.buf.find? (fun b => b.1 = c.pc) with
      | some b => .ok b.2
      | none => fetchWords s x 8 c.pc.toNat
    else fetchWords s x 8 c.pc.toNat
  | none => fetchWords s x 8 c.pc.toNat

/-- The mappings that a bundle of n words at the context's pc was fetched through become the most recent (R170). -/
def touchFetch (s : State) (x n : Nat) : State :=
  touchTlb (touchTlb s x ((getX s x).pc.toNat + 4 * (n - 1))) x (getX s x).pc.toNat

/-- The words fetched in pass 0 of a running loop enter the loop buffer (R352). -/
def latchBody (s : State) (x : Nat) (ws : List Word) : State :=
  let c := getX s x
  match c.curLoop with
  | some l =>
    if l.pass = 0 then
      setX s x (c.setLoop (some { l with buf := l.buf.filter (fun b => b.1 != c.pc) ++ [(c.pc, ws)] }))
    else s
  | none => s

/-- The words of a loop's body, n bundles from VA: delimiting them can fail (R349).  The answer is the address after it. -/
def bodyEnd (s : State) (x : Nat) : Nat → Nat → Sum Nat SlotOut
  | 0, va => .inl va
  | n + 1, va =>
    match fetchWords s x 8 va with
    | .fault q => .inr (.trap [q])
    | .wait q f => .inr (.hold q f)
    | .ok ws =>
      if ws.any (fun w => bit w 31) then bodyEnd s x n ((va + 4 * ws.length) % 2 ^ 52)
      else .inr (.trap [⟨cIEN, 4, 0, tiVa va⟩])

end Sys2Proof.Machine
end

