-- ==== Sys2Proof/Machine/Access.lean ====
section
/-!
DEFINITION. Global accesses of contexts (R251-R260): the core data cache (R136, R137), the remote-data cache (R127-R129), the
version filter (R65), the order in which accesses are sent (R253, R255, R258, R259), and their completion (R227, R304).
-/

namespace Sys2Proof.Machine

open Sys2Proof

/-! ## Pins (R130) -/

/-- The line that the transfer under way of a run is on: none when nothing is outstanding. -/
def runLines (r : Run) : List Nat := if r.out.isEmpty then [] else r.lines

/-- The request that an endpoint sent under a tag has reached its home, and has allocated or found its line there. -/
def atHome (s : State) (e : Ep) (tag : Nat) : Bool :=
  let on (p : Pkt) : Bool := p.src == e && p.tag.toNat == tag
  !s.net.any (fun f => on f.pkt) && !s.rx.any on

/-- The pins of a line: the commands and descriptors with a transfer to or from it in flight that has reached it (R130). -/
def pinCount (s : State) (line : Nat) : Nat :=
  s.cores.foldl (fun n c => n + (c.2.runs.filter (fun r => (runLines r).contains line && r.out.any (fun o => atHome s (coreEp s c.1) o.1))).length)
    (s.rma.foldl (fun n q => n + (q.2.filter (fun d => d.out.any (fun o =>
      decide (o.2.1 / 64 ≤ line) && decide (line ≤ (o.2.1 + o.2.2 - 1) / 64) && atHome s (epId 0x10 0) o.1))).length) 0)

/-! ## The remote-data cache (R127-R129) -/

def rdcKey (die pa : Nat) : Nat := die * 16 + pa / 64 % 16
def rdcOf (s : State) (die pa : Nat) : List RdcLine := mget [] s.rdc (rdcKey die pa)
def setRdc (s : State) (die pa : Nat) (l : List RdcLine) : State := { s with rdc := mset s.rdc (rdcKey die pa) l }

/-- The line of an address as the die's slice holds it for a partition. -/
def rdcFind (s : State) (die pa : Nat) (part : BitVec 3) : Option RdcLine :=
  (rdcOf s die pa).find? (fun l => l.line == pa / 64 && l.part == part)

/-- A read by a core of the die allocates the line: second tier, or a memory die not joined to the die by a healthy port
(R127). -/
def rdcAllocates (s : State) (die pa : Nat) : Bool := isTier2 pa || !memPortUp s die (homeMem s pa)

/-- The list without its last element that satisfies a test. -/
def dropLast {α : Type} (p : α → Bool) (l : List α) : List α := (dropFirst p l.reverse).reverse

/-- A line enters the slice of its address, 65,536 lines, whose oldest unpinned line leaves when it is full (R127, R130). -/
def rdcFill (s : State) (die pa : Nat) (part : BitVec 3) (data : BitVec 512) (bad : Bool) : State :=
  let l := (rdcOf s die pa).filter (fun q => !(q.line == pa / 64 && q.part == part))
  let l1 := if l.length < 65536 then l else dropLast (fun q => pinCount s q.line == 0) l
  if l1.length < 65536 then setRdc s die pa (⟨pa / 64, part, data, bad⟩ :: l1) else s

/-- n bytes put into a line's bytes at offset o. -/
def lineBytes (d : BitVec 512) (o : Nat) : List Byte → BitVec 512
  | [] => d
  | b :: l => lineBytes (setBits d (8 * o) 8 b.toNat) (o + 1) l

/-- The access is on a line of this package. -/
def onLine (s : State) (line : Nat) (a : Acc) : Bool := isLocal s a.pa.toNat && paOf a.pa.toNat / 64 == line

/-- Reads in flight of a line, by contexts of a partition on a die, allocate it nowhere when they return: what they bring may be older than a
store that has passed since (R128, R253, R260). -/
def dropAlloc (s : State) (die : Nat) (part : BitVec 3) (line : Nat) : State :=
  { s with ctxs := s.ctxs.map (fun (e : Nat × Ctx) =>
      if dieOf (coreOf e.1) = die ∧ e.2.part = part ∧ e.2.accs.any (onLine s line) then
        (e.1, { e.2 with accs := e.2.accs.map (fun a => if onLine s line a then { a with alloc := false } else a) })
      else e) }

/-- A store of the partition that leaves the die writes its bytes into a copy that is present (R128); all 64 bytes clear its poison, poisoned data
sets it (R132). -/
def rdcStore (s : State) (die pa : Nat) (part : BitVec 3) (bytes : List Byte) (bad : Bool) : State :=
  dropAlloc (setRdc s die pa ((rdcOf s die pa).map (fun q =>
    if q.line == pa / 64 && q.part == part then
      { q with data := lineBytes q.data (pa % 64) bytes, poison := bad || (q.poison && bytes.length != 64) }
    else q))) die part (pa / 64)

/-- A write to a range by an engine: every line it touches (R128). -/
def rdcStoreRange (s : State) (die : Nat) (part : BitVec 3) (bad : Bool) : Nat → Nat → List Byte → State
  | 0, _, _ => s
  | n + 1, pa, bytes =>
    let k := 64 - pa % 64
    if bytes.isEmpty then s
    else rdcStoreRange (rdcStore s die pa part (bytes.take k) bad) die part bad n (pa + k) (bytes.drop k)

/-- An uncorrectable error: the line is poisoned at its home and in every cached copy (R131). -/
def poisonLine (line : Nat) (s : State) : State :=
  { s with poison := if s.poison.contains line then s.poison else line :: s.poison,
           rdc := s.rdc.map (fun (e : Nat × List RdcLine) => (e.1, e.2.map (fun q => if q.line == line then { q with poison := true } else q))),
           cores := s.cores.map (fun (e : Nat × Core) => if e.2.dc.any (fun q => q.line == line)
             then (e.1, { e.2 with dc := e.2.dc.map (fun q => if q.line == line then { q with poison := true } else q) }) else e) }

/-- An atomic that leaves the die drops every copy of its line (R128). -/
def rdcDrop (s : State) (die pa : Nat) : State :=
  setRdc s die pa ((rdcOf s die pa).filter (fun q => q.line != pa / 64))

/-- Every line of a partition on a die is invalidated, and reads in flight no longer allocate (R129). -/
def rdcInvalidate (s : State) (die : Nat) (part : BitVec 3) : State :=
  let s1 : State := { s with rdc := s.rdc.map (fun (e : Nat × List RdcLine) => if e.1 / 16 = die then (e.1, e.2.filter (fun q => q.part != part)) else e) }
  { s1 with ctxs := s1.ctxs.map (fun (e : Nat × Ctx) => if dieOf (coreOf e.1) = die ∧ e.2.part = part
      then (e.1, { e.2 with accs := e.2.accs.map (fun a => { a with alloc := false }) }) else e) }

/-! ## The core data cache (R136, R137) -/

def dcFind (k : Core) (line : Nat) (part : BitVec 3) : Option DLine := k.dc.find? (fun l => l.line == line && l.part == part)

/-- The set of a line: 8 ways of 64 bytes in D bytes. -/
def dcSet (k : Core) (line : Nat) : Nat := line % max 1 (dcBytes k / 512)

/-- A line that holds nothing. -/
def DLine.empty (line : Nat) (part : BitVec 3) : DLine := ⟨line, part, 0, 0, 0, false⟩

def dcPut (k : Core) (l : DLine) : Core :=
  { k with dc := l :: k.dc.filter (fun q => !(q.line == l.line && q.part == l.part)) }

/-- Runs of consecutive dirty bytes of a line, from byte i on with n bytes left: offset and bytes. -/
def dirtyRuns (l : DLine) : Nat → Nat → List (Nat × List Byte)
  | 0, _ => []
  | n + 1, i =>
    let r := dirtyRuns l n (i + 1)
    if bit l.dirty i then
      let b : Byte := bits l.data (8 * i) 8
      match r with
      | (o, bs) :: t => if o = i + 1 then (i, b :: bs) :: t else (i, [b]) :: r
      | [] => [(i, [b])]
    else r

/-- A write-back of one run of a line leaves the core as a write, whose answer is awaited (R62, R136). -/
def sendWriteBack (s : State) (k : Nat) (l : DLine) (r : Nat × List Byte) : State :=
  let pa := l.line * 64 + r.1
  let t := s.nextId
  let s1 := modC { s with nextId := t + 1 } k (fun c => { c with wbs := c.wbs ++ [(t % 65536, l.line, l.part)] })
  let s2 := addTimer (rdcStore s1 (dieOf k) pa l.part r.2 false) 262144 .requestTimeout (EvArg.of2 (coreEp s k).toNat (t % 65536))
  sendPkt s2 (mkPkt 2 0 l.part (coreEp s2 k) (homeEp s2 pa false) t pa r.2 .none)

/-- The accesses of a core's contexts of a partition, each one changed. -/
def mapAccs (k : Nat) (part : BitVec 3) (f : Acc → Acc) (s : State) : State :=
  (tab 4 (fun i => 4 * k + i)).foldl (fun t x =>
    let c := getX t x
    if c.part = part ∧ c.accs.any (fun a => f a != a) then setX t x { c with accs := c.accs.map f } else t) s

/-- The store lies in the data cache, in a line (R136). -/
def cachedOn (line : Nat) (a : Acc) : Bool := a.stat == .cached && paOf a.pa.toNat / 64 == line

/-- The dirty bytes of a line are written back, and only those (R136); the stores among them leave for the home. -/
def writeBack (s : State) (k : Nat) (l : DLine) : State :=
  let s0 := mapAccs k l.part (fun a => if cachedOn l.line a then { a with stat := .leaving } else a) s
  let s1 := (dirtyRuns l 64 0).foldl (fun t r => sendWriteBack t k l r) s0
  modC s1 k (fun c => { c with dc := c.dc.map (fun q => if q.line == l.line && q.part == l.part then { q with dirty := 0 } else q) })

/-- The dirty lines of a partition, or of all. -/
def dirtyLines (c : Core) (part : Option (BitVec 3)) : List DLine :=
  c.dc.filter (fun l => l.dirty != 0 && (match part with | some p => l.part == p | none => true))

/-- Release actions of `.cluster` and wider: the partition's dirty bytes are written back (R136, R257). -/
def cleanPart (s : State) (k : Nat) (part : BitVec 3) : State :=
  (dirtyLines (getC s k) (some part)).foldl (fun t l => writeBack t k l) s

/-- Acquire actions of `.cluster` and wider: write back, then invalidate the partition's lines; reads in flight no longer allocate (R136,
R257, R260). -/
def flushPart (s : State) (k : Nat) (part : BitVec 3) : State :=
  mapAccs k part (fun a => { a with alloc := false }) (modC (cleanPart s k part) k (fun c => { c with dc := c.dc.filter (fun l => l.part != part) }))

/-- Room for a line in its set: a full set gives up a way (R136; log entry 12, DESIGN CHOICE). -/
def dcRoom (s : State) (k line : Nat) : State :=
  let c := getC s k
  let same := c.dc.filter (fun l => dcSet c l.line == dcSet c line)
  if same.length < 8 then s
  else
    match same[Config.dcacheVictim s.free % 8]? with
    | some v =>
      let s1 := writeBack { s with free := s.free + 1 } k v
      modC s1 k (fun c => { c with dc := c.dc.filter (fun l => !(l.line == v.line && l.part == v.part)) })
    | none => s

/-- Bits lo to lo + n − 1 set: a mask of bytes of a line. -/
def byteMask (lo n : Nat) : BitVec 64 := BitVec.ofNat 64 ((2 ^ n - 1) * 2 ^ lo)

/-- A store to the data cache: the line is allocated if need be, and its bytes become valid and dirty (R136, R364). -/
def dcStore (s : State) (k pa : Nat) (part : BitVec 3) (bytes : List Byte) : State :=
  let line := pa / 64
  let s1 := match dcFind (getC s k) line part with | some _ => s | none => dcRoom s k line
  modC s1 k (fun c =>
    let l := (dcFind c line part).getD (DLine.empty line part)
    let m := byteMask (pa % 64) bytes.length
    dcPut c { l with valid := l.valid ||| m, dirty := l.dirty ||| m, data := lineBytes l.data (pa % 64) bytes, poison := l.poison && bytes.length != 64 })

/-- The bytes of a line read from memory join those the cache holds; bytes already valid stay (R136, R363). -/
def dcFill (s : State) (k line : Nat) (part : BitVec 3) (data : List Byte) : State :=
  let s1 := match dcFind (getC s k) line part with | some _ => s | none => dcRoom s k line
  modC s1 k (fun c =>
    let l := (dcFind c line part).getD (DLine.empty line part)
    let d := (tab 64 (fun i => i)).foldl (fun d i => if bit l.valid i then d else setBits d (8 * i) 8 (data.getD i 0).toNat) l.data
    dcPut c { l with valid := BitVec.allOnes 64, data := d })

/-- n bytes of a line from offset o. -/
def takeLine (d : BitVec 512) (o n : Nat) : List Byte := tab n (fun i => bits d (8 * (o + i)) 8)

/-! ## The version filter (R65) -/

def laterVer (a b : BitVec 32) : BitVec 32 := if (b - a).toNat < 2 ^ 31 then b else a
def olderVer (v m : BitVec 32) : Bool := let d := (m - v).toNat; 1 ≤ d && d < 2 ^ 31

/-- An acknowledgement or a writing-atomic response enters the filter (R65). -/
def filterEnter (s : State) (k line : Nat) (v : BitVec 32) : State :=
  let t := s.cicada.toNat
  modC s k (fun c =>
    if c.vf.any (fun e => e.line == line) then
      { c with vf := updFirst (fun e => e.line == line) (fun e => ⟨line, laterVer e.ver v, t⟩) c.vf }
    else if c.vf.length < 32 then { c with vf := c.vf ++ [⟨line, v, t⟩] }
    else match c.vf with
      | e :: l => { c with vf := l ++ [⟨line, v, t⟩], evt := max c.evt e.tick }
      | [] => c)

/-- Entries two ticks old are freed and EVT takes their tick (R65). -/
def filterFree (s : State) (k : Nat) : State :=
  let t := s.cicada.toNat
  modC s k (fun c =>
    let old := c.vf.filter (fun e => e.tick + 2 ≤ t)
    { c with vf := c.vf.filter (fun e => t < e.tick + 2), evt := old.foldl (fun m e => max m e.tick) c.evt })

/-- A merged response is accepted (R65, R258). -/
def mergedOk (s : State) (k : Nat) (c : Ctx) (p : Pkt) : Bool :=
  let d := departTick s p.orig
  !((getC s k).vf.any (fun e => e.line == p.addr.toNat / 64 && olderVer p.ver e.ver))
    && decide ((getC s k).evt < d) && decide (c.floor < d)

/-! ## Accesses of a context -/

/-- The pieces of n bytes from a that lie in one line each. -/
def splitLines : Nat → Nat → Nat → List (Nat × Nat)
  | 0, _, _ => []
  | f + 1, a, n => if n = 0 then [] else let k := min n (64 - a % 64); (a, k) :: splitLines f (a + k) (n - k)

/-- A global access joins the context's accesses, one for each line it touches (R251, R254, R362). -/
def addAccess (x : Nat) (kind : AccKind) (pa n : Nat) (cls : BitVec 4) (sem : BitVec 2) (scope : BitVec 3) (mmh nc : Bool)
    (data : List Byte) (s : State) : State :=
  let c := getX s x
  let g := s.nextId
  let ps := splitLines 40 pa n
  let accs := (tab ps.length (fun i => (i, ps.getD i (0, 0)))).map (fun q =>
    { tag := (g + q.1) % 65536, ord := c.ord, grp := g, kind := kind, pa := BitVec.ofNat 56 q.2.1, n := q.2.2, cls := cls, sem := sem,
      scope := scope, mmh := mmh, nc := nc, data := (data.drop (q.2.1 - pa)).take q.2.2, stat := .waiting, alloc := true,
      off := q.2.1 - pa, opc := c.pc, oct := c.time, inh := c.inh, again := false : Acc })
  setX { s with nextId := g + ps.length } x { c with ord := c.ord + 1, accs := c.accs ++ accs }

/-- The group that the next access of the machine will take. -/
def nextGroup (s : State) : Nat := s.nextId

/-- The value of a loading form: low 3 bits the size's logarithm, bit 3 sign extension (R362, R366). -/
def formValue (form : Nat) (l : List Byte) : DWord :=
  let n := 2 ^ (form % 8)
  let v := leNat (l.take n)
  if form / 8 % 2 = 1 then sextNat 64 (8 * n) v else BitVec.ofNat 64 v

/-- The bytes of a tile that a list gives, from byte 0. -/
def tileOf (l : List Byte) : Tile := BitVec.ofNat 16384 (leNat l)

/-- A result that waited gets its value (R227). -/
def fillResult (r : Result) (data : List Byte) : Result :=
  match r.eff with
  | .sreg n _ => { r with eff := .sreg n (formValue r.form data), stat := .done }
  | .vreg n _ m => { r with eff := .vreg n (tileOf data) m, stat := .done }
  | _ => { r with stat := .done }

def waitsFor (g : Nat) (r : Result) : Bool := match r.stat with | .waiting h => h == g | _ => false

/-- Accesses of a group, and whether all are performed. -/
def groupAccs (c : Ctx) (g : Nat) : List Acc := c.accs.filter (fun a => a.grp == g)
def accDone (a : Acc) : Bool := match a.stat with | .done => true | _ => false

/-- An access of R251: no poll, no flushing read, no fetch. -/
def ordered (a : Acc) : Bool := match a.kind with | .load => true | .store => true | .atomic _ _ _ _ _ => true | _ => false

/-- A remote store that has been posted and, for all that its package knows, not been performed (R97, R252). -/
def isPosted (a : Acc) : Bool := match a.stat with | .posted _ => true | _ => false

/-- An access that is performed, or is none of R251. -/
def overDone (a : Acc) : Bool := accDone a || !ordered a

/-- A release, or an atomic that is one too (R259, R367). -/
def isRelease (a : Acc) : Bool := (a.sem == 2 || a.sem == 3) && ordered a

/-- An acquire whose performance opens a merge window (R258). -/
def opensWindow (a : Acc) : Bool := (a.sem == 1 || a.sem == 3) && decide (2 ≤ a.scope.toNat) && ordered a && a.kind != .store

/-- When every access of a group has been performed its result is complete and the group is gone (R227, R252). -/
def closeGroup (s : State) (x g : Nat) : State :=
  let c := getX s x
  let l := groupAccs c g
  if l.all accDone then
    let data := l.foldl (fun d a => d ++ a.data) []
    let fill := fun r => if waitsFor g r then fillResult r data else r
    setX s x { c with accs := c.accs.filter (fun a => a.grp != g), infl := c.infl.map fill, hinfl := c.hinfl.map fill,
                      poll := if l.any (fun a => a.kind == .poll) then some (BitVec.ofNat 64 (leNat data)) else c.poll,
                      fillCyc := if (c.infl ++ c.hinfl).any (waitsFor g) then s.cyc else c.fillCyc }
  else s

/-- A flushing read covers a posted store: it went to the same package, after it (R105). -/
def coveredBy (f a : Acc) : Bool :=
  match a.stat with
  | .posted n => decide (n < f.ord) && a.pa.toNat / 2 ^ 48 == f.pa.toNat / 2 ^ 48
  | _ => false

/-- Accesses of a context have been performed, and their groups are closed. -/
def doneWhere (x : Nat) (p : Acc → Bool) (s : State) : State :=
  let c := getX s x
  let l := c.accs.filter p
  if l.isEmpty then s
  else (l.map (·.grp)).eraseDups.foldl (fun t g => closeGroup t x g)
    (setX s x { c with accs := c.accs.map (fun a => if p a then { a with stat := .done } else a) })

/-- A release of `.pod` scope has been performed: what its flushing reads reported is raised now (R259). -/
def raiseLate (x : Nat) (s : State) : State :=
  let c := getX s x
  if c.accs.any (fun a => isRelease a && a.scope == 4 && !accDone a) then s
  else
    let late := c.accs.filter (fun a => match a.stat with | .late _ _ => true | _ => false)
    late.foldl (fun t a => match a.stat with
      | .late code reason => modX t x (fun d => addCause { d with accs := dropFirst (fun b => b.tag == a.tag) d.accs } a.inh
          ⟨code, reason, 0, 1, tiPhys a.pa.toNat, a.opc, a.oct⟩)
      | _ => t) s

/-- One access has been performed, with the bytes it returns (R252); an acquire of `.die` scope or wider opens its merge window (R258), and the
stores that a flushing read covers have been performed too (R105). -/
def performAcc (s : State) (x tag : Nat) (data : List Byte) : State :=
  let c := getX s x
  match c.accs.find? (fun a => a.tag == tag) with
  | some a =>
    let l := updFirst (fun b => b.tag == tag) (fun b => { b with stat := .done, data := data }) c.accs
    let s1 := closeGroup (setX s x { c with accs := l, floor := if opensWindow a then s.cicada.toNat else c.floor }) x a.grp
    let s2 := if a.kind == .flush then doneWhere x (coveredBy a) s1 else s1
    if isRelease a then raiseLate x s2 else s2
  | none => s

/-- An access has failed: the result that waits for it fails, or the cause arrives now when no result waits (R304, R366). -/
def failAcc (s : State) (x tag code reason : Nat) (addr : DWord) : State :=
  let c := getX s x
  match c.accs.find? (fun a => a.tag == tag) with
  | some a =>
    let d : Deferred := ⟨code, reason, 0, 1, addr, a.opc, a.oct⟩
    let has := (c.infl ++ c.hinfl).any (waitsFor a.grp)
    let fail := fun r => if waitsFor a.grp r then { r with stat := .failed d } else r
    let c1 := { c with accs := c.accs.filter (fun b => b.grp != a.grp), infl := c.infl.map fail, hinfl := c.hinfl.map fail, fillCyc := s.cyc }
    let late := a.kind == .flush && c.accs.any (fun b => isRelease b && b.scope == 4 && !accDone b)
    let s1 := if late then setX s x { c with accs := updFirst (fun b => b.tag == tag) (fun b => { b with stat := .late code reason }) c.accs }
      else setX s x (if has then c1 else addCause c1 a.inh d)
    let s2 := if a.kind == .flush then doneWhere x (coveredBy a) s1 else s1
    if isRelease a then raiseLate x s2 else s2
  | none => s

/-! ## Errors that ECC finds (R131, R313) -/

/-- The address that TI.ADDR names for an access: a PA, or the whole pod address of another package (R303). -/
def namedPa (s : State) (pa : Nat) : DWord := tiPhys (if isLocal s pa then paOf pa else pa)

/-- A corrected error is counted for its core, by steps of 2^20 cycles (R161). -/
def countCorrected (k : Nat) (s : State) : State :=
  let n := coreCyc s / 1048576
  modC s k (fun d => { d with corr := (n, if d.corr.1 = n then d.corr.2 + 1 else 1) })

/-- ECC has corrected an error that a context met at an address (R131, R313): it is logged with SOFTERR's code, counted for the core (R161), and is
a SOFTERR event or one more in SECNT. -/
def softAt (x : Nat) (addr : DWord) (data : Nat) (s : State) : State :=
  let c := getX s x
  let k := coreOf x
  let s1 := bbxLog (countCorrected k s) 0x05 (dieOf k) cSOFTERR c.part.toNat (epUnit (coreEp s k)) (BitVec.ofNat 128 data)
  modX s1 x (fun d =>
    if bit (mget 0 d.ti 8) 0 && !pendBit d cSOFTERR then { setPend d cSOFTERR true with ti := mset (setPend d cSOFTERR true).ti 31 addr }
    else { d with secnt := if d.secnt = 255 then 255 else d.secnt + 1 })

/-- The errors that reads of some units of a place will meet. -/
def eccHere (s : State) (place owner : Nat) (units : List Nat) : List EccFault :=
  s.ecc.filter (fun e => e.place == place && e.owner == owner && units.contains e.unit)

/-- An error that ECC cannot correct lies in the units. -/
def eccBad (s : State) (place owner : Nat) (units : List Nat) : Bool := (eccHere s place owner units).any (·.bad)

/-- A context's access reads a cached line (R131, R313): an error that can be corrected is, and is reported; another poisons the line. -/
def eccLine (place owner line x : Nat) (addr : DWord) (s : State) : State :=
  (eccHere s place owner [line]).foldl (fun t e =>
    let u : State := { t with ecc := t.ecc.filter (· != e) }
    if e.bad then bbxLog (poisonLine line u) 0x06 (dieOf (coreOf x)) 0 (getX s x).part.toNat (epUnit (coreEp s (coreOf x))) (BitVec.ofNat 128 (64 * line))
    else softAt x addr (64 * line) u) s

/-! ## Sending accesses (R253, R255, R258, R259) -/

def accOverlap (a b : Acc) : Bool :=
  a.pa.toNat < b.pa.toNat + b.n && b.pa.toNat < a.pa.toNat + a.n

/-- An access is served through the core's data cache: SPLIT above 0, a local page with NC = 0, no effective hint (R136, R363). -/
def dcCached (s : State) (k : Nat) (a : Acc) : Bool :=
  decide (0 < (getC s k).split.toNat) && !a.nc && isLocal s a.pa.toNat
  && (match a.kind with | .load => !a.mmh || a.sem == 1 | .store => true | _ => false)

/-- The hint as it is sent (R167, R363). -/
def sentMmh (a : Acc) : Bool := a.mmh && !a.nc && a.sem != 1

/-- A flushing read that has not returned. -/
def flushOut (a : Acc) : Bool := a.kind == .flush && (match a.stat with | .late _ _ => false | _ => true)

/-- A flushing read of the context has not returned. -/
def flushing (c : Ctx) : Bool := c.accs.any flushOut

/-- The remote-store set is empty, and every flushing read has returned (R259). -/
def remoteClean (c : Ctx) : Bool := c.remote.isEmpty && !flushing c

/-- What a release waits for beside earlier accesses: its cache actions, and for `.pod` the flushing reads (R259). -/
def releaseReady (s : State) (k : Nat) (c : Ctx) (a : Acc) : Bool :=
  (a.scope == 0 || ((dirtyLines (getC s k) (some c.part)).isEmpty && !(getC s k).wbs.any (fun w => w.2.2 == c.part)))
  && (a.scope != 4 || remoteClean c)

/-- The access must wait for an earlier one: of its class, of its bytes unless both meet in the data cache (`via`), or any when it is a release
(R253, R255, R259); no release waits here for posted stores, which the flushing reads of one of `.pod` scope cover (R259). -/
def blockedBy (via : Bool) (b a : Acc) : Bool :=
  let same := (b.kind != .poll && a.cls == b.cls) || (accOverlap a b && !(via && a.stat == .cached))
  decide (a.ord < b.ord) && ordered a && !accDone a && (if isPosted a then !isRelease b && same else same || isRelease b)

/-- A request of an access leaves the core (R62): the departure is timed, FLOSS follows when no answer comes. -/
def sendAcc (s : State) (k x : Nat) (a : Acc) (p : Pkt) : State :=
  let s1 := modX s x (fun c => { c with accs := updFirst (fun b => b.tag == a.tag) (fun b => { b with stat := .sent s.cyc }) c.accs })
  let far := !isLocal s a.pa.toNat
  let s2 := addTimer s1 (if far then 1048576 else 262144) (if far then .remoteAccessTimeout else .requestTimeout)
    (EvArg.of2 (coreEp s k).toNat a.tag)
  sendPkt s2 { p with ocls := a.cls, host := false }

/-- Where a request goes: the home of its address, or the Filash die for another package (R96, R98). -/
def accDst (s : State) (pa : Nat) (atomic : Bool) : Ep := if isLocal s pa then homeEp s (paOf pa) atomic else epId 0x10 0

/-- A flushing read to a package begins, unless one is on its way: for its answer, or for the order of the context's own accesses (R105, R252,
R255). -/
def orderFlush (s : State) (x : Nat) (pkg : BitVec 8) : State :=
  let c := getX s x
  if c.accs.any (fun a => flushOut a && a.pa.toNat / 2 ^ 48 == pkg.toNat) then s
  else setX { s with nextId := s.nextId + 1 } x { c with accs := c.accs ++ [sideAcc s c .flush (pkg.toNat * 2 ^ 48) 0 true] }

/-- A flushing read to a package, which leaves the remote-store set (R105, R259). -/
def sendFlush (s : State) (x : Nat) (pkg : BitVec 8) : State :=
  if (getX s x).accs.any (fun a => flushOut a && a.pa.toNat / 2 ^ 48 == pkg.toNat) then s
  else modX (orderFlush s x pkg) x (fun c => { c with remote := c.remote.filter (· != pkg) })

/-- A remote store of a core to a package has not yet reached the Filash die: a flushing read to the package waits for it, since it is to push
every earlier one (R105; log entry 74, DEDUCED). -/
def storesUnderWay (s : State) (k : Nat) (pkg : Nat) : Bool :=
  let e := coreEp s k
  let on (p : Pkt) : Bool := p.src == e && p.kind == 6 && p.pkg.toNat == pkg && p.dst == epId 0x10 0
  s.net.any (fun f => on f.pkt) || s.rx.any on || s.recvs.any (fun r => r.2.early.any on)

/-- A flushing read leaves, after every remote store of its core to the package (R105). -/
def startFlush (s : State) (k x : Nat) (a : Acc) : State :=
  let pkg := a.pa.toNat / 2 ^ 48
  if storesUnderWay s k pkg then s
  else
    let s1 := modX s x (fun c => { c with accs := updFirst (fun b => b.tag == a.tag) (fun b => { b with ord := s.nextId }) c.accs })
    sendAcc s1 k x a { mkPkt 0 0 (getX s x).part (coreEp s k) (epId 0x10 0) a.tag 0 [] (.read 0) with pkg := BitVec.ofNat 8 pkg }

/-- Every package of the remote-store set is flushed (R259). -/
def flushRemote (s : State) (x : Nat) : State := (getX s x).remote.foldl (fun t p => sendFlush t x p) s

/-- A request for bytes leaves: the whole line of this package, or just the bytes of another's (R63, R127). -/
def requestLine (s : State) (k x : Nat) (a : Acc) : State :=
  let near := isLocal s a.pa.toNat
  let pa := paOf a.pa.toNat
  sendAcc s k x a { mkPkt 0 0 (getX s x).part (coreEp s k) (accDst s a.pa.toNat false) a.tag (if near then pa / 64 * 64 else pa) []
    (.read (if near then 64 else a.n)) with mmh := sentMmh a, pkg := BitVec.ofNat 8 (a.pa.toNat / 2 ^ 48) }

/-- A load is answered from a line's bytes, or raises POISON (R132). -/
def performLine (s : State) (x : Nat) (a : Acc) (data : BitVec 512) (bad : Bool) : State :=
  if bad then failAcc s x a.tag cPOISON 0 (namedPa s (a.pa.toNat / 64 * 64))
  else performAcc s x a.tag (takeLine data (paOf a.pa.toNat % 64) a.n)

/-- A load that the data cache does not serve: the RDC is looked up, but for a merge hint and an NC page, else a request leaves; a line found there
enters the data cache of a cached page (R127, R136, R363). -/
def loadPast (s : State) (k x : Nat) (a : Acc) : State :=
  let part := (getX s x).part
  let pa := paOf a.pa.toNat
  if !sentMmh a && !a.nc && isLocal s a.pa.toNat then
    match rdcFind s (dieOf k) pa part with
    | some l =>
      let s1 := eccLine 2 (dieOf k) l.line x (namedPa s a.pa.toNat) s
      let bad := ((rdcFind s1 (dieOf k) pa part).map (·.poison)).getD l.poison
      if dcCached s k a && !bad then
        let s2 := dcFill s1 k (pa / 64) part (takeLine l.data 0 64)
        performLine s2 x a (((dcFind (getC s2 k) (pa / 64) part).map (·.data)).getD l.data) false
      else performLine s1 x a l.data bad
    | none => requestLine s k x a
  else requestLine s k x a

/-- A load begins: from the data cache, from the RDC, or by a read request (R127, R363).  Dirty bytes of a line that does not hold all it asks for
reach the home first (R253). -/
def startLoad (s : State) (k x : Nat) (a : Acc) : State :=
  let part := (getX s x).part
  let pa := paOf a.pa.toNat
  let m := byteMask (pa % 64) a.n
  if dcCached s k a then
    match dcFind (getC s k) (pa / 64) part with
    | some l =>
      if l.valid &&& m = m then
        let s1 := eccLine 1 k l.line x (namedPa s a.pa.toNat) s
        performLine s1 x a l.data (((dcFind (getC s1 k) (pa / 64) part).map (·.poison)).getD l.poison)
      else if l.dirty &&& m ≠ 0 then writeBack s k l
      else loadPast s k x a
    | none => loadPast s k x a
  else loadPast s k x a

/-- The core's copy of a line is written back and invalidated (R253, R367). -/
def giveUpLine (s : State) (k line : Nat) (part : BitVec 3) : State :=
  match dcFind (getC s k) line part with
  | some l => modC (writeBack s k l) k (fun q => { q with dc := q.dc.filter (fun m => !(m.line == l.line && m.part == l.part)) })
  | none => s

/-- A line of the core is being written back. -/
def writingBack (s : State) (k line : Nat) : Bool := (getC s k).wbs.any (fun w => w.2.1 == line)

/-- A store begins: into the data cache, or as a write towards its home, passing the RDC; a remote store is posted (R97, R128, R252,
R364). -/
def startStore (s : State) (k x : Nat) (a : Acc) : State :=
  let part := (getX s x).part
  let pa := paOf a.pa.toNat
  let mark (t : State) (st : AccStat) : State :=
    modX t x (fun c => { c with accs := updFirst (fun b => b.tag == a.tag) (fun b => { b with stat := st }) c.accs })
  let p := mkPkt 2 0 part (coreEp s k) (accDst s a.pa.toNat false) a.tag pa a.data .none
  if dcCached s k a then mark (dcStore s k pa part a.data) .cached
  else if isLocal s a.pa.toNat then
    let s0 := giveUpLine s k (pa / 64) part
    if writingBack s0 k (pa / 64) then s0
    else sendAcc (rdcStore s0 (dieOf k) pa part a.data false) k x a p
  else
    let pkg := BitVec.ofNat 8 (a.pa.toNat / 2 ^ 48)
    let s2 := modX s x (fun c => { c with remote := if c.remote.contains pkg then c.remote else c.remote ++ [pkg] })
    let s3 := sendPkt s2 { p with kind := 6, ocls := a.cls, pkg := pkg }
    mark { s3 with nextId := s3.nextId + 1 } (.posted s3.nextId)

/-- An atomic begins: at its home only; copies on the die are given up (R128, R366, R367). -/
def startAtomic (s : State) (k x : Nat) (a : Acc) (op : Nat) (wide : Bool) (b c : DWord) (want : Bool) : State :=
  let part := (getX s x).part
  let pa := paOf a.pa.toNat
  let near := isLocal s a.pa.toNat
  let s1 := if near then giveUpLine s k (pa / 64) part else s
  if near && writingBack s1 k (pa / 64) then s1
  else
    let s2 := if near then dropAlloc (rdcDrop s1 (dieOf k) pa) (dieOf k) part (pa / 64) else s1
    sendAcc s2 k x a { mkPkt 4 0 part (coreEp s2 k) (accDst s2 a.pa.toNat true) a.tag pa [] (.atom op wide b c want) with
      pkg := BitVec.ofNat 8 (a.pa.toNat / 2 ^ 48) }

/-- A poll of a memory timeline: read at the home, never merged, past every cache (R272, R377). -/
def startPoll (s : State) (k x : Nat) (a : Acc) : State :=
  sendAcc s k x a { mkPkt 0 0 (getX s x).part (coreEp s k) (accDst s a.pa.toNat false) a.tag (paOf a.pa.toNat) [] (.read a.n) with
    pkg := BitVec.ofNat 8 (a.pa.toNat / 2 ^ 48) }

/-- A line enters the instruction cache; a full set gives up a way (R224; log entry 28, DESIGN CHOICE). -/
def icFill (s : State) (k line : Nat) (part : BitVec 3) (data : BitVec 512) : State :=
  let c := getC s k
  let ic := c.ic.filter (fun q => !(q.line == line && q.part == part))
  let same := ic.filter (fun q => q.line % 128 == line % 128)
  if same.length < 8 then setC s k { c with ic := ⟨line, part, data⟩ :: ic }
  else
    let v := same.getD (Config.dcacheVictim s.free % 8) ⟨line, part, data⟩
    setC { s with free := s.free + 1 } k { c with ic := ⟨line, part, data⟩ :: dropFirst (fun q => q == v) ic }

/-- A fetch begins: a read by the core, which the RDC may serve (R127, R233). -/
def startFetch (s : State) (k x : Nat) (a : Acc) : State :=
  let part := (getX s x).part
  match (if isLocal s a.pa.toNat && !a.nc then rdcFind s (dieOf k) (paOf a.pa.toNat) part else none) with
  | some l => if l.poison then performLine s x a l.data true else performAcc (icFill s k (a.pa.toNat / 64) part l.data) x a.tag []
  | none => requestLine s k x a

/-- An access that may begin does so; a release first cleans the cache and flushes the remote-store set (R259); while the data cache drains
nothing is looked up in it and nothing enters it (R137). -/
def startAcc (s : State) (k x : Nat) (a : Acc) : State :=
  let c := getX s x
  if isLocal s a.pa.toNat && ordered a && writingBack s k (paOf a.pa.toNat / 64) then s
  else if dcCached s k a && decide (s.cyc < (getC s k).dcDrain) then s
  else if isRelease a && !releaseReady s k c a then
    let s1 := if a.scope == 0 then s else cleanPart s k c.part
    if a.scope == 4 then flushRemote s1 x else s1
  else match a.kind with
    | .load => startLoad s k x a
    | .store => startStore s k x a
    | .atomic op w b d want => startAtomic s k x a op w b d want
    | .poll => startPoll s k x a
    | .flush => startFlush s k x a
    | .fetch => startFetch s k x a

def accWaiting (a : Acc) : Bool := a.stat == .waiting

/-- What keeps an access of a context from beginning. -/
def blockers (s : State) (x : Nat) (b : Acc) : List Acc :=
  if ordered b || b.kind == .poll then (getX s x).accs.filter (blockedBy (dcCached s (coreOf x) b) b) else []

/-- An access must be performed at its home for something that waits (R252): a store in the data cache is written back, a posted one is followed
by a flushing read (log entry 76, DEDUCED). -/
def pushAcc (x : Nat) (s : State) (a : Acc) : State :=
  match a.stat with
  | .cached => (match dcFind (getC s (coreOf x)) (paOf a.pa.toNat / 64) (getX s x).part with
    | some l => writeBack s (coreOf x) l
    | none => s)
  | .posted _ => orderFlush s x (BitVec.ofNat 8 (a.pa.toNat / 2 ^ 48))
  | _ => s

/-- Accesses of a context pushed to their homes. -/
def pushWhere (x : Nat) (p : Acc → Bool) (s : State) : State :=
  ((getX s x).accs.filter (fun a => (a.stat == .cached || isPosted a) && p a)).foldl (pushAcc x) s

/-- The accesses of a context that wait are looked at in program order: those that may begin do so, and what keeps another is pushed to its
home. -/
def pump (s : State) (x : Nat) : State :=
  (getX s x).accs.foldl (fun t a =>
    if accWaiting a then
      match blockers t x a with
      | [] => startAcc t (coreOf x) x a
      | l => l.foldl (pushAcc x) t
    else t) s

/-! ## The acquire actions (R257, R258) -/

/-- The acquire actions of a scope begin: the data cache for `.cluster` and wider, the RDC for `.die` and wider. -/
def acquireStart (s : State) (x scope : Nat) : State :=
  let k := coreOf x
  let part := (getX s x).part
  let s1 := if 1 ≤ scope then flushPart s k part else s
  if 2 ≤ scope then rdcInvalidate s1 (dieOf k) part else s1

/-- The write-backs of the partition at the core have been acknowledged. -/
def cleanDone (s : State) (x : Nat) : Bool := !(getC s (coreOf x)).wbs.any (fun w => w.2.2 == (getX s x).part)

/-- The context's wait is over; with a merge window its floor is the present cicada value (R258). -/
def acquireEnd (s : State) (x : Nat) (window : Bool) : State :=
  modX s x (fun c => { c with await := .none, floor := if window then s.cicada.toNat else c.floor })

/-- The data cache's part of the acquire actions is done: for `.die` and wider the RDC's part takes 16 cycles more (R129). -/
def acquireRest (s : State) (x scope ends : Nat) : State :=
  if 2 ≤ scope then modX s x (fun c => { c with await := .rdc (s.cyc + 16) ends }) else acquireEnd s x false

/-- The access is in a class of the mask. -/
def inMask (m : Nat) (a : Acc) : Bool := m / 2 ^ a.cls.toNat % 2 == 1

/-- Every access of the context in a class of the mask has been performed (R261). -/
def maskDone (c : Ctx) (m : Nat) : Bool := c.accs.all (fun a => overDone a || !inMask m a)

/-- An invalidation request of a context joins C0's order, and the context waits for it (R174, R370). -/
def joinInval (x vpn count : Nat) (all : Bool) (s : State) : State :=
  let r : Inval := { id := s.nextId, part := (getX s x).part, vpn := vpn, count := count, all := all, host := false,
                     started := false, marked := [], confirmed := [] }
  modX { s with nextId := s.nextId + 1, invals := s.invals ++ [r] } x (fun c => { c with await := .inv r.id vpn count all })

/-- A frozen context's wait goes on or ends (R258, R261, R262, R310, R374): stage 0 of a fence waits for accesses, stage 1 for the release
actions, stage 2 for the acquire actions, stage 3 for the tick; of an acquire stage 0 begins its actions, 1 and 2 wait for them, after an access
and after a fence or a wait. -/
def resolveAwait (s : State) (x : Nat) : State :=
  let c := getX s x
  let k := coreOf x
  let stage (t : State) (a : Await) : State := modX t x (fun d => { d with await := a })
  match c.await with
  | .none => s
  | .acquire g sc =>
    if (groupAccs c g).isEmpty then (if sc = 0 then acquireEnd s x false else stage (acquireStart s x sc) (.waitAcq sc 1)) else s
  | .waitAcq sc st =>
    if st = 0 then stage (acquireStart s x sc) (.waitAcq sc 2)
    else if cleanDone s x then acquireRest s x sc (st - 1) else s
  | .rdc u e =>
    if s.cyc < u then s else if e = 2 then stage s (.fenceSc 3) else acquireEnd s x (e == 1)
  | .fenceCm m sc st =>
    if st = 0 then
      if maskDone c m then
        let s1 := if 1 ≤ sc then cleanPart s k c.part else s
        stage (if sc = 4 then flushRemote s1 x else s1) (.fenceCm m sc 1)
      else pushWhere x (inMask m) s
    else if st = 1 then
      if cleanDone s x && (sc != 4 || remoteClean c) then
        (if sc = 0 then acquireEnd s x false else stage (acquireStart s x sc) (.waitAcq sc 2))
      else if sc = 4 then flushRemote s x else s
    else s
  | .fenceSc st =>
    if st = 0 then
      if maskDone c 0xFFFF then stage (flushRemote (cleanPart s k c.part) x) (.fenceSc 1) else pushWhere x (fun _ => true) s
    else if st = 1 then
      if cleanDone s x && remoteClean c then stage (acquireStart s x 3) (.fenceSc 2) else flushRemote s x
    else if st = 2 then (if cleanDone s x then stage s (.rdc (s.cyc + 16) 2) else s)
    else s
  | .phase _ _ => s
  | .inv id v n all => if id = 0 then joinInval x v n all s else s
  | .tret => s
  | .ending _ => s

end Sys2Proof.Machine
end

