-- ==== Sys2Proof/Machine/Bank.lean ====
section
/-!
DEFINITION. The banks of a core's tile store (R133, R238, R239): the rows that a cycle serves, the turns of the engines, the rounds of a bundle,
what engines see of them, and errors that ECC finds in what is read (R131; log entry 77, DESIGN CHOICE of what the rules leave).
-/

namespace Sys2Proof.Machine

open Sys2Proof

/-! ## Rows and banks (R133, R238) -/

/-- The rows of 64 bytes that n bytes from core address a of a context are in; row r lies in bank r mod 32. -/
def rowsOf (c : Ctx) (a n : Nat) : List Nat :=
  (tsParts c a n).flatMap (fun p => if p.2.2 = 0 then [] else tab ((p.1 + p.2.2 - 1) / 64 - p.1 / 64 + 1) (fun i => p.1 / 64 + i))

/-- The rows that a core's banks have served in this cycle, each with the rank that took its bank. -/
def marks (s : State) (k : Nat) : List (Nat × Nat) := if (getC s k).bankCyc = s.cyc then (getC s k).bank else []

/-- A row can be served: its bank is free, or serves the same row. -/
def rowFree (l : List (Nat × Nat)) (row : Nat) : Bool := l.all (fun m => m.1 % 32 != row % 32 || m.1 == row)

/-- The rows of a list that the banks can serve beside those marked, and those that are left. -/
def serveRows (rank : Nat) : List Nat → List (Nat × Nat) → List (Nat × Nat) × List Nat
  | [], l => (l, [])
  | r :: rs, l => if rowFree l r then serveRows rank rs ((r, rank) :: l) else let q := serveRows rank rs l; (q.1, r :: q.2)

/-- Rows asked for at a rank: each that a bank can serve is, and the rest are left. -/
def claimRows (k rank : Nat) (rows : List Nat) (s : State) : State × List Nat :=
  if rows.isEmpty then (s, [])
  else
    let q := serveRows rank rows (marks s k)
    (modC s k (fun c => { c with bank := q.1, bankCyc := s.cyc }), q.2)

/-- Rows of one engine access, served together or refused. -/
def takeRows (k rank : Nat) (rows : List Nat) (s : State) : Option State :=
  let q := claimRows k rank rows s
  if q.2.isEmpty then some q.1 else none

/-- An engine agent has its turn of a cycle (0 and 1 the copy ports, 2 engine data written for other cores' ports, 3 stream records, 4 the circuit
port's send side): f says whether a bank refused it, and the refusals in a row are counted (R238). -/
def agentTurn (k a : Nat) (f : State → State × Bool) (s : State) : State :=
  if (getC s k).early.contains a then s
  else
    let r := f s
    let n := mget 0 (getC r.1 k).refused a
    if r.2 then modC r.1 k (fun c => { c with refused := mset c.refused a (n + 1) })
    else if n = 0 then r.1 else modC r.1 k (fun c => { c with refused := mset c.refused a 0 })

/-- An agent that has been refused in 8 cycles running has its turn before the bundles (R238). -/
def earlyTurn (k a : Nat) (f : State → State × Bool) (s : State) : State :=
  if 8 ≤ mget 0 (getC s k).refused a then modC (agentTurn k a f s) k (fun c => { c with early := a :: c.early }) else s

/-! ## Rounds (R239) -/

/-- The context has accesses of its bundle that no round has served. -/
def hasRounds (c : Core) (x : Nat) : Bool := c.rounds.any (fun r => r.x == x)

/-- The bytes of a row that differ between two tile stores. -/
def rowDiff (a b : TileStore) (row : Nat) : List (Nat × Byte) :=
  if mget [] a.cells row = mget [] b.cells row then []
  else (tab 64 (fun i => (i, tsByte b (64 * row + i)))).filter (fun p => tsByte a (64 * row + p.1) != p.2)

/-- A bundle of context x leaves rows for later rounds: what it changed in them is kept apart, and its context freezes with cause bank
conflict. -/
def addRounds (x : Nat) (rows : List Nat) (before : TileStore) (latch : Bool) (s : State) : State :=
  let now := getTs s x
  let diff := (rows.map (fun r => (r, rowDiff before now r))).filter (fun p => !p.2.isEmpty)
  let r : Rounds := { x := x, rows := rows, old := diff.map (fun p => (p.1, mget [] before.cells p.1)), new := diff, latch := latch, extra := 0 }
  modC (modX s x (fun c => { c with lastFrz := 3 })) (coreOf x) (fun c => { c with rounds := c.rounds ++ [r] })

/-- The bytes that a bundle wrote to a row are written again, over what engines wrote before the row's round. -/
def landRow (new : List (Nat × List (Nat × Byte))) (t : TileStore) (row : Nat) : TileStore :=
  match mfind new row with
  | some l => { t with cells := l.foldl (fun m p => tsPutByte m (64 * row + p.1) p.2) t.cells }
  | none => t

/-- One bundle's next round; a latch write of it lands a step later for each (R413), and its context is ready in the cycle after the last. -/
def roundOf (k : Nat) (r : Rounds) (s : State) : State :=
  let q := claimRows k 3 r.rows s
  let t := (r.rows.filter (fun n => !q.2.contains n)).eraseDups
  let s1 := modC q.1 k (fun c => { c with ts := t.foldl (landRow r.new) c.ts })
  let s2 := if r.latch then modX s1 r.x (fun c => { c with latches := match c.latches.reverse with
      | l :: ls => (({ l with step := l.step + 1 } : LatchWrite) :: ls).reverse
      | [] => [] }) else s1
  if q.2.isEmpty then modX s2 r.x (fun c => { c with readyAt := max c.readyAt (s.cyc + 1) })
  else
    let left : Rounds := { r with rows := q.2, old := r.old.filter (fun p => q.2.contains p.1), new := r.new.filter (fun p => q.2.contains p.1),
                                  extra := r.extra + 1 }
    modC s2 k (fun c => { c with rounds := c.rounds ++ [left] })

/-- The unfinished rounds of a core have their cycle, the earlier bundle's first. -/
def serveRounds (k : Nat) (s : State) : State :=
  (getC s k).rounds.foldl (fun t r => roundOf k r t) (if (getC s k).rounds.isEmpty then s else modC s k (fun c => { c with rounds := [] }))

/-- The rounds of a context that is freed are over. -/
def dropRounds (x : Nat) (s : State) : State :=
  if hasRounds (getC s (coreOf x)) x then modC s (coreOf x) (fun c => { c with rounds := c.rounds.filter (fun r => r.x != x) }) else s

/-! ## What engines see (R239) -/

/-- The state as an engine of core k sees it: the rows that later rounds write are as they were. -/
def engineSight (k : Nat) (s : State) : State :=
  if (getC s k).rounds.isEmpty then s
  else modC s k (fun c => { c with ts := { c.ts with cells := c.rounds.foldl (fun m r => r.old.foldl (fun n e => mset n e.1 e.2) m) c.ts.cells } })

/-- An engine's bytes are written to the tile store of a context, and into what engines see of it. -/
def storeEngine (s : State) (x a : Nat) (l : List Byte) (bad : Bool) : State :=
  let s1 := storeTs s x a l bad
  if (getC s (coreOf x)).rounds.isEmpty then s1
  else
    let cells := (tsParts (getX s x) a l.length).flatMap (fun p => tab p.2.2 (fun i => (p.1 + i, l.getD (p.2.1 + i) 0)))
    let into (e : Nat × Map Byte) : Nat × Map Byte := (e.1, (cells.filter (fun c => c.1 / 64 == e.1)).foldl (fun m c => mset m (c.1 % 64) c.2) e.2)
    modC s1 (coreOf x) (fun c => { c with rounds := c.rounds.map (fun r => { r with old := r.old.map into }) })

/-- An update by an engine of a word that a bundle updates too in a later round: both count, so the row is settled at once. -/
def settleRows (x a n : Nat) (s : State) : State :=
  let k := coreOf x
  if (getC s k).rounds.isEmpty then s
  else
    let rows := rowsOf (getX s x) a n
    let less (r : Rounds) : Rounds := { r with old := r.old.filter (fun p => !rows.contains p.1), new := r.new.filter (fun p => !rows.contains p.1) }
    modC s k (fun c => { c with rounds := c.rounds.map less })

/-! ## Errors that ECC finds in sectors (R131, R313) -/

/-- The sectors of n bytes of a context. -/
def ctxSectors (c : Ctx) (a n : Nat) : List Nat := (tsParts c a n).flatMap (fun p => sectorsOf p.1 p.2.2)

/-- The bytes of core k are read for a context's bundle (own) or by an engine: an error that ECC corrects is logged, and is a SOFTERR event of the
context whose bundle it is; another poisons its sector. -/
def eccSectors (k x : Nat) (own : Bool) (l : List Nat) (s : State) : State :=
  if s.ecc.isEmpty then s
  else (eccHere s 0 k l).foldl (fun t e =>
    let u : State := { t with ecc := t.ecc.filter (· != e) }
    if e.bad then
      bbxLog (modC u k (fun c => { c with ts := { c.ts with poison := if c.ts.poison.contains e.unit then c.ts.poison else e.unit :: c.ts.poison } }))
        0x06 (dieOf k) 0 (getX s x).part.toNat (epUnit (coreEp s k)) (BitVec.ofNat 128 (32 * e.unit))
    else if own then softAt x (tiTs (32 * e.unit)) (32 * e.unit) u
    else bbxLog (countCorrected k u) 0x05 (dieOf k) 0 (getX s x).part.toNat (epUnit (coreEp s k)) (BitVec.ofNat 128 (32 * e.unit))) s

/-! ## An engine's read of a tile store -/

/-- The places among n bytes from a of a context that lie in poisoned sectors. -/
def hurtBytes (s : State) (x a n : Nat) : List Nat :=
  if (getTs s x).poison.isEmpty then [] else (List.range n).filter (fun i => poisonTs s x (a + i) 1)

/-- Bytes of a context's tile store read by an engine at a rank, with the places that are poisoned; none when a bank refuses. -/
def readEngine (k rank x a n : Nat) (s : State) : Option (State × List Byte × List Nat) :=
  (takeRows k rank (rowsOf (getX s x) a n) s).map (fun t =>
    let u := eccSectors k x false (ctxSectors (getX t x) a n) t
    (u, loadTs (engineSight k u) x a n, hurtBytes u x a n))

end Sys2Proof.Machine
end

