-- ==== Sys2Proof/Machine/Issue.lean ====
section
/-!
DEFINITION. The issue of a bundle by the current context (R225, R226, R304, R305, R492), and the completion of a handler's
return (R310).
-/

namespace Sys2Proof.Machine

open Sys2Proof

/-! ## Return (R310) -/

/-- The words of the bundle at TI.PC as they stand at the return, for SKIP: none when the fetch faults or no E lies within eight words; or what
the fetch still waits for. -/
def skipWords (s : State) (x : Nat) : Sum (Option Nat) (State → State) :=
  let c := getX s x
  match fetchWords (setX s x { c with sup := c.psup }) x 8 (bitsN (mget 0 c.ti 1) 0 52) with
  | .ok ws => .inl (if ws.any (fun w => bit w 31) then some ws.length else none)
  | .fault _ => .inl none
  | .wait _ f => .inr f

/-- A context that waits in `tret` returns once every handler result can be written (R310, R356). -/
def resolveReturn (s : State) (x : Nat) : State :=
  let c := getX s x
  if c.hinfl.any (fun r => match r.stat with | .waiting _ => true | _ => false) then s
  else
    let last := c.hinfl.foldl (fun m r => max m r.wp) 0
    let r := settleList last true c.hinfl c (getTs s x)
    let s1 := if tileDue last c.hinfl then setTs s x r.2.2 else s
    let s2 := setX s1 x { r.2.1 with hinfl := r.1, await := .none }
    if r.2.1.act = 1 then
      match skipWords s2 x with
      | .inl n => returnFrom s2 x n
      | .inr f => modX (f s2) x (fun d => { d with await := .tret })
    else returnFrom s2 x none

/-! ## Issue -/

/-- After the slots: time advances, the next bundle is found, the results due are written, and TRAPI is taken at once
(R225, R226, R304, R305). -/
def finish (words : Nat) (s : State) (x : Nat) : State :=
  let c := getX s x
  let s1 := setX s x (sequence words { c.fresh.tick with readyAt := branchGap s c, released := false })
  match (getX s1 x).await with
  | .ending f => endTask s1 x f
  | _ =>
    let s2 := settle s1 x
    match (getX s2 x).trapi with
    | none => if (getX s2 x).await = .tret then resolveReturn s2 x else s2
    | some i => enterTrap s2 x 2 0 ⟨cTRAPI, 0, i, 0⟩ (getX s2 x).pc (getX s2 x).ct

/-- What the second C slot of a bundle is examined on: the state before the bundle, with the engine queues, timelines named,
handles and ports as the first C slot leaves them (R199, R200, R420). -/
def afterFirstC (s : State) : List (Nat × SlotOut) → State
  | [] => s
  | (p, o) :: r => match o with
    | .go f =>
      if p = 6 then
        let d := getX (f s) s.cur
        modX s s.cur (fun c => { c with q1 := d.q1, q2 := d.q2, q3 := d.q3, q4 := d.q4, incs := d.incs, qr := d.qr, kr := d.kr })
      else afterFirstC s r
    | _ => afterFirstC s r

/-- The bundle's verdict on a state before it. -/
def examineSlots (words : Nat) (slots : List (Nat × Slot)) (s : State) : List (Nat × SlotOut) :=
  let first := (slots.filter (fun p => p.1 != 7)).map (fun p => (p.1, p.2 ⟨words, p.1⟩ s))
  first ++ (slots.filter (fun p => p.1 == 7)).map (fun p => (p.1, p.2 ⟨words, p.1⟩ (afterFirstC s first)))

/-- A bundle of the current context is presented: a result not ready freezes it (R227); else the earliest slot's lowest
cause is taken (R305); else a hold begins (R492); else the whole bundle issues. -/
def issue (words : Nat) (slots : List (Nat × Slot)) (s : State) : State :=
  let x := s.cur
  if notReady (getX s x) then freeze s x 2
  else
    let outs := examineSlots words slots s
    match firstTrap outs with
    | some (p, q) => issueTrap s x p q
    | none =>
      match holdsOf outs with
      | [] => finish words (effects outs s) x
      | h => beginHold s x h

/-- The bundle would be held if it were presented now. -/
def wouldHold (words : Nat) (slots : List (Nat × Slot)) (s : State) : Bool :=
  notReady (getX s s.cur)
  || (let outs := examineSlots words slots s; (firstTrap outs).isNone && !(holdsOf outs).isEmpty)

/-- The bundle would be cancelled by a slot's trap if it were presented now (R304). -/
def wouldTrap (words : Nat) (slots : List (Nat × Slot)) (s : State) : Bool := (firstTrap (examineSlots words slots s)).isSome

/-- An instruction issued as a bundle of its own, by the current context: `ok` says that its enumerated fields are defined,
else the bundle raises IIL with the opcode (R329). -/
def single (ok : Bool) (op words pos : Nat) (sl : Slot) (s : State) : Host.Outcome State Fault Refusal :=
  .next (issue words [(pos, if ok then sl else fun _ _ => .trap [⟨cIIL, 0, op, 0⟩])] s)

end Sys2Proof.Machine
end

