-- ==== Sys2Proof/Machine/Control.lean ====
section
/-!
DEFINITION. Branches and calls (R345-R347), the hardware loop (R348-R353), control registers (R245-R250, R354), and the
instructions that enter, leave and end a program (R355-R357).
-/

namespace Sys2Proof.Machine

open Sys2Proof

/-! ## Branches and calls -/

/-- The target of a direct form: V + 4 × d modulo 2^52 (R345). -/
def directTarget (c : Ctx) (d : DWord) : Va := c.pc + 4 * BitVec.truncate 52 d

/-- The link: the VA of the bundle after one of n words (R345). -/
def linkOf (c : Ctx) (words : Nat) : DWord := BitVec.zeroExtend 64 (c.pc + BitVec.ofNat 52 (4 * words))

/-- The check of a register target (R346). -/
def targetCheck (a : DWord) : List Cause := if bitsN a 0 2 = 0 then [] else [causeAt cALIGN (tiVa (bitsN a 0 56))]

def slotBr (g : BitVec 5) (i : BitVec 16) (x : Option (BitVec 28)) : Slot := fun _ s =>
  let c := getX s s.cur
  if guardOn c g then .go (transfer (directTarget c (immOf i x))) else .go id

def slotCall (d : BitVec 5) (i : BitVec 16) (x : Option (BitVec 28)) : Slot := fun e s =>
  let c := getX s s.cur
  .go (fun t => retS d 1 (linkOf c e.words) (transfer (directTarget c (immOf i x)) t))

def slotJmp (g a : BitVec 5) : Slot := fun _ s =>
  let c := getX s s.cur
  if guardOn c g then check (targetCheck (readS c a)) (.go (transfer (BitVec.truncate 52 (readS c a)))) else .go id

def slotJcall (d a : BitVec 5) : Slot := fun e s =>
  let c := getX s s.cur
  check (targetCheck (readS c a))
    (.go (fun t => retS d 1 (linkOf c e.words) (transfer (BitVec.truncate 52 (readS c a)) t)))

/-! ## The hardware loop -/

/-- `lvl` (R348): BOUND for a count above 32 bits, a count that differs from the armed one, a fifth pair. -/
def slotLvl (d a b : BitVec 5) (f : BitVec 6) : Slot := fun _ s =>
  let c := getX s s.cur
  let av := readS c a
  let l := mget Level.init c.curNest f.toNat
  let bad := bitsN av 32 32 ≠ 0 ∨ (l.armed ∧ l.count ≠ bits av 0 32) ∨ (d ≠ 0 ∧ l.armed ∧ l.pairs.length ≥ 4)
  check (if bad then [causeAt cBOUND (tiVa av.toNat)] else [])
    (.go (fun t => modX t t.cur (fun k =>
      let old := if l.armed then l.pairs else []
      let pairs := if d = 0 then old else old ++ [(physS c d.toNat, readS c b)]
      k.setNest (mset k.curNest f.toNat ⟨true, bits av 0 32, pairs⟩))))

/-- The nest from level 0 to the highest armed level: an unarmed level below it has count 1 and no pairs (R349). -/
def nestLevels (n : Map Level) : List Level :=
  let top := n.foldl (fun m p => if p.2.armed then max m (p.1 + 1) else m) 0
  tab top (fun i => let l := mget Level.init n i; if l.armed then l else ⟨true, 1, []⟩)

/-- `loop` and `loop.sp` (R349, R351); `stages` is 0 for `loop`. -/
def startLoop (stages len : Nat) : Slot := fun e s =>
  let x := s.cur
  let c := getX s x
  let ls := nestLevels c.curNest
  let n := ls.foldl (fun p l => p * l.count.toNat) 1
  let passes := if n = 0 then 0 else n + stages - (if stages = 0 then 0 else 1)
  let start := c.pc + BitVec.ofNat 52 (4 * e.words)
  let bad := ls.isEmpty || c.curLoop.isSome || (c.inh && stages != 0) || decide (2 ^ 64 ≤ passes)
  check (if bad then [causeAt cBOUND 0] else [])
    (if passes = 0 then
      match bodyEnd s x len start.toNat with
      | .inl va => .go (fun t => transfer (BitVec.ofNat 52 va) (modX t x (fun k => k.setNest [])))
      | .inr o => o
    else .go (fun t => modX t x (fun k =>
      let k1 := (k.setNest []).setLoop (some ⟨ls, start, len, stages, n, passes, 0, 0, []⟩)
      if stages = 0 then k1
      else (tab 8 (fun i => 8 + i)).foldl (fun q r => q.setResults (insResult q.results
        ⟨q.time + 1, .preg r (r == physP c 8), 0, .done⟩)) k1)))

def slotLoop (n : BitVec 6) : Slot := startLoop 0 (n.toNat + 1)
def slotLoopSp (st : BitVec 4) (n : BitVec 6) : Slot := startLoop (st.toNat + 1) (n.toNat + 1)

/-! ## Control registers -/

/-- A stream drives this side of its port (R215): it is open and the side's shifts are not both 15. -/
def Port.drives (p : Port) : Bool :=
  (p.st == 1 || p.st == 2 || p.st == 3) && !(bitsN p.desc (if p.role then 104 else 96) 4 == 15 && bitsN p.desc (if p.role then 108 else 100) 4 == 15)

/-- The sum of the terms of the streams that drive the context (R215, R216). -/
def weightTerms (c : Ctx) : Int := c.qr.foldl (fun a q => if q.2.drives then a + q.2.pterm + q.2.iacc else a) 0

/-- CUR recomputed: clamp(BASE + Σ P + Σ I, WMIN, WMAX) (R215). -/
def weigh (c : Ctx) : Ctx :=
  let u : Int := (c.wBase.toNat : Int) + weightTerms c
  { c with wCur := BitVec.ofInt 8 (max (c.wMin.toNat : Int) (min (c.wMax.toNat : Int) u)) }

/-- CTX.STATUS (R247). -/
def ctxStatus (c : Ctx) : DWord :=
  (c.lastFrz ++ 0#3 ++ BitVec.ofBool c.exch ++ c.rrb ++ c.pri ++ BitVec.ofBool c.rset ++ c.part
    ++ BitVec.ofBool c.sup).setWidth 64

/-- CTX.ID (R248). -/
def ctxId (x : Nat) (c : Ctx) : DWord :=
  (c.taskIx ++ c.stage ++ 0#1 ++ BitVec.ofNat 3 (dieOf (coreOf x)) ++ BitVec.ofNat 2 (clusterOf (coreOf x))
    ++ BitVec.ofNat 4 (coreNum (coreOf x)) ++ BitVec.ofNat 2 x).setWidth 64

/-- CTX.WGT (R215). -/
def ctxWgt (c : Ctx) : DWord :=
  (BitVec.ofNat 2 (c.qr.filter (fun q => q.2.drives)).length ++ c.wCur ++ c.wMax ++ c.wMin ++ c.wBase).setWidth 64

/-- CORE.STATUS (R250): LIM when a limiter freeze cycle fell in the last 64 cycles. -/
def coreStatus (s : State) (k : Core) : DWord :=
  (k.site ++ BitVec.ofBool (decide (k.limCyc ≠ 0 ∧ s.cyc < k.limCyc + 64)) ++ BitVec.ofBool k.nar).setWidth 64

/-- TI.STATE (R306). -/
def tiState (c : Ctx) : DWord := (c.secnt ++ 0#6 ++ BitVec.ofBool c.psup ++ BitVec.ofBool c.inh).setWidth 64

/-- Image register j (R306): 14 to 31 are reserved and read zero. -/
def tiRead (c : Ctx) (j : Nat) : DWord := if j = 6 then tiState c else if j < 14 then mget 0 c.ti j else 0

/-- The number is in the map of R246. -/
def crMapped (n : Nat) : Bool := n ≤ 8 || (0x10 ≤ n && n ≤ 0x1F) || (0x20 ≤ n && n ≤ 0x22) || (0x30 ≤ n && n ≤ 0x33)
  || (0x40 ≤ n && n ≤ 0x5F)

/-- The value of a control register for context x (R245, R246). -/
def crRead (s : State) (x n : Nat) : DWord :=
  let c := getX s x
  let k := getC s (coreOf x)
  if n = 0 then ctxStatus c
  else if n = 1 then (if c.inh then mget 0 c.ti 2 else BitVec.ofNat 64 c.ct)
  else if n = 2 then ctxId x c
  else if n = 3 then BitVec.zeroExtend 64 c.tsBase
  else if n = 4 then BitVec.zeroExtend 64 c.tsSize
  else if n = 5 then ctxWgt c
  else if n = 6 then c.vshape
  else if n = 7 then BitVec.zeroExtend 64 c.phase
  else if n = 8 then BitVec.zeroExtend 64 c.acm
  else if 0x10 ≤ n ∧ n ≤ 0x1F then readTw c (n - 0x10)
  else if n = 0x20 then millPos s
  else if n = 0x21 then s.cicada
  else if n = 0x22 then BitVec.ofNat 64 (coreCyc s)
  else if n = 0x30 then coreStatus s k
  else if n = 0x31 then k.pfrz
  else if n = 0x32 then (k.eff ++ 0#3 ++ k.limit).setWidth 64
  else if n = 0x33 then BitVec.zeroExtend 64 k.split
  else if 0x40 ≤ n ∧ n ≤ 0x5F then tiRead c (n - 0x40)
  else 0

/-- Bytes of a tile of the shape that a VSHAPE value gives (R231, R249). -/
def shapeRows (v : DWord) : Nat := bitsN v 0 6 + 1
def shapeCols (v : DWord) : Nat := bitsN v 8 7 + 1
def shapeEsz (v : DWord) : Nat := if bit v 15 then 4 else 2
def shapeBytes (v : DWord) : Nat := shapeRows v * shapeCols v * shapeEsz v

/-- A value written to a window register: its reserved bits read zero (R134). -/
def twStored (v : DWord) : DWord := v &&& 0x1FFFFFFFFFF#64

/-- A write of a control register (R215, R245, R306): read-only fields stay. -/
def crWrite (c : Ctx) (n : Nat) (v : DWord) : Ctx :=
  if n = 5 then
    let mn := if bits v 8 8 = 0 then 1 else bits v 8 8
    let mx := if (bits v 16 8).ult mn then mn else bits v 16 8
    weigh { c with wBase := bits v 0 8, wMin := mn, wMax := mx }
  else if n = 6 then { c with vshape := v &&& 0xFF3F#64 }
  else if 0x10 ≤ n ∧ n ≤ 0x1F then { c with tw := mset c.tw (n - 0x10) (twStored v) }
  else if n = 0x40 then { c with ti := mset c.ti 0 (setBits (mget 0 c.ti 0) 14 2 (bitsN v 14 2)) }
  else if n = 0x41 then { c with ti := mset c.ti 1 (v &&& 0xFFFFFFFFFFFFC#64), pcWritten := true }
  else if n = 0x47 then { c with ti := mset c.ti 7 (v &&& 0xFFFFFFFFFFFFC#64) }
  else if n = 0x48 then { c with ti := mset c.ti 8 (v &&& 0xFFFF0003#64) }
  else if 0x4A ≤ n ∧ n ≤ 0x4D then { c with ti := mset c.ti (n - 0x40) v }
  else c

/-- The checks both control-register forms make (R245, R354). -/
def crCheck (c : Ctx) (op n : Nat) : List Cause :=
  if !crMapped n then [⟨cIIL, 0, op, 0⟩]
  else if 0x40 ≤ n ∧ !c.sup then [causeAt cPRIV (BitVec.ofNat 64 n)] else []

def slotCrr (d : BitVec 5) (n : BitVec 12) : Slot := fun _ s =>
  check (crCheck (getX s s.cur) 0x60 n.toNat) (.go (retS d 2 (crRead s s.cur n.toNat)))

def slotCrw (d : BitVec 5) (n : BitVec 12) : Slot := fun _ s =>
  let c := getX s s.cur
  let v := readS c d
  check (crCheck c 0x61 n.toNat
      ++ (if n = 6 ∧ 2048 < shapeBytes v then [causeAt cBOUND (tiVa v.toNat)] else []))
    (.go (fun t => modX t t.cur (fun k => crWrite k n.toNat v)))

/-! ## Entering, leaving and ending -/

def slotTrap (i : BitVec 8) : Slot := fun _ _ => .go (fun t => modX t t.cur (fun k => { k with trapi := some i.toNat }))

/-- `tret` outside handler mode is PRIV with 0x040 (R356). -/
def slotTret : Slot := fun _ s =>
  check (if (getX s s.cur).inh then [] else [causeAt cPRIV 0x40])
    (.go (fun t => modX t t.cur (fun k => { k with await := .tret })))

/-- `tend` (R357): the task's end begins after its bundle. -/
def slotTend : Slot := fun _ _ => .go (fun t => modX t t.cur (fun k => { k with await := .ending false }))

end Sys2Proof.Machine
end

