-- ==== Sys2Proof/Machine/Memory.lean ====
section
/-!
DEFINITION. Tile-store loads and stores (R361), global loads and stores (R362-R364), exchange stores (R365), atomics
(R366, R367).
-/

namespace Sys2Proof.Machine

open Sys2Proof

/-- A slot with a guard: one whose guard does not hold has no effect (R358). -/
def guarded (g : BitVec 5) (f : Slot) : Slot := fun e s => if guardOn (getX s s.cur) g then f e s else .go id

/-! ## Tile-store forms (R361) -/

/-- The effective address of an S form of size s: base plus the scaled offset, modulo 2^64 (R359, R361). -/
def smAddr (c : Ctx) (a : BitVec 5) (n : Nat) (i : BitVec 6) (x : Option (BitVec 28)) : Nat :=
  (readS c a + immOf i x * BitVec.ofNat 64 n).toNat

/-- A tile-store load: its value at t + 4, or POISON there (R361). -/
def tileLoad (form : Nat) (d a : BitVec 5) (i : BitVec 6) (x : Option (BitVec 28)) : Slot := fun e s =>
  let c := getX s s.cur
  let n := 2 ^ (form % 8)
  let ea := smAddr c a n i x
  check (tsCheck s s.cur ea n)
    (if poisonTs s s.cur ea n then
      .go (fun t => modX t t.cur (fun k => k.addResult 4 (.sreg (physS c d.toNat) 0) form
        (.failed ⟨cPOISON, 0, 0, e.pos, tiTs ea, c.pc, c.time⟩)))
    else .go (retS d 4 (formValue form (loadTs s s.cur ea n))))

/-- A tile-store store, in the issue cycle (R361). -/
def tileStore (lg : Nat) (g a b : BitVec 5) (i : BitVec 6) (x : Option (BitVec 28)) : Slot := guarded g (fun _ s =>
  let c := getX s s.cur
  let n := 2 ^ lg
  let ea := smAddr c a n i x
  check (tsCheck s s.cur ea n) (.go (fun t => storeTs t t.cur ea (leBytes n (readS c b).toNat) false)))

def slotLdB (d a : BitVec 5) (i : BitVec 6) (x : Option (BitVec 28)) : Slot := tileLoad 8 d a i x
def slotLdH (d a : BitVec 5) (i : BitVec 6) (x : Option (BitVec 28)) : Slot := tileLoad 9 d a i x
def slotLdW (d a : BitVec 5) (i : BitVec 6) (x : Option (BitVec 28)) : Slot := tileLoad 10 d a i x
def slotLdD (d a : BitVec 5) (i : BitVec 6) (x : Option (BitVec 28)) : Slot := tileLoad 11 d a i x
def slotLdzB (d a : BitVec 5) (i : BitVec 6) (x : Option (BitVec 28)) : Slot := tileLoad 0 d a i x
def slotLdzH (d a : BitVec 5) (i : BitVec 6) (x : Option (BitVec 28)) : Slot := tileLoad 1 d a i x
def slotLdzW (d a : BitVec 5) (i : BitVec 6) (x : Option (BitVec 28)) : Slot := tileLoad 2 d a i x
def slotStB (g a b : BitVec 5) (i : BitVec 6) (x : Option (BitVec 28)) : Slot := tileStore 0 g a b i x
def slotStH (g a b : BitVec 5) (i : BitVec 6) (x : Option (BitVec 28)) : Slot := tileStore 1 g a b i x
def slotStW (g a b : BitVec 5) (i : BitVec 6) (x : Option (BitVec 28)) : Slot := tileStore 2 g a b i x
def slotStD (g a b : BitVec 5) (i : BitVec 6) (x : Option (BitVec 28)) : Slot := tileStore 3 g a b i x

/-! ## Global forms (R362-R364) -/

/-- The payload of a global load without an X: plain, class 0, offset 0 (R362). -/
def ldExt (x : Option WgLd) : WgLd := x.getD ⟨0, false, 0, 0, 0⟩
/-- The payload of a global store without an X (R362). -/
def stExt (x : Option WgSt) : WgSt := x.getD ⟨0, 0, 0, 0⟩

/-- Byte offset of a global address: base plus the signed offset, modulo 2^64 (R360). -/
def globOff (c : Ctx) (a : BitVec 5) (off : BitVec 17) : Nat := (readS c a + BitVec.signExtend 64 off).toNat

/-- The context freezes after the bundle, with a cause of LASTFRZ (R247, R258, R261). -/
def awaitAfter (x : Nat) (a : Await) (cause : Nat) (s : State) : State :=
  modX s x (fun c => { c with await := a, lastFrz := BitVec.ofNat 4 cause })

/-- An access of a cached page while the data cache drains is held (R137); `past` says that it goes past the cache by an effective hint (R363). -/
def drainHold (s : State) (nc past : Bool) (pa : Nat) (k : SlotOut) : SlotOut :=
  let q := getC s (coreOf s.cur)
  if decide (s.cyc < q.dcDrain) && q.split != 0 && !nc && !past && isLocal s pa then .hold 9 id else k

/-- A load's hint is effective: an acquire has none (R363). -/
def hinted (q : WgLd) : Bool := q.mmh && q.sem != 1

/-- A global load joins the accesses and its result waits for it; as an acquire it freezes the context (R258, R363). -/
def globalLoad (x form pa n : Nat) (eff : RegWrite) (q : WgLd) (nc : Bool) (s : State) : State :=
  let g := nextGroup s
  let s1 := addAccess x .load pa n q.oc q.sem q.scope q.mmh nc [] s
  let s2 := modX s1 x (fun c => c.addResult 12 eff form (.waiting g))
  if q.sem = 1 then awaitAfter x (.acquire g q.scope.toNat) 1 s2 else s2

/-- A global load into a scalar; with D = 0 nothing is written. -/
def slotLdg (form : Nat) (d a : BitVec 5) (h : BitVec 4) (x : Option WgLd) : Slot := fun _ s =>
  let c := getX s s.cur
  let q := ldExt x
  let n := 2 ^ (form % 8)
  withGlobal (globalOperand s s.cur h.toNat (globOff c a q.off) n n true false) (fun hd pa _ =>
    drainHold s hd.nc (hinted q) pa (.go (globalLoad s.cur form pa n (if d = 0 then .tile [] else .sreg (physS c d.toNat) 0) q hd.nc)))

/-- The low n bytes of a tile. -/
def lowMask (n : Nat) : Tile := BitVec.ofNat 16384 (2 ^ (8 * n) - 1)

def slotLdgB (d a : BitVec 5) (h : BitVec 4) (x : Option WgLd) : Slot := slotLdg 8 d a h x
def slotLdgH (d a : BitVec 5) (h : BitVec 4) (x : Option WgLd) : Slot := slotLdg 9 d a h x
def slotLdgW (d a : BitVec 5) (h : BitVec 4) (x : Option WgLd) : Slot := slotLdg 10 d a h x
def slotLdgD (d a : BitVec 5) (h : BitVec 4) (x : Option WgLd) : Slot := slotLdg 11 d a h x
def slotLdgzB (d a : BitVec 5) (h : BitVec 4) (x : Option WgLd) : Slot := slotLdg 0 d a h x
def slotLdgzH (d a : BitVec 5) (h : BitVec 4) (x : Option WgLd) : Slot := slotLdg 1 d a h x
def slotLdgzW (d a : BitVec 5) (h : BitVec 4) (x : Option WgLd) : Slot := slotLdg 2 d a h x

/-- `ldg.v` (R362): the bytes of VSHAPE into a tile, those above unchanged. -/
def slotLdgV (d a : BitVec 5) (h : BitVec 4) (x : Option WgLd) : Slot := fun _ s =>
  let c := getX s s.cur
  let q := ldExt x
  let n := shapeBytes c.vshape
  withGlobal (globalOperand s s.cur h.toNat (globOff c a q.off) n 64 true false) (fun hd pa _ =>
    drainHold s hd.nc (hinted q) pa (.go (globalLoad s.cur 0 pa n (.vreg (physV c d.toNat) 0 (lowMask n)) q hd.nc)))

/-- The packages of the remote-store set, with those of flushing reads that have not returned and of stores not yet posted
(R259). -/
def remoteSet (s : State) (c : Ctx) : List (BitVec 8) :=
  (c.remote ++ (c.accs.filter (fun a => flushOut a || (a.kind == .store && !isLocal s a.pa.toNat))).map (fun a => BitVec.ofNat 8 (a.pa.toNat / 2 ^ 48))).eraseDups

/-- A remote store to a ninth package is held while a flushing read to the oldest member returns (R259). -/
def ninthHold (s : State) (pa : Nat) (k : SlotOut) : SlotOut :=
  let c := getX s s.cur
  let l := remoteSet s c
  if !isLocal s pa && !l.contains (BitVec.ofNat 8 (pa / 2 ^ 48)) && decide (8 ≤ l.length) then
    .hold 1 (fun t => if flushing c then t else match c.remote with | p :: _ => sendFlush t t.cur p | [] => t)
  else k

/-- A global store of bytes through a handle (R362, R364). -/
def globalStore (a : BitVec 5) (h : BitVec 4) (x : Option WgSt) (align : Nat) (bytes : List Byte) : Slot := fun _ s =>
  let c := getX s s.cur
  let q := stExt x
  withGlobal (globalOperand s s.cur h.toNat (globOff c a q.off) bytes.length align false true) (fun hd pa _ =>
    drainHold s hd.nc false pa (ninthHold s pa
      (.go (addAccess s.cur .store pa bytes.length q.oc q.sem q.scope false hd.nc bytes))))

/-- The scalar stores. -/
def slotStg (lg : Nat) (g a b : BitVec 5) (h : BitVec 4) (x : Option WgSt) : Slot := guarded g (fun e s =>
  globalStore a h x (2 ^ lg) (leBytes (2 ^ lg) (readS (getX s s.cur) b).toNat) e s)

def slotStgB (g a b : BitVec 5) (h : BitVec 4) (x : Option WgSt) : Slot := slotStg 0 g a b h x
def slotStgH (g a b : BitVec 5) (h : BitVec 4) (x : Option WgSt) : Slot := slotStg 1 g a b h x
def slotStgW (g a b : BitVec 5) (h : BitVec 4) (x : Option WgSt) : Slot := slotStg 2 g a b h x
def slotStgD (g a b : BitVec 5) (h : BitVec 4) (x : Option WgSt) : Slot := slotStg 3 g a b h x

/-- The first n bytes of a tile. -/
def tileBytes (v : Tile) (n : Nat) : List Byte := tab n (fun i => bits v (8 * i) 8)

/-- `stg.v` (R362). -/
def slotStgV (g a b : BitVec 5) (h : BitVec 4) (x : Option WgSt) : Slot := guarded g (fun e s =>
  let c := getX s s.cur
  globalStore a h x 64 (tileBytes (readV c b) (shapeBytes c.vshape)) e s)

/-! ## Exchange stores (R365) -/

/-- The gang of a context. -/
def gangOf (s : State) (x : Nat) : Option Gang :=
  s.gangs.find? (fun g => g.id == (getX s x).gang && g.xs.contains x)

/-- `xst` (R365, R139): 8 bytes to the window of the core of a task of the gang; the gang counts the stores not yet written. -/
def slotXst (g a b c : BitVec 5) : Slot := guarded g (fun _ s =>
  let x := s.cur
  let k := getX s x
  let o := (readS k a).toNat
  let n := (readS k c).toNat
  let bound := match gangOf s x with
    | some q => !q.exch || decide (q.tasks ≤ n) || decide (0x40000 ≤ o)
    | none => true
  check ((if o % 8 = 0 then [] else [causeAt cALIGN (tiVa o)]) ++ (if bound then [causeAt cBOUND (tiVa o)] else []))
    (match gangOf s x with
    | some q =>
      if q.live.contains n then .go (fun t =>
        let dst := q.xs.getD n x
        let p := mkPkt 6 0 k.part (coreEp t (coreOf x)) (coreEp t (coreOf dst)) 0 o (leBytes 8 (readS k b).toNat)
          (.xst q.id n k.phase.toNat o)
        sendPkt { t with gangs := updFirst (fun r => r.id = q.id) (fun r => { r with xstOut := r.xstOut + 1 }) t.gangs } p)
      else .go id
    | none => .go id))

/-! ## Atomics (R366, R367) -/

/-- An atomic: no result with D = 0; as an acquire it freezes the context (R258, R366). -/
def slotAtomic (op : Nat) (d a b : BitVec 5) (h : BitVec 4) (z : BitVec 1) (oc : BitVec 4) (sem : BitVec 2) (scope : BitVec 3)
    (cmp : DWord) (g : BitVec 5) : Slot := guarded g (fun _ s =>
  let x := s.cur
  let c := getX s x
  let wide := z == 1
  let n := if wide then 8 else 4
  withGlobal (globalOperand s x h.toNat (readS c a).toNat n n true true) (fun hd pa _ =>
    .go (fun t =>
      let grp := nextGroup t
      let t1 := addAccess x (.atomic op wide (readS c b) cmp (d != 0)) pa n oc sem scope false hd.nc [] t
      let t2 := if d = 0 then t1
        else modX t1 x (fun k => k.addResult 12 (.sreg (physS c d.toNat) 0) (if wide then 11 else 10) (.waiting grp))
      if sem = 1 ∨ sem = 3 then awaitAfter x (.acquire grp scope.toNat) 1 t2 else t2)))

/-- An atomic without a compare register. -/
def slotAt (op : Nat) (d a b : BitVec 5) (h : BitVec 4) (z : BitVec 1) (x : AtExt) : Slot :=
  slotAtomic op d a b h z x.oc x.sem x.scope 0 x.g

def slotAadd (d a b : BitVec 5) (h : BitVec 4) (z : BitVec 1) (x : AtExt) : Slot := slotAt 0 d a b h z x
def slotAsub (d a b : BitVec 5) (h : BitVec 4) (z : BitVec 1) (x : AtExt) : Slot := slotAt 1 d a b h z x
def slotAand (d a b : BitVec 5) (h : BitVec 4) (z : BitVec 1) (x : AtExt) : Slot := slotAt 2 d a b h z x
def slotAor (d a b : BitVec 5) (h : BitVec 4) (z : BitVec 1) (x : AtExt) : Slot := slotAt 3 d a b h z x
def slotAxor (d a b : BitVec 5) (h : BitVec 4) (z : BitVec 1) (x : AtExt) : Slot := slotAt 4 d a b h z x
def slotAmin (d a b : BitVec 5) (h : BitVec 4) (z : BitVec 1) (x : AtExt) : Slot := slotAt 5 d a b h z x
def slotAmax (d a b : BitVec 5) (h : BitVec 4) (z : BitVec 1) (x : AtExt) : Slot := slotAt 6 d a b h z x
def slotAminz (d a b : BitVec 5) (h : BitVec 4) (z : BitVec 1) (x : AtExt) : Slot := slotAt 7 d a b h z x
def slotAmaxz (d a b : BitVec 5) (h : BitVec 4) (z : BitVec 1) (x : AtExt) : Slot := slotAt 8 d a b h z x
def slotAswp (d a b : BitVec 5) (h : BitVec 4) (z : BitVec 1) (x : AtExt) : Slot := slotAt 9 d a b h z x
def slotAcas (d a b : BitVec 5) (h : BitVec 4) (z : BitVec 1) (x : CasExt) : Slot := fun e s =>
  slotAtomic 10 d a b h z x.oc x.sem x.scope (readS (getX s s.cur) x.c) x.g e s
def slotAfadd (d a b : BitVec 5) (h : BitVec 4) (z : BitVec 1) (x : AtExt) : Slot := slotAt 11 d a b h z x

end Sys2Proof.Machine
end

