-- ==== Sys2Proof/Machine/Num.lean ====
section
/-!
DEFINITION. Numbers, absence and rounding (R279-R302): formats, exact values, rounding, element-wise arithmetic, reductions,
block scales, rotation, and the accumulator entry.
-/

namespace Sys2Proof.Machine

open Sys2Proof

/-! ## Formats (R279-R284) -/

/-- A format in which elements are decoded and rounded: FP32, BF16 and FP16 (`ieee`), ExMy, and the integers. -/
inductive NumFmt where
  | ieee (eb mb : Nat)
  | exmy (eb mb bias : Nat)
  | int (w : Nat)
deriving DecidableEq, Repr

def fp32 : NumFmt := .ieee 8 23
def bf16 : NumFmt := .ieee 8 7
def fp16 : NumFmt := .ieee 5 10

/-- The width of an element. -/
def NumFmt.width : NumFmt → Nat
  | .ieee e m => 1 + e + m
  | .exmy e m _ => 1 + e + m
  | .int w => w

/-- The width of its container (R279). -/
def NumFmt.cont (f : NumFmt) : Nat := if f.width ≤ 4 then 4 else if f.width ≤ 8 then 8 else if f.width ≤ 16 then 16 else 32

/-- The lane format of a T code (R323). -/
def laneFmt (t : BitVec 3) : NumFmt := if t = 0 then fp32 else if t = 1 then bf16 else if t = 2 then fp16 else if t = 3 then .int 32 else .int 16

/-- The element format of a THR that data may be decoded by; none for raw, E8M0, a record that fails R169, or scales on a
type that takes none (R168, R169, R290). -/
def thrFmt (r : BitVec 128) : Option NumFmt :=
  if !thrOk r then none
  else match thrType r with
    | 1 => if thrBscale r then none else some fp32
    | 2 => if thrBscale r then none else some bf16
    | 3 => if thrBscale r then none else some fp16
    | 4 => some (.int 8)
    | 5 => some (.int 4)
    | 6 => some (.exmy (thrEbits r) (thrMbits r) (thrBias r))
    | _ => none

/-- ABSENT(fmt) (R284). -/
def NumFmt.absentCode : NumFmt → Nat
  | .ieee e m => 2 ^ (1 + e + m) - 1
  | .exmy e m _ => 2 ^ (e + m)
  | .int w => 2 ^ (w - 1)

/-- The canonical NaN, or the absent code where there is none (R280, R287). -/
def NumFmt.nanCode : NumFmt → Nat
  | .ieee e m => (2 ^ e - 1) * 2 ^ m + 2 ^ (m - 1)
  | f => f.absentCode

/-- The exponent bias. -/
def NumFmt.bias : NumFmt → Int
  | .ieee e _ => 2 ^ (e - 1) - 1
  | .exmy _ _ b => b
  | .int _ => 0

/-! ## Exact values -/

/-- An exact value: absent, a NaN, an infinity, or a sign and a magnitude num / den. -/
inductive Ex where
  | absent
  | nan
  | inf (neg : Bool)
  | fin (neg : Bool) (num den : Nat)
deriving DecidableEq, Repr

/-- n × 2^z as a fraction. -/
def pow2Frac (n : Nat) : Int → Nat × Nat
  | .ofNat k => (n * 2 ^ k, 1)
  | .negSucc k => (n, 2 ^ (k + 1))

/-- The value of a code (R280-R282); the bits above the width are ignored (R279). -/
def decodeNum (f : NumFmt) (code : Nat) : Ex :=
  let c := code % 2 ^ f.width
  if c = f.absentCode then .absent
  else match f with
    | .int w =>
      let i := toSigned w c
      .fin (i < 0) i.natAbs 1
    | .ieee e m =>
      let ef := c / 2 ^ m % 2 ^ e
      let fr := c % 2 ^ m
      let neg := c / 2 ^ (e + m) = 1
      if ef = 2 ^ e - 1 then (if fr = 0 then .inf neg else .nan)
      else
        let q := if ef = 0 then pow2Frac fr (1 - f.bias - m) else pow2Frac (2 ^ m + fr) (ef - f.bias - m)
        .fin neg q.1 q.2
    | .exmy e m _ =>
      let ef := c / 2 ^ m % 2 ^ e
      let fr := c % 2 ^ m
      let q := if ef = 0 then pow2Frac fr (1 - f.bias - m) else pow2Frac (2 ^ m + fr) (ef - f.bias - m)
      .fin (c / 2 ^ (e + m) = 1) q.1 q.2

/-- FP32 as the accumulator reads it: never absent (R299). -/
def decodeAcc (code : Nat) : Ex := match decodeNum fp32 code with | .absent => .nan | x => x

/-- floor(log₂(num / den)) for num > 0. -/
def floorLog2 (num den : Nat) : Int :=
  let e : Int := (num.log2 : Int) - (den.log2 : Int)
  let ok := match e with
    | .ofNat k => decide (den * 2 ^ k ≤ num)
    | .negSucc k => decide (den ≤ num * 2 ^ (k + 1))
  if ok then e else e - 1

/-- x × 2^z. -/
def Ex.scale (x : Ex) (z : Int) : Ex :=
  match x with
  | .fin s n d => let q := pow2Frac 1 z; .fin s (n * q.1) (d * q.2)
  | y => y

/-! ## Rounding (R287-R289) -/

/-- A rounding mode: RNE, RTZ, or SR with its draw rho. -/
inductive Mode where
  | rne
  | rtz
  | sr (rho : Nat)
deriving DecidableEq, Repr

/-- The draw of R288. -/
def rhoOf (key salt : BitVec 32) (idx : Nat) : Nat := h32 ((key ^^^ salt).toNat * 2 ^ 32 + idx % 2 ^ 32)

/-- The mode of R289: the instruction's RND code, else the destination's RMODE code, for an element of index idx. -/
def modeOf (rnd rmode : Nat) (key salt : BitVec 32) (idx : Nat) : Mode :=
  let m := if rnd = 0 then rmode + 1 else rnd
  if m = 2 then .rtz else if m = 3 then .sr (rhoOf key salt idx) else .rne

/-- The exponent of the grid step at a magnitude (R287). -/
def stepExp (f : NumFmt) (num den : Nat) : Int :=
  match f with
  | .int _ => 0
  | .ieee _ m => (if num = 0 then 1 - f.bias else max (floorLog2 num den) (1 - f.bias)) - m
  | .exmy _ m _ => (if num = 0 then 1 - f.bias else max (floorLog2 num den) (1 - f.bias)) - m

/-- A rounded magnitude: q steps of 2^z, and whether it was inexact. -/
structure Rounded where
  q : Nat
  z : Int
  inexact : Bool

/-- The choice of R287 between the grid magnitudes around num / den. -/
def roundMag (f : NumFmt) (mode : Mode) (num den : Nat) : Rounded :=
  let z := stepExp f num den
  let p := pow2Frac 1 z
  let n := num * p.2
  let d := den * p.1
  let q := n / d
  let r := n % d
  if r = 0 then ⟨q, z, false⟩
  else
    let up := match mode with
      | .rne => decide (d < 2 * r) || (decide (2 * r = d) && q % 2 == 1)
      | .rtz => false
      | .sr rho => decide (rho < r * 2 ^ 32 / d)
    ⟨if up then q + 1 else q, z, true⟩

/-- The code of a magnitude without its sign, and whether it exceeded MAXF (R287). -/
def encodeMag (f : NumFmt) (mode : Mode) (r : Rounded) : Nat × Bool :=
  match f with
  | .int w => if 2 ^ (w - 1) - 1 < r.q then (2 ^ (w - 1) - 1, true) else (r.q, false)
  | .ieee e m =>
    if r.q < 2 ^ m then (r.q, false)
    else
      let q := if r.q = 2 ^ (m + 1) then 2 ^ m else r.q
      let z := if r.q = 2 ^ (m + 1) then r.z + 1 else r.z
      let ef := (z + m + f.bias).toNat
      if 2 ^ e - 1 ≤ ef then ((if mode = .rtz then (2 ^ e - 1) * 2 ^ m - 1 else (2 ^ e - 1) * 2 ^ m), true)
      else (ef * 2 ^ m + (q - 2 ^ m), false)
  | .exmy e m _ =>
    if r.q < 2 ^ m then (r.q, false)
    else
      let q := if r.q = 2 ^ (m + 1) then 2 ^ m else r.q
      let z := if r.q = 2 ^ (m + 1) then r.z + 1 else r.z
      let ef := (z + m + f.bias).toNat
      if 2 ^ e ≤ ef then (2 ^ (e + m) - 1, true) else (ef * 2 ^ m + (q - 2 ^ m), false)

/-- The code with its sign: +0 for a zero in ExMy and in the integers (R287). -/
def withSign (f : NumFmt) (neg : Bool) (c : Nat) : Nat :=
  if !neg then c
  else match f with
    | .int w => (2 ^ w - c) % 2 ^ w
    | .ieee e m => c + 2 ^ (e + m)
    | .exmy e m _ => if c = 0 then 0 else c + 2 ^ (e + m)

/-- The code of an infinity, or of MAXF where there is none (R287). -/
def infCode (f : NumFmt) (neg : Bool) : Nat :=
  match f with
  | .ieee e m => withSign f neg ((2 ^ e - 1) * 2 ^ m)
  | .exmy e m _ => withSign f neg (2 ^ (e + m) - 1)
  | .int w => withSign f neg (2 ^ (w - 1) - 1)

/-- round(x, mode, fmt) (R287). -/
def roundNum (f : NumFmt) (mode : Mode) : Ex → Nat
  | .absent => f.absentCode
  | .nan => f.nanCode
  | .inf s => infCode f s
  | .fin s n d => withSign f s (encodeMag f mode (roundMag f mode n d)).1

/-! ## Exact arithmetic (R296) -/

def Ex.neg : Ex → Ex
  | .inf s => .inf (!s)
  | .fin s n d => .fin (!s) n d
  | x => x

def Ex.mag : Ex → Ex
  | .inf _ => .inf false
  | .fin _ n d => .fin false n d
  | x => x

/-- A signed numerator. -/
def signed (neg : Bool) (n : Nat) : Int := if neg then -(n : Int) else n

/-- The exact sum of two finite values; an exact zero is −0 only when both are −0 (R298). -/
def addFin (s : Bool) (n d : Nat) (t : Bool) (m e : Nat) : Ex :=
  let i := if e % d = 0 then signed s (n * (e / d)) + signed t m
    else if d % e = 0 then signed s n + signed t (m * (d / e)) else signed s (n * e) + signed t (m * d)
  let den := if e % d = 0 then e else if d % e = 0 then d else d * e
  .fin (if i = 0 then s && t && n == 0 && m == 0 else decide (i < 0)) i.natAbs den

def Ex.add (a b : Ex) : Ex :=
  match a, b with
  | .absent, _ => .absent
  | _, .absent => .absent
  | .nan, _ => .nan
  | _, .nan => .nan
  | .inf s, .inf t => if s = t then .inf s else .nan
  | .inf s, _ => .inf s
  | _, .inf t => .inf t
  | .fin s n d, .fin t m e => addFin s n d t m e

def Ex.sub (a b : Ex) : Ex := a.add b.neg

def Ex.mul (a b : Ex) : Ex :=
  match a, b with
  | .absent, _ => .absent
  | _, .absent => .absent
  | .nan, _ => .nan
  | _, .nan => .nan
  | .inf s, .inf t => .inf (s != t)
  | .inf s, .fin t m _ => if m = 0 then .nan else .inf (s != t)
  | .fin s n _, .inf t => if n = 0 then .nan else .inf (s != t)
  | .fin s n d, .fin t m e => .fin (s != t) (n * m) (d * e)

/-- Division of the float formats (R296, R384). -/
def Ex.div (a b : Ex) : Ex :=
  match a, b with
  | .absent, _ => .absent
  | _, .absent => .absent
  | .nan, _ => .nan
  | _, .nan => .nan
  | .inf _, .inf _ => .nan
  | .inf s, .fin t _ _ => .inf (s != t)
  | .fin s _ _, .inf t => .fin (s != t) 0 1
  | .fin s n d, .fin t m e =>
    if m = 0 then (if n = 0 then .nan else .inf (s != t)) else .fin (s != t) (n * e) (d * m)

/-- Division of the integer lanes: by zero it gives 0 (R296). -/
def Ex.divInt (a b : Ex) : Ex :=
  match a, b with
  | .fin _ _ _, .fin _ 0 _ => .fin false 0 1
  | x, y => x.div y

/-- A value that is absent or a NaN. -/
def Ex.noOrder : Ex → Bool
  | .absent => true
  | .nan => true
  | _ => false

/-- a < b as numbers, −0 equal to +0; false when either is absent or a NaN (R297). -/
def Ex.lt (a b : Ex) : Bool :=
  match a, b with
  | .inf s, .inf t => s && !t
  | .inf s, .fin _ _ _ => s
  | .fin _ _ _, .inf t => !t
  | .fin s n d, .fin t m e => decide (signed s (n * e) < signed t (m * d))
  | _, _ => false

/-- a = b as numbers (R297). -/
def Ex.eq (a b : Ex) : Bool := !a.noOrder && !b.noOrder && !a.lt b && !b.lt a

/-- The smaller value, −0 below +0 (R384). -/
def Ex.min (a b : Ex) : Ex :=
  match a, b with
  | .absent, _ => .absent
  | _, .absent => .absent
  | .nan, _ => .nan
  | _, .nan => .nan
  | x, y => if x.lt y then x else if y.lt x then y else (match x with | .fin true _ _ => x | _ => y)

/-- The larger value, +0 above −0. -/
def Ex.max (a b : Ex) : Ex :=
  match a, b with
  | .absent, _ => .absent
  | _, .absent => .absent
  | .nan, _ => .nan
  | _, .nan => .nan
  | x, y => if x.lt y then y else if y.lt x then x else (match x with | .fin true _ _ => y | _ => x)

/-- An identity form: an absent operand gives the other (R297). -/
def identity (f : Ex → Ex → Ex) (a b : Ex) : Ex :=
  match a, b with
  | .absent, y => y
  | x, .absent => x
  | x, y => f x y

/-! ## Reductions (R298) -/

def Ex.present : Ex → Bool
  | .absent => false
  | _ => true

/-- The fold of the present elements; absent when none is present. -/
def reduceEx (f : Ex → Ex → Ex) (l : List Ex) : Ex :=
  match l.filter Ex.present with
  | [] => .absent
  | x :: r => r.foldl f x

/-- The exact sum. -/
def sumEx (l : List Ex) : Ex := reduceEx Ex.add l

/-- The number of present elements. -/
def countEx (l : List Ex) : Nat := (l.filter Ex.present).length

def Ex.ofNat (n : Nat) : Ex := .fin false n 1

/-- The exact mean. -/
def meanEx (l : List Ex) : Ex := if countEx l = 0 then .absent else (sumEx l).div (.ofNat (countEx l))

/-! ## Block scales (R283, R290-R292) -/

/-- A block scale applied: an absent scale makes the element absent (R291). -/
def applyScale (e : Nat) (x : Ex) : Ex :=
  match x with
  | .absent => .absent
  | y => if e = 255 then .absent else y.scale ((e : Int) - 127)

/-- floor(log₂ MAXF) (R292). -/
def emaxOf : NumFmt → Int
  | .int w => (w : Int) - 2
  | .exmy e _ b => 2 ^ e - 1 - (b : Int)
  | .ieee e _ => 2 ^ (e - 1) - 1

/-- The largest magnitude of the present elements that are no NaN. -/
def amaxOf (l : List Ex) : Option Ex :=
  (l.filter (fun x => !x.noOrder)).foldl (fun m x => match m with
    | none => some x.mag
    | some y => some (if y.lt x.mag then x.mag else y)) none

/-- The scale code of a block and the exponent its elements are divided by (R292). -/
def blockScale (f : NumFmt) (l : List Ex) : Nat :=
  if l.all (fun x => !x.present) then 255
  else match amaxOf l with
    | some (.inf _) => 254
    | some (.fin _ n d) => if n = 0 then 127 else (max 0 (min 254 (floorLog2 n d - emaxOf f + 127))).toNat
    | _ => 127

/-- The value that is rounded into an element of a block of scale E (R292). -/
def unscale (e : Nat) (x : Ex) : Ex := if e = 255 then .absent else x.scale (127 - (e : Int))

/-- Bits from the start of a sequence to element i, for containers of c bits (R279, R290). -/
def elemBit (scaled : Bool) (c i : Nat) : Nat :=
  if scaled then 8 * ((32 + 128 * c) * (i / 1024) + 32) + c * (i % 1024) else c * i

/-- The byte of the scale of element i's block. -/
def scaleByte (c i : Nat) : Nat := (32 + 128 * c) * (i / 1024) + i / 32 % 32

/-! ## Rotation (R293-R295) -/

/-- The group length H of a ROT code. -/
def rotLen (rot : Nat) : Nat := if rot = 0 then 1 else 4 * 4 ^ rot

/-- log₂ H. -/
def rotLog (rot : Nat) : Nat := if rot = 0 then 0 else 2 + 2 * rot

/-- The number of one bits is odd. -/
def oddOnes : Nat → Nat → Bool
  | 0, _ => false
  | f + 1, n => (n % 2 == 1) != oddOnes f (n / 2)

/-- One group rotated: `k0` is the K position of its first element (R294, R295). -/
def rotateGroup (seed : BitVec 32) (rot k0 : Nat) (x : List Ex) : List Ex :=
  if x.any (fun e => !e.present) then x.map (fun _ => .absent)
  else
    let h := x.length
    let d := tab h (fun j => let v := x.getD j .nan
      if h32 (seed.toNat * 2 ^ 32 + (k0 + j) % 2 ^ 32) / 2 ^ 31 = 1 then v.neg else v)
    tab h (fun i =>
      (sumEx (tab h (fun j => let v := d.getD j .nan; if oddOnes 8 (i &&& j) then v.neg else v))).scale
        (-((rotLog rot / 2 : Nat) : Int)))

/-- A sequence cut into groups of h, with n groups left. -/
def chunks {α : Type} (h : Nat) : Nat → List α → List (List α)
  | 0, _ => []
  | n + 1, l => if l.isEmpty then [] else l.take h :: chunks h n (l.drop h)

/-- A tile's elements rotated in groups, from K position `kbase`. -/
def rotateAll (seed : BitVec 32) (rot kbase : Nat) (l : List Ex) : List Ex :=
  if rot = 0 then l
  else
    let h := rotLen rot
    let gs := chunks h l.length l
    (tab gs.length (fun g => rotateGroup seed rot (kbase + g * h) (gs.getD g []))).flatten

/-! ## The accumulator entry (R140, R299-R302) -/

def accVal (e : BitVec 64) : Nat := bitsN e 0 32
def accCount (e : BitVec 64) : Nat := bitsN e 32 16
def accFlags (e : BitVec 64) : Nat := bitsN e 48 16

def mkAcc (v c f : Nat) : BitVec 64 := BitVec.ofNat 64 (v % 2 ^ 32 + c % 2 ^ 16 * 2 ^ 32 + f % 2 ^ 16 * 2 ^ 48)

/-- Bits of FLAGS (R300). -/
def fNV : Nat := 1
def fNANIN : Nat := 2
def fOF : Nat := 4
def fUF : Nat := 8
def fNX : Nat := 16
def fCSAT : Nat := 32
def fABSC : Nat := 64

/-- An exact value rounded to FP32 under RNE, with the flags that the rounding raises (R299, R300). -/
def roundAcc (x : Ex) : Nat × Nat :=
  match x with
  | .fin s n d =>
    let r := roundMag fp32 .rne n d
    let e := encodeMag fp32 .rne r
    let tiny := decide (n * 2 ^ 151 < d * (2 ^ 25 - 1))
    (withSign fp32 s e.1,
      (if e.2 then fOF else 0) ||| (if r.inexact || e.2 then fNX else 0) ||| (if r.inexact && tiny then fUF else 0))
  | y => (roundNum fp32 .rne y, 0)

/-- NaN made from operands that are none. -/
def madeNan (l : List Ex) (r : Ex) : Bool := r == .nan && !l.contains .nan

/-- What a block of products contributes (R299): the rounded block sum, the number of present products, the flags; a count of
0 with no value when none is present. -/
def blockSum (absc : Bool) (fs : List (Ex × Ex)) : BitVec 64 :=
  let ps := fs.filter (fun p => p.1.present && p.2.present)
  let fa := if absc then fABSC else 0
  if ps.isEmpty then mkAcc 0 0 fa
  else
    let prods := ps.map (fun p => p.1.mul p.2)
    let sum := sumEx prods
    let nanIn := ps.any (fun p => p.1 == .nan || p.2 == .nan)
    let nv := ps.any (fun p => madeNan [p.1, p.2] (p.1.mul p.2)) || madeNan prods sum
    let r := roundAcc sum
    mkAcc r.1 ps.length (r.2 ||| (if nanIn then fNANIN else 0) ||| (if nv then fNV else 0) ||| fa)

/-- A value with a count of present contributors added to an entry: IEEE addition, the saturating count, the flags (R299,
R301). -/
def accAdd (e : BitVec 64) (v count flags : Nat) : BitVec 64 :=
  let a := decodeAcc (accVal e)
  let b := decodeAcc v
  let s := a.add b
  let r := roundAcc s
  let nv := if madeNan [a, b] s then fNV else 0
  let cs := if 65535 < accCount e + count then fCSAT else 0
  mkAcc r.1 (min (accCount e + count) 65535) (accFlags e ||| r.2 ||| nv ||| cs ||| flags)

/-- A block applied to an entry (R299). -/
def applyBlock (e b : BitVec 64) : BitVec 64 :=
  if accCount b = 0 then mkAcc (accVal e) (accCount e) (accFlags e ||| accFlags b)
  else accAdd e (accVal b) (accCount b) (accFlags b)

/-- A copy add-on-write element applied to an entry (R301). -/
def addOnWrite (e : BitVec 64) (code : Nat) : BitVec 64 :=
  match decodeNum fp32 code with
  | .absent => e
  | x => accAdd e code 1 (if x = .nan then fNANIN else 0)

/-- The exact value that a drain rounds: DMODE 0 RAW, 1 RAWA, 2 MEAN, 3 COUNT (R302, R415). -/
def drainEx (dmode : Nat) (e : BitVec 64) : Ex :=
  if dmode = 3 then .ofNat (accCount e)
  else if dmode = 0 then decodeAcc (accVal e)
  else if accCount e = 0 then .absent
  else if dmode = 1 then decodeAcc (accVal e)
  else (decodeAcc (accVal e)).div (.ofNat (accCount e))

end Sys2Proof.Machine
end

