-- ==== Sys2Proof/Machine/Special.lean ====
section
/-!
DEFINITION. The special functions of R386: exact results where the manual gives them, and elsewhere the values that their
accuracy bound allows, among which a free value picks (log entry 11, DESIGN CHOICE).  The bounds are computed from fixed-point
approximations whose error is far below the distance of a result from the grid.
-/

namespace Sys2Proof.Machine

open Sys2Proof

/-- Fraction bits of the fixed-point numbers. -/
def fxBits : Nat := 1000
def fxOne : Nat := 2 ^ fxBits

/-- A fixed-point product. -/
def fxMul (a b : Nat) : Nat := a * b / fxOne

/-- Terms k, k + 1, … of the exponential series of y, n of them, from the term t. -/
def expSeries (y : Nat) : Nat → Nat → Nat → Nat
  | 0, _, _ => 0
  | n + 1, k, t => t + expSeries y n (k + 1) (t * y / fxOne / (k + 1))

/-- A fixed-point number squared n times. -/
def fxSquares : Nat → Nat → Nat
  | 0, e => e
  | n + 1, e => fxSquares n (fxMul e e)

/-- e^x for fixed-point x from 0 to 256. -/
def fxExp (x : Nat) : Nat := fxSquares 8 (expSeries (x / 256) 300 0 fxOne)

/-- The series of atanh: Σ t^(2k+1) / (2k+1), n terms; `neg` alternates the signs, for atan. -/
def atanhSeries (neg : Bool) (t2 : Nat) : Nat → Nat → Nat → Int
  | 0, _, _ => 0
  | n + 1, k, p =>
    (if neg && k % 2 == 1 then -((p / (2 * k + 1) : Nat) : Int) else (p / (2 * k + 1) : Nat)) + atanhSeries neg t2 n (k + 1) (fxMul p t2)

/-- atanh or atan of a fixed-point number. -/
def fxAtan (neg : Bool) (t : Nat) : Int := atanhSeries neg (fxMul t t) 520 0 t

/-- ln m for fixed-point m from 1 to 2. -/
def fxLn1 (m : Nat) : Int := 2 * fxAtan false ((m - fxOne) * fxOne / (m + fxOne))

/-- π. -/
def fxPi : Nat := (16 * fxAtan true (fxOne / 5) - 4 * fxAtan true (fxOne / 239)).toNat

/-- Newton steps of the integer square root, from above. -/
def isqrtFrom (n : Nat) : Nat → Nat → Nat
  | 0, x => x
  | f + 1, x => let y := (x + n / x) / 2; if y < x then isqrtFrom n f y else x

/-- floor(√n). -/
def isqrt (n : Nat) : Nat := if n = 0 then 0 else isqrtFrom n 400 (2 ^ (n.log2 / 2 + 1))

/-- A result: exact, or known to lie in the same open cell of every grid as a fraction with a sign. -/
inductive Approx where
  | exact (x : Ex)
  | near (neg : Bool) (num den : Nat)
deriving DecidableEq, Repr

/-- A value below every grid step. -/
def tinyOf (neg : Bool) : Approx := .near neg 1 fxOne

/-- A fixed-point integer as a result. -/
def nearInt (i : Int) : Approx := .near (i < 0) i.natAbs fxOne

/-- num / den as a fixed-point number. -/
def fxOf (n d : Nat) : Nat := n * fxOne / d

def approxExp : Ex → Approx
  | .inf s => .exact (if s then .fin false 0 1 else .inf false)
  | .fin s n d =>
    if n = 0 then .exact (.ofNat 1)
    else if 200 * d ≤ n then (if s then tinyOf false else .near false (2 ^ 300) 1)
    else
      let e := fxExp (fxOf n d)
      if s then .near false (fxOne * fxOne / e) fxOne else .near false e fxOne
  | x => .exact x

def approxLog : Ex → Approx
  | .inf s => .exact (if s then .nan else .inf false)
  | .fin s n d =>
    if n = 0 then .exact (.inf true)
    else if s then .exact .nan
    else if n = d then .exact (.fin false 0 1)
    else
      let e := floorLog2 n d
      let q := pow2Frac 1 (-e)
      nearInt (e * fxLn1 (2 * fxOne) + fxLn1 (fxOf (n * q.1) (d * q.2)))
  | x => .exact x

def approxRsqrt : Ex → Approx
  | .inf s => .exact (if s then .nan else .fin false 0 1)
  | .fin s n d =>
    if n = 0 then .exact (.inf s)
    else if s then .exact .nan
    else
      let r := isqrt (d * fxOne * fxOne / n)
      if r * r * n = d * fxOne * fxOne then .exact (.fin false r fxOne) else .near false (2 * r + 1) (2 * fxOne)
  | x => .exact x

def approxTanh : Ex → Approx
  | .inf s => .exact (.fin s 1 1)
  | .fin s n d =>
    if n = 0 then .exact (.fin s 0 1)
    else if 64 * d ≤ n then .near s (fxOne - 1) fxOne
    else let e := fxExp (2 * fxOf n d); .near s (e - fxOne) (e + fxOne)
  | x => .exact x

def approxSigm : Ex → Approx
  | .inf s => .exact (if s then .fin false 0 1 else .ofNat 1)
  | .fin s n d =>
    if n = 0 then .exact (.fin false 1 2)
    else if 200 * d ≤ n then (if s then tinyOf false else .near false (fxOne - 1) fxOne)
    else let e := fxExp (fxOf n d); .near false (if s then fxOne else e) (e + fxOne)
  | x => .exact x

/-- Σ h^(2k+1) / (2k+1)!!, n terms from the term t of index k. -/
def phiSeries (h2 : Nat) : Nat → Nat → Nat → Nat
  | 0, _, _ => 0
  | n + 1, k, t => t + phiSeries h2 n (k + 1) (fxMul t h2 / (2 * k + 3))

/-- Φ(h) − 1/2 for fixed-point h from 0 to 16. -/
def fxPhi (h : Nat) : Nat :=
  let h2 := fxMul h h
  let dens := fxOne * fxOne / isqrt (2 * fxPi * fxOne)
  fxMul (fxMul (fxOne * fxOne / fxExp (h2 / 2)) dens) (phiSeries h2 1000 0 h)

def approxGelu : Ex → Approx
  | .inf s => .exact (if s then .fin true 0 1 else .inf false)
  | .fin s n d =>
    if n = 0 then .exact (.fin s 0 1)
    else if 16 * d ≤ n then (if s then tinyOf true else .near false (n * fxOne - d) (d * fxOne))
    else
      let h := fxOf n d
      let p := fxPhi h
      .near s (fxMul h (if s then fxOne / 2 - p else fxOne / 2 + p)) fxOne
  | x => .exact x

/-- The approximation by function number: 0 exp, 1 log, 2 rsqrt, 3 tanh, 4 sigm, 5 gelu. -/
def approxFn (f : Nat) (x : Ex) : Approx :=
  match f with
  | 0 => approxExp x
  | 1 => approxLog x
  | 2 => approxRsqrt x
  | 3 => approxTanh x
  | 4 => approxSigm x
  | _ => approxGelu x

/-- The magnitude codes that the bound allows for num / den: the two that bracket it, or in FP32 those within 2 units in the
last place (R386). -/
def allowedCodes (f : NumFmt) (num den : Nat) : List Nat :=
  let r := roundMag f .rtz num den
  let c := (encodeMag f .rtz r).1
  if f = fp32 then
    let st := Ex.scale (.fin false 2 1) r.z
    let y := Ex.fin false num den
    (tab 8 (fun i => c + i)).filterMap (fun k =>
      if k < 3 then none
      else match decodeNum f (k - 3) with
        | .fin s n d => let g := (Ex.fin s n d).sub y; if st.lt g.mag then none else some (k - 3)
        | _ => none)
  else [c, c + 1]

/-- The largest finite magnitude. -/
def maxFin (f : NumFmt) : Ex :=
  match f with
  | .ieee e m => decodeNum f ((2 ^ e - 1) * 2 ^ m - 1)
  | .exmy e m _ => decodeNum f (2 ^ (e + m) - 1)
  | .int w => .ofNat (2 ^ (w - 1) - 1)

/-- The result of a special function on a code, in lane format t: the same for every core (R386). -/
def specialFn (fn : Nat) (t : BitVec 3) (code : Nat) : Nat :=
  let f := laneFmt t
  match approxFn fn (decodeNum f code) with
  | .exact x => roundNum f .rne x
  | .near s n d =>
    if (maxFin f).lt (.fin false n d) then infCode f s
    else
      let l := allowedCodes f n d
      withSign f s (l.getD (Config.specialPick fn t.toNat code % l.length) 0)

/-- √x rounded exactly in a mode (R386). -/
def sqrtEx : Ex → Ex
  | .inf s => if s then .nan else .inf false
  | .fin s n d =>
    if n = 0 then .fin s 0 1
    else if s then .nan
    else
      let v := n * fxOne * fxOne / d
      let r := isqrt v
      if r * r = v then .fin false r fxOne else .fin false (2 * r + 1) (2 * fxOne)
  | x => x

end Sys2Proof.Machine
end

