-- ==== Sys2Proof/Machine/Vector.lean ====
section
/-!
DEFINITION. Vector instructions (R380-R399).
-/

namespace Sys2Proof.Machine

open Sys2Proof

/-! ## Lanes (R381-R383) -/

/-- Bits of an element of the shape in force. -/
def laneBits (c : Ctx) : Nat := 8 * shapeEsz c.vshape
/-- Elements of the shape in force. -/
def laneCount (c : Ctx) : Nat := shapeRows c.vshape * shapeCols c.vshape
/-- Pipe passes n (R234). -/
def passesOf (c : Ctx) : Nat := cdiv (laneCount c * laneBits c) 1024

/-- Element i of a tile at w bits. -/
def lane (w : Nat) (v : Tile) (i : Nat) : Nat := bitsN v (w * i) w

/-- Codes of w bits packed from element 0. -/
def packLanes (w : Nat) : List Nat → Nat
  | [] => 0
  | c :: l => c % 2 ^ w + 2 ^ w * packLanes w l

def tilePack (w : Nat) (l : List Nat) : Tile := BitVec.ofNat 16384 (packLanes w l)

/-- The width of T differs from ESZ: FMT (R381). -/
def fmtCheck (c : Ctx) (t : BitVec 3) : List Cause := if (laneFmt t).width = laneBits c then [] else [causeAt cFMT 0]

/-- The pipe of a slot is held by an earlier instruction; a fused triple needs both (R235). -/
def pipeBusy (s : State) (fused : Bool) (pos : Nat) : Bool :=
  let k := getC s (coreOf s.cur)
  (fused || pos != 3) && decide (s.cyc < k.pipe0) || (fused || pos == 3) && decide (s.cyc < k.pipe1)

/-- The pipes of a slot are held for their occupancy from the issue cycle (R235). -/
def takePipe (fused : Bool) (pos occ : Nat) (s : State) : State :=
  modC s (coreOf s.cur) (fun k => { k with pipe0 := if fused || pos != 3 then s.cyc + occ else k.pipe0,
                                           pipe1 := if fused || pos == 3 then s.cyc + occ else k.pipe1 })

/-- A slot that runs through a pipe. -/
def throughPipe (fused : Bool) (occ : Ctx → Nat) (f : Slot) : Slot := fun e s =>
  match f e s with
  | .go g => if pipeBusy s fused e.pos then .hold 1 id else .go (fun t => g (takePipe fused e.pos (occ (getX s s.cur)) t))
  | o => o

/-- A form that writes elements 0 to m − 1 of vD at latency `lat n`, from the sources at issue. -/
def laneForm (d : BitVec 5) (causes : Ctx → List Cause) (lat : Nat → Nat) (f : Ctx → Nat → Nat) : Slot := fun _ s =>
  let c := getX s s.cur
  let m := laneCount c
  let w := laneBits c
  check (causes c) (.go (retV d (lat (passesOf c)) (tilePack w (tab m (f c))) (lowMask (m * w / 8))))

/-- The value of element i of a register under T. -/
def laneEx (t : BitVec 3) (c : Ctx) (r : BitVec 5) (i : Nat) : Ex := decodeNum (laneFmt t) (lane (laneBits c) (readV c r) i)

/-- The code of element i of a register. -/
def laneCode (c : Ctx) (r : BitVec 5) (i : Nat) : Nat := lane (laneBits c) (readV c r) i

/-- A result rounded into a lane: key 0, salt 0 (R382). -/
def laneRound (t r : BitVec 3) (i : Nat) (x : Ex) : Nat := roundNum (laneFmt t) (modeOf r.toNat 0 0 0 i) x

/-! ## Element-wise arithmetic (R384, R385) -/

/-- A two-source form at latency k + n. -/
def vec2 (k : Nat) (d a b : BitVec 5) (r t : BitVec 3) (f : Ex → Ex → Ex) : Slot :=
  throughPipe false passesOf (laneForm d (fmtCheck · t) (k + ·) (fun c i => laneRound t r i (f (laneEx t c a i) (laneEx t c b i))))

/-- A one-source form at latency 2 + n. -/
def vec1 (d a : BitVec 5) (r t : BitVec 3) (f : Ex → Ex) : Slot :=
  throughPipe false passesOf (laneForm d (fmtCheck · t) (2 + ·) (fun c i => laneRound t r i (f (laneEx t c a i))))

/-- T is an integer lane format. -/
def isIntT (t : BitVec 3) : Bool := t == 3 || t == 4

def slotVadd (d a b : BitVec 5) (r t : BitVec 3) : Slot := vec2 2 d a b r t Ex.add
def slotVsub (d a b : BitVec 5) (r t : BitVec 3) : Slot := vec2 2 d a b r t Ex.sub
def slotVmul (d a b : BitVec 5) (r t : BitVec 3) : Slot := vec2 4 d a b r t Ex.mul
def slotVmin (d a b : BitVec 5) (r t : BitVec 3) : Slot := vec2 2 d a b r t Ex.min
def slotVmax (d a b : BitVec 5) (r t : BitVec 3) : Slot := vec2 2 d a b r t Ex.max
def slotViadd (d a b : BitVec 5) (r t : BitVec 3) : Slot := vec2 2 d a b r t (identity Ex.add)
def slotVimul (d a b : BitVec 5) (r t : BitVec 3) : Slot := vec2 4 d a b r t (identity Ex.mul)
def slotVimax (d a b : BitVec 5) (r t : BitVec 3) : Slot := vec2 2 d a b r t (identity Ex.max)
def slotVimin (d a b : BitVec 5) (r t : BitVec 3) : Slot := vec2 2 d a b r t (identity Ex.min)
def slotVneg (d a : BitVec 5) (r t : BitVec 3) : Slot := vec1 d a r t Ex.neg
def slotVmag (d a : BitVec 5) (r t : BitVec 3) : Slot := vec1 d a r t Ex.mag

/-- A form of the special-function row: latency 11 + 2n, occupancy 2n. -/
def vecSpecial (d : BitVec 5) (t : BitVec 3) (f : Ctx → Nat → Nat) : Slot :=
  throughPipe false (fun c => 2 * passesOf c) (laneForm d (fmtCheck · t) (fun n => 11 + 2 * n) f)

def slotVdiv (d a b : BitVec 5) (r t : BitVec 3) : Slot :=
  vecSpecial d t (fun c i => laneRound t r i
    (if isIntT t then (laneEx t c a i).divInt (laneEx t c b i) else (laneEx t c a i).div (laneEx t c b i)))

/-- A fused form (R385): latency 8 + n, both pipes. -/
def vec3 (d a b : BitVec 5) (r t : BitVec 3) (q : BitVec 5) (f : Ex → Ex → Ex → Ex) : Slot :=
  throughPipe true passesOf (laneForm d (fmtCheck · t) (8 + ·)
    (fun c i => laneRound t r i (f (laneEx t c a i) (laneEx t c b i) (laneEx t c q i))))

def slotVfma (d a b : BitVec 5) (r t : BitVec 3) (c : BitVec 5) : Slot := vec3 d a b r t c (fun x y z => (x.mul y).add z)
def slotVfms (d a b : BitVec 5) (r t : BitVec 3) (c : BitVec 5) : Slot := vec3 d a b r t c (fun x y z => (x.mul y).sub z)
def slotVfnma (d a b : BitVec 5) (r t : BitVec 3) (c : BitVec 5) : Slot := vec3 d a b r t c (fun x y z => (x.mul y).neg.add z)

/-! ## Special functions (R386) -/

def slotVexp (d a : BitVec 5) (_r t : BitVec 3) : Slot := vecSpecial d t (fun c i => specialFn 0 t (laneCode c a i))
def slotVlog (d a : BitVec 5) (_r t : BitVec 3) : Slot := vecSpecial d t (fun c i => specialFn 1 t (laneCode c a i))
def slotVrcp (d a : BitVec 5) (r t : BitVec 3) : Slot :=
  vecSpecial d t (fun c i => laneRound t r i ((Ex.ofNat 1).div (laneEx t c a i)))
def slotVsqrt (d a : BitVec 5) (r t : BitVec 3) : Slot := vecSpecial d t (fun c i => laneRound t r i (sqrtEx (laneEx t c a i)))
def slotVrsqrt (d a : BitVec 5) (_r t : BitVec 3) : Slot := vecSpecial d t (fun c i => specialFn 2 t (laneCode c a i))
def slotVtanh (d a : BitVec 5) (_r t : BitVec 3) : Slot := vecSpecial d t (fun c i => specialFn 3 t (laneCode c a i))
def slotVsigm (d a : BitVec 5) (_r t : BitVec 3) : Slot := vecSpecial d t (fun c i => specialFn 4 t (laneCode c a i))
def slotVgelu (d a : BitVec 5) (_r t : BitVec 3) : Slot := vecSpecial d t (fun c i => specialFn 5 t (laneCode c a i))

/-! ## Logic and shifts (R387) -/

/-- A form of the add row on element bits, for T of the width of ESZ. -/
def vecBits (d a b : BitVec 5) (t : BitVec 3) (f : Nat → Nat → Nat → Nat) : Slot :=
  throughPipe false passesOf (laneForm d (fmtCheck · t) (2 + ·) (fun c i => f (laneBits c) (laneCode c a i) (laneCode c b i)))

def slotVand (d a b : BitVec 5) (t : BitVec 3) : Slot := vecBits d a b t (fun _ x y => x &&& y)
def slotVor (d a b : BitVec 5) (t : BitVec 3) : Slot := vecBits d a b t (fun _ x y => x ||| y)
def slotVxor (d a b : BitVec 5) (t : BitVec 3) : Slot := vecBits d a b t (fun _ x y => x ^^^ y)
def slotVshl (d a b : BitVec 5) (t : BitVec 3) : Slot := vecBits d a b t (fun w x y => x * 2 ^ (y % w) % 2 ^ w)
def slotVshr (d a b : BitVec 5) (t : BitVec 3) : Slot := vecBits d a b t (fun w x y => x / 2 ^ (y % w))
def slotVsar (d a b : BitVec 5) (t : BitVec 3) : Slot :=
  vecBits d a b t (fun w x y => (toSigned w x / 2 ^ (y % w) % 2 ^ w).toNat)

/-! ## Compares, tests, selects, fills (R388-R390) -/

/-- A mask element. -/
def maskOf (b : Bool) : Nat := if b then 1 else 0

def slotVcmp (d a b : BitVec 5) (t : BitVec 3) (f : Ex → Ex → Bool) : Slot :=
  throughPipe false passesOf (laneForm d (fmtCheck · t) (2 + ·) (fun c i =>
    let x := laneEx t c a i
    let y := laneEx t c b i
    maskOf (!x.noOrder && !y.noOrder && f x y)))

def slotVcmpEq (d a b : BitVec 5) (t : BitVec 3) : Slot := slotVcmp d a b t Ex.eq
def slotVcmpNe (d a b : BitVec 5) (t : BitVec 3) : Slot := slotVcmp d a b t (fun x y => !x.eq y)
def slotVcmpLt (d a b : BitVec 5) (t : BitVec 3) : Slot := slotVcmp d a b t Ex.lt
def slotVcmpLe (d a b : BitVec 5) (t : BitVec 3) : Slot := slotVcmp d a b t (fun x y => !y.lt x)
def slotVcmpGt (d a b : BitVec 5) (t : BitVec 3) : Slot := slotVcmp d a b t (fun x y => y.lt x)
def slotVcmpGe (d a b : BitVec 5) (t : BitVec 3) : Slot := slotVcmp d a b t (fun x y => !x.lt y)

def slotVisab (d a : BitVec 5) (t : BitVec 3) : Slot :=
  throughPipe false passesOf (laneForm d (fmtCheck · t) (2 + ·) (fun c i => maskOf (!(laneEx t c a i).present)))
def slotVispr (d a : BitVec 5) (t : BitVec 3) : Slot :=
  throughPipe false passesOf (laneForm d (fmtCheck · t) (2 + ·) (fun c i => maskOf (laneEx t c a i).present))
def slotVfill (d a b : BitVec 5) (t : BitVec 3) : Slot :=
  throughPipe false passesOf (laneForm d (fmtCheck · t) (2 + ·)
    (fun c i => if (laneEx t c a i).present then laneCode c a i else laneCode c b i))

/-- A form without T that moves element bits, at latency k + n. -/
def vecMove (k : Nat) (d : BitVec 5) (causes : Ctx → List Cause) (f : Ctx → Nat → Nat) : Slot :=
  throughPipe false passesOf (laneForm d causes (k + ·) f)

def slotVsel (d a b g : BitVec 5) : Slot :=
  vecMove 2 d (fun _ => []) (fun c i => if guardOn c g then laneCode c a i else laneCode c b i)
def slotVselm (d a b c : BitVec 5) : Slot :=
  vecMove 2 d (fun _ => []) (fun k i => if laneCode k c i ≠ 0 then laneCode k a i else laneCode k b i)

/-! ## Reductions (R391) -/

/-- `vred` by a reduction of the elements of a row (axis 0) or a column (axis 1); the other elements of vD stay. -/
def slotVred (d a : BitVec 5) (axis : BitVec 1) (t : BitVec 3) (f : List Ex → Ex) : Slot :=
  throughPipe false passesOf (fun _ s =>
    let c := getX s s.cur
    let rows := shapeRows c.vshape
    let cols := shapeCols c.vshape
    let w := laneBits c
    let one := fun (l : List Ex) => roundNum (laneFmt t) .rne (f l)
    let pos := if axis = 0 then tab rows (fun r => (r * cols, tab cols (fun k => r * cols + k)))
      else tab cols (fun k => (k, tab rows (fun r => r * cols + k)))
    let val := pos.foldl (fun v p => v ||| (BitVec.ofNat 16384 (one (p.2.map (laneEx t c a)) % 2 ^ w) <<< (w * p.1))) (0 : Tile)
    let msk := pos.foldl (fun v p => v ||| (BitVec.ofNat 16384 (2 ^ w - 1) <<< (w * p.1))) (0 : Tile)
    check (fmtCheck c t) (.go (retV d (7 + passesOf c) val msk)))

def slotVredSum (d a : BitVec 5) (x : BitVec 1) (t : BitVec 3) : Slot := slotVred d a x t sumEx
def slotVredMax (d a : BitVec 5) (x : BitVec 1) (t : BitVec 3) : Slot := slotVred d a x t (reduceEx Ex.max)
def slotVredMin (d a : BitVec 5) (x : BitVec 1) (t : BitVec 3) : Slot := slotVred d a x t (reduceEx Ex.min)
def slotVredMean (d a : BitVec 5) (x : BitVec 1) (t : BitVec 3) : Slot := slotVred d a x t meanEx
def slotVredCount (d a : BitVec 5) (x : BitVec 1) (t : BitVec 3) : Slot := slotVred d a x t (fun l => .ofNat (countEx l))

/-! ## Conversions between lane formats (R392) -/

/-- The low 32 bits of a salt register (R382). -/
def saltOf (c : Ctx) (r : BitVec 5) : BitVec 32 := bits (readS c r) 0 32

def slotVcvt (d a : BitVec 5) (u t : BitVec 3) (x : Option CvtExt) : Slot :=
  let q := x.getD ⟨0, 0⟩
  throughPipe false passesOf (laneForm d (fun c => fmtCheck c t ++ fmtCheck c u) (5 + ·)
    (fun c i => roundNum (laneFmt u) (modeOf q.rnd.toNat 0 0 (saltOf c q.salt) i) (laneEx t c a i)))

/-! ## Shuffles (R397, R398) -/

def slotVmov (d a : BitVec 5) : Slot := vecMove 3 d (fun _ => []) (fun c i => laneCode c a i)

def slotVtrn (d a : BitVec 5) : Slot := vecMove 3 d (fun _ => []) (fun c i =>
  let rows := shapeRows c.vshape
  laneCode c a (i % rows * shapeCols c.vshape + i / rows))

def slotVperm (d a b : BitVec 5) : Slot := vecMove 3 d (fun _ => []) (fun c i =>
  let j := laneCode c b i
  if laneCount c ≤ j then 2 ^ laneBits c - 1 else laneCode c a j)

def slotVbrow (d a : BitVec 5) (f : BitVec 6) : Slot :=
  vecMove 3 d (fun c => if shapeRows c.vshape ≤ f.toNat then [causeAt cBOUND (tiVa f.toNat)] else [])
    (fun c i => laneCode c a (f.toNat * shapeCols c.vshape + i % shapeCols c.vshape))

def slotVbcs (d a : BitVec 5) (t : BitVec 3) : Slot :=
  vecMove 3 d (fmtCheck · t) (fun c _ => (readS c a).toNat % 2 ^ laneBits c)

/-- The check of an element number (R398). -/
def elemCheck (c : Ctx) (j : Nat) : List Cause := if laneCount c ≤ j then [causeAt cBOUND (tiVa j)] else []

def slotVext (d a b : BitVec 5) (t : BitVec 3) : Slot := throughPipe false passesOf (fun _ s =>
  let c := getX s s.cur
  let j := (readS c b).toNat
  let v := laneCode c a j
  check (fmtCheck c t ++ elemCheck c j)
    (.go (retS d (3 + passesOf c) (if isIntT t then sextNat 64 (laneBits c) v else BitVec.ofNat 64 v))))

def slotVins (d a b : BitVec 5) (t : BitVec 3) : Slot :=
  vecMove 3 d (fun c => fmtCheck c t ++ elemCheck c (readS c b).toNat)
    (fun c i => if i = (readS c b).toNat then (readS c a).toNat % 2 ^ laneBits c else laneCode c d i)

/-! ## The tree mask (R399) -/

/-- A two's-complement element. -/
def laneInt (c : Ctx) (r : BitVec 5) (i : Nat) : Int := toSigned (laneBits c) (laneCode c r i)

/-- c is x or one of its ancestors, in at most n steps. -/
def isAncestor (p : Nat → Int) (c : Nat) : Nat → Int → Bool
  | 0, _ => false
  | n + 1, x => if x < 0 then false else decide (x = c) || isAncestor p c n (p x.toNat)

def slotVtmask (d a : BitVec 5) : Slot := throughPipe false (fun _ => 1) (fun e s =>
  let c := getX s s.cur
  let rows := shapeRows c.vshape
  let cols := shapeCols c.vshape
  let q0 : Int := if rows < 2 then 0 else laneInt c a cols
  let badP := (List.range cols).find? (fun (j : Nat) => decide (Int.ofNat j ≤ laneInt c a j))
  laneForm d (fun _ =>
      (if 64 < cols then [causeAt cBOUND (tiVa cols)] else [])
      ++ (match badP with | some j => [causeAt cBOUND (tiVa j)] | none => [])
      ++ (if q0 < 0 ∨ (cols : Int) < q0 + rows then [causeAt cBOUND (tiVa (BitVec.ofInt 56 q0).toNat)] else []))
    (fun _ => 6)
    (fun k i => if isAncestor (laneInt k a) (i % cols) (cols + 1) (q0 + (i / cols : Nat)) then 0 else 2 ^ laneBits k - 1) e s)

/-! ## Tile-store moves (R393) -/

/-- The core address of the first of n bytes at offset o of window w that is beyond the window or not open, if any. -/
def windowBad (s : State) (x w o n : Nat) : Option Nat :=
  let tw := readTw (getX s x) w
  let c := getX s x
  let k := getC s (coreOf x)
  if o + n ≤ twSize tw ∧ tsOpen c k (twBase tw + o) n then none
  else ((List.range n).find? (fun i => decide (twSize tw ≤ o + i) || !tsOpen c k (twBase tw + o + i) 1)).map (fun i => twBase tw + o + i)

/-- The checks of n bytes at offset o of window w: 64-byte aligned, in the window (R393). -/
def windowMoveCheck (s : State) (x w o n : Nat) : List Cause :=
  (if o % 64 = 0 then [] else [causeAt cALIGN (tiVa o)])
  ++ (if twSize (readTw (getX s x) w) = 0 then [⟨cBOUND, 0, w, tiVa o⟩]
      else match windowBad s x w o n with
        | some a => [⟨cBOUND, 0, w, tiVa a⟩]
        | none => [])

/-- The window offset of `vld` and `vst`. -/
def vmOff (c : Ctx) (a : BitVec 5) (x : Option (BitVec 18)) : Nat := (readS c a + BitVec.signExtend 64 (x.getD 0)).toNat

/-- The bytes of the shape in force. -/
def vecBytes (c : Ctx) : Nat := laneCount c * laneBits c / 8

/-- A deferred POISON of a tile-store access of this bundle. -/
def poisonOf (s : State) (e : Env) (a n : Nat) : Deferred :=
  let c := getX s s.cur
  ⟨cPOISON, 0, 0, e.pos, tiTs (firstPoison s s.cur a n), c.pc, c.time⟩

def slotVld (d a : BitVec 5) (w : BitVec 4) (x : Option (BitVec 18)) : Slot := fun e s =>
  let c := getX s s.cur
  let o := vmOff c a x
  let n := vecBytes c
  let ad := twBase (readTw c w.toNat) + o
  check (windowMoveCheck s s.cur w.toNat o n)
    (if poisonTs s s.cur ad n then
      .go (fun t => modX t t.cur (fun k => k.addResult 4 (.vreg (physV c d.toNat) 0 0) 0 (.failed (poisonOf s e ad n))))
    else .go (retV d 4 (tileOf (loadTs s s.cur ad n)) (lowMask n)))

def slotVst (g a b : BitVec 5) (w : BitVec 4) (x : Option (BitVec 18)) : Slot := guarded g (fun _ s =>
  let c := getX s s.cur
  let o := vmOff c a x
  let n := vecBytes c
  check (windowMoveCheck s s.cur w.toNat o n)
    (.go (fun t => storeTs t t.cur (twBase (readTw c w.toNat) + o) (tileBytes (readV c b) n) false)))

/-! ## Converting loads and stores (R394-R396) -/

/-- The byte ranges that m elements from e0 occupy, their block scales with them. -/
def seqRanges (scaled : Bool) (c e0 m : Nat) : List (Nat × Nat) :=
  if scaled then (tab (m / 32) (fun b => [(elemBit true c (e0 + 32 * b) / 8, 4 * c), (scaleByte c (e0 + 32 * b), 1)])).flatten
  else [(c * e0 / 8, cdiv (c * (e0 + m)) 8 - c * e0 / 8)]

/-- The lowest core address among the bytes of the ranges that fails its window or R133. -/
def rangesBad (s : State) (x w : Nat) (l : List (Nat × Nat)) : Option Nat :=
  (l.filterMap (fun r => windowBad s x w r.1 r.2)).foldl (fun m a => match m with | none => some a | some b => some (min a b)) none

/-- The checks of m elements from e0 in a formatted window (R394, R414): `even` says that m is checked too. -/
def seqCheck (s : State) (x w : Nat) (f : NumFmt) (scaled even : Bool) (e0 m : Nat) : List Cause :=
  let c := f.cont
  (if (c = 4 ∧ !scaled ∧ e0 % 2 = 1) ∨ (scaled ∧ e0 % 32 ≠ 0) then [causeAt cALIGN (tiVa e0)] else [])
  ++ (if even ∧ ((c = 4 ∧ !scaled ∧ m % 2 = 1) ∨ (scaled ∧ m % 32 ≠ 0)) then [causeAt cBOUND (tiVa m)] else [])
  ++ (match rangesBad s x w (seqRanges scaled c e0 m) with
      | some a => [⟨cBOUND, 0, w, tiVa a⟩]
      | none => [])

/-- The container of an element at a bit offset from core address a. -/
def seqCode (s : State) (x a c bitOff : Nat) : Nat :=
  leNat (loadTs s x (a + bitOff / 8) (cdiv c 8)) / 2 ^ (bitOff % 8) % 2 ^ c

/-- The value of element i of the sequence at core address a, times its block scale (R291, R395). -/
def seqEx (s : State) (x a : Nat) (f : NumFmt) (scaled : Bool) (i : Nat) : Ex :=
  let v := decodeNum f (seqCode s x a f.cont (elemBit scaled f.cont i))
  if scaled then applyScale (leNat (loadTs s x (a + scaleByte f.cont i) 1)) v else v

/-- The record of a window and its table loaded (R169). -/
def useThr (s : State) : State := loadThr s (coreOf s.cur) (getX s s.cur).part

def slotVldc (d a : BitVec 5) (w : BitVec 4) (x : VldcExt) : Slot := throughPipe false passesOf (fun e s =>
  let c := getX s s.cur
  let tw := readTw c w.toNat
  let r := windowRecord s s.cur w.toNat
  let e0 := (readS c a).toNat
  let m := laneCount c
  match thrFmt r with
  | none => .trap (fmtCheck c x.t ++ [⟨cFMT, 0, twThr tw, 0⟩])
  | some f =>
    let sc := thrBscale r
    let bad := (seqRanges sc f.cont e0 m).find? (fun p => poisonTs s s.cur (twBase tw + p.1) p.2)
    check (fmtCheck c x.t ++ seqCheck s s.cur w.toNat f sc true e0 m)
      (match bad with
      | some p => .go (fun t => modX (useThr t) t.cur (fun k =>
          k.addResult (5 + passesOf c) (.vreg (physV c d.toNat) 0 0) 0 (.failed (poisonOf s e (twBase tw + p.1) p.2))))
      | none =>
        let codes := tab m (fun i => roundNum (laneFmt x.t) (modeOf x.rnd.toNat 0 0 (saltOf c x.salt) i)
          (seqEx s s.cur (twBase tw) f sc (e0 + i)))
        .go (fun t => retV d (5 + passesOf c) (tilePack (laneBits c) codes) (lowMask (vecBytes c)) (useThr t))))

/-- The bytes that encode elements from e0 into a sequence at core address a: containers, and the scale byte of each block
(R396, R415). -/
def encodeSeq (f : NumFmt) (scaled : Bool) (mode : Nat → Mode) (a e0 : Nat) (l : List Ex) : List (Nat × Byte) :=
  let c := f.cont
  let put := fun (ad : Nat) (bs : List Byte) => tab bs.length (fun i => (ad + i, bs.getD i 0))
  if scaled then
    let bs := chunks 32 l.length l
    (tab bs.length (fun b =>
      let blk := bs.getD b []
      let i0 := 32 * b
      let e := blockScale f blk
      let codes := tab blk.length (fun i => roundNum f (mode (i0 + i)) (unscale e (blk.getD i .absent)))
      put (a + elemBit true c (e0 + i0) / 8) (leBytes (4 * c) (packLanes c codes))
        ++ [(a + scaleByte c (e0 + i0), BitVec.ofNat 8 e)])).flatten
  else
    let codes := tab l.length (fun i => roundNum f (mode i) (l.getD i .absent))
    put (a + c * e0 / 8) (leBytes (c * l.length / 8) (packLanes c codes))

def slotVstc (g a b : BitVec 5) (w : BitVec 4) (x : VstcExt) : Slot := guarded g (throughPipe false passesOf (fun _ s =>
  let c := getX s s.cur
  let tw := readTw c w.toNat
  let r := windowRecord s s.cur w.toNat
  let e0 := (readS c a).toNat
  let m := laneCount c
  let kb := (readS c x.kb).toNat
  match thrFmt r with
  | none => .trap (fmtCheck c x.t ++ [⟨cFMT, 0, twThr tw, 0⟩])
  | some f =>
    let rot := thrRot r
    let h := rotLen rot
    let badRot := rot ≠ 0 ∧ (m % h ≠ 0 ∨ kb % h ≠ 0)
    check (fmtCheck c x.t ++ (if badRot then [causeAt cBOUND (tiVa kb)] else [])
        ++ seqCheck s s.cur w.toNat f (thrBscale r) true e0 m)
      (let xs := rotateAll (thrSeed r) rot kb (tab m (laneEx x.t c b))
       let mode := fun i => modeOf x.rnd.toNat (thrRmode r) (thrKey r) (saltOf c x.salt) (e0 + i)
       let cells := encodeSeq f (thrBscale r) mode (twBase tw) e0 xs
       .go (fun t => modX (useThr t) t.cur (fun k =>
         k.addResult (5 + rotLog rot / 2 + passesOf c + 1) (.tile cells) 0 .done)))))

end Sys2Proof.Machine
end

