-- ==== Sys2Proof/Machine/Matrix.lean ====
section
/-!
DEFINITION. Matrix and scale instructions (R400-R419): planes, the product, drains and clears, scale latches, and the array's
own steps.
-/

namespace Sys2Proof.Machine

open Sys2Proof

/-! ## Operand formats and tiles (R401, R402) -/

/-- The element format of a THR that an operand may have (R402). -/
def matFmt (r : BitVec 128) : Option NumFmt :=
  match thrFmt r with
  | some f => if f = fp32 then none else some f
  | none => none

/-- KB of a container width (R402). -/
def kbOf (c : Nat) : Nat := 2048 / c

/-- The physical tile behind aT: the T-th tile allotted (R199, R248). -/
def tileOfAcm (acm : BitVec 8) (t : Nat) : Option Nat := ((List.range 8).filter (bit acm))[t]?

/-- A tile that is not allotted is BOUND (R401). -/
def tileCheck (c : Ctx) (t : BitVec 3) : List Cause := if (tileOfAcm c.acm t.toNat).isSome then [] else [⟨cBOUND, 0, t.toNat, 0⟩]

def physTile (c : Ctx) (t : BitVec 3) : Nat := (tileOfAcm c.acm t.toNat).getD 0

def getAcc (k : Core) (t : Nat) : AccTile := mget AccTile.init k.acc t
def setAcc (k : Core) (t : Nat) (a : AccTile) : Core := { k with acc := mset k.acc t a }

/-- An entry of a tile's row: its bits are undefined until the tile is cleared (R299). -/
def accCell (a : AccTile) (row : Map (BitVec 64)) (i : Nat) : BitVec 64 :=
  match mfind row (i % 128) with
  | some e => e
  | none => match a.epoch with | some e => Config.freeAccEntry e i | none => 0

/-- Entry i of a tile, 128 × its row + its column. -/
def accEntry (a : AccTile) (i : Nat) : BitVec 64 := accCell a (mget [] a.ents (i / 128)) i

/-- All entries of a tile, row by row. -/
def accEntries (a : AccTile) : List (BitVec 64) :=
  (tab 128 (fun r => let row := mget [] a.ents r; tab 128 (fun n => accCell a row (128 * r + n)))).flatten

/-- A tile with an entry replaced. -/
def setAccEntry (a : AccTile) (i : Nat) (e : BitVec 64) : AccTile :=
  { a with ents := mset a.ents (i / 128) (mset (mget [] a.ents (i / 128)) (i % 128) e) }

/-- A busy tile is SCHED (R237, R410); a tile that is not allotted is no tile. -/
def busyCheck (s : State) (t : BitVec 3) : List Cause :=
  match tileOfAcm (getX s s.cur).acm t.toNat with
  | some p => if (getAcc (getC s (coreOf s.cur)) p).busy.isEmpty then [] else [⟨cSCHED, 1, t.toNat, 0⟩]
  | none => []

def getPlane (k : Core) (p : Nat) : Plane := mget Plane.init k.planes p

/-- A plane is used by a row that enters or is in the array (R404). -/
def planeUsed (k : Core) (p : Nat) : Bool :=
  (k.entry.map (fun r => r.plane == p)).getD false || k.inArray.any (fun q => q.2.1 == p)

/-! ## Loading B (R403-R405) -/

/-- The plane that a load of context x writes (R404). -/
def targetPlane (s : State) (x : Nat) : Nat :=
  match (getX s x).front with
  | some p => 1 - p
  | none =>
    let fronts := (tab 4 (fun i => 4 * coreOf x + i)).filterMap (fun y => (getX s y).front)
    ((List.range 2).find? (fun p => !fronts.contains p)).getD 0

/-- A load of a plane whose rounds have ended: it is front of its context, and of no other (R404). -/
def landPlane (s : State) (k : Nat) (l : Nat × Nat × Nat × Plane) : State :=
  let s1 := (tab 4 (fun i => 4 * k + i)).foldl (fun t y =>
    if (getX t y).front = some l.2.2.1 then modX t y (fun c => { c with front := none }) else t) s
  let s2 := modX s1 l.2.1 (fun c => { c with front := some l.2.2.1 })
  modC s2 k (fun c => { c with planes := mset c.planes l.2.2.1 l.2.2.2 })

/-- The loads whose rounds have ended land. -/
def landLoads (s : State) (k : Nat) : State :=
  let c := getC s k
  let over_ (l : Nat × Nat × Nat × Plane) : Bool := decide (l.1 ≤ s.cyc) && !hasRounds c l.2.1
  if c.loads.isEmpty then s
  else (c.loads.filter over_).foldl (fun t l => landPlane t k l) (modC s k (fun c => { c with loads := c.loads.filter (fun l => !over_ l) }))

/-- The elements of a plane, column by column (R403). -/
def planeEls (s : State) (x base c e0 : Nat) (scaled nMajor : Bool) : List (List Nat) :=
  let kb := kbOf c
  tab 128 (fun n => tab kb (fun k => seqCode s x base c (elemBit scaled c (e0 + (if nMajor then kb * n + k else 128 * k + n)))))

/-- `mldb` (K-major) and `mldbt` (N-major). -/
def loadPlane (nMajor : Bool) (a : BitVec 5) (w : BitVec 4) : Slot := fun e s =>
  let x := s.cur
  let c := getX s x
  let tw := readTw c w.toNat
  let r := windowRecord s x w.toNat
  let sc := thrBscale r
  let e0 := (readS c a).toNat
  match matFmt r with
  | none => .trap [⟨cFMT, 0, twThr tw, 0⟩]
  | some f =>
    let ct := f.cont
    let m := 128 * kbOf ct
    let align := if sc then e0 % 1024 ≠ 0 else e0 * ct % 512 ≠ 0
    let start := elemBit sc ct e0 / 8 - (if sc then 32 else 0)
    let n := if sc then m / 1024 * (32 + 128 * ct) else m * ct / 8
    let bound := if twSize tw = 0 then [⟨cBOUND, 0, w.toNat, tiVa e0⟩]
      else match windowBad s x w.toNat start n with
        | some ad => [⟨cBOUND, 0, w.toNat, tiVa ad⟩]
        | none => []
    check ((if !nMajor && sc then [⟨cFMT, 0, twThr tw, 0⟩] else []) ++ (if align then [causeAt cALIGN (tiVa e0)] else []) ++ bound)
      (let p := targetPlane s x
       if planeUsed (getC s (coreOf x)) p then .hold 1 id
       else
        let base := twBase tw
        if poisonTs s x (base + start) n then
          .go (fun t => modX (useThr t) x (fun k => addCause k k.inh (poisonOf s e (base + start) n)))
        else
          let pl : Plane := { els := planeEls s x base ct e0 sc nMajor, thr := r, owner := some x, form := nMajor, win := w, e0 := e0 }
          .go (fun t => modC (useThr t) (coreOf x) (fun k => { k with loads := k.loads ++ [(s.cyc + 1, x, p, pl)] })))

def slotMldb (a : BitVec 5) (w : BitVec 4) : Slot := loadPlane false a w
def slotMldbt (a : BitVec 5) (w : BitVec 4) : Slot := loadPlane true a w

/-! ## The matrix product (R406-R410) -/

/-- The check of the gathered rows (R406): the first index whose row lies outside the window. -/
def rowsBad (s : State) (x w : Nat) (sc : Bool) (ct : Nat) (idx : List Nat) : List Cause :=
  let tw := readTw (getX s x) w
  match (idx.filter (fun i => i != 0xFFFF)).find? (fun i => (windowBad s x w (elemBit sc ct (i * kbOf ct) / 8) 256).isSome) with
  | none => []
  | some i =>
    if twSize tw = 0 then [⟨cBOUND, 0, w, tiVa i⟩]
    else [⟨cBOUND, 0, w, tiVa ((windowBad s x w (elemBit sc ct (i * kbOf ct) / 8) 256).getD 0)⟩]

/-- Rows of a tile that have entered and are not yet written (R410). -/
def rowsPending (k : Core) (t : Nat) : Nat := (k.inArray.filter (fun q => q.1 == t)).length + (getAcc k t).rows.length

/-- `mma` and `mma.c`. -/
def startMma (chain : Bool) (t : BitVec 3) (a : BitVec 5) (w : BitVec 4) : Slot := fun _ s =>
  let x := s.cur
  let c := getX s x
  let k := getC s (coreOf x)
  let tw := readTw c w.toNat
  let r := windowRecord s x w.toNat
  let m := laneCount c
  let pt := physTile c t
  let acc := getAcc k pt
  let idx := tab m (fun j => lane 16 (readV c a) j)
  let front := match c.front with | none => [⟨cSCHED, 1, 8, 0⟩] | some _ => []
  let busy := if chain then [] else busyCheck s t
  let pl := getPlane k (c.front.getD 0)
  let fm := match matFmt r with
    | none => [⟨cFMT, 0, twThr tw, 0⟩]
    | some f => (match c.front, matFmt pl.thr with
      | some _, some g => if f.cont = g.cont then [] else [⟨cFMT, 0, twThr tw, 0⟩]
      | _, _ => []) ++ (if m ≤ 128 then rowsBad s x w.toNat (thrBscale r) f.cont idx else [])
  check (tileCheck c t ++ front ++ busy ++ (if laneBits c = 16 then [] else [⟨cFMT, 0, 0, 0⟩]) ++ fm
      ++ (if 128 < m then [causeAt cBOUND (tiVa m)] else []))
    (if k.entry.isSome || (chain && !acc.busy.isEmpty && decide (64 < rowsPending k pt)) then .hold 1 id
    else .go (fun u =>
      let run : MmaRun := { id := u.nextId, x := x, t := pt, plane := c.front.getD 0, tw := tw, thr := r, idx := idx, step := k.step, entered := 0 }
      modC (useThr { u with nextId := u.nextId + 1 }) (coreOf x) (fun q =>
        setAcc { q with entry := some run } pt { getAcc q pt with busy := (getAcc q pt).busy ++ [run.id] })))

def slotMma (t : BitVec 3) (a : BitVec 5) (w : BitVec 4) : Slot := startMma false t a w
def slotMmaC (t : BitVec 3) (a : BitVec 5) (w : BitVec 4) : Slot := startMma true t a w

/-- A byte of a latch. -/
def latchByte (l : Tile) (i : Nat) : Nat := bitsN l (8 * i) 8

/-- The sums of row j of a run, per column and block (R299, R407): none when the row is absent by index. -/
def rowSums (s : State) (k : Nat) (r : MmaRun) (j : Nat) : List (List (BitVec 64)) :=
  let i := r.idx.getD j 0xFFFF
  if i = 0xFFFF then []
  else
    let pl := getPlane (getC s k) r.plane
    match matFmt r.thr, matFmt pl.thr with
    | some fa, some fb =>
      let kb := kbOf fa.cont
      let sa := thrBscale r.thr
      let sb := thrBscale pl.thr
      let c := getX s r.x
      let as := tab kb (fun q => decodeNum fa (seqCode s r.x (twBase r.tw) fa.cont (elemBit sa fa.cont (i * kb + q))))
      tab 128 (fun n =>
        let bs := pl.els.getD n []
        tab (kb / 32) (fun b =>
          let ea := latchByte c.la (16 * j + b)
          let eb := latchByte c.lb (16 * n + b)
          let fs := (((as.drop (32 * b)).take 32).zip ((bs.drop (32 * b)).take 32)).map (fun (av, be) =>
            let bv := decodeNum fb be
            (if sa then applyScale ea av else av, if sb then applyScale eb bv else bv))
          blockSum ((sa && ea == 255) || (sb && eb == 255)) fs))
    | _, _ => []

/-- Where the gather unit reads row j of a run: core address of its 256 bytes (R407). -/
def rowAddr (r : MmaRun) (j : Nat) : Option Nat :=
  let i := r.idx.getD j 0xFFFF
  match matFmt r.thr with
  | some f => if i = 0xFFFF then none else some (twBase r.tw + elemBit (thrBscale r.thr) f.cont (i * kbOf f.cont) / 8)
  | none => none

/-- A row's bytes touch a poisoned sector. -/
def rowPoison (s : State) (r : MmaRun) (j : Nat) : Option Nat :=
  (rowAddr r j).bind (fun a => if poisonTs s r.x a 256 then some (firstPoison s r.x a 256) else none)

/-- The array makes a step in this cycle, unless the limiter stops it (R236, R244). -/
def stepNow (c : Core) : Bool := !c.arrNar || c.mid

/-- The rows that the gather unit takes in this cycle, at rank 1 of R238. -/
def gatherRows (s : State) (k : Nat) : List Nat :=
  let c := getC s k
  match c.entry with
  | some r => if stepNow c then (match rowAddr r r.entered with | some a => rowsOf (getX s r.x) a 256 | none => []) else []
  | none => []

/-- The next row of the run in the entry stage enters in this array step, read as engines see the tile store (R407, R408). -/
def enterRow (k : Nat) (s0 : State) : State :=
  match (getC s0 k).entry with
  | none => s0
  | some r =>
    let j := r.entered
    let s := match rowAddr r j with | some a => eccSectors k r.x true (ctxSectors (getX s0 r.x) a 256) s0 | none => s0
    let m := r.idx.length
    let bad := rowPoison s r j
    let row : AccRow := { mma := r.id, row := j, last := j + 1 == m, step := (getC s k).step + 20,
                          cols := if bad.isSome then [] else rowSums (engineSight k s) k r j }
    let s1 := match bad with
      | some a => modX s r.x (fun c => addCause c c.inh ⟨cPOISON, 0, 0, 4, tiTs a, c.pc, c.time⟩)
      | none => s
    modC s1 k (fun c => { c with inArray := c.inArray ++ [(r.t, r.plane, row)],
                                 entry := if j + 1 = m then none else some { r with entered := j + 1 } })

/-- The rows that become ready in this array step join their tile's output queue (R408). -/
def readyRows (k : Nat) (s : State) : State :=
  modC s k (fun c =>
    let out := c.inArray.filter (fun q => decide (q.2.2.step ≤ c.step))
    let c1 := { c with inArray := c.inArray.filter (fun q => decide (c.step < q.2.2.step)) }
    out.foldl (fun d q => setAcc d q.1 { getAcc d q.1 with rows := (getAcc d q.1).rows ++ [q.2.2] }) c1)

/-- Contexts of a core with a latch write that lands by its present step. -/
def latchesDue (s : State) (k : Nat) : List Nat :=
  (tab 4 (fun i => 4 * k + i)).filter (fun x => (getX s x).latches.any (fun l => decide (l.step ≤ (getC s k).step)))

/-- One array step of a core: a row enters, rows become ready, the step is counted, and latch writes that land with the next
step are due (R408, R413). -/
def arrayStep (k : Nat) (s : State) : State :=
  let s1 := readyRows k (enterRow k s)
  let s2 := modC s1 k (fun c => { c with step := c.step + 1 })
  (latchesDue s2 k).foldl (fun u x => addTimer u 0 .scaleLatchLanding (EvArg.of x)) s2

/-- The matrix array of the core computes in this cycle: a row has entered, or enters, and is not yet ready (R418). -/
def arrayBusy (c : Core) : Bool := c.entry.isSome || c.inArray.any (fun q => decide (c.step < q.2.2.step))

/-- The array may write a tile in this cycle (R240, R408): a port slot 0 to 2 outside a limiter freeze cycle. -/
def portOpen (s : State) (k : Nat) : Bool := coreCyc s % 4 != 3 && (getC s k).limCyc != s.cyc

/-- The row writes of a cycle, one for each tile with a row that waits (R408). -/
def rowWrites (k : Nat) (s : State) : State :=
  if portOpen s k then
    let ts := ((getC s k).acc.filter (fun a => !a.2.rows.isEmpty)).map (·.1)
    ts.foldl (fun u t => addTimer u 0 .mmaRowWrite (EvArg.of2 k t)) s
  else s

/-- A row applied to its tile (R299, R409). -/
def writeRow (a : AccTile) (r : AccRow) : AccTile :=
  let old := mget [] a.ents r.row
  let ents := if r.cols.isEmpty then a.ents
    else mset a.ents r.row (((List.range r.cols.length).zip r.cols).map (fun (n, l) => (n, l.foldl applyBlock (accCell a old (128 * r.row + n)))))
  { a with ents := ents, rows := a.rows.drop 1, busy := if r.last then a.busy.filter (· != r.mma) else a.busy }

/-- MMA_ROW_WRITE (a: core, b: tile): the head of the tile's queue is written, and the last row completes its `mma` (R408). -/
def execMmaRowWrite (s : State) : Res :=
  let k := s.arg.a
  let t := s.arg.b
  match (getAcc (getC s k) t).rows with
  | r :: _ => gate (portOpen s k) "MMA_ROW_WRITE" (fun u => modC u k (fun c => setAcc c t (writeRow (getAcc c t) r))) s
  | [] => gate false "MMA_ROW_WRITE" id s

/-! ## Scale latches (R412, R413) -/

/-- A latch write that lands 12 array steps after the step of issue. -/
def latchWrite (x : Nat) (side : Bool) (v : Tile) (s : State) : State :=
  modX s x (fun c => { c with latches := c.latches ++ [⟨(getC s (coreOf x)).step + 12, side, v⟩] })

def slotScl (side : Bool) (a : BitVec 5) (w : BitVec 4) : Slot := fun e s =>
  let x := s.cur
  let c := getX s x
  let o := (readS c a).toNat
  let ad := twBase (readTw c w.toNat) + o
  check (windowMoveCheck s x w.toNat o 2048)
    (if poisonTs s x ad 2048 then .go (fun t => modX t x (fun k => addCause k k.inh (poisonOf s e ad 2048)))
    else .go (latchWrite x side (tileOf (loadTs s x ad 2048))))

def slotSclA (a : BitVec 5) (w : BitVec 4) : Slot := slotScl false a w
def slotSclB (a : BitVec 5) (w : BitVec 4) : Slot := slotScl true a w
def slotSclrA : Slot := fun _ s => .go (latchWrite s.cur false latchOne)
def slotSclrB : Slot := fun _ s => .go (latchWrite s.cur true latchOne)

/-- SCALE_LATCH_LANDING (a: context): the latch writes due are applied, in order (R413). -/
def execScaleLatchLanding (s : State) : Res :=
  let x := s.arg.a
  let st := (getC s (coreOf x)).step
  gate ((getX s x).latches.any (fun l => decide (l.step ≤ st))) "SCALE_LATCH_LANDING" (fun t => modX t x (fun c =>
    let due := c.latches.filter (fun l => decide (l.step ≤ st))
    let c1 := { c with latches := c.latches.filter (fun l => decide (st < l.step)) }
    due.foldl (fun d l => if l.side then { d with lb := l.v } else { d with la := l.v }) c1)) s

/-! ## Drains and clears (R302, R414-R416) -/

/-- The exact value a drain rounds: a COUNT saturates to the destination (R302). -/
def drainValue (f : NumFmt) (sc : Bool) (dmode : Nat) (e : BitVec 64) : Ex :=
  let v := drainEx dmode e
  if dmode = 3 ∧ ¬ sc then v.min (maxFin f) else v

def slotMdrn (dmode : Nat) (t : BitVec 3) (a : BitVec 5) (w : BitVec 4) (rnd : BitVec 2) (sl : Option (BitVec 5)) : Slot := fun _ s =>
  let x := s.cur
  let c := getX s x
  let tw := readTw c w.toNat
  let r := windowRecord s x w.toNat
  let e0 := (readS c a).toNat
  let sc := thrBscale r
  match thrFmt r with
  | none => .trap (tileCheck c t ++ busyCheck s t ++ [⟨cFMT, 0, twThr tw, 0⟩])
  | some f =>
    let rangeCauses := if twSize tw = 0 then
        (seqCheck s x w.toNat f sc false e0 0) ++ [⟨cBOUND, 0, w.toNat, tiVa e0⟩]
      else seqCheck s x w.toNat f sc false e0 16384
    check (tileCheck c t ++ busyCheck s t ++ (if thrRot r ≠ 0 then [⟨cFMT, 0, twThr tw, 0⟩] else []) ++ rangeCauses)
      (let acc := getAcc (getC s (coreOf x)) (physTile c t)
       let mode := fun i => modeOf rnd.toNat (thrRmode r) (thrKey r) (saltOf c (sl.getD 0)) i
       let cells := encodeSeq f sc mode (twBase tw) e0 ((accEntries acc).map (drainValue f sc dmode))
       .go (fun u => setTs (useThr u) x (tsPutCells (getTs u x) (cells.map (fun p => (tsPhys c p.1, p.2))))))

def slotMdrnRaw (t : BitVec 3) (a : BitVec 5) (w : BitVec 4) (r : BitVec 2) (x : Option (BitVec 5)) : Slot := slotMdrn 0 t a w r x
def slotMdrnRawa (t : BitVec 3) (a : BitVec 5) (w : BitVec 4) (r : BitVec 2) (x : Option (BitVec 5)) : Slot := slotMdrn 1 t a w r x
def slotMdrnMean (t : BitVec 3) (a : BitVec 5) (w : BitVec 4) (r : BitVec 2) (x : Option (BitVec 5)) : Slot := slotMdrn 2 t a w r x
def slotMdrnCount (t : BitVec 3) (a : BitVec 5) (w : BitVec 4) (r : BitVec 2) (x : Option (BitVec 5)) : Slot := slotMdrn 3 t a w r x

/-- A tile with every entry clear (R301). -/
def clearedTile (a : AccTile) : AccTile := { a with epoch := none, ents := [] }

def slotMclr (t : BitVec 3) : Slot := fun _ s =>
  let c := getX s s.cur
  check (tileCheck c t ++ busyCheck s t)
    (.go (fun u => modC u (coreOf u.cur) (fun k => setAcc k (physTile c t) (clearedTile (getAcc k (physTile c t))))))

end Sys2Proof.Machine
end

