-- ==== Sys2Proof/Machine/Sync.lean ====
section
/-!
DEFINITION. Translation and invalidation (R368-R370), fences (R372), the gang barrier (R373), the data-cache split (R374),
timelines (R375-R377), transaction barriers (R273, R274, R378).
-/

namespace Sys2Proof.Machine

open Sys2Proof

/-! ## Translation and invalidation -/

/-- `trans` and `trans.ar` (R172, R368): the handle is written at t + 16. -/
def translateInto (aret : Bool) (d : BitVec 4) (a : BitVec 5) : Slot := fun _ s =>
  let x := s.cur
  let c := getX s x
  let va := readS c a
  if bitsN va 52 12 ≠ 0 then .trap [causeAt cBOUND (tiVa va.toNat)]
  else match translate s x va.toNat with
    | .wait q f => .hold q f
    | .fault r => .trap [⟨cPFLT, r, d.toNat, tiVa va.toNat⟩]
    | .ok m =>
      check (if !c.sup && !m.u then [⟨cPPROT, 1, d.toNat, tiVa va.toNat⟩] else [])
        (.go (fun t => modX (touchTlb t x va.toNat) x (fun k => k.addResult 16 (.handle d.toNat (handleOf m aret)) 0 .done)))

def slotTrans (d : BitVec 4) (a : BitVec 5) : Slot := translateInto false d a
def slotTransAr (d : BitVec 4) (a : BitVec 5) : Slot := translateInto true d a

/-- `hstat` (R369). -/
def slotHstat (d : BitVec 5) (a : BitVec 4) : Slot := slotS d 2 (fun c => handleWord (readH c a.toNat))

/-- The context freezes until the invalidation ends (R370). -/
def requestInval (x vpn count : Nat) (all : Bool) (s : State) : State :=
  modX (joinInval x vpn count all s) x (fun c => { c with lastFrz := 7 })

def slotInv (a b : BitVec 5) : Slot := fun _ s =>
  let c := getX s s.cur
  let n := readS c b
  check ((if c.sup then [] else [causeAt cPRIV 0]) ++ (if 2 ^ 24 ≤ n.toNat then [causeAt cBOUND (tiVa n.toNat)] else []))
    (.go (requestInval s.cur (bitsN (readS c a) 16 36) n.toNat false))

def slotInvAll : Slot := fun _ s =>
  check (if (getX s s.cur).sup then [] else [causeAt cPRIV 0]) (.go (requestInval s.cur 0 0 true))

/-! ## Fences (R261, R262, R372) -/

def slotFenceCm (sc : BitVec 3) (m : BitVec 16) : Slot := fun _ s =>
  if m = 0 then .go id else .go (awaitAfter s.cur (.fenceCm m.toNat sc.toNat 0) 1)

def slotFenceSc : Slot := fun _ s => .go (awaitAfter s.cur (.fenceSc 0) 1)

/-- The acquire actions of a wait's scope, after its bundle (R371); `.core` has none (R257). -/
def acquireAfter (x : Nat) (sc : BitVec 3) (s : State) : State :=
  if sc = 0 then s else awaitAfter x (.waitAcq sc.toNat 0) 1 s

/-! ## The gang barrier (R139, R373) -/

/-- The gang is the one of context x. -/
def ownGang (c : Ctx) (x : Nat) (g : Gang) : Bool := g.id == c.gang && g.xs.contains x

/-- A gang with one more member's arrival recorded. -/
def addArrival (i : Nat) (g : Gang) : Gang := if g.arrived.contains i then g else { g with arrived := g.arrived ++ [i] }

/-- A held member's arrival: its earlier accesses performed, the partition's dirty bytes written back, it is recorded. -/
def arrive (x : Nat) (s : State) : State :=
  let c := getX s x
  if maskDone c 0xFFFF then
    let s1 := cleanPart s (coreOf x) c.part
    if cleanDone s1 x then { s1 with gangs := updFirst (ownGang c x) (addArrival c.taskIx.toNat) s1.gangs } else s1
  else pushWhere x (fun _ => true) s

/-- `gbar`: held until the release of its barrier and the end of its `.cluster` acquire actions. -/
def slotGbar : Slot := fun _ s =>
  let x := s.cur
  if (getX s x).released then (if cleanDone s x then .go id else .hold 1 id) else .hold 1 (arrive x)

/-! ## The data-cache split (R137, R374) -/

/-- The cache range of a split meets the region of a context. -/
def splitMeets (n : Nat) (c : Ctx) : Bool :=
  decide (0 < n) && decide (c.tsBase.toNat < 0x38) && decide (0x38 < c.tsBase.toNat + c.tsSize.toNat + 4 * n)

/-- Every dirty byte of the whole cache is written back and every line invalidated (R137). -/
def drainCache (s : State) (k : Nat) : State :=
  modC ((dirtyLines (getC s k) none).foldl (fun t l => writeBack t k l) s) k (fun c => { c with dc := [] })

/-- Reads in flight of a core's contexts of every partition allocate nothing when they return. -/
def dropAllocs (s : State) (k : Nat) : State :=
  (tab 8 (fun p => p)).foldl (fun t p => mapAccs k (BitVec.ofNat 3 p) (fun a => { a with alloc := false }) t) s

/-- The drain of `phase` begins; it takes the 40 + 2 × d cycles after the bundle's, and the boundary moves when it ends; what is on its way
to the cache no longer enters it, so that it is empty then (R137). -/
def startDrain (x n : Nat) (s : State) : State :=
  let k := coreOf x
  let w := 41 + 2 * (dirtyLines (getC s k) none).length
  let s1 := modC (dropAllocs (drainCache s k) k) k (fun c => { c with dcDrain := s.cyc + w })
  addTimer (awaitAfter x (.phase n (s.cyc + w)) 9 s1) w .phaseDrainEnd (EvArg.of x)

def slotPhase (p : BitVec 3) : Slot := fun _ s =>
  let x := s.cur
  if (tasksOn s (coreOf x)).any (fun y => splitMeets p.toNat (getX s y)) then .trap [causeAt cBOUND (tiVa p.toNat)]
  else if s.cyc < (getC s (coreOf x)).dcDrain then .hold 9 id
  else .go (startDrain x p.toNat)

/-- PHASE_DRAIN_END (a: context): the boundary moves; the bytes that change sides are undefined (R137). -/
def execPhaseDrainEnd (s : State) : Res :=
  let x := s.arg.a
  let k := coreOf x
  match (getX s x).await with
  | .phase n u =>
    gate (decide (u ≤ s.cyc)) "PHASE_DRAIN_END" (fun t =>
      let o := (getC t k).split.toNat
      let lo := 0x380000 - 0x40000 * max o n
      let hi := 0x380000 - 0x40000 * min o n
      let t1 := modC { t with free := t.free + 1 } k (fun c =>
        { c with split := BitVec.ofNat 3 n, dcDrain := 0, ts := if lo < hi then tsForget c.ts lo hi t.free else c.ts })
      modX t1 x (fun c => { c with await := .none })) s
  | _ => gate false "PHASE_DRAIN_END" id s

/-! ## Timelines (R269, R270, R272, R375-R377) -/

/-- tl ≥ n in the modular order (R269). -/
def tlReached (t n : DWord) : Bool := decide ((t - n).toNat < 2 ^ 63)

/-- The promised value of a timeline for a queue of order q (R200, R376). -/
def promised (c : Ctx) (tl q : Nat) : DWord :=
  c.incs.foldl (fun v i => if i.tl = tl ∧ i.q ≤ q then v + BitVec.ofNat 64 i.amt else v) (readTl c tl)

/-- The increments that may be applied, oldest first: each waits for the earlier ones of its timeline (R270). -/
def applyIncs : List Inc → List Nat → Ctx → List Inc × Ctx
  | [], _, c => ([], c)
  | i :: l, stuck, c =>
    if i.ready && !stuck.contains i.tl then
      applyIncs l stuck (setTl c i.tl (readTl c i.tl + BitVec.ofNat 64 i.amt))
    else let r := applyIncs l (i.tl :: stuck) c; (i :: r.1, r.2)

/-- Increments of `tlinc` become ready when every earlier access has been performed, which pushes stores to their homes, and those that may be
are applied (R252, R270, R376). -/
def settleIncs (s : State) (x : Nat) : State :=
  let c := getX s x
  if c.incs.isEmpty then s
  else
    let early := fun (i : Inc) => c.accs.all (fun a => decide (i.ord ≤ a.ord) || overDone a) && !(getC s (coreOf x)).rounds.any (fun r => r.x == x)
    let r := applyIncs (c.incs.map (fun i => if i.q = 0 && early i then { i with ready := true } else i)) [] c
    let last := r.1.foldl (fun n i => if i.q = 0 && !i.ready then max n i.ord else n) 0
    pushWhere x (fun a => decide (a.ord < last)) (setX s x { r.2 with incs := r.1 })

/-- The increment of a completed command is ready (R270). -/
def incReady (c : Ctx) (cmd : Nat) : Ctx := { c with incs := c.incs.map (fun i => if i.cmd = cmd then { i with ready := true } else i) }

def slotTlwait (sc : BitVec 3) (a : BitVec 3) (b : BitVec 5) : Slot := fun _ s =>
  let x := s.cur
  let c := getX s x
  let n := readS c b
  if tlReached (readTl c a.toNat) n then .go (acquireAfter x sc)
  else check (if tlReached (promised c a.toNat 4) n then [] else [causeAt cQDEAD 0]) (.hold 1 id)

def slotTlinc (a : BitVec 3) (b : BitVec 5) : Slot := fun _ s =>
  let n := (readS (getX s s.cur) b).toNat
  check (if 2 ^ 63 ≤ n then [causeAt cBOUND (tiVa n)] else [])
    (.go (fun t => modX t t.cur (fun k => { k with incs := k.incs ++ [⟨a.toNat, n, 0, 0, k.ord, false⟩] })))

def slotTlrd (d : BitVec 5) (a : BitVec 3) : Slot := slotS d 2 (fun c => readTl c a.toNat)

/-- `tlmwait`: a poll at first presentation and at the first cycle of each tick, until one satisfies it (R272, R377). -/
def slotTlmwait (sc : BitVec 3) (a b : BitVec 5) (h : BitVec 4) : Slot := fun _ s =>
  let x := s.cur
  let c := getX s x
  withGlobal (globalOperand s x h.toNat (readS c a).toNat 8 8 true false) (fun hd pa _ =>
    if (c.poll.map (fun v => tlReached v (readS c b))).getD false then .go (acquireAfter x sc)
    else .hold 1 (fun t =>
      if (c.pollTick.map (fun k => decide (s.cicada.toNat ≤ k))).getD false then t
      else modX (addAccess x .poll pa 8 0 0 0 false hd.nc [] t) x (fun k => { k with pollTick := some s.cicada.toNat })))

/-- `tlmsig`: a writing atomic at the home of its line, a release of its scope (R377). -/
def slotTlmsig (sc : BitVec 3) (a b : BitVec 5) (h : BitVec 4) : Slot := fun _ s =>
  let x := s.cur
  let c := getX s x
  withGlobal (globalOperand s x h.toNat (readS c a).toNat 8 8 true true) (fun hd pa _ =>
    .go (addAccess x (.atomic 12 true (readS c b) 0 false) pa 8 0 2 sc false hd.nc []))

/-! ## Transaction barriers (R273-R276, R378) -/

def tbPhase (w : BitVec 128) : Nat := bitsN w 124 4
def tbOvr (w : BitVec 128) : Bool := bit w 123
def tbArm (w : BitVec 128) : Bool := bit w 122

/-- The word that `tbinit` writes (R274). -/
def tbInit (ea es : Nat) : BitVec 128 :=
  BitVec.ofNat 128 ((if ea ≠ 0 ∨ es ≠ 0 then 2 ^ 122 else 0) + ea * 2 ^ 100 + ea * 2 ^ 80 + es * 2 ^ 40 + es)

/-- update(w, a, n) of R274. -/
def tbUpdate (w : BitVec 128) (a n : Nat) : BitVec 128 :=
  let parr := bitsN w 100 20
  let psec := bitsN w 40 40
  if tbOvr w || !tbArm w then w
  else if parr < a ∨ psec < n then setBits w 123 1 1
  else if parr = a ∧ psec = n then
    setBits (setBits (setBits w 124 4 (tbPhase w + 1)) 100 20 (bitsN w 80 20)) 40 40 (bitsN w 0 40)
  else setBits (setBits w 100 20 (parr - a)) 40 40 (psec - n)

/-- The barrier word at a core address of a context. -/
def tbWord (s : State) (x e : Nat) : BitVec 128 := BitVec.ofNat 128 (leNat (loadTs s x e 16))

/-- The barrier word written back. -/
def tbPut (s : State) (x e : Nat) (w : BitVec 128) : State := storeTs s x e (leBytes 16 w.toNat) false

/-- An update of the barrier at a core address of a context (R274). -/
def tbApply (x e a n : Nat) (s : State) : State := tbPut s x e (tbUpdate (tbWord s x e) a n)

/-- The checks of a barrier address: 16-byte aligned, inside the region (R273, R378). -/
def tbCheck (s : State) (x e : Nat) : List Cause :=
  let c := getX s x
  let inside := decide (65536 * c.tsBase.toNat ≤ e) && decide (e + 16 ≤ 65536 * (c.tsBase.toNat + c.tsSize.toNat))
    && tsOpen c (getC s (coreOf x)) e 16
  (if e % 16 = 0 then [] else [causeAt cALIGN (tiVa e)]) ++ (if inside then [] else [causeAt cBOUND (tiVa e)])

def slotTbinit (c a b : BitVec 5) : Slot := fun _ s =>
  let k := getX s s.cur
  let e := (readS k a).toNat
  let ea := (readS k b).toNat
  let es := (readS k c).toNat
  check (tbCheck s s.cur e ++ (if 2 ^ 20 ≤ ea ∨ 2 ^ 40 ≤ es then [causeAt cBOUND (tiVa e)] else []))
    (.go (fun t => tbPut t t.cur e (tbInit ea es)))

def slotTbarr (a b : BitVec 5) : Slot := fun _ s =>
  let k := getX s s.cur
  let e := (readS k a).toNat
  check (tbCheck s s.cur e) (.go (tbApply s.cur e (readS k b).toNat 0))

def slotTbwait (sc : BitVec 3) (a b : BitVec 5) : Slot := fun _ s =>
  let k := getX s s.cur
  let e := (readS k a).toNat
  let p := (readS k b).toNat
  match tbCheck s s.cur e ++ (if 16 ≤ p then [causeAt cBOUND (tiVa e)] else []) with
  | [] =>
    let w := tbWord s s.cur e
    if tbOvr w then .trap [causeAt cBOVR (tiTs e)]
    else if tbPhase w = p then .hold 1 id
    else .go (acquireAfter s.cur sc)
  | l => .trap l

end Sys2Proof.Machine
end

