-- ==== Sys2Proof/Machine/Engines.lean ====
section
/-!
DEFINITION. The C slot (R420-R445): copy commands (R423-R426), posts of RMA descriptors (R434), key-value commits (R435,
R436), streams (R437-R440), circuits (R441-R443) and launches (R444), each checked and queued at issue.
-/

namespace Sys2Proof.Machine

open Sys2Proof

/-! ## Engine queues (R199, R420) -/

/-- The engine queue of an order (1 copy, 2 circuit, 3 stream, 4 launch), and its depth (R199). -/
def queueOf (c : Ctx) (q : Nat) : List Cmd := if q = 1 then c.q1 else if q = 2 then c.q2 else if q = 3 then c.q3 else c.q4
def setQueue (c : Ctx) (q : Nat) (l : List Cmd) : Ctx :=
  if q = 1 then { c with q1 := l } else if q = 2 then { c with q2 := l } else if q = 3 then { c with q3 := l } else { c with q4 := l }
def queueDepth (q : Nat) : Nat := if q = 1 then 16 else if q = 4 then 4 else 8

/-- A bundle whose queue has no free slot is held before issue (R199, R492). -/
def queueHold (c : Ctx) (q : Nat) (k : SlotOut) : SlotOut := if queueDepth q ≤ (queueOf c q).length then .hold 4 id else k

/-- A command with only its form, place and operands. -/
def mkCmd (s : State) (c : Ctx) (e : Env) (op : Nat) : Cmd :=
  { id := s.nextId, op := op, port := e.pos - 6, cyc := s.cyc, opc := c.pc, oct := c.time, blk := 0, a := 0, b := 0, c := 0, src := 0,
    dst := 0, fmt := 0, tl := none, inc := 0, stage := 0, ord := c.ord, data := [], poison := false }

/-- The timeline that a form names, and its increment: 1, or the value of the continuation (R421). -/
def tlName (l : BitVec 3) (n : BitVec 1) : Option Nat := if n = 1 then some l.toNat else none
def tlAmount (x : Option (BitVec 16)) : Nat := match x with | some v => v.toNat | none => 1

/-- A command joins queue q, and the increments it names join those to come: `times` of them (R199, R270, R427). -/
def enqueue (q times : Nat) (k : Cmd) (s : State) : State :=
  let incs := match k.tl with
    | some t => tab times (fun i => (⟨t, k.inc, k.id, q, i, false⟩ : Inc))
    | none => []
  modX { s with nextId := s.nextId + 1 } s.cur (fun c => { setQueue c q (queueOf c q ++ [k]) with incs := c.incs ++ incs })

/-- The checks of a block of n bytes at sA, aligned to n (R426, R434, R441). -/
def blockCheck (s : State) (x a n : Nat) : List Cause :=
  (if a % n = 0 then [] else [causeAt cALIGN (tiVa a)])
  ++ (if tsOpen (getX s x) (getC s (coreOf x)) a n then [] else [causeAt cBOUND (tiVa a)])

/-- A block of n bytes of the tile store, read at issue (R422). -/
def blockAt (s : State) (x a n : Nat) : BitVec 512 := BitVec.ofNat 512 (leNat (loadTs s x a n))

/-! ## Copy commands (R423, R424) -/

def cpOp (b : BitVec 512) : Nat := bitsN b 0 4
def cpEsz (b : BitVec 512) : Nat := 2 ^ bitsN b 4 2
def cpWen (b : BitVec 512) : Bool := bit b 6
def cpStage (b : BitVec 512) : Bool := bit b 7
def cpWtl (b : BitVec 512) : Nat := bitsN b 8 3
def cpBaren (b : BitVec 512) : Bool := bit b 11
def cpMask (b : BitVec 512) : Nat := bitsN b 12 4
def cpSh (b : BitVec 512) : Nat := bitsN b 16 4
def cpDh (b : BitVec 512) : Nat := bitsN b 20 4
def cpArrv (b : BitVec 512) : Nat := bitsN b 24 6
def cpSsu (b : BitVec 512) : Nat := bitsN b 30 2
def cpDsu (b : BitVec 512) : Nat := bitsN b 32 2
def cpTgt (b : BitVec 512) : Nat := bitsN b 34 12
def cpBar (b : BitVec 512) : Nat := 16 * bitsN b 46 18
def cpWval (b : BitVec 512) : DWord := bits b 64 64
def cpSrc (b : BitVec 512) : Nat := bitsN b 128 52
def cpLbl (b : BitVec 512) : Nat := bitsN b 180 12
def cpDst (b : BitVec 512) : Nat := bitsN b 192 52
def cpDw (b : BitVec 512) : Nat := bitsN b 244 4
def cpDwen (b : BitVec 512) : Bool := bit b 248
/-- Count, source stride and destination stride of level j (0 to 5). -/
def cpN (b : BitVec 512) (j : Nat) : Nat := if j = 0 then bitsN b 256 16 else bitsN b (272 + 48 * (j - 1)) 16
def cpSs (b : BitVec 512) (j : Nat) : Int := toSigned 16 (bitsN b (288 + 48 * (j - 1)) 16)
def cpDs (b : BitVec 512) (j : Nat) : Int := toSigned 16 (bitsN b (304 + 48 * (j - 1)) 16)

/-- A stride unit in bytes (R423). -/
def strideUnit (u esz : Nat) : Nat := if u = 0 then esz else if u = 1 then 64 else if u = 2 then 2048 else 65536

/-- The destination is an accumulator: entries, not bytes (R424). -/
def cpToAcc (b : BitVec 512) : Bool := cpOp b == 4 || cpOp b == 5

/-- Destination step of one element: its bytes, or one entry. -/
def cpDstep (b : BitVec 512) : Nat := if cpToAcc b then 1 else cpEsz b

/-- Strides in bytes, or entries, of level j. -/
def cpSrcStride (b : BitVec 512) (j : Nat) : Int := cpSs b j * strideUnit (cpSsu b) (cpEsz b)
def cpDstStride (b : BitVec 512) (j : Nat) : Int := cpDs b j * (if cpToAcc b then 1 else strideUnit (cpDsu b) (cpEsz b))

/-- The elements that the command visits. -/
def cpTotal (b : BitVec 512) : Nat := (tab 6 (cpN b)).foldl (· * ·) 1

/-- The index of level j at visit v: level 0 innermost (R424). -/
def cpIndex (b : BitVec 512) (v j : Nat) : Nat :=
  let w := (tab j (cpN b)).foldl (· * ·) 1
  if j = 5 then v / w else v / w % cpN b j

/-- The sum of strides at visit v, over levels 1 to 5. -/
def cpOffset (stride : Nat → Int) (b : BitVec 512) (v : Nat) : Int :=
  (tab 5 (fun i => stride (i + 1) * (cpIndex b v (i + 1) : Int))).foldl (· + ·) 0

/-- s and d of R424 at visit v. -/
def cpSrcAt (b : BitVec 512) (v : Nat) : Int :=
  (cpSrc b : Int) + (cpEsz b * cpIndex b v 0 : Nat) + cpOffset (cpSrcStride b) b v
def cpDstAt (b : BitVec 512) (v : Nat) : Int :=
  (cpDst b : Int) + (cpDstep b * cpIndex b v 0 : Nat) + cpOffset (cpDstStride b) b v

/-- The least and the greatest sum of strides over the visits. -/
def cpLeast (stride : Nat → Int) (b : BitVec 512) : Int :=
  (tab 5 (fun i => min 0 (stride (i + 1) * ((cpN b (i + 1) : Int) - 1)))).foldl (· + ·) 0
def cpMost (stride : Nat → Int) (b : BitVec 512) : Int :=
  (tab 5 (fun i => max 0 (stride (i + 1) * ((cpN b (i + 1) : Int) - 1)))).foldl (· + ·) 0

/-- The lowest byte, and the number of bytes from it to the highest, of the source and of the destination. -/
def cpSrcRange (b : BitVec 512) : Int × Nat :=
  let lo := cpLeast (cpSrcStride b) b
  ((cpSrc b : Int) + lo, (cpMost (cpSrcStride b) b - lo).toNat + cpN b 0 * cpEsz b)
def cpDstRange (b : BitVec 512) : Int × Nat :=
  let lo := cpLeast (cpDstStride b) b
  ((cpDst b : Int) + lo, (cpMost (cpDstStride b) b - lo).toNat + cpN b 0 * cpDstep b)

/-! ## The issue checks of copy commands (R426) -/

/-- The first byte of a range of tile-store addresses that is not open to the context. -/
def firstClosed (c : Ctx) (k : Core) (lo : Int) (n : Nat) : Option Int :=
  if n = 0 then none
  else if lo < 0 then some lo
  else
    let a := lo.toNat
    let last := min ((a + n - 1) / 65536) 64
    match (tab (last + 1 - a / 65536) (fun i => a / 65536 + i)).find? (fun b => 64 ≤ b || !blockOpen c k b) with
    | some b => some (max a (b * 65536) : Nat)
    | none => if 64 ≤ a / 65536 then some lo else none

/-- An address of any sign in TI.ADDR. -/
def tiInt (a : Int) : DWord := tiVa (a % 2 ^ 56).toNat

/-- BOUND of a range of the tile store. -/
def tsRange (s : State) (x : Nat) (r : Int × Nat) : List Cause :=
  match firstClosed (getX s x) (getC s (coreOf x)) r.1 r.2 with
  | some a => [causeAt cBOUND (tiInt a)]
  | none => []

/-- BOUND of a range of offsets in a window: beyond its size, or bytes that R133 closes. -/
def windowRange (s : State) (x w : Nat) (r : Int × Nat) : List Cause :=
  let tw := readTw (getX s x) w
  if r.2 = 0 then []
  else if r.1 < 0 ∨ (twSize tw : Int) ≤ r.1 then [causeAt cBOUND (tiInt (twBase tw + r.1))]
  else match tsRange s x (twBase tw + r.1, r.2) with
    | [] => if (twSize tw : Int) < r.1 + r.2 then [causeAt cBOUND (tiInt (twBase tw + twSize tw))] else []
    | l => l

/-- A global side: the handle that serves it; causes; or a wait. -/
inductive SideOut where
  | none
  | ok (h : Handle)
  | bad (l : List Cause)
  | wait (cause : Nat) (eff : State → State)

/-- The checks of a global range through a handle (R360, R426). -/
def globRange (s : State) (x hn : Nat) (r : Int × Nat) (wr : Bool) : SideOut :=
  if r.2 = 0 then .none
  else
    let va (h : Handle) (o : Int) : DWord := tiVa (handleVa h (o % 2 ^ 56).toNat)
    match resolveHandle s x hn (handleVa (readH (getX s x) hn) (r.1 % 2 ^ 56).toNat) with
    | .bad l => .bad l
    | .wait q f => .wait q f
    | .ok h =>
      let page : Int := pageBytes h.size
      let out := decide (r.1 < 0 ∨ page < r.1 + r.2)
      let first := if 0 ≤ r.1 ∧ r.1 < page then page else r.1
      let lo := paOf (h.pa.toNat + r.1.toNat)
      let hi := paOf (h.pa.toNat + r.1.toNat + r.2 - 1)
      let gone := if !out && isLocal s h.pa.toNat then
          (if !populated s lo then [(⟨cPFLT, 5, hn, tiPhys lo⟩ : Cause)]
           else if !populated s hi then [⟨cPFLT, 5, hn, tiPhys hi⟩] else []) else []
      match (if out then [(⟨cBOUND, 0, hn, va h first⟩ : Cause)] else []) ++ gone
        ++ (if (wr && !h.wr) || (!wr && !h.rd) then [⟨cPPROT, 1, hn, va h r.1⟩] else []) with
      | [] => .ok h
      | l => .bad l

def sideCauses : SideOut → List Cause
  | .bad l => l
  | _ => []
def sideHandle : SideOut → Handle
  | .ok h => h
  | _ => Handle.init
def sideWait : SideOut → Option (Nat × (State → State))
  | .wait q f => some (q, f)
  | _ => none

/-- A field or combination that R426's first rows forbid. -/
def cpMalformed (b : BitVec 512) (ops : List Nat) (ti : Bool) : Bool :=
  let op := cpOp b
  let tgt := cpTgt b
  !ops.contains op || bitsN b 249 7 != 0 || (cpStage b && !cpWen b) || ((cpMask b != 0) != cpToAcc b)
  || (cpDwen b && op != 2)
  || (if op = 6 then false else if 7 ≤ op then 2048 ≤ tgt else tgt != 0)
  || ((op == 4 || op == 5 || op == 8) && cpEsz b != 4) || (op == 9 && cpEsz b != 2) || (cpStage b && !ti)

def cpGlobalSrc (op : Nat) : Bool := op == 2 || op == 3 || op == 5 || op == 6
def cpGlobalDst (op : Nat) : Bool := op == 1 || op == 3

/-- The checks of the targets of `cpymc`: the range of tasks, and offsets within the region that every task shares (R431). -/
def mcCheck (s : State) (x : Nat) (b : BitVec 512) (any : Bool) : List Cause :=
  let c := getX s x
  let tasks := match gangOf s x with | some g => g.tasks | none => 1
  let last := bitsN b 34 6 + bitsN b 40 6
  let size : Int := 65536 * c.tsSize.toNat
  let r := cpDstRange b
  (if tasks ≤ last then [causeAt cBOUND (tiVa last)] else [])
  ++ (if any && r.2 != 0 && (decide (r.1 < 0) || decide (size < r.1 + r.2)) then
        [causeAt cBOUND (tiInt (if 0 ≤ r.1 ∧ r.1 < size then size else r.1))] else [])
  ++ (if cpBaren b && decide (size < (cpBar b : Int) + 16) then [causeAt cBOUND (tiVa (cpBar b))] else [])

/-- The causes of a well-formed copy command that need no handle. -/
def cpCauses (s : State) (x : Nat) (b : BitVec 512) (tile : Nat) : List Cause :=
  let c := getX s x
  let op := cpOp b
  let any := cpTotal b != 0
  let none' : Int × Nat := (0, 0)
  let src := if any && !cpGlobalSrc op then cpSrcRange b else none'
  let dst := if any then cpDstRange b else none'
  tsRange s x src
  ++ (if op = 0 ∨ (op = 2 ∧ ¬ cpDwen b) then tsRange s x dst else [])
  ++ (if op = 2 ∧ cpDwen b then windowRange s x (cpDw b) dst else [])
  ++ (if cpToAcc b then
        (if (tileOfAcm c.acm tile).isSome then [] else [⟨cBOUND, 0, tile, 0⟩])
        ++ (if dst.2 ≠ 0 ∧ (dst.1 < 0 ∨ 16384 < dst.1 + dst.2) then
              [⟨cBOUND, 0, tile, tiInt (if 0 ≤ dst.1 ∧ dst.1 < 16384 then 16384 else dst.1)⟩] else [])
      else [])
  ++ (if op = 6 then mcCheck s x b any else [])
  ++ (if cpBaren b ∧ op < 6 then tsRange s x (cpBar b, 16) else [])
  ++ (if cpWen b && !tlReached (promised c (cpWtl b) 1) (cpWval b + (if cpStage b then BitVec.ofNat 64 (cpN b 5 - 1) else 0)) then
        [⟨cQDEAD, 0, 1, 0⟩] else [])

/-- The copy family (R423-R426). -/
def slotCopy (opcode : Nat) (ops : List Nat) (tile : Nat) (a : BitVec 5) (l : BitVec 3) (n : BitVec 1) (x : Option (BitVec 16)) : Slot :=
  fun e s =>
    let cx := s.cur
    let c := getX s cx
    let sa := (readS c a).toNat
    match blockCheck s cx sa 64 with
    | [] =>
      let b := blockAt s cx sa 64
      if cpMalformed b ops (n == 1) then .trap [causeAt cBOUND (tiVa sa)]
      else
        let any := cpTotal b != 0
        let gs := if cpGlobalSrc (cpOp b) && any then globRange s cx (cpSh b) (cpSrcRange b) false else .none
        let gd := if cpGlobalDst (cpOp b) && any then globRange s cx (cpDh b) (cpDstRange b) true else .none
        check (cpCauses s cx b tile ++ sideCauses gs ++ sideCauses gd)
          (match sideWait gs, sideWait gd with
          | some (q, f), _ => .hold q f
          | none, some (q, f) => .hold q f
          | none, none => queueHold c 1 (.go (fun t => enqueue 1 (if cpStage b then cpN b 5 else 1)
              { mkCmd t c e opcode with blk := b, a := tile, b := if cpDwen b then twBase (readTw c (cpDw b)) else 0,
                                        src := (sideHandle gs).pa, dst := (sideHandle gd).pa, fmt := (sideHandle gs).fmt, tl := tlName l n, inc := tlAmount x,
                                        stage := if cpStage b then cpN b 5 else 0 } t)))
    | q => .trap q

def slotCpy (a : BitVec 5) (l : BitVec 3) (n : BitVec 1) (x : Option (BitVec 16)) : Slot := slotCopy 0 [0, 1, 2, 3] 0 a l n x
def slotCpyaw (d : BitVec 3) (a : BitVec 5) (l : BitVec 3) (n : BitVec 1) (x : Option (BitVec 16)) : Slot :=
  slotCopy 1 [4, 5] d.toNat a l n x
def slotCpymc (a : BitVec 5) (l : BitVec 3) (n : BitVec 1) (x : Option (BitVec 16)) : Slot := slotCopy 2 [6] 0 a l n x
def slotCpyrm (a : BitVec 5) (l : BitVec 3) (n : BitVec 1) (x : Option (BitVec 16)) : Slot := slotCopy 3 [7, 8, 9] 0 a l n x

/-! ## Posts, commits, launches -/

/-- `rmapost` (R434): a is the descriptor's queue. -/
def slotRmapost (a b : BitVec 5) (l : BitVec 3) (n : BitVec 1) (x : Option (BitVec 16)) : Slot := fun e s =>
  let c := getX s s.cur
  let sa := (readS c a).toNat
  let sb := (readS c b).toNat
  check (blockCheck s s.cur sa 64 ++ (if 64 ≤ sb then [causeAt cBOUND (tiVa sb)] else []))
    (queueHold c 1 (.go (fun t => enqueue 1 1
      { mkCmd t c e 4 with blk := blockAt s s.cur sa 64, a := sb, tl := tlName l n, inc := tlAmount x } t)))

def kvBase (b : BitVec 512) : Nat := bitsN b 0 22
def kvRow (b : BitVec 512) : Nat := 64 * bitsN b 32 10
def kvCap (b : BitVec 512) : Nat := bitsN b 48 16
def kvLen (b : BitVec 512) : Nat := bitsN b 64 16
def kvNd (b : BitVec 512) : Nat := bitsN b 80 7
def kvAbs (b : BitVec 512) : Nat := bitsN b 87 2

/-- The bits set among the low n of a number. -/
def popNat : Nat → Nat → Nat
  | 0, _ => 0
  | n + 1, v => v % 2 + popNat n (v / 2)

/-- The checks of a KV descriptor at sA and a mask (R435). -/
def kvCheck (s : State) (x sa : Nat) (b : BitVec 512) (m : Nat) : List Cause :=
  let bad := kvBase b % 64 != 0 || bitsN b 22 10 != 0 || bitsN b 42 6 != 0 || bitsN b 89 423 != 0 || kvRow b == 0 || kvCap b == 0
    || kvAbs b == 3 || decide (64 < kvNd b) || decide (kvCap b < kvLen b + kvNd b)
    || !tsOpen (getX s x) (getC s (coreOf x)) (kvBase b) (kvRow b * kvCap b)
  (if bad then [causeAt cBOUND (tiVa sa)] else [])
  ++ (if 2 ^ kvNd b ≤ m then [causeAt cBOUND (tiVa m)] else [])

/-- `kvcommit` (R435, R436): sD and the descriptor at issue, the rows by the engine. -/
def slotKvcommit (d a b : BitVec 5) (l : BitVec 3) (n : BitVec 1) (x : Option (BitVec 16)) : Slot := fun e s =>
  let cx := s.cur
  let c := getX s cx
  let sa := (readS c a).toNat
  let m := (readS c b).toNat
  match blockCheck s cx sa 64 with
  | [] =>
    let blk := blockAt s cx sa 64
    let k := popNat 64 m
    check (kvCheck s cx sa blk m)
      (queueHold c 1 (.go (fun t =>
        let t1 := enqueue 1 1 { mkCmd t c e 0x18 with blk := blk, a := m, tl := tlName l n, inc := tlAmount x } t
        let word := (kvLen blk + k) % 65536 + kvAbs blk * 2 ^ 23
        retS d 2 (BitVec.ofNat 64 k) (storeTs t1 cx (sa + 8) (leBytes 4 word) false))))
  | q => .trap q

/-- `launch` (R444): the record's address is translated at issue. -/
def slotLaunch (a b : BitVec 5) : Slot := fun e s =>
  let x := s.cur
  let c := getX s x
  let sa := readS c a
  let sb := (readS c b).toNat
  let first := (if bitsN sa 0 6 = 0 then [] else [causeAt cALIGN (tiVa sa.toNat)])
    ++ (if 32 ≤ sb then [causeAt cBOUND (tiVa sb)] else []) ++ (if bitsN sa 52 12 = 0 then [] else [causeAt cBOUND (tiVa sa.toNat)])
  match first with
  | [] =>
    (match translate s x sa.toNat with
    | .wait q f => .hold q f
    | .fault r => .trap [⟨cPFLT, r, 0, tiVa sa.toNat⟩]
    | .ok m =>
      check (if !m.rd || (!c.sup && !m.u) then [⟨cPPROT, 1, 0, tiVa sa.toNat⟩] else [])
        (queueHold c 4 (.go (fun t => enqueue 4 1
          { mkCmd t c e 0x19 with port := 2, a := sb, src := m.pa + BitVec.ofNat 56 (sa.toNat - m.vpn.toNat * 65536) }
          (touchTlb t x sa.toNat)))))
  | l => .trap l

/-! ## Streams (R205-R212, R437-R440) -/

def sdRbase (d : BitVec 512) : Nat := 64 * bitsN d 32 16
def sdRec (d : BitVec 512) : Nat := 64 * (bitsN d 48 6 + 1)
def sdNrec (d : BitVec 512) : Nat := bitsN d 64 13
def sdSp (d : BitVec 512) : Nat := bitsN d 80 13
def sdDly (d : BitVec 512) : Nat := bitsN d 112 2

/-- The address of record n in the ring (R206, R207). -/
def recordAddr (d : BitVec 512) (n : Nat) : Nat := sdRbase d + sdRec d * (n % max 1 (sdNrec d))

/-- The status word of a port (R211). -/
def portWord (c : Ctx) (p : Port) : DWord :=
  (BitVec.ofNat 8 (min p.late 255) ++ BitVec.ofInt 16 p.iacc ++ c.wCur ++ 0#3 ++ BitVec.ofNat 13 p.occ ++ p.cause
    ++ BitVec.ofBool p.role ++ p.st).setWidth 64

/-- The port may be opened as a consumer: FREE, CLOSED, BROKEN or REFUSED (R211). -/
def portIdle (p : Port) : Bool := p.st == 0 || p.st == 4 || p.st == 5 || p.st == 6

/-- A port of the consumer that a refused open leaves (R211). -/
def refusedPort (cause : Nat) : Port := { Port.init with st := 6, role := true, cause := BitVec.ofNat 4 cause }

/-- The producer's context and port that a descriptor names (R206). -/
def sdProducer (d : BitVec 512) : Nat × Nat :=
  (4 * (bitsN d 0 3 * 64 + bitsN d 3 2 * 16 + bitsN d 5 4) + bitsN d 9 2, bitsN d 11 3)

/-- The lowest SID that the coupling table does not hold (R214, R220). -/
def freeSid (p : Part) : Option Nat := (List.range 1024).find? (fun i => (mfind p.streams i).isNone)

/-- A successful open: both ports OPEN with counts at 0, and the edge in the coupling table (R211, R220). -/
def openStream (x q : Nat) (d : BitVec 512) (s : State) : State :=
  let p := (getX s x).part.toNat
  match freeSid (getPart s p) with
  | none => s
  | some sid =>
    let pr := sdProducer d
    let s1 := modPart s p (fun t => { t with streams := mset t.streams sid (pr.1, pr.2, x, q, d) })
    let s2 := modX s1 x (fun c => setQ c q { Port.init with st := 1, role := true, desc := d, sid := sid, part := p, peerX := pr.1, peerQ := pr.2 })
    modX s2 pr.1 (fun c => setQ c pr.2 { Port.init with st := 1, desc := d, sid := sid, part := p, peerX := x, peerQ := q })

/-- `sopen` (R211, R437): held until the walker's answer, 0 for a successful open, 16 + cause for a refusal, 32 + rule for
COUPLE. -/
def slotSopen (d : BitVec 3) (a : BitVec 5) : Slot := fun _ s =>
  let x := s.cur
  let c := getX s x
  let sa := (readS c a).toNat
  match blockCheck s x sa 64 with
  | [] =>
    let b := blockAt s x sa 64
    check ((if tsOpen c (getC s (coreOf x)) (sdRbase b) (sdRec b * sdNrec b) then [] else [causeAt cBOUND (tiVa (sdRbase b))])
        ++ (if portIdle (readQ c d.toNat) then [] else [⟨cQDEAD, 0, 3, 0⟩]))
      (match c.opened with
      | none => .hold 1 (fun t => modPart t c.part.toNat (fun p =>
          if p.opens.any (fun o => o.1 == x) then p else { p with opens := p.opens ++ [(x, d.toNat, b)] }))
      | some r =>
        if r = 0 then .go (openStream x d.toNat b)
        else if r < 32 then .go (fun t => modX t x (fun k => setQ k d.toNat (refusedPort (r - 16))))
        else .trap [⟨cCOUPLE, r - 32, d.toNat, 0⟩])
  | l => .trap l

/-- `spush` (R208, R438). -/
def slotSpush (d : BitVec 5) (a : BitVec 3) (b : BitVec 5) : Slot := fun e s =>
  let x := s.cur
  let c := getX s x
  let p := readQ c a.toNat
  let sb := (readS c b).toNat
  let n := sdRec p.desc
  check ((if sb % 64 = 0 then [] else [causeAt cALIGN (tiVa sb)])
      ++ (if tsOpen c (getC s (coreOf x)) sb n then [] else [causeAt cBOUND (tiVa sb)])
      ++ (if p.st == 0 || p.st == 6 || p.role then [⟨cQDEAD, 0, 3, 0⟩] else []))
    (if p.st = 1 then
      if p.sent - p.rdp < sdNrec p.desc then
        queueHold c 3 (.go (fun t =>
          let t1 := enqueue 3 0 { mkCmd t c e 9 with a := a.toNat, b := p.sent, data := loadTs s x sb n, poison := poisonTs s x sb n } t
          retS d 2 1 (modX t1 x (fun k => setQ k a.toNat { readQ k a.toNat with sent := p.sent + 1 }))))
      else .hold 8 id
    else if p.st = 2 then .hold 8 id
    else .go (retS d 2 0))

/-- The record that the port's preceding pop acquired is released (R209). -/
def releaseHeld (p : Port) : Port := if p.held then { p with rd := p.rd + 1, unrep := p.unrep + 1, held := false } else p

/-- `spop` (R209, R212, R439). -/
def slotSpop (d : BitVec 5) (a : BitVec 3) : Slot := fun _ s =>
  let x := s.cur
  let p := readQ (getX s x) a.toNat
  let put (q : Port) (v : DWord) (t : State) : State := retS d 2 v (modX t x (fun k => setQ k a.toNat q))
  if p.st == 0 || p.st == 6 || !p.role then .trap [⟨cQDEAD, 0, 3, 0⟩]
  else if p.st = 2 then .hold 8 id
  else if p.acq < p.wr then
    .go (put { releaseHeld p with held := true, acq := p.acq + 1 } (BitVec.ofNat 64 (recordAddr p.desc p.acq)))
  else if p.st = 4 then .go (put (releaseHeld p) 0xFFFFFFFFFFFFFFFF#64)
  else if p.st = 5 then .go (put (releaseHeld p) 0xFFFFFFFFFFFFFFFE#64)
  else if p.st = 3 && (match p.due with | some n => decide (n ≤ p.wr) | none => false) then
    .go (put (releaseHeld p) 0xFFFFFFFFFFFFFFFF#64)
  else .hold 8 id

/-- `sclose` (R212, R440). -/
def slotSclose (a : BitVec 3) : Slot := fun e s =>
  let c := getX s s.cur
  let p := readQ c a.toNat
  if p.st == 0 || p.st == 6 then .trap [⟨cQDEAD, 0, 3, 0⟩]
  else if p.st == 4 || p.st == 5 then .go id
  else queueHold c 3 (.go (fun t => enqueue 3 0 { mkCmd t c e 0xB with a := a.toNat } t))

/-- `sstat` (R440). -/
def slotSstat (d : BitVec 5) (a : BitVec 3) : Slot := slotS d 2 (fun c => portWord c (readQ c a.toNat))

/-! ## Circuits (R89, R91, R441-R443) -/

/-- The status word of a handle in a cycle (R91). -/
def ckWord (cyc : Nat) (h : CkHandle) : DWord :=
  let lease := if h.st = 2 then h.leaseEnd - cyc else 0
  (h.resume ++ BitVec.ofNat 24 lease ++ 0#4 ++ h.cause ++ 0#5 ++ h.st).setWidth 64

/-- The circuit that a handle of a context stands for. -/
def circuitOf (s : State) (x k : Nat) : Option Circuit :=
  s.circuits.find? (fun q => q.x == x && q.k == k && q.cid == (readK (getX s x) k).cid)

def modCircuit (s : State) (cid : Nat) (f : Circuit → Circuit) : State :=
  { s with circuits := updFirst (fun q => q.cid = cid) f s.circuits }

/-- `ckopen` (R441): the block is 16 bytes. -/
def slotCkopen (d : BitVec 3) (a : BitVec 5) : Slot := fun e s =>
  let x := s.cur
  let c := getX s x
  let sa := (readS c a).toNat
  match blockCheck s x sa 16 with
  | [] =>
    let b := blockAt s x sa 16
    let h := readK c d.toNat
    check ((if bitsN b 40 24 ≠ 0 ∨ bitsN b 122 6 ≠ 0 ∨ bitsN b 16 24 < 64 ∨ bitsN b 64 3 ≠ 0 then [causeAt cBOUND (tiVa sa)] else [])
        ++ (if h.st == 1 || h.st == 2 || h.st == 3 then [⟨cCKFAIL, 0, d.toNat, 0⟩] else []))
      (queueHold c 2 (.go (fun t =>
        let cid := t.nextId
        modX (enqueue 2 0 { mkCmd t c e 0x10 with blk := b, a := d.toNat } t) x
          (fun k => setK k d.toNat { CkHandle.init with st := 1, cid := cid }))))
  | l => .trap l

/-- `ckhold` (R89, R443): the remaining lease of an OPEN handle. -/
def slotCkhold (a : BitVec 3) (b : BitVec 5) : Slot := fun _ s =>
  let x := s.cur
  let c := getX s x
  let v := (readS c b).toNat
  check (if 64 ≤ v ∧ v ≤ 16777215 then [] else [causeAt cBOUND (tiVa v)])
    (.go (fun t =>
      let h := readK (getX t x) a.toNat
      if h.st = 2 then
        addTimer (modX t x (fun k => setK k a.toNat { h with leaseEnd := t.cyc + v })) v .leaseExpiry (EvArg.of h.cid)
      else t))

/-- `cksend` (R442). -/
def slotCksend (c : BitVec 5) (a : BitVec 3) (b : BitVec 5) (l : BitVec 3) (n : BitVec 1) (x : Option (BitVec 16)) : Slot := fun e s =>
  let cx := s.cur
  let k := getX s cx
  let sb := (readS k b).toNat
  let sc := (readS k c).toNat
  let h := readK k a.toNat
  check ((if sb % 32 = 0 then [] else [causeAt cALIGN (tiVa sb)])
      ++ (if sc % 8 = 0 ∧ sc ≤ 1048576 ∧ tsOpen k (getC s (coreOf cx)) sb (4 * sc) then [] else [causeAt cBOUND (tiVa sb)])
      ++ (if h.st = 2 then [] else [⟨cCKFAIL, 0, a.toNat, 0⟩]))
    (queueHold k 2 (.go (fun t => enqueue 2 1
      { mkCmd t k e 0x12 with a := a.toNat, b := sb, c := sc, tl := tlName l n, inc := tlAmount x } t)))

/-- `ckclose` (R443). -/
def slotCkclose (a : BitVec 3) : Slot := fun e s =>
  let c := getX s s.cur
  queueHold c 2 (.go (fun t => enqueue 2 0 { mkCmd t c e 0x13 with a := a.toNat } t))

/-- `ckstat` (R91, R443). -/
def slotCkstat (d : BitVec 5) (a : BitVec 3) : Slot := fun _ s =>
  .go (retS d 2 (ckWord s.cyc (readK (getX s s.cur) a.toNat)))

end Sys2Proof.Machine
end

