-- ==== Sys2Proof/Machine/Engine.lean ====
section
/-!
DEFINITION. The copy ports (R427-R432, R436): which command a port starts, the pieces in which it moves its elements, one piece
at a time (log entry 17, DEDUCED), what the pieces' responses do, and what ends a command.
-/

namespace Sys2Proof.Machine

open Sys2Proof

/-! ## Which command starts (R427) -/

/-- The visits of the stages begun. -/
def runLimit (r : Run) : Nat :=
  let n := cpTotal r.cmd.blk
  if r.cmd.stage = 0 then n else min n (r.step * (n / max 1 (cpN r.cmd.blk 5)))

/-- The units of 64 bytes of a commit: from where, none for the fill, and to where (R436). -/
def kvMoves (blk : BitVec 512) (m : Nat) : List (Option Nat × Nat) :=
  let row (r : Nat) : Nat := kvBase blk + kvRow blk * r
  let len := kvLen blk
  let units := kvRow blk / 64
  let acc := (List.range (kvNd blk)).filter (fun j => m / 2 ^ j % 2 == 1)
  let moves := (tab acc.length (fun k => (acc.getD k 0, k))).filter (fun p => p.1 != p.2)
  (moves.flatMap (fun p => tab units (fun u => (some (row (len + p.1) + 64 * u), row (len + p.2) + 64 * u))))
  ++ ((tab (kvNd blk - acc.length) (fun i => len + acc.length + i)).flatMap (fun r => tab units (fun u => (none, row r + 64 * u))))

/-- The elements, units or steps of a run that may be done now; a node's run is busy until it has finished (R433). -/
def runGoal (r : Run) : Nat :=
  if r.node.isSome then (if r.step = 2 then 0 else r.pos + 1)
  else if r.cmd.op = 0x18 then (kvMoves r.cmd.blk r.cmd.a).length else if r.cmd.op = 4 ∨ r.cmd.op = 0x19 then 1 else runLimit r

/-- The run has work of a stage begun to do: it occupies its port. -/
def runBusy (r : Run) : Bool := !r.stopped && (decide (r.pos < runGoal r) || !r.out.isEmpty || !r.buf.isEmpty)

/-- The port of a run: 0 or 1 for the copy ports, 2 for the launch engine. -/
def portRuns (c : Core) (port : Nat) : List Run := c.runs.filter (fun r => r.cmd.port == port)

/-- A staged command of the context has stages that have not begun. -/
def stagesLeft (c : Core) (x port : Nat) : Bool :=
  (portRuns c port).any (fun r => r.x == x && r.node.isNone && !r.stopped && decide (r.step < r.cmd.stage))

/-- The next command of a context for a port: the first in its queue that no run stands for. -/
def headFor (s : State) (k port x : Nat) : Option Cmd :=
  let c := getX s x
  if c.task && !c.halted && !stagesLeft (getC s k) x port then
    (c.q1.find? (fun m => m.port == port && !(getC s k).runs.any (fun r => r.cmd.id == m.id))).bind (fun m =>
      let waits := m.op ≤ 3 && cpWen m.blk && !tlReached (readTl c (cpWtl m.blk)) (cpWval m.blk + BitVec.ofNat 64 m.c)
      if decide (m.cyc < s.cyc) && !waits then some m else none)
  else none

/-- The oldest of some commands by issue cycle. -/
def oldest : List (Nat × Cmd) → Option (Nat × Cmd)
  | [] => none
  | p :: l => match oldest l with
    | none => some p
    | some q => if q.2.cyc < p.2.cyc then some q else some p

/-- The command that a free copy port starts next, and its context. -/
def nextCopy (s : State) (k port : Nat) : Option (Nat × Cmd) :=
  if (portRuns (getC s k) port).any runBusy then none
  else oldest ((tab 4 (fun i => 4 * k + i)).filterMap (fun x => (headFor s k port x).map (fun m => (x, m))))

/-! ## Runs -/

def modRun (k id : Nat) (f : Run → Run) (s : State) : State :=
  modC s k (fun c => { c with runs := updFirst (fun r => r.cmd.id = id) f c.runs })

def dropRun (k id : Nat) (s : State) : State := modC s k (fun c => { c with runs := dropFirst (fun r => r.cmd.id = id) c.runs })

/-- A run of a command, at its start; a staged command that was kept at a halt goes on after the `c` stages it has completed
(R427). -/
def mkRun (x : Nat) (node : Option (Nat × Nat)) (m : Cmd) : Run :=
  { cmd := m, x := x, node := node, pos := if m.stage = 0 then 0 else m.c * (cpTotal m.blk / max 1 (cpN m.blk 5)), out := [], buf := [],
    bad := false, done := if m.stage = 0 then 0 else m.c, arrived := false, stopped := false, cause := 0,
    step := if m.stage = 0 then 0 else m.c + 1, aux := 0, lines := [], hurt := [], pages := [] }

/-- A command stops: it writes nothing more, and a deferred cause goes to its context (R421, R428). -/
def stopRun (k id code reason extra : Nat) (addr : DWord) (s : State) : State :=
  match (getC s k).runs.find? (fun r => r.cmd.id == id) with
  | none => s
  | some r =>
    let s1 := modRun k id (fun q => { q with stopped := true, out := [], buf := [], cause := code }) s
    if r.node.isSome then s1
    else modX s1 r.x (fun c => addDeferred c ⟨code, reason, extra, 6 + r.cmd.port, addr, r.cmd.opc, r.cmd.oct⟩)

/-- The target of `cpyrm` exists: its die is not fenced and its cluster has an active core of that number (R432). -/
def rmTarget (b : BitVec 512) : Nat :=
  4 * (bitsN b 34 3 * 64 + bitsN b 37 2 * 16 + bitsN b 39 4) + bitsN b 43 2
def rmExists (s : State) (b : BitVec 512) : Bool :=
  let k := coreOf (rmTarget b)
  dieOk s (dieOf k) && (getC s k).active

/-- A command leaves its queue and starts on its port (R199, R427): a staged one keeps its slot until its last stage starts. -/
def startCopy (k x : Nat) (m : Cmd) (s : State) : State :=
  let op := cpOp m.blk
  let s1 := modX s x (fun c =>
    let c1 := if m.stage = 0 ∨ m.stage ≤ m.c + 1 then { c with q1 := dropFirst (fun q => q.id = m.id) c.q1 } else c
    if m.op = 0 ∧ op = 2 ∧ cpDwen m.blk ∧ m.fmt ≠ 0 then
      { c1 with tw := mset c1.tw (cpDw m.blk) (setBits (readTw c1 (cpDw m.blk)) 33 8 m.fmt.toNat) }
    else c1)
  let s2 := modC s1 k (fun c => { c with runs := c.runs ++ [mkRun x none m], starts := mset c.starts m.port s.cyc })
  if m.op = 3 ∧ ¬ rmExists s m.blk then
    modRun k m.id (fun r => { r with arrived := true }) (stopRun k m.id cPPROT 1 0 (tiVa (cpDst m.blk)) s2)
  else s2

/-- COPY_COMMAND_START (a: core, b: port): R427, R429. -/
def execCopyCommandStart (s : State) : Res :=
  match nextCopy s s.arg.a s.arg.b with
  | some (x, m) => gate (m.op != 4) "COPY_COMMAND_START" (startCopy s.arg.a x m) s
  | none => gate false "COPY_COMMAND_START" id s

/-- A staged run whose next stage may start: its earlier stages have completed, its port is free, its timeline has the value
(R427). -/
def nextStage (s : State) (k port : Nat) : Option Run :=
  if (portRuns (getC s k) port).any runBusy then none
  else (portRuns (getC s k) port).find? (fun r =>
    !r.stopped && decide (r.step < r.cmd.stage) && r.done == r.step && !(getX s r.x).halted
    && tlReached (readTl (getX s r.x) (cpWtl r.cmd.blk)) (cpWval r.cmd.blk + BitVec.ofNat 64 r.step))

/-- COPY_STAGE_START (a: core, b: port): stage s starts when tlWTL ≥ WVAL + s (R427). -/
def execCopyStageStart (s : State) : Res :=
  match nextStage s s.arg.a s.arg.b with
  | some r => gate true "COPY_STAGE_START" (fun t =>
      let t1 := modRun t.arg.a r.cmd.id (fun q => { q with step := q.step + 1 }) t
      if r.step + 1 = r.cmd.stage then modX t1 r.x (fun c => { c with q1 := dropFirst (fun q => q.id = r.cmd.id) c.q1 }) else t1) s
  | none => gate false "COPY_STAGE_START" id s

/-! ## Pieces (R424, R427) -/

/-- The number of elements left before address a leaves its block of n bytes; at least one. -/
def uptoBlock (n esz : Nat) (a : Int) : Nat := max 1 ((n - (a % n).toNat) / esz)

/-- The elements of the next piece from visit v: contiguous on both sides, at most 64 bytes, inside one line of a global side and one row of
a tile store; for an accumulator, inside one row of its tile (R240); of `cpyrm`, a packet of at most 256 bytes inside a 256-byte block of its
destination, or one sector of it when a source byte is poisoned (R238, R427, R428, R470; log entry 17, DEDUCED). -/
def pieceLen (r : Run) (poisoned : Nat → Bool) : Nat :=
  let b := r.cmd.blk
  let v := r.pos
  let esz := cpEsz b
  let op := cpOp b
  let n0 := min (cpN b 0 - cpIndex b v 0) (runLimit r - v)
  if 7 ≤ op then
    let n1 := min n0 (uptoBlock 256 esz (cpDstAt b v))
    if poisoned (n1 * esz) then min n0 (uptoBlock 32 esz (cpDstAt b v)) else n1
  else if cpToAcc b then min n0 (uptoBlock 128 1 (cpDstAt b v))
  else
    let n1 := min n0 (max 1 (64 / esz))
    let n2 := min n1 (uptoBlock 64 esz (if cpGlobalSrc op then r.cmd.src.toNat + cpSrcAt b v else cpSrcAt b v))
    if op = 6 then n2 else min n2 (uptoBlock 64 esz (if cpGlobalDst op then r.cmd.dst.toNat + cpDstAt b v else cpDstAt b v))

/-- The addresses of the piece at a visit: a pod address on a global side, else a core address. -/
def pieceSrc (r : Run) : Nat := ((if cpGlobalSrc (cpOp r.cmd.blk) then r.cmd.src.toNat else 0) + cpSrcAt r.cmd.blk r.pos : Int).toNat
def pieceDst (r : Run) : Nat :=
  let base := if cpGlobalDst (cpOp r.cmd.blk) then r.cmd.dst.toNat else if cpDwen r.cmd.blk then r.cmd.b else 0
  ((base + cpDstAt r.cmd.blk r.pos : Int) % 2 ^ 64).toNat

/-- The core address of the destination of a visit, for operations on the tile store of the context or of targets. -/
def tileDstAt (r : Run) (v : Nat) : Int := cpDstAt r.cmd.blk v + (if cpDwen r.cmd.blk then r.cmd.b else 0 : Nat)

/-- A visit at or after v touches a sector. -/
def laterTouches (r : Run) (v sector : Nat) : Bool :=
  (List.range (cpTotal r.cmd.blk - v)).any (fun i =>
    let d := tileDstAt r (v + i)
    decide (d < 32 * (sector : Int) + 32) && decide (32 * (sector : Int) < d + cpEsz r.cmd.blk))

/-- n bytes from a, cut at sectors of the tile store: offset and length. -/
def sectorCuts : Nat → Nat → Nat → List (Nat × Nat)
  | 0, _, _ => []
  | f + 1, a, n => if n = 0 then [] else
    let m := min n (32 - a % 32)
    (0, m) :: (sectorCuts f (a + m) (n - m)).map (fun p => (p.1 + m, p.2))

/-- The command reads the byte at an address of its source side (R424). -/
def sourceByte (r : Run) (a : Nat) : Bool :=
  let b := r.cmd.blk
  let g := cpSrcRange b
  let base : Int := (if cpGlobalSrc (cpOp b) then r.cmd.src.toNat else 0 : Nat)
  decide (base + g.1 ≤ a) && decide ((a : Int) < base + g.1 + g.2)
  && (List.range (cpTotal b)).any (fun v =>
    decide (base + cpSrcAt b v ≤ a) && decide ((a : Int) < base + cpSrcAt b v + cpEsz b))

/-- Where the destination's addresses begin on the source side, when a command may write what it reads: a copy within one tile store
or within global memory, and a `cpyrm` to its own context. -/
def selfBase (s : State) (r : Run) : Option Nat :=
  let op := cpOp r.cmd.blk
  if op = 0 ∨ op = 3 then some 0
  else if 7 ≤ op ∧ rmTarget r.cmd.blk = r.x then some (65536 * (getX s r.x).tsBase.toNat)
  else none

/-- The places among the n bytes of the next piece that the command reads as well as writes. -/
def selfBytes (s : State) (r : Run) (n : Nat) : List Nat :=
  match selfBase s r with
  | some base => (List.range n).filter (fun i => sourceByte r (base + pieceDst r + i))
  | none => []

/-- Bytes with a free value at each of some places: a byte that a command reads as well as writes has no defined value (R424; log
entry 15, DESIGN CHOICE). -/
def freeBytes (s : State) (l : List Nat) (bytes : List Byte) : List Byte :=
  if l.isEmpty then bytes
  else tab bytes.length (fun i => if l.contains i then (Config.freeValue (s.free + i)).extractLsb' 0 8 else bytes.getD i 0)

/-- The free values at some places of n bytes have been taken. -/
def useFree (l : List Nat) (n : Nat) (s : State) : State := if l.isEmpty then s else { s with free := s.free + n }

/-- An update of a barrier by an engine (R274). -/
def tbEngine (x e a n : Nat) (s : State) : State := tbApply x e a n (settleRows x e 16 s)

/-- The sectors that a piece of n elements closes decrement the barrier (R275, R428). -/
def closeSectors (r : Run) (n : Nat) (s : State) : State :=
  if cpBaren r.cmd.blk && r.node.isNone then
    ((sectorsOf (pieceDst r) (n * cpEsz r.cmd.blk)).filter (fun k => !laterTouches r (r.pos + n) k)).foldl
      (fun t _ => tbEngine r.x (cpBar r.cmd.blk) 0 1 t) s
  else s

/-- Bytes written to the tile store of a context sector by sector, each with its poison (R132, R428). -/
def putSectors (x a : Nat) (bytes : List Byte) (bad : Nat → Nat → Bool) (s : State) : State :=
  (sectorCuts bytes.length a bytes.length).foldl (fun t p => storeEngine t x (a + p.1) ((bytes.drop p.1).take p.2) (bad p.1 p.2)) s

/-- A tag for a packet of an engine. -/
def newTag (s : State) : Nat := s.nextId % 65536

/-- A packet of a copy port leaves: its answer is awaited under its tag (R62, R427). -/
def sendEngine (k : Nat) (r : Run) (p : Pkt) (s : State) : State :=
  let tag := newTag s
  let far := !(epDie p.dst < 8) && !isLocal s (p.pkg.toNat * 2 ^ 48)
  let s1 := { s with nextId := s.nextId + 1 }
  let s2 := modRun k r.cmd.id (fun q => { q with out := q.out ++ [(tag, r.pos, p.data.length)] }) s1
  let s3 := addTimer s2 (if far then 1048576 else 262144) (if far then .remoteAccessTimeout else .requestTimeout)
    (EvArg.of2 p.src.toNat tag)
  sendPkt s3 { p with tag := BitVec.ofNat 16 tag, label := BitVec.ofNat 16 (cpLbl r.cmd.blk) }

/-- The partition of a run. -/
def runPart (s : State) (r : Run) : BitVec 3 :=
  match r.node with
  | some q => (match s.recs.find? (fun e => e.id == q.1) with | some e => e.part | none => 0)
  | none => (getX s r.x).part

/-- A read of n bytes at a pod address by a copy port: performed at the home, never merged (R268, R427). -/
def engineRead (k : Nat) (r : Run) (pa n : Nat) (s : State) : State :=
  let s1 := modRun k r.cmd.id (fun q => { q with lines := linesOf (paOf pa) n }) s
  sendEngine k r { mkPkt 0 0 (runPart s r) (coreEp s k) (accDst s pa false) 0 (paOf pa) [] (.read n) with
    pkg := BitVec.ofNat 8 (pa / 2 ^ 48), opc := 1, orig := origNow s } s1

/-- A write of bytes at a pod address by a copy port, passing the RDC of its die (R128, R427). -/
def engineWrite (k : Nat) (r : Run) (pa : Nat) (bytes : List Byte) (bad : Bool) (s : State) : State :=
  let s1 := modRun k r.cmd.id (fun q => { q with lines := linesOf (paOf pa) bytes.length })
    (if isLocal s pa then rdcStoreRange s (dieOf k) (runPart s r) bad 8 (paOf pa) bytes else s)
  sendEngine k r { mkPkt 6 0 (runPart s r) (coreEp s k) (accDst s pa false) 0 (paOf pa) bytes (.engWrite r.cmd.id) with
    pkg := BitVec.ofNat 8 (pa / 2 ^ 48), opc := 1, poison := bad } s1

/-- The targets of a command that writes other contexts: `cpyrm`'s one, the live tasks of `cpymc`'s range (R431, R432). -/
def runTargets (s : State) (r : Run) : List Nat :=
  if cpOp r.cmd.blk = 6 then
    match gangOf s r.x with
    | some g => (tab (bitsN r.cmd.blk 40 6 + 1) (fun i => bitsN r.cmd.blk 34 6 + i)).filterMap (fun t =>
        if g.live.contains t then g.xs[t]? else none)
    | none => [r.x]
  else [rmTarget r.cmd.blk]

/-- A piece, or the arrivals, sent to a target context; VER carries the issuing gang (R431, R432). -/
def sendTile (k : Nat) (r : Run) (op off : Nat) (bytes : List Byte) (bad : Bool) (closes arrv : Nat) (s : State) (y : Nat) : State :=
  let bar := if cpBaren r.cmd.blk then some (cpBar r.cmd.blk) else none
  sendEngine k r { mkPkt 6 0 (runPart s r) (coreEp s k) (coreEp s (coreOf y)) 0 0 bytes
      (.tileWrite op y off bar closes arrv (getX s r.x).gang) with poison := bad } s

def sendTiles (k : Nat) (r : Run) (op off : Nat) (bytes : List Byte) (bad : Bool) (closes arrv : Nat) (s : State) : State :=
  (runTargets s r).foldl (sendTile k r op off bytes bad closes arrv) s

/-- The number of sectors at its target that the piece closes. -/
def sectorsClosed (r : Run) (n : Nat) : Nat :=
  if cpBaren r.cmd.blk then
    ((sectorsOf (pieceDst r) (n * cpEsz r.cmd.blk)).filter (fun q => !laterTouches r (r.pos + n) q)).length
  else 0

/-- The target refuses bytes of a `cpyrm` (R432): no task of the partition, or the element or the barrier outside its region. -/
def tileRefused (s : State) (y off n : Nat) (bar : Option Nat) (part : BitVec 3) : Bool :=
  let c := getX s y
  let size := 65536 * c.tsSize.toNat
  !c.task || c.part != part || decide (size < off + n) || (match bar with | some b => decide (size < b + 16) | none => false)

/-- A packet of a `cpyrm` on its way would be refused: nothing more leaves until its answer comes (R432). -/
def outRefused (s : State) (r : Run) : Bool :=
  r.out.any (fun o => tileRefused s (rmTarget r.cmd.blk) (pieceDst { r with pos := o.2.1 }) o.2.2
    (if cpBaren r.cmd.blk then some (cpBar r.cmd.blk) else none) (runPart s r))

/-- A piece of n elements is done. -/
def pieceDone (k : Nat) (r : Run) (n : Nat) (s : State) : State :=
  modRun k r.cmd.id (fun q => { q with pos := q.pos + n, out := [], buf := [], bad := false, hurt := [] }) s

/-- FP32 elements applied to consecutive entries of an accumulator tile, in visit order (R301, R430). -/
def addEntries (a : AccTile) : Nat → List Nat → AccTile
  | _, [] => a
  | i, c :: l => addEntries (setAccEntry a i (addOnWrite (accEntry a i) c)) (i + 1) l

/-- The elements that bytes hold. -/
def elementsOf (esz : Nat) (bytes : List Byte) : List Nat := tab (bytes.length / esz) (fun i => leNat ((bytes.drop (esz * i)).take esz))

/-- The physical accumulator tile of a run. -/
def runTile (s : State) (r : Run) : Nat := (tileOfAcm (getX s r.x).acm r.cmd.a).getD 0

/-- A row write of add-on-write, in a port slot of its mask: a clash stops the command (R240, R430). -/
def accPiece (k : Nat) (r : Run) (bytes : List Byte) (s : State) : State :=
  if cpMask r.cmd.blk / 2 ^ (coreCyc s % 4) % 2 = 0 then s
  else
    let t := runTile s r
    if !(getAcc (getC s k) t).busy.isEmpty && portOpen s k then stopRun k r.cmd.id cSCHED 2 r.cmd.a 0 s
    else pieceDone k r (bytes.length / 4) (modC s k (fun c => setAcc c t (addEntries (getAcc c t) (pieceDst r) (elementsOf 4 bytes))))

/-- The arrivals of a run at its targets, when it writes other contexts, are sent once, after its last piece or its stop. -/
def arrivalsDue (r : Run) : Bool :=
  (r.cmd.op == 2 || r.cmd.op == 3) && cpBaren r.cmd.blk && cpArrv r.cmd.blk != 0 && !r.arrived
  && (r.stopped || (decide (cpTotal r.cmd.blk ≤ r.pos) && decide (r.cmd.stage ≤ r.step)))

/-- Bytes that a port has read wait in its buffer, with the places that are poisoned (R238). -/
def bufRun (k : Nat) (r : Run) (n : Nat) (l : List Byte) (hurt : List Nat) (s : State) : State :=
  modRun k r.cmd.id (fun q => { q with aux := n, buf := l, hurt := hurt }) s

/-- The bytes left from core address a up to the end of its row, at most m. -/
def uptoRow (a m : Nat) : Nat := min m (64 - a % 64)

/-- The packet of a `cpyrm` that a port has gathered leaves, while those before it are on their way (R427).  An element of an addition that the
command reads too has no defined sum: it is sent alone, and written as a free value. -/
def rmSend (k : Nat) (r : Run) (l : List Byte) (hurt : List Nat) (s : State) : State × Bool :=
  let op := cpOp r.cmd.blk
  let own := selfBytes s r l.length
  let sum := 8 ≤ op ∧ own ≠ []
  let free := if sum then List.range l.length else own
  if outRefused s r then (bufRun k r r.aux l hurt s, false)
  else
    (modRun k r.cmd.id (fun q => { q with pos := q.pos + r.aux, buf := [], hurt := [] })
      (useFree free l.length (sendTiles k r (if sum then 7 else op) (pieceDst r) (freeBytes s free l) (!hurt.isEmpty) (sectorsClosed r r.aux) 0 s)), false)

/-- A `cpyrm` gathers its next packet, a row of the tile store in a cycle (R427). -/
def rmStep (k rank : Nat) (r0 : Run) (s : State) : State × Bool :=
  let esz := cpEsz r0.cmd.blk
  let n := pieceLen r0 (poisonTs s r0.x (pieceSrc r0))
  let m := if !r0.buf.isEmpty then r0.aux else if 8 ≤ cpOp r0.cmd.blk ∧ selfBytes s r0 (n * esz) ≠ [] then 1 else n
  let r : Run := { r0 with aux := m }
  let a := pieceSrc r + r.buf.length
  let left := m * esz - r.buf.length
  if left = 0 then rmSend k r r.buf r.hurt s
  else match readEngine k rank r.x a (uptoRow a left) s with
    | none => (s, true)
    | some (t, l, hurt) =>
      let buf := r.buf ++ l
      let bad := r.hurt ++ hurt.map (· + r.buf.length)
      if l.length < left then (bufRun k r m buf bad t, false) else rmSend k r buf bad t

/-- An add-on-write gathers the elements of one row of its tile, and writes them in a port slot of its mask (R240, R430). -/
def accStep (k rank : Nat) (r0 : Run) (s : State) : State × Bool :=
  let n := if r0.buf.isEmpty then pieceLen r0 (fun _ => false) else r0.aux
  let r : Run := { r0 with aux := n }
  let len := n * cpEsz r.cmd.blk
  let a := pieceSrc r + r.buf.length
  let left := len - r.buf.length
  if r.buf.isEmpty && decide (runLimit r ≤ r.pos) then (s, false)
  else if left = 0 then (accPiece k r r.buf s, false)
  else if cpGlobalSrc (cpOp r.cmd.blk) then (engineRead k r a (uptoRow a left) (bufRun k r n r.buf [] s), false)
  else match readEngine k rank r.x a (uptoRow a left) s with
    | none => (s, true)
    | some (t, l, hurt) =>
      match hurt with
      | h :: _ => (stopRun k r.cmd.id cPOISON 0 0 (tiTs (a + h)) t, false)
      | [] =>
        let t1 := bufRun k r n (r.buf ++ l) [] t
        (if l.length < left then t1 else accPiece k r (r.buf ++ l) t1, false)

/-- The bytes that a port has read are written to the tile store (R427, R428). -/
def putBuf (k rank : Nat) (r : Run) (s : State) : State × Bool :=
  match takeRows k rank (rowsOf (getX s r.x) (pieceDst r) r.buf.length) s with
  | none => (s, true)
  | some t =>
    (pieceDone k r r.aux (closeSectors r r.aux (putSectors r.x (pieceDst r) r.buf (fun o m => r.hurt.any (fun h => o ≤ h && h < o + m)) t)), false)

/-- A copy command moves its next piece; whether a bank has refused it (R238, R425, R427). -/
def copyStep (k rank : Nat) (r : Run) (s : State) : State × Bool :=
  let b := r.cmd.blk
  let op := cpOp b
  if arrivalsDue r && r.out.isEmpty then
    (modRun k r.cmd.id (fun q => { q with arrived := true }) (sendTiles k r op 0 [] false 0 (cpArrv b) s), false)
  else if r.stopped || (!r.out.isEmpty && op < 7) then (s, false)
  else if cpToAcc b then accStep k rank r s
  else if 7 ≤ op then (if r.buf.isEmpty && decide (runLimit r ≤ r.pos) then (s, false) else rmStep k rank r s)
  else if !r.buf.isEmpty then putBuf k rank r s
  else if runLimit r ≤ r.pos then (s, false)
  else
    let n := pieceLen r (fun _ => false)
    let bytes := n * cpEsz b
    if cpGlobalSrc op then (engineRead k r (pieceSrc r) bytes (modRun k r.cmd.id (fun q => { q with aux := n }) s), false)
    else match readEngine k rank r.x (pieceSrc r) bytes s with
      | none => (s, true)
      | some (t, l, hurt) =>
        if op = 1 then (engineWrite k r (pieceDst r) l (!hurt.isEmpty) (modRun k r.cmd.id (fun q => { q with aux := n }) t), false)
        else
          let own := selfBytes t r bytes
          let l1 := freeBytes t own l
          putBuf k rank { r with aux := n, buf := l1, hurt := hurt } (bufRun k r n l1 hurt (useFree own bytes t))

/-- A read of a copy command is answered (R425, R428). -/
def copyRead (k : Nat) (r : Run) (data : List Byte) (bad : Bool) (s : State) : State :=
  let op := cpOp r.cmd.blk
  let s1 := modRun k r.cmd.id (fun q => { q with out := [], lines := [] }) s
  if op = 2 then modRun k r.cmd.id (fun q => { q with buf := data, hurt := if bad then List.range data.length else [] }) s1
  else if op = 3 then
    let own := selfBytes s r data.length
    useFree own data.length (engineWrite k r (pieceDst r) (freeBytes s own data) bad s1)
  else if op = 5 then
    if bad then stopRun k r.cmd.id cPOISON 0 0 (tiPhys (paOf (pieceSrc r + r.buf.length) / 64 * 64)) s1
    else modRun k r.cmd.id (fun q => { q with buf := q.buf ++ data }) s1
  else if (runTargets s r).isEmpty then pieceDone k r r.aux s1
  else sendTiles k r op (pieceDst r) data bad (sectorsClosed r r.aux) 0 s1

/-- A write of a copy command is acknowledged; the last one ends its piece. -/
def copyAck (k : Nat) (r : Run) (tag : Nat) (s : State) : State :=
  let out := r.out.filter (fun o => o.1 != tag)
  let s1 := modRun k r.cmd.id (fun q => { q with out := out }) s
  if out.isEmpty && !r.stopped && cpOp r.cmd.blk < 7 && decide (r.pos < runLimit r) then pieceDone k r r.aux s1 else s1

/-- The run at a core that awaits a tag. -/
def runOfTag (s : State) (k tag : Nat) : Option Run := (getC s k).runs.find? (fun r => r.out.any (fun o => o.1 == tag))

/-! ## Commits, posts and launches -/

def kvFill (abs : Nat) : Byte := if abs = 0 then 0xFF else if abs = 1 then 0x80 else 0x88

/-- A commit reads, or fills, its next 64 bytes, and writes them (R238, R436). -/
def kvStep (k rank : Nat) (r : Run) (s : State) : State × Bool :=
  match (kvMoves r.cmd.blk r.cmd.a)[r.pos]? with
  | none => (s, false)
  | some (src, dst) =>
    let put (l : List Byte) (hurt : List Nat) (t : State) : State × Bool :=
      match takeRows k rank (rowsOf (getX t r.x) dst 64) t with
      | none => (bufRun k r 1 l hurt t, true)
      | some u => (pieceDone k r 1 (putSectors r.x dst l (fun o m => hurt.any (fun h => o ≤ h && h < o + m)) u), false)
    if !r.buf.isEmpty then put r.buf r.hurt s
    else match src with
      | none => put (List.replicate 64 (kvFill (kvAbs r.cmd.blk))) [] s
      | some a => (match readEngine k rank r.x a 64 s with
        | none => (s, true)
        | some (t, l, hurt) => put l hurt t)

/-- The earlier global accesses of a context have been performed; a release of `.pkg` scope does not wait for posted remote stores (R259). -/
def earlierDone (c : Ctx) (ord : Nat) : Bool :=
  c.accs.all (fun a => decide (ord ≤ a.ord) || overDone a || isPosted a)

/-- A post or a launch performs the release of `.pkg` scope before its write: step 0 waits for the accesses, step 1 for the
write-backs, step 2 is ready (R259, R434, R444). -/
def releaseStep (k : Nat) (r : Run) (s : State) : State :=
  let c := getX s r.x
  if r.step = 0 then
    if earlierDone c r.cmd.ord then modRun k r.cmd.id (fun q => { q with step := 1 }) (cleanPart s k c.part)
    else pushWhere r.x (fun a => decide (a.ord < r.cmd.ord) && !isPosted a) s
  else if r.step = 1 then
    if cleanDone s r.x then modRun k r.cmd.id (fun q => { q with step := 2 }) s else s
  else s

/-- The runs of commands of contexts at a port do their part of a cycle; whether a bank has refused one (R238, R427, R429). -/
def engineStep (k port : Nat) (s : State) : State × Bool :=
  ((getC s k).runs.filter (fun r => r.cmd.port == port)).foldl (fun (a : State × Bool) r0 =>
    match (getC a.1 k).runs.find? (fun r => r.cmd.id == r0.cmd.id) with
    | none => a
    | some r =>
      if r.node.isSome then a
      else if r.cmd.op = 4 ∨ r.cmd.op = 0x19 then (releaseStep k r a.1, a.2)
      else
        let q := if r.cmd.op = 0x18 then kvStep k 4 r a.1 else copyStep k 4 r a.1
        (q.1, a.2 || q.2)) (s, false)

/-! ## Completion (R421, R427, R428) -/

/-- The run has completed, or has completed its latest stage. -/
def runEnded (r : Run) : Bool :=
  r.out.isEmpty && r.buf.isEmpty && r.cmd.op != 4 && r.cmd.op != 0x19 && !arrivalsDue r
  && (r.stopped || (decide (runGoal r ≤ r.pos) && (r.cmd.stage == 0 || decide (r.done < r.step))))

/-- The first increment of a command that is not ready becomes ready. -/
def incNext (c : Ctx) (cmd : Nat) : Ctx :=
  { c with incs := updFirst (fun i => i.cmd = cmd && !i.ready) (fun i => { i with ready := true }) c.incs }

/-- A command of a context completes: its barrier receives its arrivals, then its increments may be applied (R428). -/
def completeRun (k : Nat) (r : Run) (s : State) : State :=
  let last := r.stopped || decide (r.cmd.stage ≤ r.step) || cpTotal r.cmd.blk == 0
  if !last then modX (modRun k r.cmd.id (fun q => { q with done := q.done + 1 }) s) r.x (fun c => incNext c r.cmd.id)
  else
    let own := r.cmd.op ≤ 1 && cpBaren r.cmd.blk
    let s1 := if own then tbEngine r.x (cpBar r.cmd.blk) (cpArrv r.cmd.blk) 0 s else s
    let s2 := modX (dropRun k r.cmd.id s1) r.x (fun c =>
      incReady { c with q1 := dropFirst (fun q => q.id = r.cmd.id) c.q1 } r.cmd.id)
    settleIncs s2 r.x

end Sys2Proof.Machine
end

