-- ==== Sys2Proof/Machine/Home.lean ====
section
/-!
DEFINITION. The homes of memory (R64, R123-R126, R131, R132): accesses in the order of their arrival, misses and bypasses, the
atomic units; and the events of the packet plane that end at a home or on a link (R48, R53).
-/

namespace Sys2Proof.Machine

open Sys2Proof

/-! ## Accesses performed at their home (R124, R126, R252, R366) -/

/-- The new value of an atomic of w bits (R272, R366): 12 is the timeline maximum. -/
def atomicNew (op w o b c : Nat) : Nat :=
  let m := 2 ^ w
  if op = 0 then (o + b) % m
  else if op = 1 then (o + m - b % m) % m
  else if op = 2 then o &&& b
  else if op = 3 then o ||| b
  else if op = 4 then o ^^^ b
  else if op = 5 then (if toSigned w b < toSigned w o then b else o)
  else if op = 6 then (if toSigned w o < toSigned w b then b else o)
  else if op = 7 then min o b
  else if op = 8 then max o b
  else if op = 9 then b
  else if op = 10 then (if o = c then b else o)
  else if op = 11 then roundNum fp32 .rne (identity Ex.add (decodeNum fp32 o) (decodeNum fp32 b))
  else (let d := (b + m - o % m) % m; if 1 ≤ d ∧ d < 2 ^ (w - 1) then b else o)

/-- The answer carries the version of the line after the access; the second tier answers 0 (R64, R123). -/
def versioned (s : State) (p q : Pkt) : Pkt := { q with ver := lineVer s (p.addr.toNat / 64) }

/-- An access is performed at its home, and its answer leaves (R64, R124, R126, R252). -/
def homePerform (p : Pkt) (s : State) : State :=
  let a := p.addr.toNat
  match p.msg with
  | .read n =>
    let q := { answer p 1 (homeRead s a n) .none with orig := p.orig, poison := rangePoison s a n, opc := p.opc }
    sendPkt s (versioned s p q)
  | .atom op wide b c want =>
    let n := if wide then 8 else 4
    if rangePoison s a n then sendPkt s { versioned s p (answer p 5 [] (.old 0 want)) with poison := true }
    else
      let o := leNat (homeRead s a n)
      let w := 8 * n
      let s1 := homeWrite s a (leBytes n (atomicNew op w (o % 2 ^ w) (b.toNat % 2 ^ w) (c.toNat % 2 ^ w))) false
      sendPkt s1 (versioned s1 p (answer p 5 [] (.old (BitVec.ofNat 64 o) want)))
  | _ =>
    let s1 := homeWrite s a p.data p.poison
    sendPkt s1 (versioned s1 p { answer p 3 [] .none with opc := p.opc })

/-! ## Home slices (R124, R125) -/

/-- The packet writes its line. -/
def writes (p : Pkt) : Bool := p.kind != 0

/-- Sets of a slice: 96 MiB of 64-byte lines in 16 ways. -/
def sliceSet (line : Nat) : Nat := line % 98304

def getSlice (s : State) (m : Nat) : Slice := mget Slice.init s.slices m
def setSlice (s : State) (m : Nat) (l : Slice) : State := { s with slices := mset s.slices m l }

/-- The line becomes the most recently used, dirty after a write. -/
def sliceTouch (l : Slice) (line : Nat) (w : Bool) : Slice :=
  let d := w || l.lines.any (fun e => e.1 == line && e.2)
  { l with lines := (line, d) :: l.lines.filter (fun e => e.1 != line) }

def slicePresent (l : Slice) (line : Nat) : Bool := l.lines.any (fun e => e.1 == line)

/-- The line that gives up its way: the least recently used of its set that is not pinned. -/
def sliceVictim (s : State) (l : Slice) (line : Nat) : Option (Nat × Bool) :=
  (l.lines.reverse.filter (fun e => sliceSet e.1 == sliceSet line)).find? (fun e => pinCount s e.1 == 0)

/-- Room for a line: a way of its set is free, or its victim can leave; a dirty victim needs room in the pending-write filter of
64 lines. -/
def sliceRoom (s : State) (l : Slice) (line : Nat) : Option Slice :=
  if (l.lines.filter (fun e => sliceSet e.1 == sliceSet line)).length < 16 then some l
  else match sliceVictim s l line with
    | none => none
    | some v =>
      let l1 := { l with lines := l.lines.filter (fun e => e.1 != v.1) }
      if v.2 then (if l.pend.length < 64 then some { l1 with pend := l1.pend ++ [v.1] } else none) else some l1

/-- An error that ECC finds in a line of a memory die (R131): 1 corrected, 2 uncorrectable, else none; the entry's UNIT is the channel (R39). -/
def stackError (m line kind channel : Nat) (s : State) : State :=
  if kind = 1 then bbxLog s 0x05 (8 + m) 0 0xFF channel (BitVec.ofNat 128 (64 * line))
  else if kind = 2 then bbxLog (poisonLine line s) 0x06 (8 + m) 0 0xFF channel (BitVec.ofNat 128 (64 * line))
  else s

/-- Every way of a line's set is pinned: reads bypass the set (R130). -/
def setPinned (s : State) (l : Slice) (line : Nat) : Bool :=
  decide (16 ≤ (l.lines.filter (fun e => sliceSet e.1 == sliceSet line && pinCount s e.1 != 0)).length)

/-- What a home slice does with an access that arrives (R125): it performs it, or holds it, or leaves it at its input. -/
inductive Arrival where
  | perform (s : State)
  | held (s : State)
  | input

/-- An access arrives at the home slice of memory die m (R124, R125, R130). -/
def sliceArrive (s : State) (m : Nat) (p : Pkt) : Arrival :=
  let l := getSlice s m
  let line := p.addr.toNat / 64
  let later := p.opc == 1 && decide (15 < pinCount s line)
  if later then .input
  else if l.miss.contains line then .held (setSlice s m { l with wait := l.wait ++ [p] })
  else if slicePresent l line then .perform (setSlice s m (sliceTouch l line (writes p)))
  else if p.kind = 0 ∧ setPinned s l line then (if l.pend.contains line then .input else .perform s)
  else if l.miss.length < 256 then .held (setSlice s m { l with miss := l.miss ++ [line], wait := l.wait ++ [p] })
  else if p.kind = 0 ∧ ¬ l.pend.contains line then .perform s
  else .input

/-- The packet that a unit takes next: the first handed over to its endpoint. -/
def rxHead (s : State) (e : Ep) : Option Pkt := s.rx.find? (fun p => p.dst == e)

/-- The endpoint has taken its packet. -/
def rxTake (s : State) (e : Ep) : State := { s with rx := dropFirst (fun p => p.dst == e) s.rx }

/-- The endpoint that an event's argument names. -/
def argEp (s : State) : Ep := BitVec.ofNat 16 s.arg.a

/-! ## Sampling (R142) -/

def getPlc (s : State) (d : Nat) : Plc := mget Plc.init s.plcs d
def modPlc (d : Nat) (f : Plc → Plc) (s : State) : State := { s with plcs := mset s.plcs d (f (getPlc s d)) }

/-- An entry's page holds a frame. -/
def plcHolds (frame : Nat) (e : PlcEntry) : Bool := if e.big then e.frame / 32 == frame / 32 else e.frame == frame

/-- One more request of die d for an entry's page. -/
def plcCount (d : Nat) (e : PlcEntry) : PlcEntry := { e with counts := mset e.counts d (min (mget 0 e.counts d + 1) 65535), cold := 0 }

/-- A request that reaches a home is counted: one in 16 is a sample of its page, which takes one of 4,096 entries (R142). -/
def plcSample (d : Nat) (p : Pkt) (s : State) : State :=
  let frame := p.addr.toNat / 65536
  let from_ := epDie p.src
  modPlc d (fun c =>
    let c1 := { c with sample := (c.sample + 1) % 16 }
    if c.sample != 15 || 8 ≤ from_ then c1
    else if c.entries.any (plcHolds frame) then { c1 with entries := updFirst (plcHolds frame) (plcCount from_) c.entries }
    else if c.entries.length < 4096 then { c1 with entries := c.entries ++ [⟨frame, false, p.part, none, false, [(from_, 1)], 0, 0⟩] }
    else c1) s

/-- The controller that tracks an access: of the first healthy die attached to the home, or of the requester's die for the second
tier (R142). -/
def samplingDie (s : State) (p : Pkt) (home : Nat) : Nat :=
  if home = 17 then epDie p.src else let j := home - 8; if dieOk s j && memPortUp s j j then j else (j + 1) % 8

/-- An access reaches the unit that serves it: a home slice, an atomic unit, which works on the slice's copy, or the UCIe
boundary, which clears MMH and serves at once (R123-R126); the event's operands b and c say what ECC finds in the line that it reads (R131); a request for the boot image is the host's to answer (R25). -/
def serve (s : State) (e : Ep) (p : Pkt) : Option State :=
  let d := epDie e
  let t0 := rxTake s e
  let t := if epDie p.src < 8 then plcSample (samplingDie t0 p d) p t0 else t0
  if d = 17 then (if p.src = securityEp 0 then none else some (homePerform { p with mmh := false } t))
  else if 8 ≤ d ∧ d < 16 then
    match sliceArrive t (d - 8) p with
    | .perform u => some (homePerform p (stackError (d - 8) (p.addr.toNat / 64) s.arg.b s.arg.c u))
    | .held u => some u
    | .input => none
  else none

/-- The event of an access that reaches its home: the endpoint's next packet is of its kind and can be taken. -/
def homeEvent (kinds : List (BitVec 4)) (name : String) (s : State) : Res :=
  let e := argEp s
  match rxHead s e with
  | some p =>
    if kinds.contains p.kind then
      match serve s e p with
      | some t => gate true name (fun _ => t) s
      | none => gate false name id s
    else gate false name id s
  | none => gate false name id s

/-- READ_REQUEST (a: endpoint, b: what ECC finds in the line, c: on which channel). -/
def execReadRequest (s : State) : Res := homeEvent [0] "READ_REQUEST" s
/-- WRITE (a: endpoint, b, c: as READ_REQUEST's). -/
def execWrite (s : State) : Res := homeEvent [2] "WRITE" s
/-- ATOMIC_REQUEST (a: endpoint, b, c: as READ_REQUEST's). -/
def execAtomicRequest (s : State) : Res := homeEvent [4] "ATOMIC_REQUEST" s

/-- The accesses that wait for a line, performed in the order of their arrival. -/
def performWaiting (m line : Nat) (s : State) : State :=
  let l := getSlice s m
  let mine := l.wait.filter (fun p => p.addr.toNat / 64 == line)
  let s1 := setSlice s m { l with wait := l.wait.filter (fun p => p.addr.toNat / 64 != line) }
  mine.foldl (fun t p => homePerform p (setSlice t m (sliceTouch (getSlice t m) line (writes p)))) s1

/-- HOME_SLICE_FILL (a: memory die, b: line, c: what the stack's ECC found, d: on which stack channel): a write-back of the line completes, or its stack
read does, and the accesses that wait for it are performed (R125, R131). -/
def execHomeSliceFill (s : State) : Res :=
  let m := s.arg.a
  let line := s.arg.b
  let l := getSlice s m
  if !memOk s m then gate false "HOME_SLICE_FILL" id s
  else if l.pend.contains line then
    gate true "HOME_SLICE_FILL" (fun t => setSlice t m { l with pend := l.pend.filter (· != line) }) s
  else if l.miss.contains line then
    match sliceRoom s l line with
    | some l1 => gate true "HOME_SLICE_FILL" (fun t =>
        performWaiting m line (stackError m line t.arg.c t.arg.d
          (setSlice t m { l1 with miss := l1.miss.filter (· != line), lines := (line, false) :: l1.lines }))) s
    | none => gate false "HOME_SLICE_FILL" id s
  else gate false "HOME_SLICE_FILL" id s

/-! ## Routers and links (R48, R53, R54) -/

/-- A link retrains at either end (R54). -/
def retraining (s : State) (d n : Nat) : Bool :=
  s.mgmt.retrain.contains (linkKey d n) || s.mgmt.retrain.contains (linkKey (across d n).1 (across d n).2)

/-- A packet may go by an output: its link does not retrain, and a replay buffer of 128 flits has room for it (R53, R54). -/
def mayLeave (s : State) (f : Flight) (port : Nat) : Loc → Bool
  | .wire link => !retraining s (link / 8) (link % 8) && decide (replayFlits s link + flitCount f.pkt ≤ 128)
  | .filash => (match f.loc with | .router k _ _ _ => port != 5 || !s.mgmt.retrain.contains (linkKey k 5) | _ => true)
  | .ucie k => !s.mgmt.retrain.contains (linkKey k 6)
  | _ => true

/-- A packet that has arrived can make its next move: on a link the first one, unless it retrains; else its output is free, or it has come to its
endpoint, which takes it or starts the flow's timer (R50, R51, R53, R54). -/
def canMove (s : State) (f : Flight) : Bool :=
  arrived s f.arr && (badHeader f.pkt || (match f.loc with
    | .wire link => !retraining s (link / 8) (link % 8) && (s.net.find? (fun g => g.loc == f.loc)).any (fun g => g.id == f.id)
    | _ => match hopOf s f.loc f.pkt with
      | .deliver => arrived s (f.arr + endTime f.loc) && (accepts s f.pkt || (recvOf s f.pkt.flow).since.isNone)
      | .to port l => mayLeave s f port l
      | _ => true))

/-- Two packets at a router are after the same output. -/
def sameOutput (s : State) (a b : Flight) : Bool := samePlace a.loc b.loc && hopOf s a.loc a.pkt == hopOf s b.loc b.pkt

/-- The packet has won arbitration: of those before it in the order of R52 none that can move is after the same output. -/
def wins (s : State) (f : Flight) : Bool :=
  ((flightOrder s).takeWhile (fun g => g.id != f.id)).all (fun g => !(sameOutput s g f && canMove s g))

/-- What a router's SECDED finds in a buffered packet: 1 an uncorrectable error in the header, 2 one in the payload (R53, R62). -/
def findError (s : State) (f : Flight) (kind : Nat) : State × Flight :=
  if kind = 1 then (s, { f with pkt := { f.pkt with bad := true } })
  else if kind = 2 ∧ ¬ f.pkt.data.isEmpty then (poisonPayload s f, { f with pkt := { f.pkt with poison := true } })
  else (s, f)

/-- PACKET_ROUTE (a: the packet's number, b: the error that its router finds in it, 0 none): R48, R52, R62. -/
def execPacketRoute (s : State) : Res :=
  match s.net.find? (fun f => f.id = s.arg.a) with
  | some f => gate ((canMove s f && wins s f) || s.arg.b == 1) "PACKET_ROUTE"
      (fun t => routeFlight (findError t f t.arg.b).1 (findError t f t.arg.b).2) s
  | none => gate false "PACKET_ROUTE" id s

/-- The first packet on a directed link, of which the receiver expects the next flit. -/
def firstOnWire (s : State) (link : Nat) : Option Flight := s.net.find? (fun f => f.loc == .wire link)

/-- A replay is requested: counted at the receiver's end, logged; after eight failed replays of the same flit both ends retrain (R53,
R54, R67). -/
def replayLink (d n : Nat) (s : State) : State :=
  let link := linkKey (across d n).1 (across d n).2
  let c := (wireOf s link).errors + 1
  let s1 := bbxLog (if d < 8 then mgBump s d (oLink n) 0 32 else s) 0x07 d 0 0xFF n 0
  if 9 ≤ c then
    let ends := [(d, n), across d n].filter (fun e => e.1 < 8)
    let s2 : State := { setLink s1 link { wireOf s1 link with errors := 0 } with
      mgmt := { s1.mgmt with retrain := ends.map (fun e => linkKey e.1 e.2) ++ s1.mgmt.retrain } }
    ends.foldl (fun t e => mgSetF t e.1 (oLink e.2) 49 1 1) s2
  else setLink s1 link { wireOf s1 link with errors := c }

/-- A pod link's replay, which has no count; after eight failed replays it retrains (R54, R99). -/
def replayPod (n : Nat) (ok : Bool) (s : State) : State :=
  let key := linkKey 16 n
  let s1 := bbxLog s 0x07 16 0 0xFF n 0
  let c := if ok then 0 else mget 0 s1.mgmt.replays key + 1
  { s1 with mgmt := { s1.mgmt with replays := mset s1.mgmt.replays key (if 8 ≤ c then 0 else c),
                                   retrain := if 8 ≤ c then key :: s1.mgmt.retrain else s1.mgmt.retrain } }

/-- LINK_REPLAY (a: die code of the receiver, b: gateway, a memory die's port by the number of the compute die's gateway; data, c, d: a flit as it
is received, its sequence number and its CRC): the flit is not good, and the sender, whose replay buffer holds it, sends again from it on (R53,
R54, R67).  For the Filash die b is a pod link and `ok` false says that the same flit's replay has failed again (R99). -/
def execLinkReplay (s : State) : Res :=
  let d := s.arg.a
  let n := s.arg.b
  let link := linkKey (across d n).1 (across d n).2
  if d = 16 then gate (decide (n < 16) && !s.mgmt.retrain.contains (linkKey d n)) "LINK_REPLAY" (replayPod n s.arg.ok) s
  else
    gate (decide (d < 16) && decide (n < 5) && decide (d < 8 ∨ 3 ≤ n) && !retraining s d n && (firstOnWire s link).isSome && s.arg.data.length == 64
      && !flitGood (wireOf s link) s.arg.data (BitVec.ofNat 8 s.arg.c) s.arg.d) "LINK_REPLAY" (replayLink d n) s

end Sys2Proof.Machine
end

