-- ==== Sys2Proof/Machine/Lanes.lean ====
section
/-!
DEFINITION. Circuit lanes (R68), probes (R71-R73), the slot calendar (R76, R79, R80), the promoted circuits (R60, R86-R88).
-/

namespace Sys2Proof.Machine

open Sys2Proof

/-! ## Lanes (R68) -/

/-- A lane of an output of router r of die k: outputs 0 to 3 are mesh outputs, 4 the receive lanes and 5 the send lanes of the
router's core endpoint. -/
def laneKey (k r out l : Nat) : Nat := ((k * 72 + r) * 6 + out) * 4 + l

/-- What holds a lane: 2 × id + 2 a program circuit, 2 × id + 3 a promoted circuit. -/
def progVal (cid : Nat) : Nat := 2 * cid + 2
def promoVal (fid : Nat) : Nat := 2 * fid + 3

/-- The name of a mesh link among the links marked down (R69). -/
def meshLink (k r out : Nat) : Nat := 4096 + (k * 72 + r) * 4 + out

def routerNo (p : Nat × Nat) : Nat := 9 * p.2 + p.1

/-- The router of a cluster's hub, and the hub's endpoint (R47, R48). -/
def hubXY (cluster : Nat) : Nat × Nat := (8, 2 * cluster + 1)
def hubEp (k cluster : Nat) : Ep := epId k (68 + cluster)
def epCluster (e : Ep) : Nat := epUnit e / 17

/-- The lanes of a holder whose keys satisfy a test are released: each goes to the program probe that waits for it, else it is free (R70, R73). -/
def dropLanesIf (v : Nat) (t : Nat → Bool) (s : State) : State :=
  { s with lanes := s.lanes.filterMap (fun e =>
      if e.2 != v || !t e.1 then some e else (s.probes.find? (fun p => p.claim == some e.1)).map (fun p => (e.1, p.v))) }

/-- Every lane of a holder is released, and no probe reserves for it any more. -/
def dropLanes (v : Nat) (s : State) : State := dropLanesIf v (fun _ => true) { s with probes := s.probes.filter (fun p => p.v != v) }

/-- A lane is held by a promoted circuit: of a flow whose probe has ended. -/
def promoHolds (s : State) (q : Nat) : Bool :=
  let v := mget 0 s.lanes q
  v % 2 == 1 && s.promos.any (fun f => promoVal f.fid == v && !f.probing)

/-- The lane of an output that a probe may reserve: the lowest free one, else for a program circuit the lowest that a promoted circuit holds
and no other probe waits for (R73). -/
def eligible (s : State) (prog : Bool) (k r out : Nat) : Option Nat :=
  if out < 4 && s.mgmt.down.contains (meshLink k r out) then none
  else
    let keys := tab 4 (laneKey k r out)
    match keys.find? (fun q => mget 0 s.lanes q = 0) with
    | some q => some q
    | none => if prog && decide (out < 4) then keys.find? (fun q => promoHolds s q && !s.probes.any (fun p => p.claim == some q)) else none

/-! ## The probe (R71-R73) -/

/-- Minimal outputs from a router towards another, the x output first. -/
def minimalOuts (a b : Nat × Nat) : List Nat :=
  (if a.1 < b.1 then [0] else if b.1 < a.1 then [1] else []) ++ (if a.2 < b.2 then [2] else if b.2 < a.2 then [3] else [])

/-- The router at the far end of an output. -/
def beyond (a : Nat × Nat) (out : Nat) : Nat × Nat :=
  if out = 0 then (a.1 + 1, a.2) else if out = 1 then (a.1 - 1, a.2) else if out = 2 then (a.1, a.2 + 1) else (a.1, a.2 - 1)

/-- The input port by which what leaves by a mesh output comes in: the one that faces where it comes from (R73). -/
def inputOf (out : Nat) : Nat := if out = 0 then 1 else if out = 1 then 0 else if out = 2 then 3 else 2

/-- The output of a lane's key. -/
def keyOut (q : Nat) : Nat := q / 4 % 6

/-- The lanes that a probe has reserved, the last first. -/
def ProbeRun.keys (p : ProbeRun) : List Nat := p.stack.map (·.2.2.2) ++ p.send

/-- The probe is for a program circuit. -/
def ProbeRun.prog (p : ProbeRun) : Bool := p.v % 2 == 0

/-- Which probe goes first when two move in one cycle: a program circuit's before a promotion's, then the one on the lower input port
(R73). -/
def probeFirst (a b : ProbeRun) : Bool := if a.prog != b.prog then a.prog else decide (a.inp < b.inp)

/-- A probe takes an output's lane and goes to the next router. -/
def probeForward (p : ProbeRun) (out q : Nat) : ProbeRun :=
  { p with cur := beyond p.cur out, inp := inputOf out, tried := [], stack := (p.cur, p.inp, out :: p.tried, q) :: p.stack, due := p.due + 2,
           claim := none }

/-- What a probe does at a router (R71). -/
inductive ProbeAct where
  | forward (out q : Nat)
  | claim (q : Nat)
  | wait
  | back
  | fail
  | arrive (q : Option Nat)
deriving DecidableEq, Repr

/-- The move of a probe, by R71; a lane for which it waited is its own once the promoted circuit has given it up (R73). -/
def probeAct (s : State) (p : ProbeRun) : ProbeAct :=
  let r := routerNo p.cur
  match p.claim with
  | some q => if mget 0 s.lanes q = p.v then .forward (keyOut q) q else .wait
  | none =>
    let fin := if p.recv then eligible s false p.die r 4 else none
    if p.cur = p.goal ∧ (¬ p.recv ∨ fin.isSome) then .arrive fin
    else
      let cand := if p.cur = p.goal then [] else (minimalOuts p.cur p.goal).filter (fun o => !p.tried.contains o)
      match cand.findSome? (fun o => (eligible s p.prog p.die r o).map (fun q => (o, q))) with
      | some (o, q) => if mget 0 s.lanes q = 0 then .forward o q else .claim q
      | none => if p.stack.isEmpty || p.backs == mgF s p.die oCpCtl 0 4 then .fail else .back

/-- A probe begins on a die: from a core endpoint with its send lane, when it has a free one, or from a hub (R71).  Its first move comes 4
fabric cycles later (R72). -/
def beginProbe (v k : Nat) (src goal : Nat × Nat) (send recv : Bool) (s : State) : Option State :=
  let p : ProbeRun := { v := v, die := k, goal := goal, recv := recv, cur := src, inp := if send then 4 else 5, tried := [], stack := [], backs := 0,
                        send := [], due := s.cyc + 2, claim := none }
  if !send then some { s with probes := s.probes ++ [p] }
  else (eligible s false k (routerNo src) 5).map (fun q =>
    { s with probes := s.probes ++ [{ p with send := [q] }], lanes := mset s.lanes q v })

/-! ## The slot calendar (R79, R80) -/

def calKey (die sail g : Nat) : Nat := die * 1024 + 128 * sail + g

/-- A calendar entry as it reads: dead when the grain pairs with a fenced die. -/
def calEntry (s : State) (die sail g : Nat) : BitVec 16 :=
  if dieOk s (partner die sail) then mget 0 s.calendar (calKey die sail g) else 0x00FE

/-- The grains of a sail that are open. -/
def openGrains (s : State) (die sail : Nat) : List Nat := (List.range 128).filter (fun g => calEntry s die sail g == 0)

/-- The grains that a partition's circuits hold on a die. -/
def grainsHeld (s : State) (die part : Nat) : Nat :=
  (s.calendar.filter (fun e => e.1 / 1024 = die && bitsN e.2 0 8 != 0 && decide (bitsN e.2 8 3 = part))).length

/-- The circuit id that a reservation takes: the lowest that no grain of the die carries (R79; log entry 64, DESIGN CHOICE). -/
def freeCid (s : State) (die : Nat) : Option Nat :=
  (tab 253 (· + 1)).find? (fun c => !s.calendar.any (fun e => e.1 / 1024 = die && decide (bitsN e.2 0 8 = c)))

/-- For each k, the first open grain at or after floor(128 × k / G), upward modulo 128 (R80). -/
def pickGrains (G : Nat) : Nat → List Nat → List Nat
  | 0, _ => []
  | n + 1, opens =>
    let from_ := 128 * (G - 1 - n) / G
    match (tab 128 (fun i => (from_ + i) % 128)).find? (opens.contains ·) with
    | some g => g :: pickGrains G n (opens.filter (· != g))
    | none => []

/-- The grains that a circuit of G grains to die j would take on die i, none when the reservation is refused (R80). -/
def reserveGrains (s : State) (i j part G : Nat) : Option (Nat × List Nat) :=
  let sail := directSail i j
  let opens := openGrains s i sail
  if opens.length < G + mgF s i oCpCtl 16 7 then none
  else if mgF s i (oPlim part) 0 10 < grainsHeld s i part + G then none
  else if !filashOk s || !dieOk s j then none
  else (freeCid s i).map (fun c => (c, pickGrains G G opens))

/-! ## Promoted circuits (R60, R86-R88) -/

def modPromo (fid : Nat) (f : Promo → Promo) (s : State) : State :=
  { s with promos := updFirst (fun g => g.fid = fid) f s.promos }

def dropPromo (fid : Nat) (s : State) : State := { s with promos := dropFirst (fun g => g.fid = fid) s.promos }

def crosses (f : Promo) : Bool := epDie f.src != epDie f.dst

def getPond (s : State) (k : Nat) : Pond := mget Pond.init s.ponds k
def modPond (k : Nat) (f : Pond → Pond) (s : State) : State := { s with ponds := mset s.ponds k (f (getPond s k)) }

/-- A relay queue has 1 MiB free of its 8 MiB (R82, R85, R88). -/
def relayRoom (s : State) (k : Nat) : Bool := decide ((getPond s k).resv.length < 8)

/-- 1 MiB of a relay queue is reserved for a flow, or released. -/
def relayTake (k fid : Nat) (s : State) : State := modPond k (fun p => { p with resv := p.resv ++ [(fid, 1048576)] }) s
def relayDrop (k fid : Nat) (s : State) : State := modPond k (fun p => { p with resv := dropFirst (fun r => r.1 = fid) p.resv }) s

/-- The sluice entry of a promoted flow takes a state. -/
def setEntry (f : Promo) (st : Nat) (s : State) : State :=
  let sl := mget Sluice.init s.sluices f.sluice
  let m := meterOf sl f.entry
  if m.src == f.src && m.dst == f.dst && m.label == f.label then
    { s with sluices := mset s.sluices f.sluice { sl with meters := mset sl.meters f.entry { m with st := st } } }
  else s

/-- A packet that a promoted circuit carries passes the source's first output port: its flow's entry there counts it (R58, R87,
R470). -/
def laneMeter (f : Promo) (p : Pkt) (s : State) : State :=
  let sl := mget Sluice.init s.sluices f.sluice
  let m := meterOf sl f.entry
  if m.st != 0 && m.src == f.src && m.dst == f.dst && m.label == f.label then
    { s with sluices := mset s.sluices f.sluice { sl with meters := mset sl.meters f.entry { m with count := min (m.count + flitBytes p) 0xFFFFFFFF } } }
  else s

/-- The VC 0 flows of a key that have sent a packet (R86). -/
def keyFlows (s : State) (f : Promo) : List Flow :=
  (s.sendSeq.filter (fun q => q.1.src == f.src && q.1.dst == f.dst && q.1.label == f.label && q.1.vc == 0)).map (·.1)

/-- A path marker of a flow, with the flow's next SEQ (R86). -/
def markerOf (s : State) (f : Promo) (ty via : Nat) (fl : Flow) : Pkt :=
  { mkPkt 7 0 f.part f.src f.dst 0 0 [] .none with
    label := f.label, ocls := fl.ocls, opc := BitVec.ofNat 16 (ty + 4 * via), seq := nextSeq s fl }

/-- The markers of a path change, on the packet plane or behind what the circuit carries, and the change is outstanding until
each is acknowledged (R86, R87). -/
def sendMarkers (fid ty via : Nat) (plane : Bool) (s : State) : State :=
  match s.promos.find? (fun f => f.fid = fid) with
  | none => s
  | some f =>
    let fls := keyFlows s f
    let old := match f.change with | some (_, _, p, _) => p | none => []
    let pend := old ++ fls.map (fun l => l.ocls.toNat)
    let s1 := fls.foldl (fun t l =>
      let m := stamp t (markerOf t f ty via l)
      let t1 := bumpSeq t l
      if plane then enterNet t1 m else modPromo fid (fun g => { g with lane := g.lane ++ [m] }) t1) s
    modPromo fid (fun g => { g with change := if pend.isEmpty then none else some (ty, via, pend, 0) }) s1

/-- A promotion whose probe succeeded starts, or waits for room in the receiving die's relay queue (R87, R88). -/
def goLive (fid : Nat) (s : State) : State :=
  match s.promos.find? (fun f => f.fid = fid) with
  | none => s
  | some f =>
    if crosses f && !relayRoom s (epDie f.dst) then s
    else
      let s1 := if crosses f then relayTake (epDie f.dst) fid s else s
      sendMarkers fid 0 0 true (modPromo fid (fun g => { g with live := true }) s1)

/-- What a circuit that fails carries is lost, and its lanes are free. -/
def loseLanes (fid : Nat) (s : State) : State :=
  modPromo fid (fun g => { g with lanes := [], lane := [], far := [], prog := 0 }) (dropLanes (promoVal fid) s)

/-- Held-back data takes its SEQs and goes on the packet plane, at once after the fallback's markers (R87). -/
def flushBacklog (f : Promo) (s : State) : State :=
  f.backlog.foldl (fun t p => let r := numbered t p; enterNet r.2 r.1) (modPromo f.fid (fun g => { g with backlog := [] }) s)

/-- A promoted flow falls back (R87): `failed` when a lane has failed, so that what the circuit carries is lost.  A flow whose probe is
under way goes to HOLD as after a failed probe when a lane of it fails (R60), and cannot be claimed. -/
def fallback (fid : Nat) (failed : Bool) (s : State) : State :=
  match s.promos.find? (fun f => f.fid = fid) with
  | none => s
  | some f =>
    if f.probing then (if failed then dropPromo fid (dropLanes (promoVal fid) (setEntry f 4 s)) else s)
    else if !f.live then
      (if f.change.isNone then dropPromo fid (dropLanes (promoVal fid) (setEntry f 1 s))
       else if failed then loseLanes fid s else s)
    else
      let s1 := setEntry f 1 s
      let s2 := if failed then loseLanes fid s1 else s1
      flushBacklog f (sendMarkers fid 1 0 failed (modPromo fid (fun g => { g with live := false }) s2))

/-- What a millpond or a grain under way holds of a promoted flow. -/
def pondHas (s : State) (fid : Nat) : Bool :=
  let mine : PondItem → Bool := fun i => match i with | .pkt g _ _ => g == fid | _ => false
  s.ponds.any (fun e => e.2.dep.any (fun d => d.2.any mine) || e.2.relay.any (fun r => mine r.2)) || s.grains.any (fun g => g.items.any mine)

/-- The mesh links of a path on a die. -/
def pathHops (die : Nat) (lanes : List Nat) : Nat := (lanes.filter (fun q => q / 1728 == die && decide (keyOut q < 4))).length

/-- The fabric cycles that a beat takes on a die: from a core, or from the millpond, through its routers to a core, or to the millpond (R70). -/
def beatTime (hops : Nat) (mill : Bool) : Nat := (if mill then 14 else 8) + 2 * (hops + 1)

/-- The fabric cycles from a beat's passing a crosspoint to its arrival at the end of its path on that die (R70). -/
def tailTime (lanes : List Nat) (mill : Bool) (q : Nat) : Nat :=
  let l := lanes.filter (fun e => e / 1728 == q / 1728 && decide (keyOut e < 4))
  if keyOut q = 4 then 0 else (if mill then 10 else 4) + 2 * (1 + l.idxOf q)

/-- The fabric cycle in which the last item of a flow in its die's departure queues is there. -/
def lastInto (s : State) (f : Promo) : Nat :=
  (getPond s (epDie f.src)).dep.foldl (fun n d => d.2.foldl (fun n i => match i with | .pkt g _ e => if g = f.fid then max n e else n | _ => n) n) 0

/-- All that a flow has sent, its last marker among it, has passed a crosspoint of its circuit (R70, R87). -/
def hasPassed (s : State) (f : Promo) (q : Nat) : Bool :=
  if crosses f && q / 1728 == epDie f.src then dueBy s (lastInto s f - tailTime f.lanes true q)
  else (!crosses f || !pondHas s f.fid)
    && (match f.far.getLast? with | some e => dueBy s (e.2.1 - tailTime f.lanes false q) | none => true)

/-- The crosspoints of a circuit given up are released as its last marker passes them (R87). -/
def releasePassed (fid : Nat) (s : State) : State :=
  match s.promos.find? (fun f => f.fid = fid) with
  | none => s
  | some f => if f.live || f.probing || !f.lane.isEmpty || f.change.isNone then s else dropLanesIf (promoVal fid) (hasPassed s f) s

/-- The probe of a flow handed to the circuit port: within its die, or first to its hub (R60, R71); without a free send lane it is refused at
its router. -/
def startPromoProbe (f : Promo) (s : State) : State :=
  let i := epDie f.src
  let a := unitXY (epUnit f.src)
  let near := i = epDie f.dst
  let goal := if near then unitXY (epUnit f.dst) else hubXY (epCluster f.src)
  let refuse (t : State) : State := sendAt (.router i a.1 a.2 4) t (mkPkt 8 2 f.part f.src f.src 0 0 [] (.probeRefusal f.fid 8))
  let s1 := modPromo f.fid (fun g => { g with leg := 1 }) s
  if !near && (!filashOk s || !dieOk s (epDie f.dst)) then refuse s1
  else match beginProbe (promoVal f.fid) i a goal true (decide near) s1 with
    | some t => t
    | none => refuse s1

/-- The second probe of a crossing flow, from the far hub to the destination (R60, R71). -/
def farPromoProbe (f : Promo) (s : State) : State :=
  let j := epDie f.dst
  (beginProbe (promoVal f.fid) j (hubXY (epCluster f.dst)) (unitXY (epUnit f.dst)) false true
    (modPromo f.fid (fun g => { g with leg := 2, due := 0 }) s)).getD s

/-- The flows of a core that were handed to its circuit port send their probes. -/
def startProbes (k : Nat) (s : State) : State :=
  (s.promos.filter (fun f => f.probing && f.leg == 0 && f.src == coreEp s k)).foldl (fun t f => startPromoProbe f t) s

/-- The bytes of packets in a millpond's departure queue (R82). -/
def itemBytes : PondItem → Nat
  | .beat _ b => 4 * b.ws.length
  | .pkt _ p _ => flitBytes p

def queueBytes (l : List PondItem) : Nat := l.foldl (fun n i => n + itemBytes i) 0

/-- The bytes that a departure queue keeps for the reserved grains of circuits (R82). -/
def reservedBytes (s : State) (i j : Nat) : Nat :=
  (s.circuits.filter (fun c => dieOf (coreOf c.x) == i && dieOf (coreOf c.dx) == j)).foldl (fun n c => n + 32768 * c.grains.length) 0

def isPktItem : PondItem → Bool
  | .pkt _ _ _ => true
  | _ => false

/-- The fabric cycle in which an item is in its queue. -/
def itemDue : PondItem → Nat
  | .beat _ b => b.due
  | .pkt _ _ d => d

/-- The space that a departure queue counts: what it keeps for circuits, and its packets. -/
def queueLoad (s : State) (i : Nat) (q : Nat × List PondItem) : Nat :=
  reservedBytes s i q.1 + queueBytes (q.2.filter isPktItem)

/-- A departure queue of die i towards die m has room for n bytes: 8 MiB each, 40 MiB together (R82). -/
def pondRoom (s : State) (i m n : Nat) : Bool :=
  let all := tab 8 (fun j => (j, mget [] (getPond s i).dep j))
  decide (queueLoad s i (m, mget [] (getPond s i).dep m) + n ≤ 8388608)
    && decide (all.foldl (fun a q => a + queueLoad s i q) 0 + n ≤ 41943040)

/-- An item joins a departure queue, in the order of arrival (R70, R82). -/
def joinQueue (x : PondItem) (l : List PondItem) : List PondItem :=
  l.takeWhile (fun i => decide (itemDue i ≤ itemDue x)) ++ x :: l.dropWhile (fun i => decide (itemDue i ≤ itemDue x))

def pushDep (i m : Nat) (x : PondItem) (s : State) : State :=
  modPond i (fun p => { p with dep := mset p.dep m (joinQueue x (mget [] p.dep m)) }) s

/-! ## Beats (R68, R69) -/

/-- One bit of a CRC-8 with polynomial 0x07. -/
def crc8Step (c : Nat) : Nat := if 128 ≤ c then (2 * c % 256) ^^^ 7 else 2 * c

/-- One byte enters a CRC-8. -/
def crc8Byte (c : Nat) (b : Byte) : Nat := crc8Step (crc8Step (crc8Step (crc8Step (crc8Step (crc8Step (crc8Step (crc8Step (c ^^^ b.toNat))))))))

/-- CHK of a beat: over its 32 data bytes, then SEQ as a byte (R68; log entry 65, PRESUMED: the order of the bits). -/
def beatChk (data : List Byte) (seq : BitVec 4) : BitVec 8 :=
  BitVec.ofNat 8 ((tab 32 (fun i => data.getD i 0) ++ [BitVec.ofNat 8 seq.toNat]).foldl crc8Byte 0)

/-- The header of R45, bit 0 its lowest. -/
def headerBits (p : Pkt) : Nat :=
  p.kind.toNat + p.part.toNat * 2 ^ 4 + p.mmh.toNat * 2 ^ 7 + p.ocls.toNat * 2 ^ 8 + p.vc.toNat * 2 ^ 12 + p.disp.toNat * 2 ^ 14
  + p.merged.toNat * 2 ^ 15 + p.src.toNat * 2 ^ 16 + p.dst.toNat * 2 ^ 32 + p.label.toNat * 2 ^ 48 + p.hint.toNat * 2 ^ 64
  + p.seq.toNat * 2 ^ 68 + p.len.toNat * 2 ^ 80 + p.host.toNat * 2 ^ 83 + p.tag.toNat * 2 ^ 88 + p.bytes.toNat * 2 ^ 104
  + p.addr.toNat * 2 ^ 128 + p.ver.toNat * 2 ^ 176 + p.opc.toNat * 2 ^ 208 + p.orig.toNat * 2 ^ 224

/-- The bytes of a packet's flits: its header, then its payload, then zeros (R44, R45). -/
def packetBytes (p : Pkt) : List Byte := leBytes 32 (headerBits p) ++ tab (flitBytes p - 32) (fun i => p.data.getD i 0)

/-- A packet's beats: two to a flit. -/
def packetBeats (p : Pkt) : Nat := 2 * flitCount p

/-- Beat n of a packet as it is received, with some bits of its data inverted, passes the check of CHK (R69). -/
def packetBeatGood (p : Pkt) (n : Nat) (seq : BitVec 4) (flips : BitVec 256) : Bool :=
  let d := tab 32 (fun i => (packetBytes p).getD (32 * n + i) 0)
  beatChk (leBytes 32 (leNat d ^^^ flips.toNat)) seq == beatChk d seq

/-- A packet goes onto a promoted flow's receiving lane, its beats numbered; the last one arrives in fabric cycle t, or as soon as the packets before it
are through (R68, R70). -/
def ontoFar (t : Nat) (p : Pkt) (f : Promo) : Promo :=
  let free := match f.far.getLast? with | some e => e.2.1 + packetBeats p | none => 0
  { f with far := f.far ++ [(f.sseq, max t free, p)], sseq := f.sseq + BitVec.ofNat 4 (packetBeats p) }

/-- The lane of a promoted flow moves two beats, one flit, in a cycle.  When the last of its first packet has passed the packet moves on: to the
receiving lane within its die, else into the millpond, to the departure queue of its path (R68, R70, R82, R84-R87).  A marker of a move
goes by the old path, and what follows it by the new one. -/
def promoStep (fid : Nat) (s : State) : State :=
  match s.promos.find? (fun f => f.fid = fid) with
  | none => s
  | some f =>
    match f.lane with
    | [] => s
    | p :: l =>
      if f.prog + 1 < flitCount p then modPromo fid (fun g => { g with prog := g.prog + 1 }) s
      else
        let i := epDie f.src
        let t := 2 * s.cyc + 1 + beatTime (pathHops i f.lanes) (crosses f)
        if !crosses f then laneMeter f p (modPromo fid (fun g => ontoFar t p { g with lane := l, prog := 0 }) s)
        else
          let m := f.relay.getD (epDie f.dst)
          if pondRoom s i m (flitBytes p) then
            let ty := bitsN p.opc 0 2
            let relay := if p.kind = 7 ∧ ty = 2 then some (bitsN p.opc 2 3) else if p.kind = 7 ∧ ty = 3 then none else f.relay
            laneMeter f p (pushDep i m (.pkt fid p t) (modPromo fid (fun g => { g with lane := l, relay := relay, prog := 0 }) s))
          else s

/-- The receiving endpoint's part: packets held for a marker are handed over when their turn comes (R88). -/
def drainHeld (fid : Nat) (s : State) : State :=
  match s.promos.find? (fun f => f.fid = fid) with
  | none => s
  | some f => f.heldNew.foldl (fun t p =>
      if p.seq = (recvOf t p.flow).next then
        modPromo fid (fun g => { g with heldNew := dropFirst (fun q => q = p) g.heldNew }) (receive t p)
      else t) s

/-- A packet reaches its endpoint by a promoted circuit: handed over in SEQ order, or held while the marker of its flow is not
released (R88); it stays on the lane while the endpoint cannot take it (R51). -/
def promoArrive (f : Promo) (p : Pkt) (s : State) : Option State :=
  let waits := match f.change with | some (ty, _, pend, _) => ty != 1 && pend.contains p.ocls.toNat | none => false
  let t := modPromo f.fid (fun g => { g with far := g.far.drop 1, rseq := g.rseq + BitVec.ofNat 4 (packetBeats p) }) s
  if waits && p.seq != (recvOf s p.flow).next then some (modPromo f.fid (fun g => { g with heldNew := g.heldNew ++ [p] }) t)
  else if accepts t p then some (drainHeld f.fid (receive t p))
  else if (recvOf s p.flow).since.isNone then some (refusePkt s p) else none

/-- The promoted flow of a marker. -/
def promoOfMarker (s : State) (p : Pkt) : Option Promo :=
  s.promos.find? (fun f => f.src == p.src && f.dst == p.dst && f.label == p.label)

/-- PATH_MARKER (a: endpoint): the marker is released and acknowledged, and the packets behind it follow (R88). -/
def execPathMarker (s : State) : Res :=
  let e := argEp s
  match rxHead s e with
  | some p => gate (p.kind == 7) "PATH_MARKER" (fun t =>
      let t1 := rxTake t e
      let fid := match promoOfMarker t1 p with | some f => f.fid | none => 0
      let t2 := sendPkt t1 (mkPkt 8 2 p.part p.dst p.src 0 0 [] (.markerAck fid p.ocls.toNat))
      match promoOfMarker t2 p with
      | none => t2
      | some f => drainHeld f.fid t2) s
  | none => gate false "PATH_MARKER" id s

/-- Held-back data takes its SEQs and follows on the circuit (R88). -/
def backlogOnLane (f : Promo) (s : State) : State :=
  f.backlog.foldl (fun t p => let r := numbered t p; modPromo f.fid (ontoLane r.1) r.2) (modPromo f.fid (fun g => { g with backlog := [] }) s)

/-- A path change whose last marker is acknowledged is over: held data follows on the circuit; a flow that has fallen back is done
with (R86, R88). -/
def changeOver (f : Promo) (s : State) : State :=
  let s1 := if crosses f then relayDrop (epDie f.dst) f.fid s else s
  if f.live then backlogOnLane f (modPromo f.fid (fun g => { g with change := none }) s1)
  else dropPromo f.fid (dropLanes (promoVal f.fid) (match f.relay with | some m => relayDrop m f.fid s1 | none => s1))

/-- MARKER_ACKNOWLEDGEMENT (a: endpoint): R88. -/
def execMarkerAcknowledgement (s : State) : Res :=
  let e := argEp s
  match rxHead s e with
  | some p =>
    (match p.msg with
    | .markerAck fid fl => gate true "MARKER_ACKNOWLEDGEMENT" (fun t =>
        let t1 := rxTake t e
        match t1.promos.find? (fun f => f.fid = fid) with
        | none => t1
        | some f =>
          match f.change with
          | none => t1
          | some (ty, via, pend, sent) =>
            let rest := dropFirst (· == fl) pend
            if rest.isEmpty then changeOver f t1
            else modPromo fid (fun g => { g with change := some (ty, via, rest, sent) }) t1) s
    | _ => gate false "MARKER_ACKNOWLEDGEMENT" id s)
  | none => gate false "MARKER_ACKNOWLEDGEMENT" id s

/-! ## The decay of the sluices (R59, R60, R87) -/

/-- One meter entry at a decay step, with half its count. -/
def decayMeter (s : State) (k : Nat) (m : Meter) : Meter :=
  if m.st = 0 then m
  else
    let n := m.count / 2
    let t := promoThreshold s k m.part.toNat
    if m.st = 1 ∧ n = 0 then Meter.init
    else { m with count := n, st := if m.st = 4 ∧ 2 * n < t then 1 else m.st }

/-- SLUICE_DECAY: every count is halved; entries with little left become FREE or METER, and promoted flows with less than half
the threshold fall back. -/
def execSluiceDecay (s : State) : Res :=
  gate (s.running && decide (0 < coreCyc s) && coreCyc s % 4096 == 0) "SLUICE_DECAY" (fun t =>
    let t1 : State := { t with sluices := t.sluices.map (fun (e : Nat × Sluice) =>
      (e.1, { e.2 with meters := e.2.meters.map (fun (m : Nat × Meter) => (m.1, decayMeter t (e.1 / 1024) m.2)) })) }
    (t1.promos.filter (fun f =>
      let m := meterOf (mget Sluice.init t1.sluices f.sluice) f.entry
      f.live && f.change.isNone && m.st == 3 && decide (2 * m.count < promoThreshold t1 (f.sluice / 1024) f.part.toNat))).foldl
        (fun u f => fallback f.fid false u) t1) s

end Sys2Proof.Machine
end

