-- ==== Sys2Proof/Machine/Circuit.lean ====
section
/-!
DEFINITION. Program circuits (R89-R94, R441-R443): the open, the sends, the beats, the ends; and the circuit port's choice of
commands (R493).
-/

namespace Sys2Proof.Machine

open Sys2Proof

/-! ## Handles -/

def findCircuit (s : State) (cid : Nat) : Option Circuit := s.circuits.find? (fun q => q.cid = cid)

/-- The handle that stands for a circuit changes, if it still does. -/
def modHandle (q : Circuit) (f : CkHandle → CkHandle) (s : State) : State :=
  modX s q.x (fun c => let h := readK c q.k; if h.cid = q.cid then setK c q.k (f h) else c)

def handleIs (s : State) (q : Circuit) (st : BitVec 3) : Bool :=
  let h := readK (getX s q.x) q.k
  h.cid == q.cid && h.st == st

/-- The grains of a circuit are open again (R80). -/
def dropGrains (q : Circuit) (s : State) : State :=
  { s with calendar := q.grains.foldl (fun m g => mdel m g) s.calendar }

/-- What a departure queue or a grain under way holds for a circuit is gone. -/
def dropPondBeats (cid : Nat) (s : State) : State :=
  let other : PondItem → Bool := fun i => match i with | .beat c _ => c != cid | .pkt _ _ _ => true
  { s with ponds := s.ponds.map (fun (e : Nat × Pond) => (e.1, { e.2 with dep := e.2.dep.map (fun (d : Nat × List PondItem) => (d.1, d.2.filter other)) })),
           grains := s.grains.map (fun g => { g with items := g.items.filter other }) }

/-- A send of a circuit completes: its increment may be applied (R442). -/
def sendDone (x id : Nat) (s : State) : State := settleIncs (modX s x (fun c => incReady c id)) x

/-- A circuit is over: what it held is free, and its sends complete. -/
def retireCircuit (q : Circuit) (s : State) : State :=
  let s1 := dropPondBeats q.cid (dropGrains q (dropLanes (progVal q.cid) s))
  let s2 : State := { s1 with circuits := dropFirst (fun r => r.cid = q.cid) s1.circuits }
  q.sends.foldl (fun t m => sendDone q.x m.1 t) s2

/-- An open fails: everything reserved is released, and the handle is FAILED with the cause (R89, R92). -/
def failOpen (q : Circuit) (cause : Nat) (s : State) : State :=
  retireCircuit q (modHandle q (fun h => { h with st := 5, cause := BitVec.ofNat 4 cause }) s)

/-! ## Collapse (R92, R93) -/

def ckCLOSE : Nat := 1
def ckLEASE : Nat := 2
def ckSPREEMPT : Nat := 3
def ckRPREEMPT : Nat := 4
def ckLINK : Nat := 5
def ckFENCE : Nat := 6
def ckLOST : Nat := 7
def ckNOLANE : Nat := 8
def ckNOGRAIN : Nat := 9
def ckBADDEST : Nat := 10
def ckOVERRUN : Nat := 11

/-- The order in which causes of one cycle are preferred. -/
def causeRank (c : Nat) : Nat := if c = 6 then 0 else if c = 5 then 1 else if c = 4 then 2 else if c = 3 then 3 else if c = 2 then 4 else if c = 1 then 5 else 6

/-- A control flit or report between the two ends of a circuit. -/
def ckPacket (s : State) (q : Circuit) (kind : BitVec 4) (vc : BitVec 2) (back : Bool) (m : Msg) : State :=
  let a := coreEp s (coreOf q.x)
  let b := coreEp s (coreOf q.dx)
  sendPkt s (mkPkt kind vc q.part (if back then b else a) (if back then a else b) 0 0 [] m)

/-- The circuit's last data has left its die's millpond: its grains are open again (R80). -/
def reopenGrains (q : Circuit) (s : State) : State := modCircuit (dropGrains q s) q.cid (fun r => { r with grains := [] })

/-- The receiving port has stopped: its lanes are free, and it reports the resume point (R93, R94). -/
def receiverStop (q : Circuit) (s : State) : State :=
  if q.report.isSome then s
  else
    let s1 := modCircuit (dropLanes (progVal q.cid) s) q.cid (fun r => { r with report := some r.recvW, far := [], lanes := [], stage := 6 })
    ckPacket s1 q 6 0 true (.resume q.cid q.recvW)

/-- Beats in flight are lost; the receiver stops at once when it found the fault itself, else at the notice (R93). -/
def cutCircuit (q : Circuit) (receiver : Bool) (s : State) : State :=
  let s1 := reopenGrains q (modCircuit (dropPondBeats q.cid s) q.cid (fun r => { r with far := [], clean := false, stage := 5 }))
  if receiver then receiverStop { q with far := [] } s1
  else ckPacket s1 q 8 2 false (.collapse q.cid q.cause)

/-- The bytes of words, little-endian. -/
def bytesOfWords (ws : List Word) : List Byte := ws.flatMap (fun w => leBytes 4 w.toNat)

/-- The fabric cycle in which a beat arrives that takes n fabric cycles from now on, behind those that are on their way: one beat to a fabric cycle
(R68, R70). -/
def beatDue (n : Nat) (l : List Beat) (s : State) : Nat :=
  match l.getLast? with | some b => max (2 * s.cyc + n) (b.due + 1) | none => 2 * s.cyc + n

/-- A beat is on its way on the receiving lane of its circuit. -/
def ontoLaneFar (n : Nat) (b : Beat) (s : State) (q : Circuit) : Circuit := { q with far := q.far ++ [{ b with due := beatDue n q.far s }] }

/-- The beats of a circuit that stand in a departure queue. -/
def queuedBeats (s : State) (q : Circuit) : List Beat :=
  (mget [] (getPond s (dieOf (coreOf q.x))).dep (dieOf (coreOf q.dx))).filterMap (fun i => match i with | .beat c b => if c = q.cid then some b else none | _ => none)

/-- A beat leaves the sender with the circuit's next SEQ and its CHK: to the receiving lane on one die, else into the departure queue
(R68, R70, R82). -/
def emitBeat (q : Circuit) (ws : List Word) (last : Bool) (s : State) : State :=
  let i := dieOf (coreOf q.x)
  let j := dieOf (coreOf q.dx)
  let n := beatTime (pathHops i q.lanes) (i != j)
  let b : Beat := ⟨ws, last, q.sseq, beatChk (bytesOfWords ws) q.sseq, 0⟩
  let s1 := modCircuit s q.cid (fun r => { r with sseq := r.sseq + 1 })
  if i = j then modCircuit s1 q.cid (ontoLaneFar n b s) else pushDep i j (.beat q.cid { b with due := beatDue n (queuedBeats s q) s }) s1

/-- A clean end: an END beat behind the last word sent; the rest of the sends stays unsent. -/
def closeCircuit (q : Circuit) (s : State) : State :=
  emitBeat q [] true (modCircuit s q.cid (fun r => { r with clean := true, stage := 5 }))

/-- A circuit collapses with a cause; `receiver` when the receiving port found it (R92, R93).  Of causes that fall in one cycle the
first in the order of R92 is recorded; an open still under way fails, or ends with the context that named it. -/
def collapse (cid cause : Nat) (receiver : Bool) (s : State) : State :=
  match findCircuit s cid with
  | none => s
  | some q =>
    if q.stage < 4 then
      if cause = ckSPREEMPT ∨ cause = ckRPREEMPT then
        retireCircuit q (modHandle q (fun h => { h with st := 4, cause := BitVec.ofNat 4 cause }) s)
      else failOpen q (if cause = ckFENCE then ckBADDEST else ckNOLANE) s
    else if q.stage = 4 then
      let s1 := modHandle q (fun h => { h with st := 3, cause := BitVec.ofNat 4 cause }) s
      let s2 := addTimer (modCircuit s1 cid (fun r => { r with collapsed := some s.cyc, cause := cause })) 262144 .resumeReportTimeout
        (EvArg.of cid)
      if cause ≤ ckSPREEMPT then closeCircuit q s2 else cutCircuit { q with cause := cause } receiver s2
    else
      let better := q.collapsed == some s.cyc && decide (causeRank cause < causeRank q.cause)
      let s1 := if better then
          modHandle q (fun h => { h with cause := BitVec.ofNat 4 cause }) (modCircuit s cid (fun r => { r with cause := cause }))
        else s
      if ckSPREEMPT < cause ∧ (q.clean ∨ receiver) ∧ q.report.isNone then cutCircuit q receiver s1 else s1

/-! ## The open (R89) -/

/-- The destination port's checks of an open: a task of the partition, the range and the barrier inside its region (R441). -/
def destOk (s : State) (q : Circuit) : Bool :=
  let c := getX s q.dx
  let lo := 65536 * c.tsBase.toNat
  let hi := 65536 * (c.tsBase.toNat + c.tsSize.toNat)
  c.task && c.part == q.part && decide (lo ≤ 4 * q.base) && decide (4 * q.base + 4 * q.limit ≤ hi)
  && (match q.bar with | some b => decide (lo ≤ b) && decide (b + 16 ≤ hi) | none => true)

/-- The destination exists: its die is healthy, its cluster has an active core of that number. -/
def destExists (s : State) (q : Circuit) : Bool := dieOk s (dieOf (coreOf q.dx)) && (getC s (coreOf q.dx)).active

/-- What an open names. -/
structure OpenArgs where
  x : Nat
  k : Nat
  dx : Nat
  base : Nat
  limit : Nat
  bar : Option Nat
  g : Nat
  lease : Nat
  node : Option (Nat × Nat)

/-- The parameter block of `ckopen` (R441). -/
def openBlock (x k : Nat) (b : BitVec 512) : OpenArgs :=
  { x := x, k := k, dx := 4 * (bitsN b 0 3 * 64 + bitsN b 3 2 * 16 + bitsN b 5 4) + bitsN b 9 2, base := bitsN b 64 20,
    limit := bitsN b 84 20, bar := if bit b 15 then some (16 * bitsN b 104 18) else none, g := bitsN b 11 4 + 1,
    lease := bitsN b 16 24, node := none }

/-- The circuit that an open begins. -/
def newCircuit (a : OpenArgs) (cid : Nat) (part : BitVec 3) : Circuit :=
  { cid := cid, x := a.x, k := a.k, dx := a.dx, part := part, base := a.base, limit := a.limit, bar := a.bar, g := a.g, lease := a.lease,
    stage := 0, lanes := [], grains := [], far := [], due := 0, sseq := 0, rseq := 0, sentW := 0, recvW := 0, ackW := 0, clean := false,
    cause := 0, collapsed := none, report := none, sends := [], node := a.node, usable := 0 }

/-- A refusal goes from a router, or from the endpoint behind it, to the endpoint from which the probe started (R72). -/
def refuseProbe (l : Loc) (part : BitVec 3) (src : Ep) (id cause : Nat) (s : State) : State :=
  sendAt l s (mkPkt 8 2 part src src 0 0 [] (.probeRefusal id cause))

/-- An open starts: a destination that does not exist fails it at once; else the first probe runs, to the destination core on one
die, else to the hub of the sender's cluster; without a free send lane it is refused (R71, R89, R441). -/
def startOpen (q : Circuit) (s0 : State) : State :=
  let s : State := { s0 with circuits := s0.circuits ++ [q] }
  let i := dieOf (coreOf q.x)
  let near := i = dieOf (coreOf q.dx)
  let e := coreEp s (coreOf q.x)
  let a := unitXY (epUnit e)
  let goal := if near then unitXY (epUnit (coreEp s (coreOf q.dx))) else hubXY (clusterOf (coreOf q.x))
  if !destExists s q then failOpen q ckBADDEST s
  else match beginProbe (progVal q.cid) i a goal true (decide near) s with
    | some t => t
    | none => refuseProbe (.router i a.1 a.2 4) q.part e q.cid ckNOLANE s

/-! ## Probes under way (R71-R73) -/

/-- The circuit or promoted flow of a probe. -/
def ProbeRun.id (p : ProbeRun) : Nat := (p.v - 2) / 2

def setProbe (p : ProbeRun) (s : State) : State := { s with probes := updFirst (fun q => q.v = p.v) (fun _ => p) s.probes }
def endProbe (p : ProbeRun) (s : State) : State := { s with probes := dropFirst (fun q => q.v = p.v) s.probes }

/-- The endpoint that a probe leaves from, and the partition it is for: the sender on its die, the hub on the far one. -/
def probeSource (s : State) (p : ProbeRun) : Ep × BitVec 3 :=
  if p.prog then
    match findCircuit s p.id with
    | some q => (if p.send.isEmpty then hubEp p.die (clusterOf (coreOf q.dx)) else coreEp s (coreOf q.x), q.part)
    | none => (0, 0)
  else
    match s.promos.find? (fun f => f.fid = p.id) with
    | some f => (if p.send.isEmpty then hubEp p.die (epCluster f.dst) else f.src, f.part)
    | none => (0, 0)

/-- The destination port refuses an open: its context holds no task of the partition, or the range lies outside its region (R441). -/
def portRefuses (s : State) (p : ProbeRun) : Bool :=
  p.prog && p.recv && (findCircuit s p.id).any (fun q => !destOk s q)

/-- A state, and the lanes that are released at the end of its cycle, each with its holder (R70). -/
abbrev Releasing := State × List (Nat × Nat)

/-- Everything that a probe has reserved is released, and its refusal leaves (R71, R72). -/
def probeFails (p : ProbeRun) (cause : Nat) (r : Releasing) : Releasing :=
  let e := probeSource r.1 p
  (refuseProbe (.router p.die p.cur.1 p.cur.2 p.inp) e.2 e.1 p.id cause (endProbe p r.1), r.2 ++ p.keys.map (fun q => (p.v, q)))

/-- The path that a probe has reserved is its circuit's, the endpoint takes two cycles, and the acknowledgement arrives after one cycle a hop and two at each
endpoint (R72). -/
def probeSucceeds (p : ProbeRun) (fin : Option Nat) (s : State) : State :=
  let keys := fin.toList ++ p.keys
  let n := s.cyc + p.stack.length + 6
  let s1 : State := { endProbe p s with lanes := fin.toList.foldl (fun m q => mset m q p.v) s.lanes }
  if p.prog then modCircuit s1 p.id (fun q => { q with lanes := keys ++ q.lanes, due := n })
  else modPromo p.id (fun f => { f with lanes := keys ++ f.lanes, due := n }) s1

/-- A probe makes its move (R71, R73). -/
def probeMove (p : ProbeRun) (r : Releasing) : Releasing :=
  let s := r.1
  match probeAct s p with
  | .forward out q => (setProbe (probeForward p out q) { s with lanes := mset s.lanes q p.v }, r.2)
  | .claim q => (fallback ((mget 0 s.lanes q - 3) / 2) false (setProbe { p with claim := some q, due := s.cyc + 1 } s), r.2)
  | .wait => (setProbe { p with due := s.cyc + 1 } s, r.2)
  | .back =>
    (match p.stack with
    | [] => r
    | b :: l => (setProbe { p with cur := b.1, inp := b.2.1, tried := b.2.2.1, stack := l, backs := p.backs + 1, due := s.cyc + 2 } s,
                 r.2 ++ [(p.v, b.2.2.2)]))
  | .fail => probeFails p ckNOLANE r
  | .arrive fin => if portRefuses s p then probeFails p ckBADDEST r else (probeSucceeds p fin s, r.2)

/-- The probes whose next move falls in this cycle, in the order of R73. -/
def movingProbes (s : State) : List ProbeRun :=
  let l := s.probes.filter (fun p => decide (p.due ≤ s.cyc))
  [true, false].flatMap (fun b => (List.range 6).flatMap (fun i => l.filter (fun p => p.prog == b && p.inp == i)))

/-- The probes' part of a cycle, and the crosspoints that markers pass in it; a lane released in it is free from the next one on (R70, R87). -/
def probesStep (s : State) : State :=
  let r := (movingProbes s).foldl (fun (a : Releasing) p => match a.1.probes.find? (fun q => q.v = p.v) with | some q => probeMove q a | none => a) (s, [])
  let s1 := r.2.foldl (fun t e => dropLanesIf e.1 (fun q => q == e.2) t) r.1
  s1.promos.foldl (fun t f => releasePassed f.fid t) s1

/-- The circuit is open: the lease runs from this cycle (R89). -/
def openNow (q : Circuit) (s : State) : State :=
  addTimer (modHandle q (fun h => { h with st := 2, cause := 0, leaseEnd := s.cyc + q.lease })
    (modCircuit s q.cid (fun r => { r with stage := 4 }))) q.lease .leaseExpiry (EvArg.of q.cid)

/-- The packet at the head of a core's or hub's endpoint that speaks of a circuit in a given way. -/
def ckMessage (s : State) (f : Msg → Bool) (e : Ep) : Option Pkt := (rxHead s e).bind (fun p => if f p.msg then some p else none)

def isAck (cid : Nat) : Msg → Bool
  | .probeAck c => c == cid
  | _ => false
def isRefusal (cid : Nat) : Msg → Bool
  | .probeRefusal c _ => c == cid
  | _ => false
def isSetup (cid : Nat) : Msg → Bool
  | .setup c => c == cid
  | _ => false
def isNotice (cid : Nat) : Msg → Bool
  | .collapse c _ => c == cid
  | _ => false
def isResume (cid : Nat) : Msg → Bool
  | .resume c _ => c == cid
  | _ => false
def isSendAck (cid : Nat) : Msg → Bool
  | .sendAck c _ => c == cid
  | _ => false

/-- A message about a circuit that is over reaches its endpoint: it is taken, without effect. -/
def strayMessage (f : Msg → Bool) (name : String) (s : State) : Res :=
  match s.rx.find? (fun p => f p.msg && rxHead s p.dst == some p) with
  | some p => gate true name (fun t => rxTake t p.dst) s
  | none => gate false name id s

/-- The hubs of the sending and the receiving core of a circuit, and of a promoted flow. -/
def nearHub (q : Circuit) : Ep := hubEp (dieOf (coreOf q.x)) (clusterOf (coreOf q.x))
def farHub (q : Circuit) : Ep := hubEp (dieOf (coreOf q.dx)) (clusterOf (coreOf q.dx))
def Promo.nearHub (f : Promo) : Ep := hubEp (epDie f.src) (epCluster f.src)
def Promo.farHub (f : Promo) : Ep := hubEp (epDie f.dst) (epCluster f.dst)

/-- The acknowledgement of a probe of a circuit has come back along its path. -/
def ackCame (s : State) (due : Nat) : Bool := due != 0 && decide (due ≤ s.cyc)

/-- A promoted flow's probes have all succeeded: its entry becomes PROMOTED, and the path changes (R60, R87). -/
def promoProbed (f : Promo) (s : State) : State :=
  goLive f.fid (modPromo f.fid (fun g => { g with probing := false, due := 0 }) (setEntry f 3 s))

/-- PROBE_ACKNOWLEDGEMENT of a promoted flow: of its first probe, which starts the far one through the hubs as an open does (log entry 66, DEDUCED,
DEDUCED), of the far probe at the far hub, or of the whole at the sender (R60, R72, R89). -/
def promoAck (f : Promo) (s : State) : Res :=
  if ackCame s f.due then gate f.probing "PROBE_ACKNOWLEDGEMENT" (fun t =>
    if f.leg = 1 ∧ crosses f then
      sendPkt (modPromo f.fid (fun g => { g with leg := 2, due := 0 }) t) (mkPkt 8 2 f.part f.nearHub f.farHub 0 0 [] (.setup f.fid))
    else if f.leg = 1 then promoProbed f t
    else sendPkt (modPromo f.fid (fun g => { g with due := 0 }) t) (mkPkt 8 2 f.part f.farHub f.src 0 0 [] (.probeAck f.fid))) s
  else gate (f.probing && (ckMessage s (isAck f.fid) f.src).isSome) "PROBE_ACKNOWLEDGEMENT" (fun t => promoProbed f (rxTake t f.src)) s

/-- PROBE_ACKNOWLEDGEMENT (a: circuit or promoted flow): of the first probe, of the far one at the far hub, which tells the sender, or of the
whole open (R72, R89). -/
def execProbeAcknowledgement (s : State) : Res :=
  let n := s.arg.a
  match s.promos.find? (fun f => f.fid = n) with
  | some f => promoAck f s
  | none =>
    match findCircuit s n with
    | none => strayMessage (isAck n) "PROBE_ACKNOWLEDGEMENT" s
    | some q =>
      let e := coreEp s (coreOf q.x)
      if ackCame s q.due ∧ q.stage = 0 then
        gate true "PROBE_ACKNOWLEDGEMENT" (fun t =>
          if dieOf (coreOf q.x) = dieOf (coreOf q.dx) then openNow q t else modCircuit t n (fun r => { r with stage := 1, due := t.cyc })) s
      else if ackCame s q.due ∧ q.stage = 3 then
        gate true "PROBE_ACKNOWLEDGEMENT" (fun t =>
          sendPkt (modCircuit t n (fun r => { r with due := 0 })) (mkPkt 8 2 q.part (farHub q) e 0 0 [] (.probeAck n))) s
      else gate (q.stage == 3 && (ckMessage s (isAck n) e).isSome) "PROBE_ACKNOWLEDGEMENT" (fun t => openNow q (rxTake t e)) s

/-- The cause that a refusal carries. -/
def refusalCause (p : Pkt) : Nat := match p.msg with | .probeRefusal _ c => c | _ => ckNOLANE

/-- A refusal at the far hub is passed on to the sender. -/
def passRefusal (part : BitVec 3) (hub src : Ep) (id : Nat) (p : Pkt) (s : State) : State :=
  sendPkt (rxTake s hub) (mkPkt 8 2 part hub src 0 0 [] (.probeRefusal id (refusalCause p)))

/-- PROBE_REFUSAL (a: circuit or promoted flow): at the far hub it goes on to the sender, where the open fails, or the entry goes to
HOLD (R60, R72, R89). -/
def execProbeRefusal (s : State) : Res :=
  let n := s.arg.a
  match s.promos.find? (fun f => f.fid = n) with
  | some f =>
    (match ckMessage s (isRefusal n) f.farHub with
    | some p => gate true "PROBE_REFUSAL" (passRefusal f.part f.farHub f.src n p) s
    | none => gate ((ckMessage s (isRefusal n) f.src).isSome && f.probing) "PROBE_REFUSAL"
        (fun t => dropPromo n (dropLanes (promoVal n) (setEntry f 4 (rxTake t f.src)))) s)
  | none =>
    match findCircuit s n with
    | none => strayMessage (isRefusal n) "PROBE_REFUSAL" s
    | some q =>
      let e := coreEp s (coreOf q.x)
      match ckMessage s (isRefusal n) (farHub q) with
      | some p => gate true "PROBE_REFUSAL" (passRefusal q.part (farHub q) e n p) s
      | none =>
        match ckMessage s (isRefusal n) e with
        | some p => gate true "PROBE_REFUSAL" (fun t => failOpen q (refusalCause p) (rxTake t e)) s
        | none => gate false "PROBE_REFUSAL" id s

/-- The next occurrence, by sail number, of a sail after the current one. -/
def nextSail (s : State) (sail : Nat) : Nat :=
  let n := sailNumber s
  n + 1 + (sail + 7 - (n + 1) % 7) % 7

/-- The circuit that the calendar of die i serves next: of those that wait the one that asked first, the lower source endpoint on a tie
(R80). -/
def nextReserve (s : State) (i : Nat) : Option Circuit :=
  let l := s.circuits.filter (fun q => q.stage == 1 && dieOf (coreOf q.x) == i)
  l.find? (fun q => l.all (fun r => decide (q.due < r.due) || (q.due == r.due && decide ((coreEp s (coreOf q.x)).toNat ≤ (coreEp s (coreOf r.x)).toNat))))

/-- GRAIN_RESERVATION (a: circuit): the calendar reserves, and the setup request crosses; or the open fails with NOGRAIN (R80,
R89). -/
def execGrainReservation (s : State) : Res :=
  match findCircuit s s.arg.a with
  | none => gate false "GRAIN_RESERVATION" id s
  | some q =>
    let i := dieOf (coreOf q.x)
    let j := dieOf (coreOf q.dx)
    gate ((nextReserve s i).map (·.cid) == some q.cid) "GRAIN_RESERVATION" (fun t =>
      match reserveGrains t i j q.part.toNat q.g with
      | none => failOpen q ckNOGRAIN t
      | some (c, gs) =>
        let sail := directSail i j
        let keys := gs.map (calKey i sail)
        let t1 : State := { t with calendar := keys.foldl (fun m n => mset m n (BitVec.ofNat 16 (c + 256 * q.part.toNat))) t.calendar }
        let t2 := modCircuit t1 q.cid (fun r => { r with stage := 2, grains := keys, usable := nextSail t sail, due := 0 })
        sendPkt t2 (mkPkt 8 2 q.part (nearHub q) (farHub q) 0 0 [] (.setup q.cid))) s

/-- CIRCUIT_SETUP_REQUEST (a: circuit or promoted flow): the far die's probe starts from its hub towards the destination (R60, R71, R89,
R441). -/
def execCircuitSetupRequest (s : State) : Res :=
  match s.promos.find? (fun f => f.fid = s.arg.a) with
  | some f => gate (f.probing && (ckMessage s (isSetup f.fid) f.farHub).isSome) "CIRCUIT_SETUP_REQUEST" (fun t => farPromoProbe f (rxTake t f.farHub)) s
  | none =>
    match findCircuit s s.arg.a with
    | none => strayMessage (isSetup s.arg.a) "CIRCUIT_SETUP_REQUEST" s
    | some q =>
      let k := coreOf q.dx
      gate (q.stage == 2 && (ckMessage s (isSetup q.cid) (farHub q)).isSome) "CIRCUIT_SETUP_REQUEST" (fun t =>
        (beginProbe (progVal q.cid) (dieOf k) (hubXY (clusterOf k)) (unitXY (epUnit (coreEp t k))) false true
          (modCircuit (rxTake t (farHub q)) q.cid (fun c => { c with stage := 3, due := 0 }))).getD t) s

/-! ## Sending and receiving (R90) -/

/-- The bytes of a circuit's words that its departure queue holds. -/
def queuedBytes (s : State) (q : Circuit) : Nat := (queuedBeats s q).foldl (fun n b => n + 4 * b.ws.length) 0

/-- The words that bytes hold. -/
def wordsOf (bytes : List Byte) : List Word := tab (bytes.length / 4) (fun i => BitVec.ofNat 32 (leNat ((bytes.drop (4 * i)).take 4)))

/-- A send's next 8 words have left. -/
def advanceSend (m : Nat) (r : Circuit) : Circuit :=
  { r with sentW := r.sentW + 8, sends := updFirst (fun e => e.1 = m) (fun e => (e.1, e.2.1 + 32, e.2.2.1 - 8, e.2.2.2)) r.sends }

/-- The next beat of an open circuit leaves the sender, if a send has one and the lane is ready; whether a bank has refused its words (R82, R90,
R238). -/
def sendBeat (cid : Nat) (s : State) : State × Bool :=
  match findCircuit s cid with
  | none => (s, false)
  | some q =>
    match q.sends.find? (fun m => m.2.2.1 != 0) with
    | none => (s, false)
    | some m =>
      let i := dieOf (coreOf q.x)
      let j := dieOf (coreOf q.dx)
      if q.stage != 4 || (i != j && decide (32768 * q.grains.length < queuedBytes s q + 32)) then (s, false)
      else match readEngine (coreOf q.x) 6 q.x m.2.1 32 s with
        | none => (s, true)
        | some (t, l, _) => (emitBeat q (wordsOf l) false (modCircuit t cid (advanceSend m.1)), false)

/-- The circuit port's send side in a cycle: two beats on each circuit (R68, R90). -/
def circuitSends (k : Nat) (s : State) : State × Bool :=
  (s.circuits.filter (fun q => coreOf q.x == k)).foldl (fun a q =>
    let b := sendBeat q.cid a.1
    let c := if b.2 then b else sendBeat q.cid b.1
    (c.1, a.2 || b.2 || c.2)) (s, false)

/-- The promoted flows of a core send two beats a cycle (R68). -/
def promoSends (k : Nat) (s : State) : State :=
  (s.promos.filter (fun f => f.src == coreEp s k && !f.lane.isEmpty)).foldl (fun t f => promoStep f.fid t) s

/-- The receiver acknowledges: after every 64 beats and at the last beat of a send (R442). -/
def ackDue (q : Circuit) (n : Nat) : Bool := n % 512 == 0 || q.sends.any (fun m => m.2.2.2 == n)

/-- The rows of the words of a beat that are written: those up to the receive limit. -/
def beatRows (q : Circuit) (ws : List Word) (s : State) : List Nat :=
  rowsOf (getX s q.dx) (4 * q.base + 4 * q.recvW) (4 * (ws.take (q.limit - q.recvW)).length)

/-- The next beat has arrived, and the banks can take it in this cycle: only the gather unit goes before the receive side (R70, R238). -/
def beatFits (q : Circuit) (s : State) : Bool :=
  let k := coreOf q.dx
  match q.far with
  | b :: _ => arrived s b.due && (b.last || (beatRows q b.ws s).all (fun r => rowFree ((gatherRows s k).map (fun g => (g, 1)) ++ marks s k) r))
  | [] => true

/-- A good beat is written, up to the receive limit (R90, R92). -/
def writeBeat (q : Circuit) (ws : List Word) (s : State) : State :=
  let room := q.limit - q.recvW
  let put := ws.take room
  let s1 := if put.isEmpty then s else
    let s0 := storeEngine (claimRows (coreOf q.dx) 2 (beatRows q ws s) s).1 q.dx (4 * q.base + 4 * q.recvW) (bytesOfWords put) false
    match q.bar with | some b => tbEngine q.dx b 0 1 s0 | none => s0
  let n := q.recvW + put.length
  let s2 := modCircuit s1 q.cid (fun r => { r with recvW := n })
  if put.length < ws.length then
    collapse q.cid ckOVERRUN true s2
  else if ackDue q n then ckPacket s2 q 8 2 true (.sendAck q.cid n) else s2

/-- The check of a beat at the receiving endpoint: CHK covers the data and SEQ as they are received, and SEQ is the next one (R69). -/
def beatGood (q : Circuit) (b : Beat) (flips : BitVec 256) (seqFlips : Nat) : Bool :=
  let seq := b.seq ^^^ BitVec.ofNat 4 seqFlips
  beatChk (leBytes 32 (leNat (bytesOfWords b.ws) ^^^ flips.toNat)) seq == b.chk && seq == q.rseq

/-- A beat of a program circuit reaches the receiving port (R69, R90, R93). -/
def circuitBeat (q : Circuit) (flips : BitVec 256) (seqFlips : Nat) (s : State) : State :=
  let c := getX s q.dx
  match q.far with
  | [] => s
  | b :: l =>
    let q1 : Circuit := { q with far := l, rseq := q.rseq + 1 }
    let s1 := modCircuit s q.cid (fun r => { r with far := l, rseq := r.rseq + 1 })
    if !beatGood q b flips seqFlips then collapse q.cid ckLINK true s1
    else if b.last then receiverStop q1 (ckPacket s1 q 8 2 true (.sendAck q.cid q.recvW))
    else if c.task && c.part == q.part then writeBeat q1 b.ws s1
    else collapse q.cid ckRPREEMPT true s1

/-- A beat of a promoted flow's first packet on the receiving lane arrives: a good last one hands the packet over, a bad one makes the flow
fall back (R69, R87, R88). -/
def promoBeat (f : Promo) (flips : BitVec 256) (seqFlips n : Nat) (s : State) : Res :=
  match f.far with
  | [] => gate false "CIRCUIT_BEAT" id s
  | (q, d, p) :: _ =>
    let seq := q + BitVec.ofNat 4 n
    if !arrived s d then gate false "CIRCUIT_BEAT" id s
    else if packetBeatGood p n seq flips && BitVec.ofNat 4 seqFlips == 0 && q == f.rseq then
      match promoArrive f p s with
      | some t => gate true "CIRCUIT_BEAT" (fun _ => t) s
      | none => gate false "CIRCUIT_BEAT" id s
    else gate true "CIRCUIT_BEAT" (fallback f.fid true) s

/-- CIRCUIT_BEAT (a: circuit or promoted flow; bits: the data bits that arrive inverted, c: the SEQ bits that do, b: for a promoted flow
which beat of the packet they are in): R69, R87, R88, R90. -/
def execCircuitBeat (s : State) : Res :=
  match s.promos.find? (fun f => f.fid = s.arg.a) with
  | some f => promoBeat f s.arg.bits s.arg.c s.arg.b s
  | none =>
    match findCircuit s s.arg.a with
    | some q => gate (!q.far.isEmpty && q.report.isNone && beatFits q s) "CIRCUIT_BEAT" (circuitBeat q s.arg.bits s.arg.c) s
    | none => gate false "CIRCUIT_BEAT" id s

/-- COLLAPSE_NOTICE (a: circuit): the receiving port stops (R93). -/
def execCollapseNotice (s : State) : Res :=
  match findCircuit s s.arg.a with
  | none => strayMessage (isNotice s.arg.a) "COLLAPSE_NOTICE" s
  | some q =>
    let e := coreEp s (coreOf q.dx)
    gate ((ckMessage s (isNotice q.cid) e).isSome) "COLLAPSE_NOTICE" (fun t => receiverStop q (rxTake t e)) s

/-- The resume point in a report. -/
def resumeWords (p : Pkt) : Nat := match p.msg with | .resume _ n => n | _ => 0

/-- RESUME_POINT_REPORT (a: circuit): the handle is COLLAPSED with RESUME set, and every send of it completes (R94, R442); never in the
cycle of the collapse, in which its cause may still change (R92). -/
def execResumePointReport (s : State) : Res :=
  match findCircuit s s.arg.a with
  | none => strayMessage (isResume s.arg.a) "RESUME_POINT_REPORT" s
  | some q =>
    let e := coreEp s (coreOf q.x)
    match ckMessage s (isResume q.cid) e with
    | none => gate false "RESUME_POINT_REPORT" id s
    | some p => gate (q.collapsed != some s.cyc) "RESUME_POINT_REPORT" (fun t =>
        retireCircuit q (modHandle q (fun h => { h with st := 4, resume := BitVec.ofNat 24 (resumeWords p) }) (rxTake t e))) s

/-- RESUME_REPORT_TIMEOUT (a: circuit): COLLAPSED with CAUSE = LOST and RESUME 0 (R94). -/
def execResumeReportTimeout (s : State) : Res :=
  match findCircuit s s.arg.a with
  | none => gate false "RESUME_REPORT_TIMEOUT" id s
  | some q => gate ((q.collapsed.map (fun c => decide (c + 262144 ≤ s.cyc))).getD false) "RESUME_REPORT_TIMEOUT" (fun t =>
      retireCircuit q (modHandle q (fun h => { h with st := 4, cause := BitVec.ofNat 4 ckLOST, resume := 0 }) t)) s

/-- LEASE_EXPIRY (a: circuit): R92. -/
def execLeaseExpiry (s : State) : Res :=
  match findCircuit s s.arg.a with
  | none => gate false "LEASE_EXPIRY" id s
  | some q => gate (handleIs s q 2 && decide ((readK (getX s q.x) q.k).leaseEnd ≤ s.cyc)) "LEASE_EXPIRY" (collapse q.cid ckLEASE false) s

/-- The words that an acknowledgement names. -/
def ackWords (p : Pkt) : Nat := match p.msg with | .sendAck _ n => n | _ => 0

/-- SEND_ACKNOWLEDGEMENT (a: circuit): sends whose last beat is acknowledged complete (R442). -/
def execSendAcknowledgement (s : State) : Res :=
  match findCircuit s s.arg.a with
  | none => strayMessage (isSendAck s.arg.a) "SEND_ACKNOWLEDGEMENT" s
  | some q =>
    let e := coreEp s (coreOf q.x)
    match ckMessage s (isSendAck q.cid) e with
    | none => gate false "SEND_ACKNOWLEDGEMENT" id s
    | some p => gate true "SEND_ACKNOWLEDGEMENT" (fun t =>
        let n := max q.ackW (ackWords p)
        let ended := q.sends.filter (fun m => m.2.2.1 == 0 && decide (m.2.2.2 ≤ n))
        let t1 := modCircuit (rxTake t e) q.cid (fun r => { r with ackW := n, sends := r.sends.filter (fun m => !(m.2.2.1 == 0 && decide (m.2.2.2 ≤ n))) })
        ended.foldl (fun u m => sendDone q.x m.1 u) t1) s

/-! ## The circuit port (R493) -/

/-- The commands of a queue before one of them. -/
def before (l : List Cmd) (m : Cmd) : List Cmd := l.takeWhile (fun c => c.id != m.id)

/-- A command of the circuit queue may start (R493). -/
def ckEligible (s : State) (x : Nat) (c : Ctx) (m : Cmd) : Bool :=
  let earlier := (before c.q2 m).filter (fun q => q.a == m.a)
  let sends := match circuitOf s x m.a with | some q => q.sends | none => []
  if m.op = 0x10 then true
  else if m.op = 0x12 then earlier.all (fun q => q.op == 0x13) && sends.all (fun q => q.2.2.1 == 0)
  else earlier.all (fun q => q.op != 0x12) && sends.isEmpty

/-- The oldest eligible command of a core's contexts. -/
def nextCircuitCmd (s : State) (k : Nat) : Option (Nat × Cmd) :=
  if mfind (getC s k).starts 2 = some s.cyc then none
  else oldest ((tab 4 (fun i => 4 * k + i)).filterMap (fun x =>
    let c := getX s x
    if c.task && !c.halted then (c.q2.find? (fun m => decide (m.cyc < s.cyc) && ckEligible s x c m)).map (fun m => (x, m)) else none))

/-- A command of the circuit queue starts (R441-R443). -/
def startCircuitCmd (k x : Nat) (m : Cmd) (s : State) : State :=
  let s1 := modC (modX s x (fun c => { c with q2 := dropFirst (fun q => q.id = m.id) c.q2 })) k
    (fun c => { c with starts := mset c.starts 2 s.cyc })
  let h := readK (getX s x) m.a
  if m.op = 0x10 then startOpen (newCircuit (openBlock x m.a m.blk) h.cid (getX s x).part) s1
  else if m.op = 0x12 then
    match circuitOf s x m.a with
    | some q =>
      if h.st = 2 ∧ m.c ≠ 0 then
        modCircuit s1 q.cid (fun r => { r with sends := r.sends ++ [(m.id, m.b, m.c, r.sentW + m.c)] })
      else sendDone x m.id s1
    | none => sendDone x m.id s1
  else if h.st = 2 then collapse h.cid ckCLOSE false s1 else s1

/-- CIRCUIT_PORT_COMMAND_START (a: core): R493. -/
def execCircuitPortCommandStart (s : State) : Res :=
  match nextCircuitCmd s s.arg.a with
  | some (x, m) => gate true "CIRCUIT_PORT_COMMAND_START" (startCircuitCmd s.arg.a x m) s
  | none => gate false "CIRCUIT_PORT_COMMAND_START" id s

end Sys2Proof.Machine
end

