-- ==== Sys2Proof/Machine/Stream.lean ====
section
/-!
DEFINITION. Rate coupling (R205-R223): the flits between the two ports of a stream, samples and weights, the coupling table and its
checks, closing, losses, detaching and attaching; and the stream unit's commands (R438, R440, R493).
-/

namespace Sys2Proof.Machine

open Sys2Proof

/-! ## Flits (R214) -/

def tySample : Nat := 0
def tyCredit : Nat := 1
def tyDetach : Nat := 2
def tyAttach : Nat := 3
def tyClose : Nat := 4
def tyBreak : Nat := 5

/-- The payload of a control, credit or port-change flit. -/
def flitBody (ty sid tick occ rd sent : Nat) : BitVec 128 :=
  BitVec.ofNat 128 (ty % 16 + sid % 1024 * 2 ^ 16 + tick % 65536 * 2 ^ 32 + occ % 8192 * 2 ^ 48 + rd % 65536 * 2 ^ 64 + sent % 65536 * 2 ^ 80)

def flitTy (b : BitVec 128) : Nat := bitsN b 0 4
def flitSid (b : BitVec 128) : Nat := bitsN b 16 10

/-- A port sends a flit to its peer; beside R214's payload it says the partition, and 8 more when it is for a consumer port. -/
def sendFlit (x : Nat) (p : Port) (ty tick occ sent : Nat) (s : State) : State :=
  sendPkt s (mkPkt 8 2 (BitVec.ofNat 3 p.part) (coreEp s (coreOf x)) (coreEp s (coreOf p.peerX)) 0 0 []
    (.stream (p.part + if p.role then 0 else 8) (flitBody ty p.sid tick occ p.rd sent)))

/-- The port stands for a side of a stream: OPEN, SUSPENDED or CLOSING. -/
def Port.stands (part sid : Nat) (role : Bool) (p : Port) : Bool :=
  p.sid == sid && p.part == part && p.role == role && (p.st == 1 || p.st == 2 || p.st == 3)

/-- The port of a context that stands for a side of a stream. -/
def ctxPort (part sid : Nat) (role : Bool) (c : Ctx) : Option (Nat × Port) := c.qr.find? (fun q => q.2.stands part sid role)

/-- The port of a core that stands for a side of a stream. -/
def portAt (s : State) (k part sid : Nat) (role : Bool) : Option (Nat × Nat) :=
  ((tab 4 (fun i => 4 * k + i)).filter (fun x => (getX s x).task)).findSome? (fun x =>
    (ctxPort part sid role (getX s x)).map (fun q => (x, q.1)))

/-- The port that stands for a side of a stream, wherever its context is now. -/
def livePort (s : State) (part sid : Nat) (role : Bool) : Option (Nat × Nat) :=
  s.ctxs.findSome? (fun e => if e.2.task then (ctxPort part sid role e.2).map (fun q => (e.1, q.1)) else none)

/-- The saved context that holds a side of a stream, with the port (R221). -/
def savedPort (s : State) (part sid : Nat) (role : Bool) : Option (Ctx × Nat × Port) :=
  ((s.gangs.flatMap (fun g => g.saved.map (fun v => v.2.1))) ++ (getPart s part).saved.map (fun v => v.2)).findSome? (fun c =>
    (ctxPort part sid role c).map (fun q => (c, q)))

/-- A saved port changes. -/
def modSaved (part sid : Nat) (role : Bool) (f : Port → Port) (s : State) : State :=
  let g (c : Ctx) : Ctx := { c with qr := c.qr.map (fun q => if q.2.stands part sid role then (q.1, f q.2) else q) }
  modPart { s with gangs := s.gangs.map (fun q => { q with saved := q.saved.map (fun v => (v.1, g v.2.1, v.2.2)) }) } part
    (fun p => { p with saved := p.saved.map (fun v => (v.1, g v.2)) })

def modQ (x q : Nat) (f : Port → Port) (s : State) : State := modX s x (fun c => setQ c q (f (readQ c q)))

/-- The count nearest above n whose low 16 bits are given. -/
def widen (n low : Nat) : Nat := n + (low + 65536 - n % 65536) % 65536

/-- A port is BROKEN with a cause (R212). -/
def breakPort (cause : Nat) (p : Port) : Port := { p with st := 5, cause := BitVec.ofNat 4 cause, samples := [], susp := 0 }

def cPCLOSE : Nat := 5
def cPEND : Nat := 4
def cLOST : Nat := 6

/-! ## The coupling table (R218-R220) -/

/-- A side of a stream has a port, live or saved, that has not left OPEN, SUSPENDED and CLOSING. -/
def sideLive (s : State) (p sid : Nat) (role : Bool) : Bool := (livePort s p sid role).isSome || (savedPort s p sid role).isSome

/-- A stream has such a port (R220). -/
def streamLive (s : State) (p sid : Nat) : Bool := sideLive s p sid false || sideLive s p sid true

/-- The edges whose ports have both left leave the table. -/
def reapStreams (p : Nat) (s : State) : State :=
  modPart s p (fun t => { t with streams := t.streams.filter (fun e => streamLive s p e.1) })

/-- An edge: producer, consumer, descriptor. -/
abbrev Edge := Nat × Nat × BitVec 512

/-- A side of a descriptor drives: its shifts are not both 15 (R215). -/
def sideDrives (d : BitVec 512) (consumer : Bool) : Bool :=
  !(bitsN d (if consumer then 104 else 96) 4 == 15 && bitsN d (if consumer then 108 else 100) 4 == 15)

/-- A descriptor with one side's gains at zero: that side's port is CLOSED or BROKEN, and the stream drives its context no more (R223). -/
def sideOff (consumer : Bool) (d : BitVec 512) : BitVec 512 := d ||| (BitVec.ofNat 512 255 <<< (if consumer then 104 else 96))

/-- The edges of a partition's coupling graph, as their two sides still drive (R218, R223). -/
def edgesOf (s : State) (p : Nat) : List Edge :=
  (getPart s p).streams.map (fun e =>
    let d := e.2.2.2.2.2
    let d1 := if sideLive s p e.1 false then d else sideOff false d
    (e.2.1, e.2.2.2.1, if sideLive s p e.1 true then d1 else sideOff true d1))

def anchored (e : Edge) : Bool := !sideDrives e.2.2 false || !sideDrives e.2.2 true

/-- The streams that drive a context. -/
def drivenBy (l : List Edge) (x : Nat) : Nat :=
  l.foldl (fun n e => n + (if e.1 = x ∧ sideDrives e.2.2 false then 1 else 0) + (if e.2.1 = x ∧ sideDrives e.2.2 true then 1 else 0)) 0

/-- The contexts joined to a set by edges, in n rounds. -/
def joined (l : List Edge) : Nat → List Nat → List Nat
  | 0, xs => xs
  | n + 1, xs => joined l n ((xs ++ l.filterMap (fun e => if xs.contains e.1 then some e.2.1 else none)
      ++ l.filterMap (fun e => if xs.contains e.2.1 then some e.1 else none)).eraseDups)

/-- KPmin and KImin for an update delay (R219). -/
def shiftMin (delay : Nat) : Nat × Nat := if delay = 1 then (2, 4) else if delay = 2 then (3, 6) else if delay = 3 then (4, 7) else (4, 8)

/-- A side keeps the shift limits of R219; a is 1 when its context is driven by two streams. -/
def sideOk (d : BitVec 512) (consumer : Bool) (a : Nat) : Bool :=
  let m := shiftMin (sdDly d + 1)
  let kp := bitsN d (if consumer then 104 else 96) 4
  let ki := bitsN d (if consumer then 108 else 100) 4
  !sideDrives d consumer || ((kp == 15 || decide (m.1 + a ≤ kp)) && (ki == 15 || decide (m.2 + a ≤ ki)))

/-- Every side of the edges that drives context x keeps the limits. -/
def limitsOk (l : List Edge) (x : Nat) : Bool :=
  let a := if drivenBy l x = 2 then 1 else 0
  l.all (fun e => (e.1 != x || sideOk e.2.2 false a) && (e.2.1 != x || sideOk e.2.2 true a))

/-- The first rule of R218 that a new edge would break. -/
def coupleRule (old : List Edge) (e : Edge) : Option Nat :=
  let l := old ++ [e]
  let loose := old.filter (fun f => !anchored f)
  if e.1 = e.2.1 then some 1
  else if 2 < drivenBy l e.1 ∨ 2 < drivenBy l e.2.1 then some 2
  else if !anchored e && (joined loose loose.length [e.1]).contains e.2.1 then some 3
  else if dieOf (coreOf e.1) ≠ dieOf (coreOf e.2.1) ∧ sdDly e.2.2 + 1 < 2 then some 4
  else if !limitsOk l e.1 || !limitsOk l e.2.1 then some 5
  else none

/-- A descriptor that R211 refuses with BADDESC. -/
def badDesc (d : BitVec 512) : Bool :=
  bitsN d 14 2 != 0 || bitsN d 54 10 != 0 || bitsN d 77 3 != 0 || bitsN d 93 3 != 0 || bitsN d 114 398 != 0 || bitsN d 16 16 == 0
  || decide (sdNrec d < 2 ∨ 4096 < sdNrec d) || decide (sdSp d < 1 ∨ sdNrec d - 1 < sdSp d)

/-- The outcome of an open (R211, R218): 0, or 16 + the cause of a refusal, or 32 + the rule of COUPLE. -/
def openOutcome (s : State) (p x : Nat) (d : BitVec 512) : Nat :=
  let pr := sdProducer d
  let c := getX s pr.1
  let port := readQ c pr.2
  let edges := edgesOf s p
  if badDesc d then 16 + 7
  else if !(c.task && c.part.toNat == p) then 16 + 2
  else match coupleRule edges (pr.1, x, d) with
  | some r => 32 + r
  | none =>
    if port.st != 0 && port.st != 4 && port.st != 5 then 16 + 1
    else if 1024 ≤ edges.length then 16 + 3 else 0

/-- The context still waits for the answer to its open. -/
def openWaits (s : State) (x : Nat) : Bool := let c := getX s x; c.task && c.hold == some 1 && c.opened.isNone

/-- STREAM_OPEN_CHECK (a: partition): the walker checks the oldest open that still waits, when no earlier one of the partition
stands answered and not yet made (R220). -/
def execStreamOpenCheck (s : State) : Res :=
  let p := s.arg.a
  let t0 := reapStreams p s
  let pt := getPart t0 p
  let busy := s.ctxs.any (fun e => e.2.task && e.2.part.toNat == p && e.2.opened == some 0)
  match pt.opens.filter (fun o => openWaits s o.1) with
  | [] => gate false "STREAM_OPEN_CHECK" id s
  | (x, _, d) :: rest => gate (!busy) "STREAM_OPEN_CHECK" (fun _ =>
      modX (modPart t0 p (fun t => { t with opens := rest })) x (fun c => { c with opened := some (openOutcome t0 p x d) })) s

/-! ## Samples and weights (R213, R215, R216, R223) -/

/-- The tick at which a sample is due (R213). -/
def dueTick (p : Port) (m : Sample) : Nat := m.tick + sdDly p.desc + 1

/-- The samples of a port that are due at a tick: the newest is applied, those before it are skipped. -/
def dueSample (now : Nat) (p : Port) : Option Sample := (p.samples.filter (fun m => dueTick p m ≤ now)).getLast?

/-- σ × step(e, K) of R216. -/
def stepTerm (consumer : Bool) (e : Int) (k : Nat) : Int :=
  let v := if k = 15 then 0 else e / (2 ^ k : Int)
  if consumer then v else -v

/-- A port with its due sample's P term, and its dI. -/
def samplePort (now : Nat) (p : Port) : Port × Option Int :=
  match dueSample now p with
  | none => (p, none)
  | some m =>
    let q := { p with occ := m.occ, lastTick := m.tick, samples := p.samples.filter (fun n => now < dueTick p n) }
    if p.drives then
      let e : Int := (m.occ : Int) - sdSp p.desc
      ({ q with pterm := stepTerm p.role e (bitsN p.desc (if p.role then 104 else 96) 4) },
        some (stepTerm p.role e (bitsN p.desc (if p.role then 108 else 100) 4)))
    else (q, none)

/-- The integrator after a sample, held against windup (R216). -/
def integrate (c : Ctx) (u : Int) (p : Port) (d : Int) : Port :=
  if ((c.wMax.toNat : Int) < u ∧ 0 < d) ∨ (u < (c.wMin.toNat : Int) ∧ d < 0) then p
  else { p with iacc := max (-255) (min 255 (p.iacc + d)) }

/-- A context applies the samples due at a tick, and its weight follows (R216). -/
def applySamples (now : Nat) (c : Ctx) : Ctx :=
  let ps := c.qr.map (fun e => (e.1, samplePort now e.2))
  let c1 := { c with qr := ps.map (fun e => (e.1, e.2.1)) }
  let u : Int := (c.wBase.toNat : Int) + weightTerms c1 + ps.foldl (fun a e => a + e.2.2.getD 0) 0
  weigh { c1 with qr := ps.map (fun e => (e.1, match e.2.2 with | some d => integrate c u e.2.1 d | none => e.2.1)) }

/-- STREAM_SAMPLE_APPLICATION (a: context), at the first cycle of a tick: R216, R223. -/
def execStreamSampleApplication (s : State) : Res :=
  let x := s.arg.a
  let c := getX s x
  gate (s.running && s.sub == 0 && c.task && c != applySamples s.cicada.toNat c) "STREAM_SAMPLE_APPLICATION"
    (fun t => modX t x (applySamples t.cicada.toNat)) s

/-- An OPEN consumer port samples its occupancy at a tick and sends it (R210, R213). -/
def sampleOne (x q : Nat) (s : State) : State :=
  let p := readQ (getX s x) q
  if p.st = 1 ∧ p.role then
    let o := p.wr - p.rd
    let s1 := modQ x q (fun r => { r with samples := r.samples ++ [⟨s.cicada.toNat, o⟩], unrep := 0 }) s
    sendFlit x p tySample s.cicada.toNat o 0 s1
  else s

/-- Every context's ports sample at a tick. -/
def sampleAll (s : State) : State :=
  s.ctxs.foldl (fun t e => if e.2.task && !e.2.halted then e.2.qr.foldl (fun u q => sampleOne e.1 q.1 u) t else t) s

/-- A consumer port reports its releases once there are max(1, floor(NREC / 8)) of them (R210). -/
def reportCredit (x q : Nat) (s : State) : State :=
  let p := readQ (getX s x) q
  if (p.st == 1 || p.st == 3) && p.role && decide (max 1 (sdNrec p.desc / 8) ≤ p.unrep) then
    sendFlit x p tyCredit 0 0 0 (modQ x q (fun r => { r with unrep := 0 }) s)
  else s

/-- A CLOSING consumer port whose records are all written and acquired is CLOSED (R212). -/
def settleClosing (x q : Nat) (s : State) : State :=
  let p := readQ (getX s x) q
  if p.st == 3 && p.role && (match p.due with | some n => decide (n ≤ p.wr) && p.acq == p.wr | none => false) then
    modQ x q (fun r => { r with st := 4, samples := [] }) s
  else s

/-- A context's ports do what their counts ask for. -/
def streamStep (x : Nat) (s : State) : State :=
  (getX s x).qr.foldl (fun t q => settleClosing x q.1 (reportCredit x q.1 t)) s

/-! ## Flits received -/

/-- The stream flit of a type at the head of an endpoint: packet, partition, for a consumer, payload. -/
def flitAt (s : State) (ty : Nat) : Option (Pkt × Nat × Bool × BitVec 128) :=
  match rxHead s (argEp s) with
  | some p => (match p.msg with
    | .stream n b => if flitTy b = ty then some (p, n % 8, decide (8 ≤ n), b) else none
    | _ => none)
  | none => none

/-- The event of a stream flit: its effect on the port that it is for, wherever that has been restored (log entry 36, DEDUCED), or what follows when
no port stands for that side. -/
def flitEvent (ty : Nat) (name : String) (eff : Nat → Nat → BitVec 128 → State → State) (none' : Pkt → Nat → Bool → BitVec 128 → State → State)
    (s : State) : Res :=
  match flitAt s ty with
  | none => gate false name id s
  | some (p, part, toConsumer, b) => gate true name (fun t =>
      let t1 := rxTake t (argEp t)
      match livePort t1 part (flitSid b) toConsumer with
      | some (x, q) => eff x q b t1
      | none => none' p part toConsumer b t1) s

def ignoreFlit : Pkt → Nat → Bool → BitVec 128 → State → State := fun _ _ _ _ t => t

/-- RD as a producer port receives it (R207). -/
def takeRd (b : BitVec 128) (p : Port) : Port := { p with rdp := widen p.rdp (bitsN b 64 16) }

/-- A sample reaches a producer port: late when its tick has begun, discarded when a newer one has been applied (R213). -/
def takeSample (now : Nat) (b : BitVec 128) (p : Port) : Port :=
  let t := now - (now + 65536 - bitsN b 32 16) % 65536
  let late := { p with late := min (p.late + 1) 255 }
  if t < p.lastTick ∨ t = p.lastTick ∧ 0 < p.lastTick then late
  else
    let q := if t + sdDly p.desc + 1 ≤ now then late else p
    { q with samples := q.samples ++ [⟨t, bitsN b 48 13⟩] }

/-- SAMPLE_FLIT (a: endpoint): R210, R213; a SUSPENDED port applies no sample (R221). -/
def execSampleFlit (s : State) : Res :=
  flitEvent tySample "SAMPLE_FLIT" (fun x q b t => modQ x q (fun p =>
    if p.st = 1 then takeSample t.cicada.toNat b (takeRd b p) else takeRd b p) t) ignoreFlit s

/-- CREDIT_FLIT (a: endpoint): R210. -/
def execCreditFlit (s : State) : Res := flitEvent tyCredit "CREDIT_FLIT" (fun x q b t => modQ x q (takeRd b) t) ignoreFlit s

/-- The records of a producer port that have left: SENT less the pushes that wait in its queue. -/
def sentOut (c : Ctx) (q : Nat) : Nat :=
  match c.q3.find? (fun m => m.op == 9 && m.a == q) with
  | some m => m.b
  | none => (readQ c q).sent

/-- A SENT named to a consumer port: records beyond WR must arrive within 262,144 cycles (R212). -/
def nameSent (x q : Nat) (b : BitVec 128) (s : State) : State :=
  let p := readQ (getX s x) q
  let n := widen p.wr (bitsN b 80 16)
  let s1 := modQ x q (fun r => { r with due := some n }) s
  if p.wr < n then addTimer s1 262144 .streamLossTimeout (EvArg.of2 x q) else s1

/-- DETACH_FLIT (a: endpoint): the port becomes SUSPENDED; a producer port answers with SENT, a saved one too, and SENT in a flit to a consumer is
what its halt waits for (R221). -/
def execDetachFlit (s : State) : Res :=
  flitEvent tyDetach "DETACH_FLIT" (fun x q b t =>
    let p := readQ (getX t x) q
    let t1 := modQ x q (fun r => { r with st := if r.st = 1 then 2 else r.st, samples := [] }) t
    if p.role then nameSent x q b t1
    else sendFlit x p tyDetach 0 0 (sentOut (getX t1 x) q) t1)
    (fun p part toConsumer b t =>
      match savedPort t part (flitSid b) toConsumer with
      | some (c, q, r) => if r.role then t
        else sendPkt t (mkPkt 8 2 p.part p.dst p.src 0 0 [] (.stream (part + 8) (flitBody tyDetach (flitSid b) 0 0 r.rd (sentOut c q))))
      | none => t) s

/-- A port whose peer is present again is OPEN, its peer's place taken from the coupling table (R222). -/
def attachPort (e : Nat × Nat × Nat × Nat × BitVec 512) (p : Port) : Port :=
  let peer := if p.role then (e.1, e.2.1) else (e.2.2.1, e.2.2.2.1)
  { p with st := if p.st = 2 then 1 else p.st, peerX := peer.1, peerQ := peer.2, susp := 0, due := if p.st = 2 then none else p.due }

/-- The edge of a stream in the coupling table. -/
def edgeOf (s : State) (part sid : Nat) : Option (Nat × Nat × Nat × Nat × BitVec 512) := mfind (getPart s part).streams sid

/-- A CLOSED or BROKEN port that stood for a side of a stream. -/
def leftPort (s : State) (part sid : Nat) (role : Bool) : Option (Nat × Nat × Port) :=
  s.ctxs.findSome? (fun e => if e.2.task then
    (e.2.qr.find? (fun (q : Nat × Port) => q.2.sid == sid && q.2.part == part && q.2.role == role && (q.2.st == 4 || q.2.st == 5)
      && (match edgeOf s part sid with
        | some w => if role then decide (w.2.2.1 = e.1 ∧ w.2.2.2.1 = q.1) else decide (w.1 = e.1 ∧ w.2.1 = q.1)
        | none => true))).map (fun q => (e.1, q)) else none)

/-- ATTACH_FLIT (a: endpoint): the two ports are OPEN once both are restored, and a port of a halting context stays SUSPENDED; a saved peer will
attach itself; a peer that has closed or broken tells the port that sent the flit, and so is told one whose peer's task has ended (R222). -/
def execAttachFlit (s : State) : Res :=
  flitEvent tyAttach "ATTACH_FLIT" (fun x q b t =>
    let p := readQ (getX t x) q
    match edgeOf t p.part (flitSid b) with
    | some e =>
      if p.st = 2 ∧ p.susp ≠ 1 ∧ p.susp ≠ 4 then sendFlit x (attachPort e p) tyAttach 0 0 0 (modQ x q (attachPort e) t) else t
    | none => t)
    (fun p part toConsumer b t =>
      let sid := flitSid b
      if (savedPort t part sid toConsumer).isSome then t
      else
        let back (ty sent : Nat) : State := sendPkt t (mkPkt 8 2 p.part p.dst p.src 0 0 [] (.stream (part + if toConsumer then 0 else 8) (flitBody ty sid 0 0 0 sent)))
        match leftPort t part sid toConsumer with
        | some (_, _, r) => if r.st = 4 then back tyClose r.sent else back tyBreak 0
        | none => back tyBreak 0) s

/-- A consumer port learns that its producer has closed: CLOSING, or still SUSPENDED while its own context halts (R212, R221). -/
def closingPort (p : Port) : Port := if p.st = 2 ∧ (p.susp = 1 ∨ p.susp = 4) then { p with susp := 4 } else { p with st := 3, susp := 0 }

/-- A saved port learns that its peer has closed: BROKEN with PEND when the peer's task has ended, else as its role has it (R212, R222; log
entry 36, DEDUCED). -/
def closeSaved (s : State) (b : BitVec 128) (p : Port) : Port :=
  let ended := (leftPort s p.part p.sid (!p.role)).isNone
  if ended then breakPort cPEND p
  else if p.role then { p with susp := 4, due := some (widen p.wr (bitsN b 80 16)) }
  else breakPort cPCLOSE p

/-- CLOSE_FLIT (a: endpoint): from a producer it names SENT and the consumer is CLOSING; from a consumer it breaks the producer port
with PCLOSE; a saved port remembers it (R212). -/
def execCloseFlit (s : State) : Res :=
  flitEvent tyClose "CLOSE_FLIT" (fun x q b t =>
    if (readQ (getX t x) q).role then settleClosing x q (nameSent x q b (modQ x q closingPort t))
    else modQ x q (breakPort cPCLOSE) t)
    (fun _ part toConsumer b t => modSaved part (flitSid b) toConsumer (closeSaved t b) t) s

/-- BREAK_FLIT (a: endpoint): the port is BROKEN, with PEND when its peer's context has ended, else with LOST; a saved port and a CLOSED
producer are BROKEN too (R212, R222). -/
def execBreakFlit (s : State) : Res :=
  flitEvent tyBreak "BREAK_FLIT" (fun x q _ t =>
    let p := readQ (getX t x) q
    let gone := (leftPort t p.part p.sid (!p.role)).isNone && !sideLive t p.part p.sid (!p.role)
    modQ x q (breakPort (if gone then cPEND else cLOST)) t)
    (fun _ part toConsumer b t =>
      let sid := flitSid b
      let cause := if (leftPort t part sid (!toConsumer)).isNone then cPEND else cLOST
      match leftPort t part sid toConsumer with
      | some (x, q, r) => if r.st = 4 && !r.role then modQ x q (breakPort cLOST) t else t
      | none => modSaved part sid toConsumer (breakPort cause) t) s

/-! ## Losses (R212) -/

/-- A consumer port has lost a record: both ports are BROKEN with LOST; records written before stay readable. -/
def lostRecord (x q : Nat) (s : State) : State :=
  let p := readQ (getX s x) q
  sendFlit x p tyBreak 0 0 0 (modQ x q (breakPort cLOST) s)

/-- STREAM_LOSS_TIMEOUT (a: context, b: port): the records that a SENT named have not arrived (R212). -/
def execStreamLossTimeout (s : State) : Res :=
  let x := s.arg.a
  let q := s.arg.b
  let p := readQ (getX s x) q
  gate ((getX s x).task && p.role && (p.st == 2 || p.st == 3) && (match p.due with | some n => decide (p.wr < n) | none => false))
    "STREAM_LOSS_TIMEOUT" (lostRecord x q) s

/-- The consumer ports whose records a flow carries. -/
def streamsOfFlow (s : State) (f : Flow) : List (Nat × Nat) :=
  match epCore s f.dst with
  | none => []
  | some k => ((tab 4 (fun i => 4 * k + i)).filter (fun x => (getX s x).task)).flatMap (fun x =>
      (((getX s x).qr.filter (fun q => q.2.role && (q.2.st == 1 || q.2.st == 2 || q.2.st == 3) && f.vc == 0
        && decide (bitsN q.2.desc 16 16 = f.label.toNat) && coreEp s (coreOf q.2.peerX) == f.src)).map (fun q => (x, q.1))))

/-! ## Closing (R212, R357, R440) -/

/-- A port is closed by its role (R212). -/
def closePort (x q : Nat) (s : State) : State :=
  let p := readQ (getX s x) q
  if p.st = 1 ∨ p.st = 2 ∨ p.st = 3 then
    let s1 := modQ x q (fun r => { r with st := 4, samples := [], wr := if r.role then r.acq else r.wr }) s
    sendFlit x p tyClose 0 0 p.sent s1
  else s

/-- The open ports of a task that ends close by their role (R357). -/
def closePorts (x : Nat) (s : State) : State := (getX s x).qr.foldl (fun t q => closePort x q.1 t) s

/-! ## Detaching and attaching (R221, R222) -/

/-- A context that halts for pre-emption detaches a port: OPEN and CLOSING become SUSPENDED, a CLOSING one remembers it; one whose ATTACH is not
answered yet detaches again, and one that its peer suspended knows SENT already. -/
def detachPort (x q : Nat) (s : State) : State :=
  let p := readQ (getX s x) q
  let tell := sendFlit x p tyDetach 0 0 (sentOut (getX s x) q)
  if p.st = 1 then tell (modQ x q (fun r => { r with st := 2, susp := 1, samples := [] }) s)
  else if p.st = 2 ∧ p.susp = 2 then tell (modQ x q (fun r => { r with susp := 1, due := none }) s)
  else if p.st = 2 ∧ p.susp = 0 then modQ x q (fun r => { r with susp := 1 }) s
  else if p.st = 3 then modQ x q (fun r => { r with st := 2, susp := 4, samples := [] }) s
  else s

def detachPorts (x : Nat) (s : State) : State := (getX s x).qr.foldl (fun t q => detachPort x q.1 t) s

/-- A port no longer keeps its context from halting: a consumer has every record that was sent before the detach (R221). -/
def portDetached (p : Port) : Bool :=
  !(p.st == 2 && p.role && (p.susp == 1 || p.susp == 4)) || (match p.due with | some n => decide (n ≤ p.wr) | none => false)

/-- The coupling table learns where a restored context's SUSPENDED port is (R222). -/
def placePort (x q : Nat) (s : State) : State :=
  let p := readQ (getX s x) q
  if p.st != 2 then s
  else modPart s p.part (fun t => { t with streams := t.streams.map (fun (e : Nat × Nat × Nat × Nat × Nat × BitVec 512) =>
    if e.1 = p.sid then (if p.role then (e.1, e.2.1, e.2.2.1, x, q, e.2.2.2.2.2) else (e.1, x, q, e.2.2.2.1, e.2.2.2.2.1, e.2.2.2.2.2)) else e) })

def placePorts (x : Nat) (s : State) : State := (getX s x).qr.foldl (fun t q => placePort x q.1 t) s

/-- A restored context's SUSPENDED port attaches to its peer's place in the coupling table; one that was CLOSING is so again, and one whose stream
has left the table finds its peer ended (R222). -/
def reattachPort (x q : Nat) (s : State) : State :=
  let p := readQ (getX s x) q
  if p.st != 2 then s
  else if p.susp = 4 then modQ x q (fun r => { r with st := 3, susp := 0 }) s
  else match edgeOf s p.part p.sid with
    | some e =>
      let p1 := { p with peerX := if p.role then e.1 else e.2.2.1, peerQ := if p.role then e.2.1 else e.2.2.2.1, susp := 2 }
      sendFlit x p1 tyAttach 0 0 0 (modQ x q (fun _ => p1) s)
    | none => modQ x q (breakPort cPEND) s

def reattachPorts (x : Nat) (s : State) : State := (getX s x).qr.foldl (fun t q => reattachPort x q.1 t) s

/-- Restored contexts' ports: every place is known before the first one attaches (R222). -/
def attachAll (xs : List Nat) (s : State) : State :=
  xs.foldl (fun t x => reattachPorts x t) (xs.foldl (fun t x => placePorts x t) s)

/-- The peers of a context's ports, live or saved, find the streams broken (R159, R212, R222). -/
def breakPeers (c : Ctx) (cause : Nat) (s : State) : State :=
  c.qr.foldl (fun (t : State) (q : Nat × Port) =>
    let p : Port := q.2
    if p.st = 1 ∨ p.st = 2 ∨ p.st = 3 then
      match livePort t p.part p.sid (!p.role) with
      | some (y, r) => modQ y r (breakPort cause) t
      | none => modSaved p.part p.sid (!p.role) (breakPort cause) t
    else t) s

/-! ## The stream unit (R438, R440, R493) -/

/-- The packets of a record: at most 256 bytes each (R208). -/
def recordChunks (data : List Byte) : List (Nat × List Byte) := tab (cdiv data.length 256) (fun i => (256 * i, (data.drop (256 * i)).take 256))

/-- The packets of record n leave for the consumer's core (R208). -/
def sendRecord (x : Nat) (p : Port) (n : Nat) (data : List Byte) (bad : Bool) (s : State) : State :=
  (recordChunks data).foldl (fun t c =>
    sendPkt t { mkPkt 6 0 (BitVec.ofNat 3 p.part) (coreEp t (coreOf x)) (coreEp t (coreOf p.peerX)) 0 (recordAddr p.desc n + c.1) c.2
        (.record p.sid p.part n (decide (data.length ≤ c.1 + 256))) with
      label := bits p.desc 16 16, poison := bad, hint := 0 }) s

/-- The next command of the stream unit (R493): the oldest whose port has no earlier one queued; a SUSPENDED producer port sends
nothing (R221). -/
def nextStreamCmd (s : State) (k : Nat) : Option (Nat × Cmd) :=
  if mfind (getC s k).starts 3 = some s.cyc then none
  else oldest ((tab 4 (fun i => 4 * k + i)).filterMap (fun x =>
    let c := getX s x
    if c.task && !c.halted then
      (c.q3.find? (fun m => decide (m.cyc < s.cyc) && (before c.q3 m).all (fun e => e.a != m.a)
        && !(m.op == 9 && (readQ c m.a).st == 2))).map (fun m => (x, m))
    else none))

/-- A command of the stream queue starts: its record leaves, or its port closes. -/
def startStreamCmd (k x : Nat) (m : Cmd) (s : State) : State :=
  let s1 := modC (modX s x (fun c => { c with q3 := dropFirst (fun q => q.id = m.id) c.q3 })) k
    (fun c => { c with starts := mset c.starts 3 s.cyc })
  let p := readQ (getX s x) m.a
  if m.op = 9 then (if p.st = 1 then sendRecord x p m.b m.data m.poison s1 else s1)
  else closePort x m.a s1

/-- STREAM_UNIT_COMMAND_START (a: core): R493. -/
def execStreamUnitCommandStart (s : State) : Res :=
  match nextStreamCmd s s.arg.a with
  | some (x, m) => gate true "STREAM_UNIT_COMMAND_START" (startStreamCmd s.arg.a x m) s
  | none => gate false "STREAM_UNIT_COMMAND_START" id s

/-! ## Records received (R207, R208, R212) -/

/-- The record packet that has waited longest at the consumer's core: its bytes are written into the ring once the banks have served their rows, and
the last one of a record adds one to WR (R207, R238); a port that is closed takes none.  Whether a bank has refused it. -/
def landRecord (k : Nat) (l : Landing) (sid part idx : Nat) (last : Bool) (s : State) : State × Bool :=
  let p := l.pkt
  let done (t : State) : State := modC t k (fun d => { d with recs := d.recs.drop 1 })
  match portAt s k part sid true with
  | none => (done s, false)
  | some (x, q) =>
    let rows := (rowsOf (getX s x) p.addr.toNat p.data.length).filter (fun r => !l.done.contains r)
    let c := claimRows k 5 rows s
    if c.2.isEmpty then
      let s1 := done (storeEngine c.1 x p.addr.toNat p.data p.poison)
      (if last then settleClosing x q (modQ x q (fun r => { r with wr := max r.wr (idx + 1) }) s1) else s1, false)
    else
      let more : Landing := { l with done := l.done ++ rows.filter (fun r => !c.2.contains r) }
      (modC c.1 k (fun d => { d with recs := more :: d.recs.drop 1 }), true)

/-- The record packets that have reached a core, in order, until a bank refuses one. -/
def recordStep (k : Nat) : Nat → State → State × Bool
  | 0, s => (s, false)
  | n + 1, s =>
    match (getC s k).recs with
    | [] => (s, false)
    | l :: _ => (match l.pkt.msg with
      | .record sid part idx last =>
        let r := landRecord k l sid part idx last s
        if r.2 then r else recordStep k n r.1
      | _ => (modC s k (fun d => { d with recs := d.recs.drop 1 }), false))

end Sys2Proof.Machine
end

