-- ==== Sys2Proof/Machine/Pod.lean ====
section
/-!
DEFINITION. Pod links and remote memory (R95-R116): the Filash die as sender, as receiver and as transit; registrations; and the RMA
queues (R112-R114).
-/

namespace Sys2Proof.Machine

open Sys2Proof

/-- The Filash die's endpoint. -/
def filashEp : Ep := epId 0x10 0

def ownPkg (s : State) : Nat := mgF s 0 oPodId 0 8

/-! ## The pod tag (R99) -/

def tagDpkg (t : BitVec 64) : Nat := bitsN t 0 8
def tagSpkg (t : BitVec 64) : Nat := bitsN t 8 8
def tagHops (t : BitVec 64) : Nat := bitsN t 16 3
def tagCls (t : BitVec 64) : Nat := bitsN t 19 2
def tagPseq (t : BitVec 64) : BitVec 16 := bits t 21 16
def tagPtid (t : BitVec 64) : Nat := bitsN t 37 16

def podTag (dpkg spkg hops cls pseq ptid : Nat) : BitVec 64 :=
  BitVec.ofNat 64 (dpkg % 256 + spkg % 256 * 2 ^ 8 + hops % 8 * 2 ^ 16 + cls % 4 * 2 ^ 19 + pseq % 65536 * 2 ^ 21 + ptid % 65536 * 2 ^ 37)

/-- POD.CTL.RTO and RETRY; 0 acts as 1 (R115). -/
def podRto (s : State) : Nat := max 1 (mgF s 0 oPodCtl 0 8)
def podRetry (s : State) : Nat := max 1 (mgF s 0 oPodCtl 8 4)

/-! ## Credits and outputs of the pod links (R99, R102) -/

def podPort (s : State) (n : Nat) : PodPort := mget PodPort.init s.podPorts n
def modPodPort (n : Nat) (f : PodPort → PodPort) (s : State) : State := { s with podPorts := mset s.podPorts n (f (podPort s n)) }

/-- The virtual channel of a packet on a pod link, by its tag (R102). -/
def podVc (t : BitVec 64) : Nat := 6 * tagCls t + tagHops t

/-- The credit that the next flit of a VC takes: of the pool of 1,024 when one is left, else of the VC's reserve of 4, else it waits (R102). -/
def podCredit (p : PodPort) (vc : Nat) : Option (Bool × PodPort) :=
  if p.pool < 1024 then some (true, { p with pool := p.pool + 1 })
  else if mget 0 p.spent vc < 4 then some (false, { p with spent := mset p.spent vc (mget 0 p.spent vc + 1) })
  else none

/-- At most n flits of a VC leave: their POOL bits (R99, R102). -/
def podFlits (vc : Nat) : Nat → PodPort → List Bool × PodPort
  | 0, p => ([], p)
  | n + 1, p => match podCredit p vc with
    | some (b, q) => let r := podFlits vc n q; (b :: r.1, r.2)
    | none => ([], p)

/-- The packets that wait at an output are looked at in order, those of a VC one behind the other: what can leave, what stays. -/
def podLeave : List PodWait → List Nat → PodPort → List PodWait × List PodWait × PodPort
  | [], _, p => ([], [], p)
  | w :: l, stuck, p =>
    let vc := podVc w.tag
    if stuck.contains vc then let r := podLeave l stuck p; (r.1, w :: r.2.1, r.2.2)
    else
      let f := podFlits vc (flitCount w.pkt - w.spent.length) p
      let w1 : PodWait := { w with spent := w.spent ++ f.1 }
      if w1.spent.length < flitCount w.pkt then let r := podLeave l (vc :: stuck) f.2; (r.1, w1 :: r.2.1, r.2.2)
      else let r := podLeave l stuck f.2; (w1 :: r.1, r.2.1, r.2.2)

/-- The buffers of flits that came by a link on a VC are free: their credits go back, each of the kind that its POOL bit names (R102). -/
def podFree (link vc mask flits : Nat) (s : State) : State :=
  let n := ((List.range flits).filter (fun i => mask.testBit i)).length
  modPodPort link (fun p =>
    let b1 := if n = 0 then p.back else mset p.back 18 (mget 0 p.back 18 + n)
    { p with back := if flits = n then b1 else mset b1 vc (mget 0 b1 vc + (flits - n)) }) s

/-- A packet has left by a link, and the buffer that it held is free. -/
def podGone (link : Nat) (s : State) (w : PodWait) : State :=
  let s1 : State := { s with podOut := s.podOut ++ [(link, w.tag, w.pkt, w.spent)] }
  match w.origin with
  | some (l, vc, mask) => podFree l vc mask (flitCount w.pkt) s1
  | none => s1

/-- What credits allow leaves by a link. -/
def podDrain (link : Nat) (s : State) : State :=
  let r := podLeave (podPort s link).wait [] (podPort s link)
  r.1.foldl (podGone link) (modPodPort link (fun _ => { r.2.2 with wait := r.2.1 }) s)

/-- A packet goes to a link's output. -/
def podPush (link : Nat) (w : PodWait) (s : State) : State := podDrain link (modPodPort link (fun p => { p with wait := p.wait ++ [w] }) s)

/-- The Filash die's own packet leaves by the hop of R101; without one it is not sent. -/
def podOriginate (tag : BitVec 64) (p : Pkt) (s : State) : State :=
  match podLink s p with
  | some l => podPush l ⟨tag, p, [], none⟩ s
  | none => s

/-- The neighbour returns credits: pairs of a VC, or 18 for the pool, and a number (R102). -/
def podReturn (link : Nat) (l : List (Nat × Nat)) (s : State) : State :=
  podDrain link (modPodPort link (fun p => l.foldl (fun q e =>
    if e.1 = 18 then { q with pool := q.pool - e.2 } else { q with spent := mset q.spent e.1 (mget 0 q.spent e.1 - e.2) }) p) s)

/-- The link by which a pod packet came, and the POOL bits of its flits. -/
def cameBy (s : State) : Nat × Nat := s.arg.pairs.headD (0, 0)

/-- A packet has come by an up pod link. -/
def podCame (s : State) : Bool := filashOk s && decide ((cameBy s).1 < 16) && podUp s (cameBy s).1

/-! ## The sender (R95, R103, R104) -/

/-- A remote access may leave (R95, R109). -/
def podAllowed (s : State) (p : Pkt) : Bool :=
  mgF s 0 oPodId 8 1 == 1 && filashOk s && (podLink s p).isSome && mgF s 0 (oPodPart p.part.toNat) 16 1 == 1

def isFlow (src : Ep) (dpkg : BitVec 8) (cls : BitVec 2) (f : PodSend) : Bool := f.src == src && f.dpkg == dpkg && f.cls == cls

def podFlow (s : State) (src : Ep) (dpkg : BitVec 8) (cls : BitVec 2) : PodSend :=
  (s.podSend.find? (isFlow src dpkg cls)).getD ⟨src, dpkg, cls, 0, [], []⟩

def setPodFlow (f : PodSend) (s : State) : State :=
  if s.podSend.any (isFlow f.src f.dpkg f.cls) then { s with podSend := updFirst (isFlow f.src f.dpkg f.cls) (fun _ => f) s.podSend }
  else { s with podSend := s.podSend ++ [f] }

/-- The flows in use: those that hold packets (R115). -/
def podFlows (s : State) : Nat := (s.podSend.filter (fun f => !f.held.isEmpty)).length

/-- Room in the flow's window of 256 packets, and among 4,096 flows (R103). -/
def podWindow (s : State) (f : PodSend) : Bool := decide (f.held.length < 256) && (!f.held.isEmpty || decide (podFlows s < 4096))

/-- A packet leaves on a pod link with its tag (R99). -/
def podEmit (f : PodSend) (pseq : BitVec 16) (ptid : Nat) (p : Pkt) (s : State) : State :=
  podOriginate (podTag f.dpkg.toNat (ownPkg s) 0 f.cls.toNat pseq.toNat ptid) p s

/-- A packet joins its pod flow: numbered, kept, sent (R103). -/
def podSendPkt (cls : BitVec 2) (ptid : Nat) (p : Pkt) (s : State) : State :=
  let f := podFlow s p.src p.pkg cls
  podEmit f f.next ptid p (setPodFlow { f with next := f.next + 1, held := f.held ++ [⟨f.next, p, ptid, 0, s.cicada.toNat⟩] } s)

/-- The responses of a flow that wait go out while its window has room, at most n of them (R103). -/
def podFlush (src : Ep) (dpkg : BitVec 8) (cls : BitVec 2) : Nat → State → State
  | 0, s => s
  | n + 1, s =>
    let f := podFlow s src dpkg cls
    match f.wait with
    | [] => s
    | w :: l => if podWindow s f then podFlush src dpkg cls n (podSendPkt cls w.2 w.1 (setPodFlow { f with wait := l } s)) else s

/-- Responses that wait go out wherever there is room now. -/
def podFlushAll (s : State) : State := s.podSend.foldl (fun t f => podFlush f.src f.dpkg f.cls f.wait.length t) s

/-- A request that did not reach its home is answered at the source: status 3 (R95, R104). -/
def refuseRequest (p : Pkt) (s : State) : State :=
  if wantsAnswer p then sendPkt s (answer p (answerKind p) [] (.fail 3))
  else recordStore p.src p.pkg 1 s

/-- The peer of a failed flow is told to reset its end, by a packet of the control class (R104; log entry 73, DESIGN CHOICE). -/
def resetPeer (f : PodSend) (s : State) : State :=
  podOriginate (podTag f.dpkg.toNat (ownPkg s) 0 2 0 0) { mkPkt 8 2 0 f.src filashEp 0 0 [] (.podReset f.cls.toNat) with pkg := f.dpkg } s

/-- A held packet is resent, or its flow fails after RETRY resends: what it held is lost, and it is reset at both ends (R103, R104). -/
def resend (f0 : PodSend) (pseq : BitVec 16) (s : State) : State :=
  let f := podFlow s f0.src f0.dpkg f0.cls
  match f.held.find? (fun h => h.seq = pseq) with
  | none => s
  | some h =>
    if podRetry s ≤ h.sends then
      let s1 := resetPeer f (setPodFlow { f with next := 0, held := [] } s)
      podFlushAll (if f.cls = 0 then f.held.foldl (fun t q => refuseRequest q.pkt t) s1 else s1)
    else
      podEmit f pseq h.ptid h.pkt (setPodFlow { f with held := updFirst (fun q => q.seq = pseq) (fun q => { q with sends := q.sends + 1, tick := s.cicada.toNat }) f.held } s)

/-- POD.CTL.RTO ticks have passed since a held packet was last sent (R103). -/
def resendDue (s : State) (h : PodHeld) : Bool := decide (h.tick + podRto s ≤ s.cicada.toNat)

/-- POD_RESEND_TIMEOUT (a: source endpoint, b: package, c: class, d: PSEQ): R103, R104. -/
def execPodResendTimeout (s : State) : Res :=
  let f := podFlow s (BitVec.ofNat 16 s.arg.a) (BitVec.ofNat 8 s.arg.b) (BitVec.ofNat 2 s.arg.c)
  let q := BitVec.ofNat 16 s.arg.d
  gate (f.held.any (fun h => h.seq == q && resendDue s h)) "POD_RESEND_TIMEOUT" (resend f q) s

/-- SACK (a: source endpoint, b: package, c: class, d: E, bits: the bitmap; pairs: the link it came by with its POOL bits, and the links that
it crossed before): what it shows received is released; a packet that it shows missing while a later one is present is resent (R103). -/
def execSack (s : State) : Res :=
  let f := podFlow s (BitVec.ofNat 16 s.arg.a) (BitVec.ofNat 8 s.arg.b) (BitVec.ofNat 2 s.arg.c)
  let e := BitVec.ofNat 16 s.arg.d
  let off (q : BitVec 16) : Nat := (q - e).toNat
  let stays (q : BitVec 16) : Bool := decide (off q < 32768) && !(decide (off q < 256) && bit s.arg.bits (off q))
  let later (q : BitVec 16) : Bool := (List.range 256).any (fun i => decide (off q < i) && bit s.arg.bits i)
  gate (podCame s && s.podSend.any (isFlow f.src f.dpkg f.cls)) "SACK" (fun t =>
    let held := f.held.filter (fun h => stays h.seq)
    let t1 := (held.filter (fun h => decide (off h.seq < 256) && later h.seq)).foldl (fun u h => resend f h.seq u) (setPodFlow { f with held := held } t)
    podFree (cameBy s).1 (12 + (s.arg.pairs.getD 1 (0, 0)).1) (cameBy s).2 2 (podFlushAll t1)) s

/-! ## Transit (R98, R101, R102) -/

/-- A packet of another package is forwarded, or discarded and counted on the link it came by; then its buffer is free at once. -/
def podTransit (link mask : Nat) (tag : BitVec 64) (p : Pkt) (s : State) : State :=
  let drop (t : State) : State := podFree link (podVc tag) mask (flitCount p) t
  if tagHops tag = 5 then drop (mgBump s 0 (oPodLink link) 16 16)
  else match podLink s { p with pkg := bits tag 0 8 } with
  | none => drop (mgBump s 0 (oPodLink link) 32 16)
  | some l => podPush l ⟨setBits tag 16 3 (tagHops tag + 1), p, [], some (link, podVc tag, mask)⟩ s

/-- The packet that the Filash die takes from the package to the pod. -/
def podOutgoing (s : State) : Option Pkt := (rxHead s filashEp).bind (fun p => if isRemoteRequest s p then some p else none)

/-- POD_NEXT_HOP (b 0: the package's own next packet; b 1: packet `pkt` with tag `bits` that came by a link, which pairs name with the POOL bits of
its flits; b 2: link a's neighbour returns the credits of pairs): R95, R98, R101, R102. -/
def execPodNextHop (s : State) : Res :=
  if s.arg.b = 0 then
    match podOutgoing s with
    | none => gate false "POD_NEXT_HOP" id s
    | some p =>
      if podAllowed s p then
        gate (podWindow s (podFlow s p.src p.pkg 0)) "POD_NEXT_HOP"
          (fun t => podSendPkt 0 (mgF t 0 (oPodPart p.part.toNat) 0 16) p (rxTake t filashEp)) s
      else gate true "POD_NEXT_HOP" (fun t => refuseRequest p (rxTake t filashEp)) s
  else if s.arg.b = 2 then
    gate (filashOk s && decide (s.arg.a < 16) && s.arg.pairs.all (fun e => decide (e.1 ≤ 18))) "POD_NEXT_HOP" (podReturn s.arg.a s.arg.pairs) s
  else
    let tag : BitVec 64 := s.arg.bits.truncate 64
    gate (podCame s && tagDpkg tag != ownPkg s) "POD_NEXT_HOP" (podTransit (cameBy s).1 (cameBy s).2 tag s.arg.pkt) s

/-! ## Registrations (R107, R108, R111) -/

structure Registration where
  base : Nat
  size : Nat
  rd : Bool
  wr : Bool
  atm : Bool
  st : Nat
  admits : Nat

def regOf (s : State) (p i : Nat) : Registration :=
  let a := mgGet s 0 (oReg p i)
  let b := mgGet s 0 (oReg p i + 8)
  let c := mgGet s 0 (oReg p i + 16)
  { base := 4096 * bitsN a 12 36, size := bitsN b 0 48, rd := bit b 48, wr := bit b 49, atm := bit b 50, st := bitsN c 0 2, admits := bitsN c 16 16 }

/-- The registration covers every byte, or any byte, of an access. -/
def regCovers (r : Registration) (a n : Nat) : Bool := decide (r.base ≤ a) && decide (a + n ≤ r.base + r.size)
def regTouches (r : Registration) (a n : Nat) : Bool := decide (0 < r.size) && decide (a < r.base + r.size) && decide (r.base < a + n)

/-- What an access asks of a registration: 0 reads, 1 writes, 2 atomics. -/
def grants (r : Registration) (what : Nat) : Bool := if what = 0 then r.rd else if what = 1 then r.wr else r.atm

/-- The lowest VALID registration of a partition that covers an access and grants it. -/
def validReg (s : State) (p a n what : Nat) : Option Nat :=
  (List.range 256).find? (fun i => let r := regOf s p i; r.st == 1 && regCovers r a n && grants r what)

/-- The admitted accesses of a registration that are not yet globally visible. -/
def admitCount (s : State) (p i : Nat) : Nat := (s.admitted.filter (fun a => a.reg == p * 256 + i)).length

/-- ADMIT shows their number, saturating (R107). -/
def setAdmit (p i : Nat) (s : State) : State := mgSetF s 0 (oReg p i + 16) 16 16 (min (admitCount s p i) 65535)

/-- A DRAINING registration with no admitted access left is REVOKED, and the host is told (R111). -/
def confirmRevoke (p i : Nat) (s : State) : State :=
  if (regOf s p i).st = 2 ∧ admitCount s p i = 0 then setHint (mgSetF s 0 (oReg p i + 16) 0 2 3) hintRevoke else s

/-- A write of STATE takes effect: FREE to VALID, VALID to DRAINING, REVOKED to FREE; any other is ignored (R107). -/
def applyRegWrite (s : State) (w : Nat × Nat × Nat) : State :=
  let st := (regOf s w.1 w.2.1).st
  if (st = 0 ∧ w.2.2 = 1) ∨ (st = 1 ∧ w.2.2 = 2) ∨ (st = 3 ∧ w.2.2 = 0) then
    confirmRevoke w.1 w.2.1 (mgSetF s 0 (oReg w.1 w.2.1 + 16) 0 2 w.2.2)
  else s

/-- The cycle ends: the writes of STATE made in it take effect (R108, R111). -/
def applyRegWrites (s : State) : State :=
  s.mgmt.regWrites.foldl applyRegWrite { s with mgmt := { s.mgmt with regWrites := [] } }

/-- REGISTRATION_STATE_WRITE (a: partition, b: registration, c: STATE): it takes effect at the end of the cycle (R107, R108); ignored while C0
updates its firmware (R160). -/
def execRegistrationStateWrite (s : State) : Res :=
  gate (decide (s.arg.a < 8) && decide (s.arg.b < 256)) "REGISTRATION_STATE_WRITE" (fun t =>
    if t.mgmt.fw.contains 0 then t
    else { t with mgmt := { t.mgmt with regWrites := t.mgmt.regWrites ++ [(t.arg.a, t.arg.b, t.arg.c)] } }) s

/-! ## The receiver (R96, R103, R105, R108-R110) -/

/-- The partition of a pod tenant: the lowest with EN = 1 and that PTID (R109). -/
def tenantPart (s : State) (ptid : Nat) : Option Nat :=
  (List.range 8).find? (fun p => mgF s 0 (oPodPart p) 16 1 == 1 && mgF s 0 (oPodPart p) 0 16 == ptid)

/-- The bytes of an access, and what it asks. -/
def accessBytes (p : Pkt) : Nat :=
  match p.msg with
  | .read n => n
  | .atom _ wide _ _ _ => if wide then 8 else 4
  | _ => p.data.length
def accessWhat (p : Pkt) : Nat := if p.kind = 0 then 0 else if p.kind = 4 then 2 else 1

/-- POD.VIOL and the host's interrupt (R110). -/
def podViolate (p : Pkt) (tag : BitVec 64) (revoked : Bool) (s : State) : State :=
  let lo := BitVec.ofNat 64 (p.addr.toNat + tagSpkg tag * 2 ^ 48 + (if revoked then 2 ^ 56 else 0) + 2 ^ 57)
  let pend := mgF s 0 oPodViol 57 1
  let n := min (mgF s 0 (oPodViol + 8) 16 32 + 1) 0xFFFFFFFF
  let s1 := mgSet (mgSet s 0 oPodViol lo) 0 (oPodViol + 8) (BitVec.ofNat 64 (tagPtid tag + n * 2 ^ 16))
  if pend = 0 then setHint s1 hintPodViol else s1

/-- The answer to another package's request, on the response class of the pod, with the request's pod tenant id; it waits for room in its flow's
window (R96, R97, R99, R103). -/
def podAnswer (p : Pkt) (tag : BitVec 64) (q : Pkt) (s : State) : State :=
  let r := { q with src := filashEp, dst := p.src, pkg := BitVec.ofNat 8 (tagSpkg tag), tag := p.tag }
  let f := podFlow s filashEp r.pkg 1
  podFlush filashEp r.pkg 1 1 (setPodFlow { f with wait := f.wait ++ [(r, tagPtid tag)] } s)

/-- A rejected access: status 1 VIOL, 2 REVOKED; a store's report goes to the source package on the control class (R106, R110). -/
def podReject (p : Pkt) (tag : BitVec 64) (revoked : Bool) (s : State) : State :=
  let st := if revoked then 2 else 1
  let s1 := podViolate p tag revoked s
  if wantsAnswer p then podAnswer p tag (answer p (answerKind p) [] (.fail st)) s1
  else
    let q := { mkPkt 8 2 0 filashEp p.src 0 0 [] (.fail st) with pkg := BitVec.ofNat 8 (tagSpkg tag) }
    podOriginate (podTag (tagSpkg tag) (ownPkg s1) 0 2 0 (tagPtid tag)) q s1

/-- The posted stores of a pod flow that its home has not acknowledged (R105). -/
def postedStores (s : State) (src : Ep) (spkg : Nat) : List Nat :=
  (s.admitted.filter (fun a => a.pkt.src == src && tagSpkg a.ptag == spkg && !wantsAnswer a.pkt)).map (·.tag)

/-- A request of another package is checked, and when it is admitted goes to its home as the Filash die's own access (R96, R105,
R108, R109). -/
def podAdmit (p0 : Pkt) (tag : BitVec 64) (s : State) : State :=
  match tenantPart s (tagPtid tag) with
  | none => podReject p0 tag false s
  | some part =>
    let p := { p0 with part := BitVec.ofNat 3 part, mmh := false }
    let a := p.addr.toNat
    let n := accessBytes p
    if p.kind = 0 ∧ n = 0 then
      { s with flushes := s.flushes ++ [(s.nextId, p, tag, postedStores s p.src (tagSpkg tag))], nextId := s.nextId + 1 }
    else match validReg s part a n (accessWhat p) with
    | some i =>
      let t := newTag s
      let s1 := setAdmit part i { s with nextId := s.nextId + 1, admitted := s.admitted ++ [⟨t, p, tag, part * 256 + i⟩] }
      sendPkt s1 { p with src := filashEp, dst := homeEp s1 a (p.kind == 4), tag := BitVec.ofNat 16 t, vc := 0, host := false, opc := if p.kind = 2 ∨ p.kind = 6 then 1 else p.opc }
    | none =>
      let revoked := (List.range 256).any (fun i => let r := regOf s part i; (r.st == 2 || r.st == 3) && regTouches r a n)
      podReject p tag revoked s

/-- FLUSHING_READ_RESPONSE (a: the flushing read's number): every posted store before it in its pod flow has been acknowledged by its
home (R105). -/
def execFlushingReadResponse (s : State) : Res :=
  match s.flushes.find? (fun f => f.1 = s.arg.a) with
  | none => gate false "FLUSHING_READ_RESPONSE" id s
  | some (n, p, tag, wait) =>
    gate (wait.all (fun t => !s.admitted.any (fun a => a.tag == t))) "FLUSHING_READ_RESPONSE" (fun t =>
      podAnswer p tag (answer p 1 [] .none) { t with flushes := dropFirst (fun f => f.1 = n) t.flushes }) s

/-- A home has answered an admitted access: ADMIT falls, and the answer crosses the pod unless the access was a posted store (R97,
R108, R111). -/
def admittedDone (a : Admitted) (q : Pkt) (s : State) : State :=
  let p := a.reg / 256
  let i := a.reg % 256
  let s1 : State := { s with admitted := dropFirst (fun b => b.tag = a.tag) s.admitted }
  let s2 := confirmRevoke p i (setAdmit p i s1)
  if wantsAnswer a.pkt then podAnswer a.pkt a.ptag { q with kind := answerKind a.pkt, addr := a.pkt.addr } s2 else s2

/-- An answer of another package enters the package: a flushing read's answer takes the status recorded for its pair (R106). -/
def podResponse (p : Pkt) (tag : BitVec 64) (s : State) : State :=
  let spkg := BitVec.ofNat 8 (tagSpkg tag)
  let part := match tenantPart s (tagPtid tag) with | some n => BitVec.ofNat 3 n | none => p.part
  let flush := p.kind == 1 && p.data.isEmpty && p.msg == .none
  let rec_ := s.viol.find? (fun v => v.1 == p.dst && v.2.1 == spkg)
  let q := { p with src := filashEp, part := part, vc := 1, pkg := spkg }
  match flush, rec_ with
  | true, some v => deliver { q with msg := .fail v.2.2 } { s with viol := dropFirst (fun w => w = v) s.viol }
  | _, _ => deliver q s
where
  deliver (q : Pkt) (t : State) : State := if q.dst = filashEp then { t with rx := t.rx ++ [q] } else sendPkt t q

def isRecv (src : Ep) (spkg : BitVec 8) (cls : BitVec 2) (f : PodRecv) : Bool := f.src == src && f.spkg == spkg && f.cls == cls

def podRecvOf (s : State) (src : Ep) (spkg : BitVec 8) (cls : BitVec 2) : PodRecv :=
  (s.podRecv.find? (isRecv src spkg cls)).getD ⟨src, spkg, cls, 0, [], 0⟩

def setPodRecv (f : PodRecv) (s : State) : State :=
  if s.podRecv.any (isRecv f.src f.spkg f.cls) then { s with podRecv := updFirst (isRecv f.src f.spkg f.cls) (fun _ => f) s.podRecv }
  else { s with podRecv := s.podRecv ++ [f] }

/-- The packets received that follow E without a gap, and the rest. -/
def drainPod : Nat → PodRecv → List (BitVec 64 × Pkt) × PodRecv
  | 0, f => ([], f)
  | n + 1, f => match f.got.find? (fun g => g.1 = f.e) with
    | some g => let r := drainPod n { f with e := f.e + 1, got := dropFirst (fun h => h.1 = f.e) f.got }; (g.2 :: r.1, r.2)
    | none => ([], f)

/-- A SACK of a flow leaves on the control class: E in the first two payload bytes, the bitmap in the next 32 (R103). -/
def sendSack (f : PodRecv) (s : State) : State :=
  let map := f.got.foldl (fun n g => n + 2 ^ (g.1 - f.e).toNat) 0
  let q := { mkPkt 8 2 0 filashEp f.src f.cls.toNat 0 (leBytes 2 f.e.toNat ++ leBytes 32 map) .none with pkg := f.spkg }
  podOriginate (podTag f.spkg.toNat (ownPkg s) 0 2 0 0) q (setPodRecv { f with since := 0 } s)

/-- At a tick, every flow that received anything sends a SACK (R103). -/
def sackAll (s : State) : State := (s.podRecv.filter (fun f => decide (0 < f.since))).foldl (fun t f => sendSack f t) s

/-- A packet of a pod flow arrives: a duplicate is discarded; what follows E without a gap is injected in PSEQ order (R103). -/
def podArrive (tag : BitVec 64) (p : Pkt) (s : State) : State :=
  let f := podRecvOf s p.src (BitVec.ofNat 8 (tagSpkg tag)) (BitVec.ofNat 2 (tagCls tag))
  let q := tagPseq tag
  if 256 ≤ (q - f.e).toNat ∨ f.got.any (fun g => g.1 = q) then s
  else
    let r := drainPod 257 { f with got := f.got ++ [(q, tag, p)], since := f.since + 1 }
    let s1 := setPodRecv r.2 s
    let s2 := r.1.foldl (fun t g => if tagCls g.1 = 0 then podAdmit g.2 g.1 t else podResponse g.2 g.1 t) s1
    if 64 ≤ r.2.since then sendSack r.2 s2 else s2

/-- A failed flow's sender resets it: its receiving end starts afresh (R104; log entry 73, DESIGN CHOICE). -/
def podResetEnd (spkg : Nat) (p : Pkt) (cls : Nat) (s : State) : State :=
  { s with podRecv := s.podRecv.filter (fun f => !isRecv p.src (BitVec.ofNat 8 spkg) (BitVec.ofNat 2 cls) f) }

/-- A packet for this package has come by a pod link: of a flow, or the reset of one. -/
def podTaken (tag : BitVec 64) (p : Pkt) (s : State) : State :=
  if tagCls tag < 2 then podArrive tag p s
  else match p.msg with
    | .podReset c => podResetEnd (tagSpkg tag) p c s
    | _ => s

/-- POD_ACCESS_ADMISSION (bits: the pod tag, pkt; pairs: the link it came by with the POOL bits of its flits): a packet for this package arrives by
a pod link, and its buffer there is free (R96, R102, R103, R108, R109). -/
def execPodAccessAdmission (s : State) : Res :=
  let tag : BitVec 64 := s.arg.bits.truncate 64
  gate (podCame s && mgF s 0 oPodId 8 1 == 1 && tagDpkg tag == ownPkg s && decide (tagCls tag < 3)) "POD_ACCESS_ADMISSION" (fun t =>
    podTaken tag t.arg.pkt (podFree (cameBy t).1 (podVc tag) (cameBy t).2 (flitCount t.arg.pkt) t)) s

/-- REJECTED_STORE_REPORT (a: source endpoint, b: package, c: status; pairs as for SACK): R106. -/
def execRejectedStoreReport (s : State) : Res :=
  gate (podCame s && (s.arg.c == 1 || s.arg.c == 2)) "REJECTED_STORE_REPORT" (fun t =>
    recordStore (BitVec.ofNat 16 t.arg.a) (BitVec.ofNat 8 t.arg.b) t.arg.c
      (podFree (cameBy t).1 (12 + (t.arg.pairs.getD 1 (0, 0)).1) (cameBy t).2 1 t)) s

/-! ## RMA queues (R112-R114) -/

def rmaKey (p q : Nat) : Nat := 64 * p + q
def rmaRuns (s : State) (p q : Nat) : List RmaRun := mget [] s.rma (rmaKey p q)
def setRma (p q : Nat) (l : List RmaRun) (s : State) : State := { s with rma := mset s.rma (rmaKey p q) l }

def rmaBase (s : State) (p q : Nat) : Nat := 64 * mgF s 0 (oRma p q) 6 42
def rmaLog (s : State) (p q : Nat) : Nat := max 4 (mgF s 0 (oRma p q) 48 4)
def rmaTail (s : State) (p q : Nat) : BitVec 32 := bits (mgGet s 0 (oRma p q + 8)) 0 32
def rmaHead (s : State) (p q : Nat) : BitVec 32 := bits (mgGet s 0 (oRma p q + 8)) 32 32
def rmaComplete (s : State) (p q : Nat) : DWord := mgGet s 0 (oRma p q + 16)
def rmaState (s : State) (p q : Nat) : Nat := mgF s 0 (oRma p q + 24) 0 2
def rmaEn (s : State) (p q : Nat) : Bool := mgF s 0 (oRma p q + 24) 3 1 == 1
def setRmaState (p q st : Nat) (s : State) : State := mgSetF s 0 (oRma p q + 24) 0 2 st

/-- The address of descriptor n. -/
def rmaSlot (s : State) (p q : Nat) (n : BitVec 32) : Nat := rmaBase s p q + 64 * (n.toNat % 2 ^ rmaLog s p q)

/-- HEAD is below TAIL: both run free modulo 2^32 (R114; log entry 75, DEDUCED). -/
def rmaMore (s : State) (p q : Nat) : Bool :=
  let d := (rmaTail s p q - rmaHead s p q).toNat
  decide (0 < d) && decide (d < 2147483648)

/-- RUN while there is something to do, else IDLE; WAIT and ERROR are left by their own ways. -/
def rmaSettle (p q : Nat) (s : State) : State :=
  let st := rmaState s p q
  if st = 3 ∨ st = 2 then s
  else setRmaState p q (if rmaEn s p q && (rmaMore s p q || !(rmaRuns s p q).isEmpty) then 1 else 0) s

/-- RMA_TAIL_WRITE (a: partition, b: queue, c: TAIL): R112, R114. -/
def execRmaTailWrite (s : State) : Res :=
  let p := s.arg.a
  let q := s.arg.b
  gate (decide (p < 8) && decide (q < 64)) "RMA_TAIL_WRITE" (fun t =>
    if t.mgmt.fw.contains 0 then t else rmaSettle p q (mgSetF t 0 (oRma p q + 8) 0 32 t.arg.c)) s

/-- RMA_ENABLE_WRITE (a: partition, b: queue, ok: EN): writing 0 then 1 zeroes HEAD, TAIL and COMPLETE; a queue that is disabled does
nothing further, and its COMPLETE is zero (R112, R114). -/
def execRmaEnableWrite (s : State) : Res :=
  let p := s.arg.a
  let q := s.arg.b
  let was := rmaEn s p q
  let zero (t : State) : State := mgSet (mgSet t 0 (oRma p q + 8) 0) 0 (oRma p q + 16) 0
  gate (decide (p < 8) && decide (q < 64)) "RMA_ENABLE_WRITE" (fun t =>
    if t.mgmt.fw.contains 0 then t
    else if t.arg.ok && !was then rmaSettle p q (mgSetF (zero t) 0 (oRma p q + 24) 3 1 1)
    else if !t.arg.ok && was then mgSet (setRma p q [] (zero t)) 0 (oRma p q + 24) 0
    else t) s

/-- The host's or a program's command of a descriptor: the core run of the `rmapost` that wrote it. -/
def rmaPoster (s : State) (p q : Nat) (n : BitVec 32) : Option (Nat × Nat) :=
  s.cores.findSome? (fun c => (c.2.runs.find? (fun r => r.cmd.op == 4 && r.pos == 1
    && r.aux == (rmaKey p q) * 2 ^ 32 + n.toNat)).map (fun r => (c.1, r.cmd.id)))

/-- A descriptor that the queue would start next. -/
structure RmaNext where
  n : BitVec 32
  desc : BitVec 512

/-- The next descriptor of a queue, when it may start (R114). -/
def rmaNext (s : State) (p q : Nat) : Option RmaNext :=
  let n := rmaHead s p q
  let runs := rmaRuns s p q
  if rmaEn s p q && rmaState s p q == 1 && filashOk s && rmaMore s p q && decide (runs.length < 8) && runs.all (fun r => r.err == 0) then
    let d := BitVec.ofNat 512 (leNat (homeRead s (rmaSlot s p q n) 64))
    if (bit d 4 || bitsN d 0 4 == 3) && !runs.isEmpty then none else some ⟨n, d⟩
  else none

/-- The error that a descriptor starts with (R113, R114); an unpopulated local range gives LVIOL (R118). -/
def rmaError (s : State) (p q : Nat) (d : BitVec 512) : Nat :=
  let op := bitsN d 0 4
  let len := bitsN d 32 32
  let rsv := bitsN d 6 2 != 0 || bitsN d 22 10 != 0 || bitsN d 112 16 != 0 || bitsN d 176 16 != 0 || bitsN d 256 256 != 0
  if 3 < op || rsv || ((op == 1 || op == 2) && bitsN d 8 8 == ownPkg s) then 5
  else if op = 3 ∧ bitsN d 16 6 = q then 6
  else if (op = 1 ∨ op = 2) ∧ len ≠ 0 ∧ ((validReg s p (bitsN d 64 48) len (op - 1)).isNone ∨ ¬ populatedRange s (bitsN d 64 48) len) then 1
  else 0

/-- A descriptor starts: HEAD moves past it (R114). -/
def rmaStart (p q : Nat) (d : RmaNext) (s : State) : State :=
  let e := rmaError s p q d.desc
  let op := bitsN d.desc 0 4
  let done := e == 0 && (op == 0 || ((op == 1 || op == 2) && bitsN d.desc 32 32 == 0))
  let r : RmaRun := ⟨d.n.toNat, d.desc, [], 0, done, e, rmaPoster s p q d.n, false⟩
  let s1 := mgSetF (setRma p q (rmaRuns s p q ++ [r]) s) 0 (oRma p q + 8) 32 32 (d.n.toNat + 1)
  if op = 3 ∧ e = 0 then setRmaState p q 2 s1 else s1

/-- The start of a descriptor of an operation. -/
def rmaStartEvent (ops : Nat → Bool) (name : String) (s : State) : Res :=
  let p := s.arg.a
  let q := s.arg.b
  match rmaNext s p q with
  | some d => gate (decide (p < 8) && decide (q < 64) && ops (bitsN d.desc 0 4)) name (rmaStart p q d) s
  | none => gate false name id s

/-- RMA_NOP (a: partition, b: queue): also a descriptor of a reserved OP, which fails with BADDESC. -/
def execRmaNop (s : State) : Res := rmaStartEvent (fun op => op == 0 || decide (3 < op)) "RMA_NOP" s
/-- RMA_PUT (a: partition, b: queue). -/
def execRmaPut (s : State) : Res := rmaStartEvent (· == 1) "RMA_PUT" s
/-- RMA_GET (a: partition, b: queue). -/
def execRmaGet (s : State) : Res := rmaStartEvent (· == 2) "RMA_GET" s

/-- The WAIT that holds a queue may end: COMPLETE of the queue it watches has reached N (R114). -/
def rmaWaitOver (s : State) (p q : Nat) : Bool :=
  rmaState s p q == 2 && (rmaRuns s p q).any (fun r => bitsN r.desc 0 4 == 3 && !r.complete
    && decide (bitsN r.desc 192 64 ≤ (rmaComplete s p (bitsN r.desc 16 6)).toNat))

/-- RMA_WAIT (a: partition, b: queue): a WAIT starts, or the WAIT that holds the queue completes. -/
def execRmaWait (s : State) : Res :=
  let p := s.arg.a
  let q := s.arg.b
  if rmaWaitOver s p q then
    gate true "RMA_WAIT" (fun t => setRmaState p q 1 (setRma p q ((rmaRuns t p q).map (fun r =>
      if bitsN r.desc 0 4 = 3 then { r with complete := true } else r)) t)) s
  else rmaStartEvent (· == 3) "RMA_WAIT" s

/-! ## Moving data (R114) -/

def rmaOp (r : RmaRun) : Nat := bitsN r.desc 0 4
def rmaLen (r : RmaRun) : Nat := bitsN r.desc 32 32
def rmaLocal (r : RmaRun) : Nat := bitsN r.desc 64 48 + r.moved
def rmaRemote (r : RmaRun) : Nat := bitsN r.desc 128 48 + r.moved

/-- The bytes of the next transfer: within one line on each side, at most 64 (log entry 17, DEDUCED). -/
def rmaPiece (r : RmaRun) : Nat := min (rmaLen r - r.moved) (min (64 - rmaLocal r % 64) (64 - rmaRemote r % 64))

def modRma (p q n : Nat) (f : RmaRun → RmaRun) (s : State) : State := setRma p q (updFirst (fun r => r.n = n) f (rmaRuns s p q)) s

/-- A packet of a descriptor leaves: to a local home by the packet plane, to the peer by the Filash die itself. -/
def rmaSend (p q : Nat) (r : RmaRun) (local_ : Bool) (pk : Pkt) (s : State) : State :=
  let tag := newTag s
  let out := if local_ then (tag, rmaLocal r, rmaPiece r) else (tag, 2 ^ 56, 0)
  let s1 := modRma p q r.n (fun x => { x with out := [out] }) { s with nextId := s.nextId + 1 }
  let s2 := addTimer s1 (if local_ then 262144 else 1048576) (if local_ then .requestTimeout else .remoteAccessTimeout)
    (EvArg.of2 filashEp.toNat tag)
  let pk1 := { pk with tag := BitVec.ofNat 16 tag }
  if local_ then sendPkt s2 pk1 else { s2 with rx := s2.rx ++ [pk1] }

/-- A descriptor's next transfer begins: a PUT reads locally, a GET at the peer. -/
def rmaStep (p q : Nat) (r : RmaRun) (s : State) : State :=
  if r.complete || r.err != 0 || !r.out.isEmpty || rmaOp r == 3 || rmaOp r == 0 then s
  else
    let part := BitVec.ofNat 3 p
    if rmaOp r = 1 then
      rmaSend p q r true { mkPkt 0 0 part filashEp (homeEp s (rmaLocal r) false) 0 (rmaLocal r) [] (.read (rmaPiece r)) with opc := 1 } s
    else
      rmaSend p q r false { mkPkt 0 0 part filashEp filashEp 0 (rmaRemote r) [] (.read (rmaPiece r)) with
        pkg := BitVec.ofNat 8 (bitsN r.desc 8 8) } s

/-- Every descriptor under way begins its next transfer. -/
def rmaTick (s : State) : State :=
  s.rma.foldl (fun t e => e.2.foldl (fun u r => rmaStep (e.1 / 64) (e.1 % 64) r u) t) s

/-- A transfer of n bytes is done; the last one completes the descriptor, with the error that poison leaves (R114). -/
def rmaMoved (p q : Nat) (r : RmaRun) (s : State) : State :=
  let m := r.moved + rmaPiece r
  modRma p q r.n (fun x => { x with moved := m, out := [], complete := decide (rmaLen r ≤ m) && x.err == 0 }) s

/-- A descriptor has failed. -/
def rmaFail (p q : Nat) (r : RmaRun) (e : Nat) (s : State) : State := modRma p q r.n (fun x => { x with err := e, out := [] }) s

/-- The descriptor that awaits a tag. -/
def rmaOfTag (s : State) (tag : Nat) : Option (Nat × Nat × RmaRun) :=
  s.rma.findSome? (fun e => (e.2.find? (fun r => r.out.any (fun o => o.1 == tag))).map (fun r => (e.1 / 64, e.1 % 64, r)))

/-- The error that a failed answer means. -/
def rmaStatus (st : Nat) : Nat := if st = 1 then 2 else if st = 2 then 3 else 4

/-- A packet answers a descriptor's transfer (R113, R114): the data read goes on to the other side, an acknowledgement ends the
transfer. -/
def rmaAnswer (p q : Nat) (r : RmaRun) (pk : Pkt) (s : State) : State :=
  match pk.msg with
  | .fail st => rmaFail p q r (rmaStatus st) s
  | _ =>
    if pk.kind = 1 then
      let part := BitVec.ofNat 3 p
      let mark (t : State) : State := if pk.poison then modRma p q r.n (fun x => { x with bad := true }) t else t
      if rmaOp r = 1 then
        rmaSend p q r false { mkPkt 6 0 part filashEp filashEp 0 (rmaRemote r) pk.data (.engWrite 0) with
          pkg := BitVec.ofNat 8 (bitsN r.desc 8 8), poison := pk.poison } (mark s)
      else
        rmaSend p q r true { mkPkt 6 0 part filashEp (homeEp s (rmaLocal r) false) 0 (rmaLocal r) pk.data (.engWrite 0) with
          poison := pk.poison, opc := 1 } (mark s)
    else
      let t := rmaMoved p q r s
      if r.bad && decide (rmaLen r ≤ r.moved + rmaPiece r) then rmaFail p q r 7 t else t

/-- The oldest descriptor has failed and nothing before it is left: the queue stops on the error (R114). -/
def rmaStop (p q : Nat) (e : Nat) (s : State) : State :=
  let w := setBits (setBits (setBits (mgGet s 0 (oRma p q + 24)) 0 2 3) 2 1 1) 4 4 e
  mgSet s 0 (oRma p q + 24) w

/-- A descriptor retires: COMPLETE, the host's interrupt, and the `rmapost` that wrote it completes (R113, R114, R434). -/
def rmaRetire (p q : Nat) (r : RmaRun) (s : State) : State :=
  let s1 := mgSet (setRma p q ((rmaRuns s p q).drop 1) s) 0 (oRma p q + 16) (rmaComplete s p q + 1)
  let s2 := if bit r.desc 5 then setHint s1 hintRma else s1
  let s3 := match r.owner with
    | some (k, id) => (match (getC s2 k).runs.find? (fun c => c.cmd.id == id) with
      | some c => settleIncs (modX (dropRun k id s2) c.x (fun d => incReady d id)) c.x
      | none => s2)
    | none => s2
  rmaSettle p q s3

/-- RMA_DESCRIPTOR_RETIRE (a: partition, b: queue): the oldest descriptor retires when it is complete; when it has failed the queue
stops (R114). -/
def execRmaDescriptorRetire (s : State) : Res :=
  let p := s.arg.a
  let q := s.arg.b
  match rmaRuns s p q with
  | r :: _ =>
    gate (rmaState s p q != 3 && (r.complete || r.err != 0)) "RMA_DESCRIPTOR_RETIRE" (fun t =>
      if r.err = 0 then rmaRetire p q r t else rmaStop p q r.err t) s
  | [] => gate false "RMA_DESCRIPTOR_RETIRE" id s

/-- RMA_ERRSTOP_WRITE (a: partition, b: queue): writing 1 retires the failed descriptor and resumes (R112). -/
def execRmaErrstopWrite (s : State) : Res :=
  let p := s.arg.a
  let q := s.arg.b
  gate (decide (p < 8) && decide (q < 64)) "RMA_ERRSTOP_WRITE" (fun t =>
    if mgF t 0 (oRma p q + 24) 2 1 = 1 ∧ ¬ t.mgmt.fw.contains 0 then
      let t1 := setRmaState p q 1 (mgSetF t 0 (oRma p q + 24) 2 1 0)
      match rmaRuns t1 p q with
      | r :: _ => rmaRetire p q r t1
      | [] => rmaSettle p q t1
    else t) s

end Sys2Proof.Machine
end

