-- ==== Sys2Proof/Machine/Place.lean ====
section
/-!
DEFINITION. Invalidation (R174-R177), walk notices, the placement controllers and page moves (R142-R144, R178-R182).
-/

namespace Sys2Proof.Machine

open Sys2Proof

/-! ## Invalidation (R174, R175) -/

def oPlcHead (o : Nat) : Nat := o + 8

/-- A page of n pages from vpn meets the range of a request, or the request is for the whole partition (R174). -/
def invalMeets (r : Inval) (vpn n : Nat) : Bool := r.all || (decide (vpn < r.vpn + r.count) && decide (r.vpn < vpn + n))

def tlbMatches (r : Inval) (e : TlbEntry) : Bool := e.part == r.part && invalMeets r e.vpn.toNat (pagesOf e.size)
def walkMatches (r : Inval) (e : WalkEntry) : Bool :=
  e.part == r.part && (if e.level = 1 then invalMeets r (e.vpn.toNat * 2 ^ 24) (2 ^ 24) else invalMeets r (e.vpn.toNat * 2 ^ 12) (2 ^ 12))
def handleMatches (r : Inval) (h : Handle) : Bool := invalMeets r h.vpn.toNat (pagesOf h.size)

/-- The active cores of a partition's dies. -/
def partCores (s : State) (p : Nat) : List Nat :=
  (s.cores.filter (fun c => c.2.active && bit (mgGet s 0 (oPartCfg p)) (dieOf c.1))).map (·.1)

/-- The partition's contexts on a core. -/
def partCtxs (s : State) (k : Nat) (p : BitVec 3) : List Nat := (tasksOn s k).filter (fun x => (getX s x).part == p)

/-- The context waits for the request. -/
def awaitsInval (id : Nat) : Await → Bool
  | .inv n _ _ _ => n == id
  | _ => false

/-- Epoch, kept ranges and GO as a request ends (R175, R177). -/
def endInval (r : Inval) (s : State) : State :=
  let e := (getPart s r.part.toNat).epoch
  let s1 := modPart s r.part.toNat (fun t => { t with epoch := e + 1, kept := ((e, r.vpn, r.count, r.all) :: t.kept).take 64 })
  let s2 := if r.host then mgSetF s1 0 oInv 4 1 0 else s1
  let s3 : State := { s2 with invals := s2.invals.filter (fun q => q.id != r.id) }
  { s3 with ctxs := s3.ctxs.map (fun (c : Nat × Ctx) => if awaitsInval r.id c.2.await then (c.1, { c.2 with await := .none }) else c) }

/-- A request whose cores have all confirmed ends. -/
def settleInval (s : State) : State :=
  match s.invals with
  | r :: _ => if r.started && (partCores s r.part.toNat).all (r.confirmed.contains ·) then endInval r s else s
  | [] => s

/-- INVALIDATION_REQUEST: C0 starts the oldest request; one that names nothing ends at once (R174). -/
def execInvalidationRequest (s : State) : Res :=
  match s.invals with
  | r :: l => gate (!r.started) "INVALIDATION_REQUEST" (fun t =>
      if r.count = 0 ∧ !r.all then endInval r { t with invals := { r with started := true } :: l }
      else settleInval { t with invals := { r with started := true } :: l }) s
  | [] => gate false "INVALIDATION_REQUEST" id s

/-- A handle, or a handle write on its way, becomes DRAINING when its page matches (R175). -/
def drainHandle (r : Inval) (h : Handle) : Handle := if handleMatches r h then { h with st := 2 } else h
/-- The handles of a context, each one changed. -/
def mapHandles (f : Handle → Handle) (c : Ctx) : Ctx :=
  { c with hr := (tab 16 (fun i => i)).foldl (fun m i => let h := readH c i; if f h = h then m else mset m i (f h)) c.hr }

/-- Every handle of a context and every handle write on its way, changed. -/
def mapHandlesAll (f : Handle → Handle) (c : Ctx) : Ctx :=
  let g (e : Result) : Result := match e.eff with | .handle n h => { e with eff := .handle n (f h) } | _ => e
  { mapHandles f c with infl := c.infl.map g, hinfl := c.hinfl.map g }

/-- A page that matches the request is being moved, as the core's entries and handles show: phase 1 starts there when the move has ended
(R176). -/
def movingMatch (s : State) (k : Nat) (r : Inval) : Bool :=
  !s.moves.isEmpty
  && ((getC s k).tlb.any (fun e => tlbMatches r e && moving s e.pa.toNat)
    || (partCtxs s k r.part).any (fun x => (getX s x).hr.any (fun h => h.2.st != 0 && handleMatches r h.2 && moving s h.2.pa.toNat)))

/-- An access is a write or an atomic older than a mark and not performed at its home. -/
def writePending (mark : Nat) (a : Acc) : Bool := ordered a && a.kind != .load && !accDone a && decide (a.grp < mark)

/-- INVALIDATION_MARKING (a: core): phase 1 (R175); writes older than it are pushed to their homes. -/
def execInvalidationMarking (s : State) : Res :=
  let k := s.arg.a
  match s.invals with
  | r :: l => gate (r.started && (partCores s r.part.toNat).contains k && (mfind r.marked k).isNone && !movingMatch s k r) "INVALIDATION_MARKING" (fun t =>
      let t1 := modC t k (fun c => { c with tlb := c.tlb.map (fun e => if tlbMatches r e then { e with stop := true } else e),
                                            wcache := c.wcache.map (fun e => if walkMatches r e then { e with stop := true } else e) })
      let t2 := (partCtxs t1 k r.part).foldl (fun u x => modX u x (mapHandlesAll (drainHandle r))) t1
      let t3 := (partCtxs t2 k r.part).foldl (fun u x => pushWhere x (fun _ => true) u) (cleanPart t2 k r.part)
      { t3 with invals := { r with marked := mset r.marked k t3.nextId } :: l }) s
  | [] => gate false "INVALIDATION_MARKING" id s

/-- While a request waits at a core, the writes older than its mark go on to their homes (R175). -/
def invalPush (k : Nat) (s : State) : State :=
  match s.invals with
  | r :: _ => (match mfind r.marked k with
    | some mark => (partCtxs s k r.part).foldl (fun t x => pushWhere x (writePending mark) t) s
    | none => s)
  | [] => s

/-- The destination of a command of a context is written through handles (R175). -/
def cmdWrites (m : Cmd) : Bool := m.op == 0 && cpGlobalDst (cpOp m.blk)

/-- What phase 2 waits for at a core (R175). -/
def quiet (s : State) (k : Nat) (p : BitVec 3) (mark : Nat) : Bool :=
  (partCtxs s k p).all (fun x => let c := getX s x
    !c.accs.any (writePending mark) && !c.q1.any (fun m => decide (m.id < mark) && cmdWrites m))
  && !(getC s k).wbs.any (fun w => w.2.2 == p)
  && !(getC s k).runs.any (fun r => decide (r.cmd.id < mark) && cmdWrites r.cmd && runPart s r == p && !r.stopped)

/-- A handle of phase 2 (R175). -/
def dropHandle (r : Inval) (h : Handle) : Handle := if h.st = 2 ∧ handleMatches r h then { h with st := 0 } else h

/-- INVALIDATION_CONFIRMATION (a: core): phase 2 (R175); with ALL the core's copies of MMU.ROOT and MMU.THR are given up (R163). -/
def execInvalidationConfirmation (s : State) : Res :=
  let k := s.arg.a
  match s.invals with
  | r :: l =>
    (match mfind r.marked k with
    | some mark => gate (r.started && !r.confirmed.contains k && quiet s k r.part mark) "INVALIDATION_CONFIRMATION" (fun t =>
        let t1 := modC t k (fun c => { c with tlb := c.tlb.filter (fun e => !tlbMatches r e), wcache := c.wcache.filter (fun e => !walkMatches r e),
                                              roots := if r.all then mdel c.roots r.part.toNat else c.roots })
        let t2 := (partCtxs t1 k r.part).foldl (fun u x => modX u x (mapHandlesAll (dropHandle r))) t1
        let t3 := if (mfind (getC t2 k).thr r.part.toNat).isSome then loadThr (modC t2 k (fun c => { c with thr := mdel c.thr r.part.toNat })) k r.part else t2
        settleInval { t3 with invals := { r with confirmed := k :: r.confirmed } :: l }) s
    | none => gate false "INVALIDATION_CONFIRMATION" id s)
  | [] => gate false "INVALIDATION_CONFIRMATION" id s

/-- The state in which a saved handle is restored (R177): with its epoch at the save. -/
def restoreHandle (s : State) (p : Nat) (saved : Nat) (h : Handle) : Handle :=
  let t := getPart s p
  let since := t.kept.filter (fun q => saved ≤ q.1)
  let hit := since.any (fun q => q.2.2.2 || (decide (h.vpn.toNat < q.2.1 + q.2.2.1) && decide (q.2.1 < h.vpn.toNat + pagesOf h.size)))
  let lost := !t.kept.isEmpty && t.kept.all (fun q => decide (saved ≤ q.1))
  if h.st = 2 then { h with st := 0 }
  else if h.st = 0 ∨ saved = t.epoch then h
  else if hit || lost then { h with st := 0 } else { h with st := 3 }

/-! ## Walk notices (R178) -/

/-- The page of an entry and a page of frames from base on share a frame. -/
def plcOverlap (base n : Nat) (e : PlcEntry) : Bool := decide (base < e.frame + pageFrames e) && decide (e.frame < base + n)

/-- A notice of the frames from base on, whose first leaf PTE is at key, reaches an entry that shares a frame: the entry takes the PTE when it has
none; the mark of an alias when another PTE maps a frame; else the page's size as the leaf now gives it (R178). -/
def noteEntry (base key : Nat) (big : Bool) (e : PlcEntry) : PlcEntry :=
  match e.pte with
  | none => { e with frame := base, big := big, pte := some key }
  | some q =>
    let f := max base e.frame
    if q + 16 * (f - e.frame) = key + 16 * (f - base) then { e with frame := base, big := big, pte := some key } else { e with aliased := true }

/-- WALK_NOTICE (a: die): R178. -/
def execWalkNotice (s : State) : Res :=
  let d := s.arg.a
  match (getPlc s d).notices with
  | [] => gate false "WALK_NOTICE" id s
  | (frame, big, part, pte) :: l => gate true "WALK_NOTICE" (modPlc d (fun c =>
      let base := if big then frame / 32 * 32 else frame
      let key := if big then pte / 512 * 512 else pte
      let hit := plcOverlap base (if big then 32 else 1)
      let c1 := { c with notices := l }
      if c.entries.any (fun e => hit e && e.pte.isSome) then
        { c1 with entries := c.entries.map (fun e => if hit e && e.pte.isSome then noteEntry base key big e else e) }
      else if c.entries.any hit then { c1 with entries := updFirst hit (noteEntry base key big) c.entries }
      else if c.entries.length < 4096 then
        { c1 with entries := c.entries ++ [⟨base, big, BitVec.ofNat 3 part, some key, false, [], 0, 0⟩] }
      else c1)) s

/-! ## Rings (R144, R182) -/

def ringBase (s : State) (d o : Nat) : Nat := 64 * mgF s d o 6 42
def ringLog (s : State) (d o : Nat) : Nat := max 4 (mgF s d o 48 4)
def ringTail (s : State) (d o : Nat) : BitVec 32 := bits (mgGet s d (o + 8)) 0 32
def ringHead (s : State) (d o : Nat) : BitVec 32 := bits (mgGet s d (o + 8)) 32 32
def ringUsed (s : State) (d o : Nat) : Nat := (ringTail s d o - ringHead s d o).toNat
def ringRoom (s : State) (d o : Nat) : Nat := 2 ^ ringLog s d o - ringUsed s d o

/-- Entry n after the head of a ring. -/
def ringEntry (s : State) (d o n : Nat) : Nat :=
  leNat (homeRead s (ringBase s d o + 8 * (((ringHead s d o).toNat + n) % 2 ^ ringLog s d o)) 8)

/-- The controller writes frames into a ring (R144, R182). -/
def ringPut (d o : Nat) (l : List Nat) (s : State) : State :=
  l.foldl (fun t f =>
    let n := (ringTail t d o).toNat
    mgSetF (homeWrite t (ringBase t d o + 8 * (n % 2 ^ ringLog t d o)) (leBytes 8 f) false) d (o + 8) 0 32 (n + 1)) s

/-- The controller takes n entries of a pool. -/
def ringTake (d o n : Nat) (s : State) : State := mgSetF s d (o + 8) 32 32 ((ringHead s d o).toNat + n)

/-- PLC_RET_HEAD_WRITE (a: die, b: HEAD): R144. -/
def execPlcRetHeadWrite (s : State) : Res :=
  gate (dieOk s s.arg.a) "PLC_RET_HEAD_WRITE" (fun t => mgSetF t t.arg.a (oPlcRet + 8) 32 32 t.arg.b) s
/-- PLC_LOST_HEAD_WRITE (a: die, b: HEAD): R182. -/
def execPlcLostHeadWrite (s : State) : Res :=
  gate (dieOk s s.arg.a) "PLC_LOST_HEAD_WRITE" (fun t => mgSetF t t.arg.a (oPlcLost + 8) 32 32 t.arg.b) s

/-! ## Page moves (R179, R180) -/

/-- The addresses of an entry's leaves, and the leaves. -/
def pageLeaves (s : State) (e : PlcEntry) : List (Nat × BitVec 128) :=
  match e.pte with
  | none => []
  | some a => tab (pageFrames e) (fun i => (a + 16 * i, rd16 s (a + 16 * i)))

/-- The command names the page on a global side, or is a launch whose record lies in it. -/
def cmdNames (s : State) (e : PlcEntry) (m : Cmd) : Bool :=
  let onPod (pa : Pod) : Bool := isLocal s pa.toNat && inPage e (paOf pa.toNat)
  (decide (m.op ≤ 2) && ((cpGlobalSrc (cpOp m.blk) && onPod m.src) || (cpGlobalDst (cpOp m.blk) && onPod m.dst))) || (m.op == 0x19 && onPod m.src)

/-- A mapping lies in the page. -/
def entryIn (s : State) (e : PlcEntry) (m : TlbEntry) : Bool := isLocal s m.pa.toNat && inPage e (paOf m.pa.toNat)

/-- The page is named by a copy command or a node's run in flight: it is not moved (R130). -/
def pageBusy (s : State) (e : PlcEntry) : Bool :=
  s.ctxs.any (fun c => c.2.q1.any (cmdNames s e))
  || s.cores.any (fun c => c.2.runs.any (fun r => cmdNames s e r.cmd || r.pages.any (fun m => entryIn s e m.2)))
  || s.parts.any (fun p => p.2.saved.any (fun v => v.2.q1.any (cmdNames s e)))
  || s.gangs.any (fun g => g.saved.any (fun v => v.2.1.q1.any (cmdNames s e)))
  || s.moves.any (fun m => plcOverlap e.frame (pageFrames e) m.entry)

/-- Every core data cache writes its dirty bytes of a page back (R179). -/
def cleanPage (e : PlcEntry) (s : State) : State :=
  s.cores.foldl (fun t c => ((getC t c.1).dc.filter (fun l => l.dirty != 0 && inPage e (64 * l.line))).foldl (fun u l => writeBack u c.1 l) t) s

/-- Every RDC line and data-cache line of n bytes from base is given up; reads of them in flight enter no cache (R179). -/
def dropCopies (base n : Nat) (s : State) : State :=
  let within (line : Nat) : Bool := decide (base ≤ 64 * line) && decide (64 * line < base + n)
  let keep (a : Acc) : Acc := if isLocal s a.pa.toNat && within (paOf a.pa.toNat / 64) then { a with alloc := false } else a
  { s with rdc := s.rdc.map (fun (e : Nat × List RdcLine) => (e.1, e.2.filter (fun l => !within l.line))),
           cores := s.cores.map (fun (c : Nat × Core) => (c.1, { c.2 with dc := c.2.dc.filter (fun l => !within l.line) })),
           ctxs := s.ctxs.map (fun (c : Nat × Ctx) => (c.1, { c.2 with accs := c.2.accs.map keep })) }

/-- A line copied from one place to another through the homes, with its data, version and poison (R64, R179). -/
def copyLine (src dst : Nat) (t : State) : State :=
  { t with mem := memWrite t.mem (64 * dst) (memBytes t.mem (64 * src) 64),
           poison := if linePoison t src then (if t.poison.contains dst then t.poison else dst :: t.poison) else t.poison.filter (· != dst),
           ver := if isTier2 (64 * dst) then t.ver else mset t.ver dst (lineVer t src) }

/-- A pod address of the page, retargeted. -/
def retarget (s : State) (e : PlcEntry) (dst : Nat) (pa : Pod) : Pod :=
  if isLocal s pa.toNat && inPage e (paOf pa.toNat) then pa + BitVec.ofNat 56 dst - BitVec.ofNat 56 (pageBase e) else pa

/-- Every handle, handle write on its way, translation-cache entry, waiting access and queued command of the page names the destination (R179). -/
def retargetAll (e : PlcEntry) (dst : Nat) (s : State) : State :=
  let f := retarget s e dst
  let cmd (m : Cmd) : Cmd := { m with src := f m.src, dst := f m.dst }
  let ctx (c : Ctx) : Ctx :=
    { mapHandlesAll (fun h => { h with pa := f h.pa }) c with
      accs := c.accs.map (fun a => if accWaiting a then { a with pa := f a.pa } else a), q1 := c.q1.map cmd, q4 := c.q4.map cmd }
  { s with ctxs := s.ctxs.map (fun (c : Nat × Ctx) => (c.1, ctx c.2)),
           parts := s.parts.map (fun (p : Nat × Part) => (p.1, { p.2 with saved := p.2.saved.map (fun v => (v.1, ctx v.2)) })),
           gangs := s.gangs.map (fun g => { g with saved := g.saved.map (fun v => (v.1, ctx v.2.1, v.2.2)) }),
           cores := s.cores.map (fun (c : Nat × Core) => (c.1, { c.2 with tlb := c.2.tlb.map (fun t => { t with pa := f t.pa }),
                                                                          runs := c.2.runs.map (fun r => { r with cmd := cmd r.cmd }) })) }

/-- The leaves as the move leaves them: PFN names frame i of the destination. -/
def moveLeaves (dst : Nat) (l : List (Nat × BitVec 128)) (s : State) : State :=
  (tab l.length (fun i => (i, l.getD i (0, 0)))).foldl (fun t q =>
    homeWrite t q.2.1 (leBytes 16 (setBits q.2.2 64 32 (dst / 65536 + q.1)).toNat) false) s

/-- NOMIG set in every leaf of a page (R180). -/
def stopMoves (l : List (Nat × BitVec 128)) (s : State) : State :=
  l.foldl (fun t q => homeWrite t q.1 (leBytes 16 (setBits q.2 10 1 1).toNat) false) s

/-- An abort is recorded in PLC.ABORT, and the host is told (R180, R181). -/
def moveAbort (d reason : Nat) (e : PlcEntry) (dst : Nat) (s : State) : State :=
  let n := min (mgF s d oPlcAbort 48 16 + 1) 65535
  let lo := BitVec.ofNat 64 (reason + (if e.big then 8 else 0) + e.part.toNat * 16 + 128 + pageBase e / 65536 * 65536 % 2 ^ 48 + n * 2 ^ 48)
  setHint (mgSet (mgSet s d oPlcAbort lo) d (oPlcAbort + 8) (BitVec.ofNat 64 (dst / 65536 % 2 ^ 32))) hintPlcAbort

/-- A move of a page by die d's controller to the frames of a pool begins (R179): a pool entry that will not do aborts it; else the leaves' image is kept, the
page is blocked, and every core data cache writes its dirty bytes of it back; `fault` and `line` say what befalls it (log entry 79, DESIGN CHOICE). -/
def movePage (d pool fault line : Nat) (e : PlcEntry) (s : State) : State :=
  let o := oPool pool
  let frames := tab (pageFrames e) (fun i => ringEntry s d o i)
  let s1 := ringTake d o (pageFrames e) s
  if frames.any (fun f => f % 65536 != 0 || !populated s f) then moveAbort d 5 e (frames.getD 0 0) (ringPut d oPlcLost frames s1)
  else
    let m : Move := ⟨d, e, frames, pageLeaves s e, s1.nextId, 0, fault, line⟩
    cleanPage e { s1 with moves := s1.moves ++ [m] }

/-- The accesses that were issued through the page before it was blocked. -/
def beforeMove (s : State) (m : Move) (a : Acc) : Bool :=
  writePending m.mark a && isLocal s a.pa.toNat && inPage m.entry (paOf a.pa.toNat)

/-- Everything that was written through the page before it was blocked has been acknowledged (R179, step 3). -/
def moveQuiet (s : State) (m : Move) : Bool :=
  !s.ctxs.any (fun c => c.2.accs.any (beforeMove s m)) && !s.cores.any (fun c => c.2.wbs.any (fun w => inPage m.entry (64 * w.2.1)))

/-- The first destination frame of a move. -/
def moveDst (m : Move) : Nat := m.frames.getD 0 0

/-- The move has ended, and the page is blocked no longer. -/
def endMove (m : Move) (s : State) : State := { s with moves := s.moves.filter (fun q => q.entry != m.entry || q.die != m.die) }

/-- A home that a move needs can no longer be reached: the copy is lost (R62, R147, R180). -/
def moveLost (s : State) (src dst : Nat) : Bool := !(epExists s (homeEp s (64 * src) false) && epExists s (homeEp s (64 * dst) false))

/-- The move aborts (R180): D is returned, or after DSTERR lost; after SRCERR the leaves are marked. -/
def abortMove (m : Move) (reason : Nat) (s : State) : State :=
  let s1 := if reason = 1 then stopMoves m.leaves s else s
  moveAbort m.die reason m.entry (moveDst m) (ringPut m.die (if reason = 2 then oPlcLost else oPlcRet) m.frames (endMove m s1))

/-- A source line reads uncorrectable (R131, R180). -/
def sourceError (m : Move) (line : Nat) (s : State) : State :=
  bbxLog (poisonLine line s) 0x06 (epDie (homeEp s (64 * line) false)) 0 0xFF 0 (BitVec.ofNat 128 (64 * line)) |> abortMove m 1

/-- The leaves still are what the move read: they are exchanged, the page's copies go, and every use of it goes on at D (R179, steps 5 and 6). -/
def commitMove (m : Move) (s : State) : State :=
  let e := m.entry
  let dst := moveDst m
  let s1 := dropCopies (pageBase e) (pageLen e) (moveLeaves dst m.leaves s)
  let s2 := retargetAll e dst (endMove m s1)
  let s3 := ringPut m.die oPlcRet (tab (pageFrames e) (fun i => pageBase e + 65536 * i)) s2
  let s4 := modPart s3 e.part.toNat (fun t => { t with epoch := t.epoch + 1 })
  modPlc m.die (fun c => { c with entries := updFirst (fun q => plcOverlap e.frame (pageFrames e) q) (fun q => { q with frame := dst / 65536 }) c.entries }) s4

/-- A move goes on by a line in a cycle (R179, steps 3 to 6; log entry 79, DESIGN CHOICE). -/
def moveStep (m : Move) (s : State) : State :=
  let e := m.entry
  let src := pageBase e / 64 + m.pos
  let dst := moveDst m / 64 + m.pos
  let at_ (reason : Nat) : Bool := m.fault == reason && m.at_ == m.pos
  let next (t : State) : State := { t with moves := t.moves.map (fun q => if q == m then { q with pos := q.pos + 1 } else q) }
  if m.pos = 0 ∧ ¬ moveQuiet s m then
    s.ctxs.foldl (fun t c => pushWhere c.1 (beforeMove t m) t) s
  else if m.pos = 1024 * pageFrames e then
    (if pageLeaves s e == m.leaves then commitMove m s else abortMove m 4 s)
  else
    let s1 := if m.pos = 0 then dropCopies (moveDst m) (pageLen e) s else s
    if at_ 1 then sourceError m src s1
    else if linePoison s1 src then abortMove m 1 s1
    else if at_ 2 then abortMove m 2 s1
    else if at_ 3 || moveLost s1 src dst then abortMove m 3 s1
    else next (copyLine src dst s1)

/-- Every move goes on. -/
def movesStep (s : State) : State := s.moves.foldl (fun t m => moveStep m t) s

/-- The total of an entry's counts, and a die that holds at least 3/4 of it. -/
def plcTotal (e : PlcEntry) : Nat := e.counts.foldl (fun n c => n + c.2) 0
def plcLeader (e : PlcEntry) : Option Nat := (e.counts.find? (fun c => decide (3 * plcTotal e ≤ 4 * c.2) && decide (0 < c.2))).map (·.1)

/-- The pool to which an entry's page would move (R142); the step now evaluated counts among those without a die of 3/4. -/
def moveWanted (s : State) (d : Nat) (e : PlcEntry) (place : Nat) : Option Nat :=
  let t := plcTotal e
  let hot := mgF s d oPlcCtl 8 16
  let cold := mgF s d oPlcCtl 32 8
  let pa := pageBase e
  let first := place == 0 || place == 2
  if isTier2 pa then (if place == 0 && decide (hot ≤ t) then some 8 else none)
  else
    let window := decide (0x8000000000 ≤ pa)
    let spread := if (plcLeader e).isSome then 0 else e.spread + 1
    let near := match plcLeader e with | some k => if !window && first && decide (hot ≤ t) then some k else none | none => none
    match near with
    | some k => some k
    | none =>
      if window && first && decide (2 ≤ spread) then some 8
      else if place == 0 && cold != 0 && decide (cold ≤ e.cold) then some 9 else none

/-- The frames that a pool offers for a page (R144). -/
def poolReady (s : State) (d pool : Nat) (e : PlcEntry) : Bool :=
  let n := pageFrames e
  let o := oPool pool
  let f := ringEntry s d o 0
  decide (n ≤ ringUsed s d o) && decide (n ≤ ringRoom s d oPlcRet) && decide (n ≤ ringRoom s d oPlcLost)
  && (!e.big || (f % 2097152 == 0 && (List.range n).all (fun i => ringEntry s d o i == f + 65536 * i)))

/-- An entry may be moved now: its leaves still map its frames, and allow it (R130, R142, R144, R178, R179). -/
def movable (s : State) (d : Nat) (e : PlcEntry) : Option Nat :=
  let leaves := pageLeaves s e
  let names := (List.range leaves.length).all (fun i => let q := (leaves.getD i (0, 0)).2
    pteV q && pteLeaf q && pteSpan q == e.big && !pteNomig q && !bit q 7 && ptePfn q == podPkg s * 2 ^ 32 + e.frame + i)
  if e.aliased || leaves.isEmpty || !bit (mgGet s d oPlcCtl) e.part.toNat || !names then none
  else
    match moveWanted s d e (ptePlace (leaves.getD 0 (0, 0)).2) with
    | none => none
    | some pool =>
      let pinned := (List.range (1024 * pageFrames e)).any (fun i => pinCount s (pageBase e / 64 + i) != 0)
      if poolReady s d pool e && !pinned && !pageBusy s e then some pool else none

/-- Entries in descending order of their totals. -/
def insEntry (e : PlcEntry) : List PlcEntry → List PlcEntry
  | [] => [e]
  | f :: l => if plcTotal f < plcTotal e then e :: f :: l else f :: insEntry e l

/-- At most n moves, in the order of a list; the first meets the fault that the event names. -/
def movePages (d fault line : Nat) : Nat → List PlcEntry → State → State
  | _, [], s => s
  | 0, _, s => s
  | n + 1, e :: l, s => match movable s d e with
    | some pool => movePages d 0 0 n l (movePage d pool fault line e s)
    | none => movePages d fault line (n + 1) l s

/-- An entry after a step: its counts halved, its steps without a sample and without a leader counted (R142). -/
def ageEntry (e : PlcEntry) : PlcEntry :=
  { e with counts := (e.counts.map (fun (c : Nat × Nat) => (c.1, c.2 / 2))).filter (fun c => c.2 != 0), cold := e.cold + 1,
           spread := if (plcLeader e).isSome then 0 else e.spread + 1 }

/-- PLACEMENT_EVALUATION (a: die; b: what befalls the first move, 1 SRCERR, 2 DSTERR, 3 LOST, 0 nothing; c: at which line), every 2^20 cycles: R142,
R179, R180. -/
def execPlacementEvaluation (s : State) : Res :=
  let d := s.arg.a
  gate (s.running && dieOk s d && coreCyc s % 1048576 == 0) "PLACEMENT_EVALUATION" (fun t =>
    let es := (getPlc t d).entries.foldl (fun l e => insEntry e l) []
    let t1 := movePages d t.arg.b t.arg.c (mgF t d oPlcCtl 24 8) es t
    modPlc d (fun c => { c with entries := (c.entries.map ageEntry).filter (fun e => !e.counts.isEmpty) }) t1) s

end Sys2Proof.Machine
end

