-- ==== Sys2Proof/Machine/Replay.lean ====
section
/-!
DEFINITION. The work of copy nodes and collective nodes on copy port 1 (R192, R193, R433): the schedule's commands one by one, the
collective's blocks one by one, each in pieces of at most one line, one piece at a time (log entry 17, DEDUCED).
-/

namespace Sys2Proof.Machine

open Sys2Proof

/-! ## Translation by a port (R193, R433) -/

/-- What a port's translation gives: a mapping, with the caches as they then are; a wait for an invalidation or a move; a fault. -/
inductive PortOut where
  | ok (t : State) (m : TlbEntry)
  | wait (t : State)
  | fault (t : State)

/-- The mapping of a VA under a partition's page table, through a core's translation cache (R163, R170, R193); with `held` the port waits for what
has stopped hitting and for a page being moved (R175, R179), without it such an entry is no hit. -/
def portLookup (held : Bool) (s : State) (k : Nat) (part : BitVec 3) (va : Int) : PortOut :=
  let v := va.toNat
  let out (t : State) (m : TlbEntry) : PortOut := if held && moving t (mappedAt m v) then .wait t else .ok t m
  let miss : PortOut :=
    match walk s k part v with
    | .leaf m pte e nl => out (installWalk s k part v m pte e nl) m
    | .fault _ => .fault (fillRoots s k part)
  if va < 0 ∨ 2 ^ 52 ≤ va then .fault s
  else
    match (getC s k).tlb.find? (fun e => covers e part (v / 65536)) with
    | some e =>
      if !e.stop then out (modC s k (fun c => { c with tlb := e :: dropFirst (fun f => f = e) c.tlb })) e
      else if held then .wait s else miss
    | none => if held && walkStopped (getC s k) part v then .wait s else miss

/-- The pod address of a VA in a mapping, with the permission and the population that an access needs. -/
def portPa (s : State) (m : TlbEntry) (va : Nat) (wr : Bool) : Option Nat :=
  let pa := mappedAt m va
  if (if wr then m.wr else m.rd) && (!isLocal s pa || populated s (paOf pa)) then some pa else none

/-! ## Runs of nodes -/

def opCopyNode : Nat := 0x40
def opCollective : Nat := 0x41

/-- The node that a run stands for. -/
def nodeOfRun (s : State) (r : Run) : BitVec 512 :=
  match r.node with
  | some q => (match s.recs.find? (fun e => e.id == q.1) with | some e => e.nodes.getD q.2 0 | none => 0)
  | none => 0

/-- The run of a node as it joins its core. -/
def nodeRun (s : State) (rid n op : Nat) : Run :=
  { cmd := { id := s.nextId, op := op, port := 1, cyc := s.cyc, opc := 0, oct := 0, blk := 0, a := 0, b := 0, c := 0, src := 0, dst := 0,
             fmt := 0, tl := none, inc := 0, stage := 0, ord := 0, data := [], poison := false },
    x := 0, node := some (rid, n), pos := 0, out := [], buf := [], bad := false, done := 0, arrived := false, stopped := false, cause := 0,
    step := 0, aux := 0, lines := [], hurt := [], pages := [] }

/-- The node fails: nothing further is written (R193, R433). -/
def failNodeRun (k : Nat) (r : Run) (s : State) : State :=
  modRun k r.cmd.id (fun q => { q with stopped := true, out := [], buf := [], cause := 1 }) s

/-- The port is free for a node's run: no command of a context is busy on it, no earlier node waits (R427, R433). -/
def nodeTurn (c : Core) (r : Run) : Bool :=
  ((portRuns c 1).filter runBusy).all (fun q => q.node.isSome)
  && ((portRuns c 1).find? (fun q => q.node.isSome && runBusy q)).any (fun q => q.cmd.id == r.cmd.id)

/-! ## Copy nodes (R433) -/

def cnSched (b : BitVec 512) : Nat := bitsN b 128 52
def cnCount (b : BitVec 512) : Nat := bitsN b 192 16

/-- A command that a schedule may not hold (R423, R433). -/
def scheduleBad (b : BitVec 512) : Bool :=
  cpMalformed b [3] false || cpSh b != 0 || cpDh b != 0 || cpWen b || cpStage b || cpBaren b || cpArrv b != 0 || cpDwen b || cpTgt b != 0

/-- A stream of addresses of a node's run at a VA: the page it is in, or the next one (R193); the run fails when there is none. -/
def streamAt (k : Nat) (r : Run) (key : Nat) (va : Int) (wr : Bool) (go : Nat → State → State) (s : State) : State :=
  let part := runPart s r
  let use (t : State) (m : TlbEntry) : State :=
    match portPa t m va.toNat wr with
    | some pa => go pa (modRun k r.cmd.id (fun q => { q with pages := mset q.pages key m }) t)
    | none => failNodeRun k r t
  match (if 0 ≤ va then (mfind r.pages key).bind (fun m => if covers m part (va.toNat / 65536) then some m else none) else none) with
  | some m => use s m
  | none =>
    match portLookup true s k part va with
    | .ok t m => use t m
    | .wait t => t
    | .fault t => failNodeRun k r t

/-- A command of a schedule has been read: it begins, or the schedule ends with a failure. -/
def beginCommand (k : Nat) (r : Run) (s : State) : State :=
  let blk : BitVec 512 := BitVec.ofNat 512 (leNat r.buf)
  if r.bad || scheduleBad blk then failNodeRun k r s
  else modRun k r.cmd.id (fun q => { q with cmd := { q.cmd with blk := blk }, step := 1, pos := 0, buf := [], pages := mdel (mdel q.pages 0) 1 }) s

/-- The next command of a schedule is read, or the schedule ends. -/
def fetchCommand (k : Nat) (r : Run) (s : State) : State :=
  let b := nodeOfRun s r
  if cnCount b ≤ r.done then modRun k r.cmd.id (fun q => { q with step := 2 }) s
  else if r.buf.length = 64 then beginCommand k r s
  else
    let va := cnSched b + 64 * r.done + r.buf.length
    streamAt k r 2 va false (fun pa t => engineRead k r pa (min (64 - r.buf.length) (64 - va % 64)) t) s

/-- A command of a schedule reads its next piece, writes the piece that it has read, or ends. -/
def copyNodeStep (k : Nat) (r : Run) (s : State) : State :=
  let b := r.cmd.blk
  if r.step = 0 then fetchCommand k r s
  else if !r.buf.isEmpty then
    let own := selfBytes s r r.buf.length
    streamAt k r 1 (cpDstAt b r.pos) true (fun pa t =>
      useFree own r.buf.length (engineWrite k r pa (freeBytes t own r.buf) r.bad (modRun k r.cmd.id (fun q => { q with buf := [] }) t))) s
  else if cpTotal b ≤ r.pos then modRun k r.cmd.id (fun q => { q with step := 0, done := q.done + 1 }) s
  else
    let n := pieceLen r (fun _ => false)
    streamAt k r 0 (cpSrcAt b r.pos) false (fun pa t => engineRead k r pa (n * cpEsz b) (modRun k r.cmd.id (fun q => { q with aux := n }) t)) s

/-! ## Collective nodes (R192, R193) -/

def clOp (b : BitVec 512) : Nat := bitsN b 128 2
def clEsz (b : BitVec 512) : Nat := if bit b 130 then 2 else 4
def clNb (b : BitVec 512) : Nat := bitsN b 131 7
def clCount (b : BitVec 512) : Nat := bitsN b 144 32
def clBuf (b : BitVec 512) : Nat := bitsN b 176 52
def clStride (b : BitVec 512) : Nat := bitsN b 240 48
def clDst (b : BitVec 512) : Nat := bitsN b 312 52

/-- The destination overlaps a buffer. -/
def clOverlap (b : BitVec 512) : Bool :=
  let n := clCount b * clEsz b
  (List.range (clNb b)).any (fun i => let a := clBuf b + i * clStride b
    decide (a < clDst b + n) && decide (clDst b < a + n))

/-- The elements of block i. -/
def clBlock (b : BitVec 512) (i : Nat) : Nat := min 64 (clCount b - 64 * i)

/-- An element's FP32 code. -/
def clTake (b : BitVec 512) (l : List Byte) : Nat :=
  if bit b 130 then roundNum fp32 .rne (decodeNum bf16 (leNat l)) else leNat l

/-- Two values combined (R192). -/
def clCombine (op a b : Nat) : Nat :=
  let f := if op = 0 then Ex.add else if op = 1 then Ex.max else Ex.min
  roundNum fp32 .rne (identity f (decodeNum fp32 a) (decodeNum fp32 b))

/-- A list without its i-th element. -/
def without (i : Nat) (l : List Nat) : List Nat := l.take i ++ l.drop (i + 1)

/-- Values combined in an order that is not defined: a free choice of two of them at each turn (R192; log entry 16, DESIGN CHOICE). -/
def combineFree (op free : Nat) : Nat → List Nat → Nat
  | 0, l => l.headD fp32.absentCode
  | n + 1, l =>
    match l with
    | [] => fp32.absentCode
    | [x] => x
    | _ =>
      let i := Config.collectivePick (free + 2 * n) % l.length
      let m := without i l
      let j := Config.collectivePick (free + 2 * n + 1) % max 1 m.length
      combineFree op free n (clCombine op (l.getD i 0) (m.getD j 0) :: without j m)

/-- The result's bytes of a block of n elements, from the bytes of the buffers one after the other. -/
def clResult (b : BitVec 512) (n free : Nat) (l : List Byte) : List Byte :=
  let esz := clEsz b
  (tab n (fun e =>
    let codes := tab (clNb b) (fun i => clTake b ((l.drop ((i * n + e) * esz)).take esz))
    let v := combineFree (clOp b) (free + 256 * e) (clNb b) codes
    leBytes esz (if bit b 130 then roundNum bf16 .rne (decodeNum fp32 v) else v))).flatten

/-- A collective at its start: DST overlaps no buffer, and the port translates every buffer and DST, a stream in a cycle (R193). -/
def collectiveStart (k : Nat) (r : Run) (s : State) : State :=
  let b := nodeOfRun s r
  let next (t : State) : State := modRun k r.cmd.id (fun q => { q with pos := q.pos + 1 }) t
  if clOverlap b then failNodeRun k r s
  else if r.pos < clNb b then streamAt k r r.pos (clBuf b + r.pos * clStride b : Nat) false (fun _ => next) s
  else if r.pos = clNb b then streamAt k r r.pos (clDst b) true (fun _ => next) s
  else modRun k r.cmd.id (fun q => { q with pos := 0, step := 1 }) s

/-- A collective reads its next piece or writes its next piece: `pos` counts the bytes of the block read over all buffers, `arrived`
says that the block is being written, and `pos` then counts the bytes written (R193). -/
def collectiveStep (k : Nat) (r : Run) (s : State) : State :=
  let b := nodeOfRun s r
  let esz := clEsz b
  let n := clBlock b r.done
  let bytes := n * esz
  let piece (m : Nat) (t : State) : State := modRun k r.cmd.id (fun q => { q with aux := m }) t
  if r.step = 0 then collectiveStart k r s
  else if n = 0 then modRun k r.cmd.id (fun q => { q with step := 2 }) s
  else if r.arrived then
    if bytes ≤ r.pos then
      if r.bad then failNodeRun k r s
      else modRun k r.cmd.id (fun q => { q with done := q.done + 1, pos := 0, buf := [], arrived := false }) s
    else
      let va := clDst b + 64 * r.done * esz + r.pos
      let m := min (bytes - r.pos) (64 - va % 64)
      streamAt k r (clNb b) va true (fun pa t => engineWrite k r pa ((r.buf.drop r.pos).take m) r.bad (piece m t)) s
  else if clNb b * bytes ≤ r.pos then
    modRun k r.cmd.id (fun q => { q with arrived := true, pos := 0, buf := clResult b n s.free r.buf }) { s with free := s.free + 16384 }
  else
    let i := r.pos / bytes
    let o := r.pos % bytes
    let va := clBuf b + i * clStride b + 64 * r.done * esz + o
    let m := min (bytes - o) (64 - va % 64)
    streamAt k r i va false (fun pa t => engineRead k r pa m (piece m t)) s

/-! ## Steps and answers -/

/-- Each node's run of a core does its part of a cycle (R193, R433); a core that is being repaired begins nothing (R161). -/
def replayStep (k : Nat) (s : State) : State :=
  if s.mgmt.repairs.any (fun q => q.1 == k) then s else
  (getC s k).runs.foldl (fun t r0 =>
    match (getC t k).runs.find? (fun r => r.cmd.id == r0.cmd.id) with
    | none => t
    | some r =>
      if r.node.isNone || r.stopped || !r.out.isEmpty || r.step == 2 || !nodeTurn (getC t k) r then t
      else if r.cmd.op = opCopyNode then copyNodeStep k r t
      else collectiveStep k r t) s

/-- A read of a node's run is answered: bytes of a command, of a piece, of a block. -/
def nodeRead (k : Nat) (r : Run) (data : List Byte) (bad : Bool) (s : State) : State :=
  if r.cmd.op = opCopyNode then
    modRun k r.cmd.id (fun q => { q with out := [], buf := if r.step = 0 then q.buf ++ data else data, bad := (r.step == 0 && q.bad) || bad }) s
  else modRun k r.cmd.id (fun q => { q with out := [], pos := q.pos + q.aux, buf := q.buf ++ data.take q.aux, bad := q.bad || bad }) s

/-- A write of a node's run is acknowledged. -/
def nodeAck (k : Nat) (r : Run) (s : State) : State :=
  modRun k r.cmd.id (fun q => { q with out := [], pos := q.pos + q.aux, bad := q.bad && q.cmd.op != opCopyNode }) s

end Sys2Proof.Machine
end

