-- ==== Sys2Proof/Machine/Sched.lean ====
section
/-!
DEFINITION. The graph walkers (R156, R189-R197): launch queues, the checks of a record, the progress of its nodes, its retirement.
-/

namespace Sys2Proof.Machine

open Sys2Proof

/-! ## Partitions and queues (R154-R156) -/

def partDies (s : State) (p : Nat) : Nat := mgF s 0 (oPartCfg p) 0 8
def partCtx (s : State) (p : Nat) : Nat := mgF s 0 (oPartCfg p) 8 9
def partLc (s : State) (p : Nat) : Bool := mgF s 0 (oPartCfg p) 17 1 == 1
def partRs2 (s : State) (p : Nat) : Bool := mgF s 0 (oPartCfg p) 18 1 == 1
/-- STATE as the scheduler takes it: 0 FREE, 1 ACTIVE, 2 SWAPPED, 3 FENCING; while a swap is under way it takes nothing of
the partition, as when it is SWAPPED (R203). -/
def partState (s : State) (p : Nat) : Nat := if (getPart s p).swapping = 0 then mgF s 0 (oPartCfg p) 19 2 else 2
def partMem (s : State) (p : Nat) : Nat := mgF s 0 (oPartCfg p) 32 10
def setPartState (p st : Nat) (s : State) : State := mgSetF s 0 (oPartCfg p) 19 2 st

/-- Issue priority of a resident set (R154, R185). -/
def partPri (s : State) (p : Nat) (rset : Bool) : BitVec 4 := bits (mgGet s 0 (oPartRs p)) (if rset then 4 else 0) 4

/-- The die whose walker serves a partition: the lowest of PART.CFG.DIES (R156). -/
def walkerDie (s : State) (p : Nat) : Nat := ((List.range 8).find? (fun k => partDies s p / 2 ^ k % 2 == 1)).getD 0

/-- The walker's endpoint (R47). -/
def walkerEp (s : State) (p : Nat) : Ep := epId (walkerDie s p) 73

def qBase (s : State) (p q : Nat) : Nat := 64 * mgF s 0 (oQueue p q) 6 42
def qPrio (s : State) (p q : Nat) : Nat := mgF s 0 (oQueue p q) 48 4
def qEn (s : State) (p q : Nat) : Bool := mgF s 0 (oQueue p q) 52 1 == 1
def qTl (s : State) (p q : Nat) : Nat := (mgGet s 0 (oQueue p q + 8)).toNat
def qTaken (s : State) (p q : Nat) : Nat := (mgGet s 0 (oQueue p q + 16)).toNat
def qErr (s : State) (p q : Nat) : Nat := mgF s 0 (oQueue p q + 24) 0 4
def qStop (s : State) (p q : Nat) : Bool := mgF s 0 (oQueue p q + 24) 4 1 == 1
def setTaken (p q n : Nat) (s : State) : State := mgSet s 0 (oQueue p q + 16) (BitVec.ofNat 64 n)

/-- A queue stops with an error (R156). -/
def stopQueue (p q err : Nat) (s : State) : State :=
  setHint (mgSetF (mgSetF s 0 (oQueue p q + 24) 0 4 err) 0 (oQueue p q + 24) 4 1 1) hintQErr

/-- The records of a queue in flight that it has taken itself (R197). -/
def inFlight (s : State) (p q : Nat) : List Rec := s.recs.filter (fun r => r.part.toNat == p && r.q == q && r.parent.isNone)

def inRanges (p q : Nat) : Bool := decide (p < 8) && decide (q < 32)

/-- The walker's order of two queues: PRIO, highest first, then partition, then queue (R197). -/
def queueBefore (s : State) (a b : Nat × Nat) : Bool :=
  let pa := qPrio s a.1 a.2
  let pb := qPrio s b.1 b.2
  decide (pb < pa) || (pa == pb && (decide (a.1 < b.1) || (a.1 == b.1 && decide (a.2 < b.2))))

/-- The queues of C0's window that hold something, as partition and number. -/
def liveQueues (s : State) : List (Nat × Nat) :=
  ((s.mg.filter (fun e => decide (oQueue 0 0 ≤ 8 * e.1) && decide (8 * e.1 < oQueue 8 0))).map (fun e => ((8 * e.1 - oQueue 0 0) / 1024, (8 * e.1 - oQueue 0 0) / 32 % 32))).eraseDups

/-- Of the queues of its walker that could act, the queue is served first (R197). -/
def servedFirst (s : State) (can : Nat → Nat → Bool) (p q : Nat) : Bool :=
  can p q && (liveQueues s).all (fun a => !(walkerDie s a.1 == walkerDie s p && queueBefore s a (p, q) && can a.1 a.2))

/-- The walker can take the queue's entry TAKEN (R156, R197). -/
def canTake (s : State) (p q : Nat) : Bool :=
  inRanges p q && partState s p == 1 && qEn s p q && !qStop s p q && decide (qTaken s p q < qTl s p q) && decide ((inFlight s p q).length < 4)
  && (mfind (getPart s p).fetching q).isNone

/-- QUEUE_ENTRY_TAKE (a: partition, b: queue): the walker reads entry TAKEN; a bad one stops the queue (R156, R197). -/
def execQueueEntryTake (s : State) : Res :=
  let p := s.arg.a
  let q := s.arg.b
  gate (servedFirst s (canTake s) p q) "QUEUE_ENTRY_TAKE" (fun t =>
    let e := leNat (homeRead t (qBase t p q + 8 * (qTaken s p q % 256)) 8)
    if e % 64 ≠ 0 ∨ 2 ^ 48 ≤ e ∨ ¬ populated t e then stopQueue p q 1 t
    else modPart t p (fun u => { u with fetching := mset u.fetching q e })) s

/-! ## Records (R189-R192, R194) -/

def hdNnodes (h : BitVec 512) : Nat := bitsN h 16 10
def hdSerial (h : BitVec 512) : Bool := bit h 26
def hdRset (h : BitVec 512) : Bool := bit h 27
def hdNodes (h : BitVec 512) : Nat := 64 * bitsN h 64 42
def hdDone (h : BitVec 512) : Nat := bitsN h 128 48
def hdDoneVal (h : BitVec 512) : Nat := bitsN h 192 64
def hdWaitTl (h : BitVec 512) : Nat := bitsN h 256 48
def hdWaitVal (h : BitVec 512) : DWord := bits h 320 64

/-- The dies of a sweep (R189). -/
def recDies (s : State) (p : Nat) (h : BitVec 512) : Nat := if bitsN h 32 8 = 0 then partDies s p else bitsN h 32 8

def ndType (b : BitVec 512) : Nat := bitsN b 0 4
def ndPred (b : BitVec 512) : Nat := bitsN b 8 8
def ndNsucc (b : BitVec 512) : Nat := bitsN b 16 4
def ndSucc (b : BitVec 512) : List Nat := tab (min 8 (ndNsucc b)) (fun j => bitsN b (24 + 10 * j) 10)

def gbCode (b : BitVec 512) : Nat := bitsN b 128 52
def gbTasks (b : BitVec 512) : Nat := bitsN b 192 7
def gbExch (b : BitVec 512) : Bool := bit b 199
def gbPer (b : BitVec 512) : Nat := bitsN b 200 2 + 1
def gbStage (b : BitVec 512) : BitVec 4 := bits b 202 4
def gbSup (b : BitVec 512) : Bool := bit b 206
def gbPre (b : BitVec 512) : Bool := bit b 207
def gbAcm (b : BitVec 512) : Nat := bitsN b 208 4
def gbTs (b : BitVec 512) : Nat := bitsN b 212 7
def gbW0 (b : BitVec 512) : BitVec 8 := bits b 224 8
def gbArgs (b : BitVec 512) : Nat := bitsN b 256 52
def gbNear (b : BitVec 512) : Nat := bitsN b 320 52
def gbSave (b : BitVec 512) : Va := bits b 384 52

def coSnode (b : BitVec 512) : Nat := bitsN b 128 10
def coStask (b : BitVec 512) : Nat := bitsN b 138 6
def coHandle (b : BitVec 512) : Nat := bitsN b 144 3
def coDnode (b : BitVec 512) : Nat := bitsN b 148 10
def coDtask (b : BitVec 512) : Nat := bitsN b 158 6

def sgTl (b : BitVec 512) : Nat := bitsN b 128 48
def sgVal (b : BitVec 512) : DWord := bits b 192 64

/-- A field of a record that must be zero is not. -/
def anySet (b : BitVec 512) (l : List (Nat × Nat)) : Bool := l.any (fun f => bitsN b f.1 f.2 != 0)

/-- The reserved fields of a node's body, by type (R191, R192, R194). -/
def bodyReserved (ty : Nat) : List (Nat × Nat) :=
  if ty = 0 then [(180, 12), (219, 5), (232, 24), (308, 12), (372, 12), (436, 76)]
  else if ty = 1 then [(180, 12), (213, 299)]
  else if ty = 2 then [(138, 6), (228, 12), (288, 24), (369, 143)]
  else if ty = 3 then [(147, 1), (251, 261)]
  else if ty = 4 ∨ ty = 7 then [(176, 16), (256, 256)]
  else if ty = 5 then [(176, 336)]
  else [(128, 384)]

/-- The nodes that a set reaches through successors, in n rounds. -/
def reachNodes (nodes : List (BitVec 512)) : Nat → List Nat → List Nat
  | 0, l => l
  | n + 1, l => reachNodes nodes n ((l ++ l.flatMap (fun i => ndSucc (nodes.getD i 0))).eraseDups)

/-- What is left of some nodes when n times those without a predecessor among them are taken away: nothing, in a graph without a
cycle (R195). -/
def peel (nodes : List (BitVec 512)) : Nat → List Nat → List Nat
  | 0, l => l
  | n + 1, l => peel nodes n (l.filter (fun i => l.any (fun j => (ndSucc (nodes.getD j 0)).contains i)))

/-- A timeline's address is unpopulated or misaligned. -/
def badTl (s : State) (a : Nat) : Bool := a % 8 != 0 || !populated s a

/-- A circuit-open end names no task of a gang node of the record. -/
def badEnd (nodes : List (BitVec 512)) (i n task : Nat) : Bool :=
  let g := nodes.getD n 0
  decide (nodes.length ≤ n) || ndType g != 0 || decide (gbTasks g ≤ task)
  || (reachNodes nodes nodes.length (ndSucc (nodes.getD i 0))).contains n

/-- Node i of a record fails a check of R195. -/
def nodeBad (s : State) (dies : Nat) (dev : Bool) (nodes : List (BitVec 512)) (i : Nat) : Bool :=
  let b := nodes.getD i 0
  let ty := ndType b
  let slots := (nodes.flatMap ndSucc).filter (· == i)
  let fencedDie (k : Nat) : Bool := !dieOk s k
  let inDies (k : Nat) : Bool := dies / 2 ^ k % 2 == 1
  decide (7 < ty) || anySet b [(4, 4), (20, 4), (104, 24)] || anySet b (bodyReserved ty) || decide (8 < ndNsucc b)
  || anySet b ((List.range 8).filterMap (fun j => if ndNsucc b ≤ j then some (24 + 10 * j, 10) else none))
  || (ndSucc b).any (fun j => decide (nodes.length ≤ j)) || ndPred b != slots.length
  || (ty == 0 && (gbTasks b == 0 || gbTs b == 0 || decide (8 < gbAcm b) || decide (8 < gbPer b * gbAcm b) || decide (64 < gbPer b * gbTs b)
      || decide (16 * gbPer b < gbTasks b) || (gbSup b && dev) || gbCode b % 4 != 0 || bitsN b 384 16 != 0))
  || (ty == 1 && (cnCount b == 0 || fencedDie (bitsN b 208 3)))
  || (ty == 2 && (clOp b == 3 || decide (clNb b < 2) || decide (64 < clNb b) || !inDies (bitsN b 364 3) || fencedDie (bitsN b 364 3)))
  || (ty == 3 && (badEnd nodes i (coSnode b) (coStask b) || badEnd nodes i (coDnode b) (coDtask b)))
  || ((ty == 4 || ty == 7) && badTl s (sgTl b))

/-- The header and the nodes of the record at an address. -/
def readRecord (s : State) (pa : Nat) : BitVec 512 × List (BitVec 512) :=
  let line (a : Nat) : BitVec 512 := BitVec.ofNat 512 (leNat (homeRead s a 64))
  let h := line pa
  (h, tab (hdNnodes h) (fun i => line (hdNodes h + 64 * i)))

/-- A record fails the checks of R195 within a die mask. -/
def recordBad (s : State) (p within : Nat) (dev : Bool) (h : BitVec 512) (nodes : List (BitVec 512)) : Bool :=
  let dies := recDies s p h
  bitsN h 0 8 != 1 || hdNnodes h == 0 || anySet h [(8, 8), (28, 4), (40, 24), (106, 22), (176, 16), (304, 16), (402, 110)]
  || (List.range 8).any (fun k => dies / 2 ^ k % 2 == 1 && within / 2 ^ k % 2 == 0) || (hdRset h && !partRs2 s p)
  || (hdDone h != 0 && badTl s (hdDone h)) || (hdWaitTl h != 0 && badTl s (hdWaitTl h))
  || !populatedRange s (hdNodes h) (64 * hdNnodes h)
  || (List.range nodes.length).any (nodeBad s dies dev nodes)
  || !(peel nodes nodes.length (List.range nodes.length)).isEmpty

/-- A record as it is taken (R196). -/
def newRec (s : State) (p q pa : Nat) (h : BitVec 512) (nodes : List (BitVec 512)) (depth : Nat) (parent : Option (Nat × Nat)) (dev : Bool) : Rec :=
  { id := s.nextId, part := BitVec.ofNat 3 p, q := q, pa := pa, hdr := h, nodes := nodes, depth := depth, parent := parent, dev := dev,
    started := false, cnt := tab nodes.length (fun i => (i, ndPred (nodes.getD i 0))), st := [], code := 0, node := 0, failCyc := 0 }

/-- The nodes without a predecessor become eligible (R196). -/
def startRec (r : Rec) : Rec :=
  { r with started := true, st := ((List.range r.nodes.length).filter (fun i => mget 0 r.cnt i == 0)).map (fun i => (i, 1)) }

/-- RECORD_FETCH (a: partition, b: queue): the record of the entry being taken is checked; it joins those in flight and TAKEN advances,
or the queue stops with BADREC (R156, R195). -/
def execRecordFetch (s : State) : Res :=
  let p := s.arg.a
  let q := s.arg.b
  match mfind (getPart s p).fetching q with
  | none => gate false "RECORD_FETCH" id s
  | some pa => gate (servedFirst s (fun a b => (mfind (getPart s a).fetching b).isSome) p q) "RECORD_FETCH" (fun t0 =>
      let t := modPart t0 p (fun u => { u with fetching := mdel u.fetching q })
      let n := qTaken t p q
      let dev := (getPart t p).devs.contains (q, n)
      let r := readRecord t pa
      if !qEn t p q || qStop t p q || partState t p != 1 then t
      else if recordBad t p (partDies t p) dev r.1 r.2 then stopQueue p q 3 t
      else
        let u := setTaken p q (n + 1) (modPart t p (fun v => { v with devs := v.devs.filter (fun d => d != (q, n)) }))
        { u with recs := u.recs ++ [newRec u p q pa r.1 r.2 0 none dev], nextId := u.nextId + 1 }) s

def findRec (s : State) (rid : Nat) : Option Rec := s.recs.find? (fun r => r.id == rid)
def modRec (rid : Nat) (f : Rec → Rec) (s : State) : State := { s with recs := updFirst (fun r => r.id == rid) f s.recs }

/-- The timeline at an address has a value (R272). -/
def memReached (s : State) (a : Nat) (v : DWord) : Bool := tlReached (BitVec.ofNat 64 (leNat (homeRead s a 8))) v

/-- The record may start: in the order taken, alone when SERIAL, its timeline read at a tick (R197). -/
def mayStart (s : State) (r : Rec) : Bool :=
  let l := inFlight s r.part.toNat r.q
  let before := l.takeWhile (fun e => e.id != r.id)
  !r.started && r.parent.isNone && before.all (·.started) && (!hdSerial r.hdr || before.isEmpty)
  && (hdWaitTl r.hdr == 0 || (s.sub == 0 && memReached s (hdWaitTl r.hdr) (hdWaitVal r.hdr))) && partState s r.part.toNat == 1

/-- RECORD_START (a: record): R196, R197. -/
def execRecordStart (s : State) : Res :=
  match findRec s s.arg.a with
  | some r => gate (mayStart s r && servedFirst s (fun a b => (a == r.part.toNat && b == r.q) || (inFlight s a b).any (mayStart s)) r.part.toNat r.q)
      "RECORD_START" (modRec r.id startRec) s
  | none => gate false "RECORD_START" id s

/-! ## Nodes (R196) -/

def nodeSt (r : Rec) (n : Nat) : Nat := mget 0 r.st n
def setNodeSt (n st : Nat) (r : Rec) : Rec := { r with st := mset r.st n st }

/-- The first failure is kept, the lower index on a tie (R196). -/
def noteFail (cyc n code : Nat) (r : Rec) : Rec :=
  if code = 0 then r
  else if r.code = 0 ∨ (r.failCyc = cyc ∧ n < r.node) then { r with code := code, node := n, failCyc := cyc }
  else r

/-- One predecessor fewer; a node without any is eligible. -/
def releaseSucc (r : Rec) (i : Nat) : Rec :=
  let c := mget 0 r.cnt i - 1
  let r1 := { r with cnt := mset r.cnt i c }
  if c = 0 then setNodeSt i 1 r1 else r1

/-- A node finishes with a code (R195, R196). -/
def finishNode (cyc n code : Nat) (r : Rec) : Rec :=
  if nodeSt r n = 3 then r
  else (ndSucc (r.nodes.getD n 0)).foldl releaseSucc (noteFail cyc n code (setNodeSt n 3 r))

def nodeDone (rid n code : Nat) (s : State) : State := modRec rid (finishNode s.cyc n code) s

/-- The eligible node that starts next in a record: the lowest; gangs have an order of their own (R196, R197). -/
def nextNode (r : Rec) : Option Nat :=
  if r.started then (List.range r.nodes.length).find? (fun i => nodeSt r i == 1 && ndType (r.nodes.getD i 0) != 0) else none

/-- The walker's order of two records: that of their queues, then the earlier one. -/
def recBefore (s : State) (a r : Rec) : Bool :=
  queueBefore s (a.part.toNat, a.q) (r.part.toNat, r.q) || (a.part == r.part && a.q == r.q && decide (a.id < r.id))

/-- The walker starts a node in this cycle, and this record's is the first in its order: it starts at most one in a cycle (R196, R197). -/
def walkerTurn (s : State) (r : Rec) : Bool :=
  let d := walkerDie s r.part.toNat
  decide (mget 0 s.walks d ≤ s.cyc)
  && s.recs.all (fun a => !(a.id != r.id && walkerDie s a.part.toNat == d && recBefore s a r && (nextNode a).isSome))

/-- A walker has started a node in this cycle. -/
def noteWalk (r : Rec) (s : State) : State := { s with walks := mset s.walks (walkerDie s r.part.toNat) (s.cyc + 1) }

/-- The event of a node of a type that starts. -/
def nodeStart (ty : Nat) (name : String) (eff : Rec → Nat → BitVec 512 → State → State) (s : State) : Res :=
  match findRec s s.arg.a with
  | some r =>
    let n := s.arg.b
    let b := r.nodes.getD n 0
    gate (nextNode r == some n && ndType b == ty && walkerTurn s r) name (fun t => eff r n b (noteWalk r t)) s
  | none => gate false name id s

/-- JOIN_NODE (a: record, b: node): R196. -/
def execJoinNode (s : State) : Res := nodeStart 6 "JOIN_NODE" (fun r n _ => nodeDone r.id n 0) s

/-- The lowest-numbered active core of a cluster (R192). -/
def lowCore (s : State) (die cl : Nat) : Option Nat := (tab 16 (fun i => die * 64 + cl * 16 + i)).find? (fun k => (getC s k).active)

/-- A copy or a collective joins copy port 1 of its core; with no active core it fails (R192, R433). -/
def startReplay (op die cl : Nat) (r : Rec) (n : Nat) (s : State) : State :=
  match lowCore s die cl with
  | some k =>
    let s1 := modRec r.id (setNodeSt n 2) s
    modC { s1 with nextId := s1.nextId + 1 } k (fun c => { c with runs := c.runs ++ [nodeRun s1 r.id n op] })
  | none => nodeDone r.id n 1 s

/-- COPY_NODE (a: record, b: node): R433. -/
def execCopyNode (s : State) : Res :=
  nodeStart 1 "COPY_NODE" (fun r n b => startReplay opCopyNode (bitsN b 208 3) (bitsN b 211 2) r n) s
/-- COLLECTIVE_NODE (a: record, b: node): R193. -/
def execCollectiveNode (s : State) : Res :=
  nodeStart 2 "COLLECTIVE_NODE" (fun r n b => startReplay opCollective (bitsN b 364 3) (bitsN b 367 2) r n) s

/-- A request of the walker leaves; what waits for it is a signal (use 1) or a wait's read (use 2). -/
def walkerSend (r : Rec) (n use : Nat) (kind : BitVec 4) (m : Msg) (s : State) : State :=
  let a := sgTl (r.nodes.getD n 0)
  let tag := s.nextId % 65536
  let e := walkerEp s r.part.toNat
  let p := { mkPkt kind 0 r.part e (homeEp s a (use == 1)) tag a [] m with orig := origNow s, pkg := BitVec.ofNat 8 (podPkg s) }
  let s1 := { s with nextId := s.nextId + 1, reqs := s.reqs ++ [⟨e, tag, p, use, r.id, n, 0⟩] }
  sendPkt (addTimer s1 262144 .requestTimeout (EvArg.of2 e.toNat tag)) p

/-- SIGNAL_NODE (a: record, b: node): the timeline's atomic leaves for its home (R192, R196, R272). -/
def execSignalNode (s : State) : Res :=
  nodeStart 4 "SIGNAL_NODE" (fun r n b t =>
    walkerSend r n 1 4 (.atom 12 true (sgVal b) 0 false) (modRec r.id (setNodeSt n 2) t)) s

/-- The wait has a read outstanding. -/
def waitPending (s : State) (rid n : Nat) : Bool := s.reqs.any (fun q => q.use == 2 && q.a == rid && q.b == n)

/-- The wait reads again in a tick's first cycle: it is running, its last read was at an earlier tick (R196). -/
def waitAgain (s : State) (r : Rec) (n : Nat) : Bool :=
  nodeSt r n == 2 && ndType (r.nodes.getD n 0) == 7 && !waitPending s r.id n && decide (mget 0 r.cnt n < s.cicada.toNat) && s.sub == 0

/-- WAIT_NODE (a: record, b: node): the node starts with a read of its timeline, and repeats it at each tick (R196). -/
def execWaitNode (s : State) : Res :=
  match findRec s s.arg.a with
  | some r =>
    let n := s.arg.b
    let first := nextNode r == some n && ndType (r.nodes.getD n 0) == 7 && walkerTurn s r
    gate (first || (r.started && waitAgain s r n)) "WAIT_NODE" (fun t =>
      walkerSend r n 2 0 (.read 8) (modRec r.id (fun e => { setNodeSt n 2 e with cnt := mset e.cnt n t.cicada.toNat }) (if first then noteWalk r t else t))) s
  | none => gate false "WAIT_NODE" id s

/-- The answer to a wait's read: reached, poisoned, or not yet (R196). -/
def waitAnswer (rid n : Nat) (v : DWord) (bad : Bool) (s : State) : State :=
  match findRec s rid with
  | some r => if bad then nodeDone rid n 10 s else if tlReached v (sgVal (r.nodes.getD n 0)) then nodeDone rid n 0 s else s
  | none => s

/-- SUBGRAPH_NODE (a: record, b: node): its record is checked and starts at once, one deeper (R196). -/
def execSubgraphNode (s : State) : Res :=
  nodeStart 5 "SUBGRAPH_NODE" (fun r n b t =>
    let pa := bitsN b 128 48
    let c := readRecord t pa
    let p := r.part.toNat
    if 4 < r.depth + 1 then nodeDone r.id n 6 t
    else if pa % 64 ≠ 0 ∨ ¬ populated t pa ∨ recordBad t p (recDies t p r.hdr) r.dev c.1 c.2 then nodeDone r.id n 7 t
    else
      let t1 := modRec r.id (setNodeSt n 2) t
      { t1 with recs := t1.recs ++ [startRec (newRec t1 p r.q pa c.1 c.2 (r.depth + 1) (some (r.id, n)) r.dev)], nextId := t1.nextId + 1 }) s

/-! ## Retirement (R196) -/

/-- A timeline advances to the later of its value and v, at its home (R272). -/
def advanceTl (a : Nat) (v : Nat) (s : State) : State :=
  if rangePoison s a 8 then s
  else homeWrite s a (leBytes 8 (atomicNew 12 64 (leNat (homeRead s a 8)) v 0)) false

/-- A record leaves: CODE and NODE are written, DONE advances, its queue or its parent node goes on (R196). -/
def retireRec (r : Rec) (code node : Nat) (s : State) : State :=
  let s1 := homeWrite s (r.pa + 48) (leBytes 3 (code + node * 256)) false
  let s2 := if hdDone r.hdr = 0 then s1 else advanceTl (hdDone r.hdr) (hdDoneVal r.hdr) s1
  let s3 : State := { s2 with recs := s2.recs.filter (fun e => e.id != r.id) }
  match r.parent with
  | some q => nodeDone q.1 q.2 0 s3
  | none => s3

def recFinished (r : Rec) : Bool := r.started && (List.range r.nodes.length).all (fun i => nodeSt r i == 3)

/-- RECORD_RETIREMENT (a: record): every node has finished (R196). -/
def execRecordRetirement (s : State) : Res :=
  match findRec s s.arg.a with
  | some r => gate (recFinished r) "RECORD_RETIREMENT" (retireRec r r.code r.node) s
  | none => gate false "RECORD_RETIREMENT" id s

end Sys2Proof.Machine
end

