-- ==== Sys2Proof/Machine/Gang.lean ====
section
/-!
DEFINITION. Gangs (R198-R204): placement, start, the end of tasks, pre-emption with its save areas, restore, the gang barrier
(R139, R373), and circuits that nodes open (R194).
-/

namespace Sys2Proof.Machine

open Sys2Proof

/-! ## What is free (R198) -/

/-- The context is held: by a task, or by a gang that is being loaded. -/
def ctxHeld (s : State) (x : Nat) : Bool := (getX s x).task || s.gangs.any (fun g => g.st == 0 && g.xs.contains x)

/-- The contexts that hold spans and tiles of core k: those held, and those of swapped-out partitions (R203). -/
def holders (s : State) (k : Nat) (skip : List Nat) : List Ctx :=
  ((tab 4 (fun i => 4 * k + i)).filter (fun x => ctxHeld s x && !skip.contains x)).map (getX s)
  ++ (s.parts.flatMap (fun p => (p.2.saved.filter (fun v => coreOf v.1 == k)).map (·.2)))

/-- The contexts that hold spans and tiles of core k, and the size of its data cache (R138, R198). -/
abbrev Held := List Ctx × Nat

def heldOn (s : State) (k : Nat) (skip : List Nat) : Held := (holders s k skip, (getC s k).split.toNat)

/-- A unit of 64 KiB of a core is free: in no region, outside the data cache, in no exchange bank in use (R136, R138, R198). -/
def unitFree (h : Held) (u : Nat) : Bool :=
  !(decide (56 ≤ u + 4 * h.2) && decide (u < 56))
  && h.1.all (fun c => !(decide (c.tsBase.toNat ≤ u) && decide (u < c.tsBase.toNat + c.tsSize.toNat)) && !(c.exch && decide (56 ≤ u)))

/-- No region lies in the top 512 KiB. -/
def topFree (h : Held) : Bool := h.1.all (fun c => decide (c.tsBase.toNat + c.tsSize.toNat ≤ 56))

/-- The free accumulator tiles of a core. -/
def freeTiles (h : Held) : List Nat := (List.range 8).filter (fun t => h.1.all (fun c => !bit c.acm t))

/-- The lowest free spans of n units each, from unit u on; f bounds the search. -/
def findSpans (ok : Nat → Bool) (n top : Nat) : Nat → Nat → Nat → List Nat
  | 0, _, _ => []
  | _, _, 0 => []
  | f + 1, u, m + 1 =>
    if top < u + n then []
    else if (tab n (fun i => u + i)).all ok then u :: findSpans ok n top f (u + n) m
    else findSpans ok n top f (u + 1) (m + 1)

/-- A mask of tiles. -/
def tileMask (l : List Nat) : Nat := l.foldl (fun a t => a + 2 ^ t) 0

/-- Where a task goes: context, span base, tiles. -/
abbrev Seat := Nat × Nat × Nat

/-- The core is being repaired: it takes no context (R161). -/
def inRepair (s : State) (k : Nat) : Bool := s.mgmt.repairs.any (fun r => r.1 == k)

/-- The seats that core k has for a gang node's `per` contexts (R198). -/
def coreSeats (s : State) (k : Nat) (skip : List Nat) (b : BitVec 512) : Option (List Seat) :=
  let per := gbPer b
  let xs := (tab 4 (fun i => 4 * k + i)).filter (fun x => !ctxHeld s x || skip.contains x)
  let h := heldOn s k skip
  let spans := findSpans (unitFree h) (gbTs b) (if gbExch b then 56 else 64) 65 0 per
  let tiles := freeTiles h
  if per ≤ xs.length ∧ spans.length = per ∧ per * gbAcm b ≤ tiles.length ∧ (!gbExch b || topFree h) ∧ !inRepair s k then
    some (tab per (fun i => (xs.getD i 0, spans.getD i 0, tileMask ((tiles.drop (gbAcm b * i)).take (gbAcm b)))))
  else none

/-- The active cores of a cluster, ascending. -/
def clusterCores (s : State) (die cl : Nat) : List Nat := (tab 16 (fun i => die * 64 + cl * 16 + i)).filter (fun k => (getC s k).active)

/-- The contexts that a partition holds on a die. -/
def partUsed (s : State) (p die : Nat) (skip : List Nat) : Nat :=
  ((tab 256 (fun i => die * 256 + i)).filter (fun x => ctxHeld s x && (getX s x).part.toNat == p && !skip.contains x)).length

/-- The seats of a gang on a cluster: the lowest-numbered cores that can each hold `per` of its contexts (R198). -/
def clusterSeats (s : State) (p die cl : Nat) (skip : List Nat) (b : BitVec 512) : Option (List Seat) :=
  let need := cdiv (gbTasks b) (gbPer b)
  let picks := ((clusterCores s die cl).filterMap (fun k => coreSeats s k skip b)).take need
  if picks.length = need ∧ partUsed s p die skip + gbTasks b ≤ partCtx s p then some (picks.flatten.take (gbTasks b)) else none

/-- A cluster could hold the gang with every context free (R198). -/
def couldHold (s : State) (p die cl : Nat) (b : BitVec 512) : Bool :=
  decide (cdiv (gbTasks b) (gbPer b) ≤ (clusterCores s die cl).length) && decide (gbTasks b ≤ partCtx s p)
  && decide (gbPer b * gbTs b ≤ if gbExch b then 56 else 64)

/-- The free contexts of a cluster (R198, key 2). -/
def freeCount (s : State) (die cl : Nat) (skip : List Nat) : Nat :=
  ((clusterCores s die cl).flatMap (fun k => (tab 4 (fun i => 4 * k + i)).filter (fun x => !ctxHeld s x || skip.contains x))).length

/-- The memory die that is the home of NEAR: none when it is 0, when it does not translate, or when it is not in the first tier. -/
def nearHome (s : State) (p : Nat) (b : BitVec 512) : Option Nat :=
  let va := gbNear b
  match (clusterCores s (walkerDie s p) 0 ++ clusterCores s (walkerDie s p) 1 ++ clusterCores s (walkerDie s p) 2
      ++ clusterCores s (walkerDie s p) 3).head? with
  | none => none
  | some k =>
    if va = 0 then none
    else match walk s k (BitVec.ofNat 3 p) va with
      | .leaf m _ _ _ =>
        let pa := (m.pa.toNat + (va - m.vpn.toNat * 65536)) % 2 ^ 56
        if isLocal s pa && populated s (paOf pa) && !isTier2 (paOf pa) then some (homeMem s (paOf pa)) else none
      | .fault _ => none

/-- d of R198, key 1. -/
def nearDistance (s : State) (k : Nat) (home : Option Nat) : Nat :=
  match home with
  | none => 0
  | some j => if j = k ∨ j = (k + 7) % 8 then 0 else 1 + min (hops s k j) (hops s k ((j + 1) % 8))

/-- The better of two placements by keys 1 and 2; the earlier on a tie, which is the lower die and cluster. -/
def betterSeats (a b : Option (Nat × Nat × List Seat)) : Option (Nat × Nat × List Seat) :=
  match a, b with
  | none, y => y
  | x, none => x
  | some x, some y => if y.1 < x.1 ∨ (y.1 = x.1 ∧ x.2.1 < y.2.1) then some y else some x

/-- The clusters of a record's dies that are not fenced. -/
def recClusters (s : State) (dies : Nat) : List (Nat × Nat) :=
  ((List.range 8).filter (fun k => dies / 2 ^ k % 2 == 1 && dieOk s k)).flatMap (fun k => tab 4 (fun c => (k, c)))

/-- The placement that the keys choose, with the contexts of `skip` taken as free (R198). -/
def chooseSeats (s : State) (p dies : Nat) (skip : List Nat) (b : BitVec 512) : Option (List Seat) :=
  let home := nearHome s p b
  ((recClusters s dies).foldl (fun best q =>
    betterSeats best ((clusterSeats s p q.1 q.2 skip b).map (fun l => (nearDistance s q.1 home, freeCount s q.1 q.2 skip, l)))) none).map (·.2.2)

/-! ## The order of placement (R197, R201) -/

/-- What a queue places next: a saved gang, or a gang node. -/
inductive Head where
  | saved (g : Gang)
  | node (r : Rec) (n : Nat)
deriving DecidableEq, Repr

/-- The head of a queue: saved gangs come first, the one saved last before the others; then by record and node (R197, R203). -/
def queueHead (s : State) (p q : Nat) : Option Head :=
  match (s.gangs.filter (fun g => g.st == 2 && g.part.toNat == p && g.q == q)).getLast? with
  | some g => some (.saved g)
  | none => (s.recs.filter (fun r => r.part.toNat == p && r.q == q && r.started)).findSome? (fun r =>
      ((List.range r.nodes.length).find? (fun i => nodeSt r i == 1 && ndType (r.nodes.getD i 0) == 0)).map (fun i => .node r i))

/-- The queues that have a head. -/
def waitingQueues (s : State) : List (Nat × Nat) :=
  ((s.recs.map (fun r => (r.part.toNat, r.q)) ++ s.gangs.map (fun g => (g.part.toNat, g.q))).eraseDups).filter (fun a =>
    partState s a.1 == 1 && (queueHead s a.1 a.2).isSome)

/-- What a core has free for a restored gang: its free units and tiles as masks, and its free contexts (R203). -/
structure Room where
  core : Nat
  units : Nat
  tiles : Nat
  ctxs : List Nat
deriving DecidableEq, Repr

/-- Saved tasks that go to one core: their former core, their spans' units and tiles as masks. -/
structure Need where
  old : Nat
  tasks : List Nat
  units : Nat
  tiles : Nat
deriving DecidableEq, Repr

/-- The room of core k, with the contexts of `skip` taken as free. -/
def roomOf (s : State) (exch : Bool) (skip : List Nat) (k : Nat) : Option Room :=
  let h := heldOn s k skip
  if inRepair s k || (exch && !topFree h) then none
  else some ⟨k, tileMask ((List.range 64).filter (unitFree h)), tileMask (freeTiles h),
    (tab 4 (fun i => 4 * k + i)).filter (fun x => !ctxHeld s x || skip.contains x)⟩

/-- The tasks can go to the core. -/
def Room.holds (r : Room) (n : Need) : Bool :=
  decide (n.tasks.length ≤ r.ctxs.length) && n.units &&& r.units == n.units && n.tiles &&& r.tiles == n.tiles

/-- The room that is left; the exchange banks of a core are for one such set of tasks. -/
def Room.less (exch : Bool) (r : Room) (n : Need) : Room :=
  { r with units := r.units - n.units, tiles := r.tiles - n.tiles, ctxs := if exch then [] else r.ctxs.drop n.tasks.length }

/-- The rooms that can hold some tasks: their former core first, then in ascending order. -/
def roomsFor (rooms : List Room) (n : Need) : List Room :=
  let l := rooms.filter (fun r => r.holds n)
  l.filter (fun r => r.core == n.old) ++ l.filter (fun r => r.core != n.old)

/-- A search for seats: each entry is what rooms are left, what needs are, and the seats given; f bounds it (log entry 80, DESIGN CHOICE). -/
def seatSearch (exch : Bool) : Nat → List (List Room × List Need × List (Nat × Nat)) → Option (List (Nat × Nat))
  | 0, _ => none
  | _, [] => none
  | f + 1, (rooms, l, seats) :: rest =>
    match l with
    | [] => some seats
    | n :: l1 => seatSearch exch f ((roomsFor rooms n).map (fun r =>
        (rooms.map (fun q => if q.core == r.core then q.less exch n else q), l1, seats ++ n.tasks.zip r.ctxs)) ++ rest)

/-- The units of a context's span, as a mask. -/
def spanMask (c : Ctx) : Nat := (2 ^ c.tsSize.toNat - 1) * 2 ^ c.tsBase.toNat

/-- The saved tasks of a gang as they must go together: one by one, or with exchange banks those that shared a core (R203, R204; log entry 82, DEDUCED,
DEDUCED). -/
def savedNeeds (g : Gang) : List Need :=
  let of_ (v : Nat × Ctx × List (Nat × AccTile) × TileStore) : Need := ⟨coreOf (g.xs.getD v.1 0), [v.1], spanMask v.2.1, v.2.1.acm.toNat⟩
  let l := g.saved.map of_
  if g.exch then ((l.map (·.old)).eraseDups).map (fun k => (l.filter (fun n => n.old == k)).foldl (fun a n =>
      ⟨k, a.tasks ++ n.tasks, a.units + n.units, a.tiles + n.tiles⟩) ⟨k, [], 0, 0⟩)
  else l

/-- The record and the node of a gang. -/
def gangNode (s : State) (g : Gang) : BitVec 512 := match findRec s g.rcd with | some r => r.nodes.getD g.node 0 | none => 0
def gangDies (s : State) (g : Gang) : Nat := match findRec s g.rcd with | some r => recDies s g.part.toNat r.hdr | none => 0

/-- The contexts to which a saved gang is restored, by task, with those of `skip` taken as free: the cluster it left, else the best of the others
(R203). -/
def restoreSeats (s : State) (g : Gang) (skip : List Nat) : Option (List (Nat × Nat)) :=
  let p := g.part.toNat
  let home := nearHome s p (gangNode s g)
  let on (q : Nat × Nat) : Option (List (Nat × Nat)) :=
    if partUsed s p q.1 skip + g.saved.length ≤ partCtx s p then
      seatSearch g.exch 4096 [((clusterCores s q.1 q.2).filterMap (roomOf s g.exch skip), savedNeeds g, [])]
    else none
  let k := coreOf (g.xs.getD 0 0)
  let own := (dieOf k, clusterOf k)
  let better (a b : Option (Nat × Nat × List (Nat × Nat))) : Option (Nat × Nat × List (Nat × Nat)) :=
    match a, b with
    | none, y => y
    | x, none => x
    | some x, some y => if y.1 < x.1 ∨ (y.1 = x.1 ∧ x.2.1 < y.2.1) then some y else some x
  match if (recClusters s (gangDies s g)).contains own then on own else none with
  | some l => some l
  | none => ((recClusters s (gangDies s g)).foldl (fun best q =>
      better best ((on q).map (fun l => (nearDistance s q.1 home, freeCount s q.1 q.2 skip, l)))) none).map (·.2.2)

/-- What is done with a head: it is placed; it can never be; a gang is pre-empted for it; it is restored; it waits. -/
inductive Turn where
  | place (l : List Seat)
  | never
  | preempt (g : Gang)
  | restore (l : List (Nat × Nat))
  | wait
deriving DecidableEq, Repr

/-- The gangs that may be pre-empted for a queue's head, the best victim first (R201). -/
def victims (s : State) (p q : Nat) : List Gang :=
  let l := s.gangs.filter (fun g => g.part.toNat == p && g.pre && g.st == 1 && g.halt == 0 && decide (g.prio < qPrio s p q))
  let low := (List.range 16).flatMap (fun n => (l.filter (fun g => g.prio == n)).reverse)
  if s.gangs.any (fun g => g.part.toNat == p && g.halt == 1) then [] else low

/-- The contexts that a gang's live tasks hold. -/
def liveXs (g : Gang) : List Nat := g.live.map (fun i => g.xs.getD i 0)

/-- What is done with a queue's head; a head that cannot be placed or restored may have a gang pre-empted for it (R198, R201, R203). -/
def turnOf (s : State) (p q : Nat) (h : Head) : Turn :=
  let first (can : List Nat → Bool) : Turn := match (victims s p q).find? (fun v => can (liveXs v)) with | some v => .preempt v | none => .wait
  match h with
  | .saved g => (match restoreSeats s g [] with | some l => .restore l | none => first (fun skip => (restoreSeats s g skip).isSome))
  | .node r n =>
    let b := r.nodes.getD n 0
    let dies := recDies s p r.hdr
    match chooseSeats s p dies [] b with
    | some l => .place l
    | none =>
      if (recClusters s dies).all (fun c => !couldHold s p c.1 c.2 b) then .never
      else first (fun skip => (chooseSeats s p dies skip b).isSome)

def Turn.acts : Turn → Bool
  | .wait => false
  | _ => true

/-- A queue's head may act: no queue before it, of the same walker, could (R197). -/
def queueTurn (s : State) (p q : Nat) : Turn :=
  match queueHead s p q with
  | none => .wait
  | some h =>
    let t := turnOf s p q h
    let earlier := (waitingQueues s).filter (fun a => walkerDie s a.1 == walkerDie s p && queueBefore s a (p, q))
    if t.acts && earlier.all (fun a => !((queueHead s a.1 a.2).map (turnOf s a.1 a.2)).any Turn.acts) then t else .wait

/-! ## Starting (R199) -/

/-- A placed gang joins the gangs: its contexts are being loaded. -/
def placeGang (r : Rec) (n : Nat) (l : List Seat) (s : State) : State :=
  let b := r.nodes.getD n 0
  let p := r.part.toNat
  let g : Gang := { id := s.nextId, part := r.part, rcd := r.id, node := n, q := r.q, prio := qPrio s p r.q, st := 0, tasks := gbTasks b,
                    xs := l.map (·.1), live := List.range (gbTasks b), exch := gbExch b, pre := gbPre b, acm := gbAcm b, ts := gbTs b,
                    save := gbSave b, arrived := [], release := none, saved := [], xstOut := 0, halt := 0, fault := false }
  let s1 := modRec r.id (setNodeSt n 2) { s with gangs := s.gangs ++ [g], nextId := s.nextId + 1 }
  l.foldl (fun t q => setX t q.1 { Ctx.init with part := r.part, gang := g.id, exch := gbExch b, tsBase := BitVec.ofNat 6 q.2.1,
                                                 tsSize := BitVec.ofNat 7 (gbTs b), acm := BitVec.ofNat 8 q.2.2 }) s1

/-- A context at the start of its task (R199). -/
def startCtx (s : State) (r : Rec) (g : Gang) (b : BitVec 512) (i : Nat) (c : Ctx) : Ctx :=
  let w := if gbW0 b = 0 then 128 else gbW0 b
  let hvec := mgGet s 0 (oHvec g.part.toNat) &&& 0xFFFFFFFFFFFFC#64
  { Ctx.init with task := true, part := g.part, rset := hdRset r.hdr, sup := gbSup b, stage := gbStage b, taskIx := BitVec.ofNat 6 i,
                  gang := g.id, exch := g.exch, pri := partPri s g.part.toNat (hdRset r.hdr), pc := BitVec.ofNat 52 (gbCode b),
                  sr := [(1, BitVec.ofNat 64 i), (2, BitVec.ofNat 64 g.tasks), (3, BitVec.ofNat 64 (gbArgs b)), (4, BitVec.zeroExtend 64 (gbStage b))],
                  wBase := w, wCur := w, tsBase := c.tsBase, tsSize := c.tsSize, acm := c.acm,
                  ti := if hvec = 0 then [] else [(7, hvec)], readyAt := s.cyc + 1 }

/-- The storage that a task receives: its span, its tiles, and with EXCH its core's banks, undefined until written (R138, R199). -/
def freshStorage (x : Nat) (s : State) : State :=
  let c := getX s x
  let e := s.free
  let lo := 65536 * c.tsBase.toNat
  let hi := lo + 65536 * c.tsSize.toNat
  modC { s with free := s.free + 1 } (coreOf x) (fun k =>
    let t := tsForget k.ts lo hi e
    { k with ts := if c.exch then tsForget t 0x380000 0x400000 e else t,
             acc := (List.range 8).foldl (fun m a => if bit c.acm a then mset m a { AccTile.init with epoch := some e } else m) k.acc,
             inArray := k.inArray.filter (fun q => !bit c.acm q.1) })

/-- Every context of a gang starts in one cycle. -/
def startGang (r : Rec) (g : Gang) (s : State) : State :=
  let b := r.nodes.getD g.node 0
  let s1 := (tab g.tasks (fun i => i)).foldl (fun t i =>
    let x := g.xs.getD i 0
    freshStorage x (setX t x (startCtx t r g b i (getX t x)))) s
  { s1 with gangs := updFirst (fun q => q.id = g.id) (fun q => { q with st := 1 }) s1.gangs }

def findGang (s : State) (gid : Nat) : Option Gang := s.gangs.find? (fun g => g.id == gid)
def modGang (gid : Nat) (f : Gang → Gang) (s : State) : State := { s with gangs := updFirst (fun g => g.id == gid) f s.gangs }

/-- GANG_START (a: gang): R199. -/
def execGangStart (s : State) : Res :=
  match findGang s s.arg.a with
  | some g =>
    (match findRec s g.rcd with
    | some r => gate (g.st == 0 && partState s g.part.toNat == 1) "GANG_START" (startGang r g) s
    | none => gate false "GANG_START" id s)
  | none => gate false "GANG_START" id s

/-! ## Ends (R196, R357) -/

/-- The context is free; its place in its gang is over, and with the last task the gang's node finishes (R196, R310). -/
def leaveGang (x : Nat) (fault : Bool) (s : State) : State :=
  let c := getX s x
  match s.gangs.find? (ownGang c x) with
  | none => setX s x Ctx.init
  | some g =>
    let i := c.taskIx.toNat
    let live := g.live.filter (· != i)
    let bad := g.fault || fault
    let s1 := setX s x Ctx.init
    if live.isEmpty then
      nodeDone g.rcd g.node (if bad then 8 else 0) { s1 with gangs := s1.gangs.filter (fun q => q.id != g.id) }
    else modGang g.id (fun q => { q with live := live, fault := bad }) s1

/-- Every circuit of a context collapses: with one cause where it sends, with another where it receives (R92). -/
def collapseOf (x sendCause recvCause : Nat) (s : State) : State :=
  s.circuits.foldl (fun t q => if q.x = x then collapse q.cid sendCause false t else if q.dx = x then collapse q.cid recvCause true t else t) s

/-- A context that is freed without its task's end: its circuits, streams and commands go with it. -/
def dropCtx (x cause stream : Nat) (s : State) : State :=
  let s1 := breakPeers (getX s x) stream (collapseOf x cause cause s)
  let s2 := modC s1 (coreOf x) (fun k => { k with runs := k.runs.filter (fun r => r.x != x || r.node.isSome),
                                                  loads := k.loads.filter (fun l => l.2.1 != x), rounds := k.rounds.filter (fun r => r.x != x),
                                                  entry := if k.entry.any (fun e => e.x == x) then none else k.entry })
  setX s2 x Ctx.init

/-- A gang ends with a failure: every context it holds is freed, and its node finishes (R195). -/
def killGang (code stream : Nat) (g : Gang) (s : State) : State :=
  let mine := g.live.map (fun i => g.xs.getD i 0)
  let s0 := if g.st ≤ 1 then mine.foldl (fun t x => dropCtx x ckFENCE stream t) s else s
  let s1 := g.saved.foldl (fun t v => breakPeers v.2.1 stream t) s0
  nodeDone g.rcd g.node code { s1 with gangs := s1.gangs.filter (fun q => q.id != g.id) }

/-! ## Halting (R201, R278) -/

/-- A context halts for pre-emption: it issues nothing more, its circuits collapse, its ports detach. -/
def haltCtx (x : Nat) (s : State) : State :=
  detachPorts x (collapseOf x ckSPREEMPT ckRPREEMPT (modX s x (fun c => { c with halted := true })))

def haltGang (why : Nat) (g : Gang) (s : State) : State :=
  (g.live.map (fun i => g.xs.getD i 0)).foldl (fun t x => haltCtx x t) (modGang g.id (fun q => { q with halt := why }) s)

/-- A staged command whose stages begun have completed: what is left is kept as an unstarted command (R427). -/
def betweenStages (r : Run) : Bool := r.out.isEmpty && r.buf.isEmpty && decide (r.done = r.step) && decide (r.step < r.cmd.stage)

/-- A context at a bundle boundary has nothing under way that must complete before its state is saved; an open that has not started is kept with its
command (R201, R221, R417). -/
def ctxQuiet (s : State) (x : Nat) : Bool :=
  let c := getX s x
  let k := getC s (coreOf x)
  (match c.await with | .tret => false | .phase _ _ => false | .ending _ => false | _ => true)
  && c.accs.all accDone && !k.wbs.any (fun w => w.2.2 == c.part) && c.latches.isEmpty && c.reload.isNone
  && k.runs.all (fun r => r.x != x || r.node.isSome || betweenStages r)
  && !hasRounds k x && !k.loads.any (fun l => l.2.1 == x) && !k.entry.any (fun e => e.x == x)
  && (List.range 8).all (fun t => !bit c.acm t || (getAcc k t).busy.isEmpty)
  && c.kr.all (fun h => !((h.2.st == 1 && !c.q2.any (fun m => m.op == 0x10 && m.a == h.1)) || h.2.st == 2 || h.2.st == 3))
  && s.circuits.all (fun q => q.dx != x || q.report.isSome) && c.qr.all (fun q => portDetached q.2)

/-- The dirty bytes of a partition in a core's data cache reach their homes, and its lines leave (R136). -/
def syncPart (k : Nat) (part : BitVec 3) (s : State) : State :=
  let ls := (getC s k).dc.filter (fun l => l.part == part)
  let s1 := ls.foldl (fun t l => (dirtyRuns l 64 0).foldl (fun u r => homeWrite u (64 * l.line + r.1) r.2 false) t) s
  modC s1 k (fun c => { c with dc := c.dc.filter (fun l => l.part != part) })

/-- The context as it is kept: the stages left of its staged commands, its front plane's load, the epoch (R177, R204, R278, R417). -/
def keptCtx (s : State) (x : Nat) : Ctx :=
  let c := getX s x
  let k := getC s (coreOf x)
  let left (m : Cmd) : Cmd := match k.runs.find? (fun r => r.cmd.id == m.id) with | some r => { m with c := r.done } | none => m
  { c.fresh with halted := false, q1 := c.q1.map left, front := none,
                 reload := c.front.map (fun p => let pl := getPlane k p; (pl.form, pl.win, pl.e0, pl.thr)),
                 await := c.await.again, epoch := (getPart s c.part.toNat).epoch }

/-- The staged runs of a context that halts leave its core. -/
def dropStaged (x : Nat) (s : State) : State :=
  modC s (coreOf x) (fun k => { k with runs := k.runs.filter (fun r => r.x != x || r.node.isSome) })

/-! ## The save area (R202) -/

/-- S of R202. -/
def saveSize (acm ts : Nat) : Nat := 0x20000 + acm * 0x20000 + ts * 0x10000

/-- The area of a task with its CRC taken as zero. -/
def saveArea (c : Ctx) (n : Nat) (tiles : List (Nat × AccTile)) (t : TileStore) : List Byte :=
  (tab 32 (fun j => leBytes 8 (tiRead c j).toNat)).flatten
  ++ tab 0x7EFC (fun i => Config.saveByte n (0x100 + i)) ++ List.replicate 4 0
  ++ (tab 32 (fun r => leBytes 2048 (readV c (BitVec.ofNat 5 r)).toNat)).flatten
  ++ List.replicate 0x8000 0
  ++ (tiles.map (fun a => ((accEntries a.2).map (fun e => leBytes 8 e.toNat)).flatten)).flatten
  ++ tsBytes t (65536 * c.tsBase.toNat) (65536 * c.tsSize.toNat)

/-- The area with its CRC in the last four bytes of the block at 0x100. -/
def sealArea (l : List Byte) : List Byte := l.take 0x7FFC ++ leBytes 4 (crc32c l) ++ l.drop 0x8000

/-- The pod address of a VA for the saving and restoring of areas: none when a page faults, lacks a permission or is not populated. -/
def areaAt (s : State) (k : Nat) (part : BitVec 3) (va : Nat) (wr : Bool) : State × Option Nat :=
  match portLookup false s k part va with
  | .ok t m => (t, (portPa t m va false).bind (fun pa => if wr then portPa t m va true else some pa))
  | .wait t => (t, none)
  | .fault t => (t, none)

/-- Bytes written at VAs under a partition's mapping, page by page: none when a page faults or lacks RD or WR. -/
def writeVa (k : Nat) (part : BitVec 3) : Nat → Nat → List Byte → State → Option State
  | 0, _, _, s => some s
  | f + 1, va, l, s =>
    if l.isEmpty then some s
    else
      let n := 65536 - va % 65536
      let p := areaAt s k part va true
      p.2.bind (fun pa => writeVa k part f (va + n) (l.drop n) (homeWrite p.1 (paOf pa) (l.take n) false))

/-- Bytes read at VAs likewise, with the caches as the walks leave them. -/
def readVa (s : State) (k : Nat) (part : BitVec 3) : Nat → Nat → Nat → State × Option (List Byte)
  | 0, _, _ => (s, some [])
  | f + 1, va, m =>
    if m = 0 then (s, some [])
    else
      let n := min m (65536 - va % 65536)
      let p := areaAt s k part va false
      match p.2 with
      | some pa => let r := readVa p.1 k part f (va + n) (m - n); (r.1, r.2.map (fun l => homeRead s (paOf pa) n ++ l))
      | none => (p.1, none)

/-- The tiles of a context on its core, in allotment order. -/
def ctxTiles (k : Core) (c : Ctx) : List (Nat × AccTile) := ((List.range 8).filter (fun t => bit c.acm t)).map (fun t => (t, getAcc k t))

/-- The bytes of a span alone. -/
def spanOnly (c : Ctx) (t : TileStore) : TileStore :=
  let lo := 65536 * c.tsBase.toNat
  let hi := lo + 65536 * c.tsSize.toNat
  { cells := t.cells.filter (fun q => lo ≤ 64 * q.1 && 64 * q.1 < hi), epoch := t.epoch,
    poison := t.poison.filter (fun q => lo ≤ q * 32 && q * 32 < hi) }

/-- Task i of a gang is saved and its context freed; `none` when a write of its area faults (R202). -/
def saveTask (g : Gang) (i : Nat) (s : State) : Option State :=
  let x := g.xs.getD i 0
  let k := coreOf x
  let s1 := syncPart k g.part s
  let c := keptCtx s1 x
  let tiles := ctxTiles (getC s1 k) c
  let t := spanOnly c (getC s1 k).ts
  let size := saveSize g.acm g.ts
  match writeVa k g.part (size / 65536 + 2) (g.save.toNat + i * size) (sealArea (saveArea c s1.free tiles t)) { s1 with free := s1.free + 1 } with
  | none => none
  | some u => some (modGang g.id (fun q => { q with saved := q.saved ++ [(i, c, tiles, t)] }) (setX (dropStaged x u) x Ctx.init))

/-- The tasks of a list saved one after the other. -/
def saveTasks (g : Gang) : List Nat → State → Option State
  | [], s => some s
  | i :: l, s => (saveTask g i s).bind (saveTasks g l)

/-- Every context that a halting gang holds is ready to be saved; a save waits for the moves of pages under way. -/
def gangQuiet (s : State) (g : Gang) : Bool := s.moves.isEmpty && g.xstOut == 0 && g.live.all (fun i => ctxQuiet s (g.xs.getD i 0))

/-- A halting gang is saved and returns to the front of its queue; a fault ends it with SAVEFLT (R202, R203). -/
def saveGang (g : Gang) (s : State) : State :=
  match saveTasks g g.live s with
  | none => killGang 4 cPEND g s
  | some t =>
    let t1 := modGang g.id (fun q => { q with st := 2, halt := 0, release := none }) t
    { t1 with gangs := (t1.gangs.filter (fun q => q.id != g.id)) ++ (t1.gangs.filter (fun q => q.id == g.id)) }

/-- Gangs that halt for a higher priority are saved when they can be. -/
def saveHalting (s : State) : State :=
  (s.gangs.filter (fun g => g.halt == 1)).foldl (fun t g => if gangQuiet t g then saveGang g t else t) s

/-! ## Restore (R203, R204, R315) -/

/-- A saved context at its new place: its handles and the handle writes on their way under R177, its priority, PREEMPT pending when it asks for it. -/
def restoredCtx (s : State) (c : Ctx) : Ctx :=
  let c1 := { mapHandlesAll (restoreHandle s c.part.toNat c.epoch) c with halted := false, task := true, pri := partPri s c.part.toNat c.rset, readyAt := s.cyc + 1 }
  if bit (mget 0 c.ti 8) 1 then setPend c1 cPREEMPT true else c1

/-- A task is restored to a context: registers, tiles and span (R204). -/
def restoreTask (v : Nat × Ctx × List (Nat × AccTile) × TileStore) (x : Nat) (s : State) : State :=
  let k := coreOf x
  let c := restoredCtx s v.2.1
  let lo := 65536 * c.tsBase.toNat
  let hi := lo + 65536 * c.tsSize.toNat
  let s1 := modC (syncPart k c.part s) k (fun q =>
    let cut := tsForget q.ts lo hi 0
    let units := tab c.tsSize.toNat (fun i => c.tsBase.toNat + i)
    { q with acc := v.2.2.1.foldl (fun m a => mset m a.1 a.2) q.acc,
             ts := { cells := v.2.2.2.cells.foldl (fun m a => mset m a.1 a.2) cut.cells,
                     epoch := units.foldl (fun m u => mset m u (mget 0 v.2.2.2.epoch u)) cut.epoch,
                     poison := v.2.2.2.poison ++ cut.poison } })
  setX s1 x c

/-- The saved areas of a gang still carry their CRCs (R202). -/
def areasOk (s : State) (k : Nat) (g : Gang) : State × Bool :=
  let size := saveSize g.acm g.ts
  g.saved.foldl (fun (a : State × Bool) v =>
    let r := readVa a.1 k g.part (size / 65536 + 2) (g.save.toNat + v.1 * size) size
    match r.2 with
    | some l => (r.1, a.2 && leNat ((l.drop 0x7FFC).take 4) == crc32c (l.take 0x7FFC ++ List.replicate 4 0 ++ l.drop 0x8000))
    | none => (r.1, false)) (s, true)

/-- A saved gang is restored to contexts by task; a changed area fails its node (R202, R203). -/
def restoreGang (g : Gang) (l : List (Nat × Nat)) (s0 : State) : State :=
  let to_ (i : Nat) : Nat := ((l.find? (fun p => p.1 = i)).map (·.2)).getD (g.xs.getD i 0)
  let ok := areasOk s0 (coreOf (to_ (g.live.headD 0))) g
  let s := ok.1
  if !ok.2 then
    killGang 5 cPEND g s
  else
    let xs := tab g.tasks to_
    let s1 := modGang g.id (fun q => { q with st := 1, xs := xs, saved := [] }) s
    attachAll (g.saved.map (fun v => to_ v.1)) (g.saved.foldl (fun t v => restoreTask v (to_ v.1) t) s1)

/-- GANG_NODE (a: record, b: node): the gang is placed, or finishes with NOPLACE, or the victim chosen for it halts (R198, R201). -/
def execGangNode (s : State) : Res :=
  match findRec s s.arg.a with
  | none => gate false "GANG_NODE" id s
  | some r =>
    let p := r.part.toNat
    let n := s.arg.b
    if partState s p == 1 && queueHead s p r.q == some (.node r n) then
      match queueTurn s p r.q with
      | .place l => gate true "GANG_NODE" (placeGang r n l) s
      | .never => gate true "GANG_NODE" (nodeDone r.id n 3) s
      | .preempt g => gate true "GANG_NODE" (haltGang 1 g) s
      | _ => gate false "GANG_NODE" id s
    else gate false "GANG_NODE" id s

/-- GANG_RESTORE (a: gang): it is restored, or the victim chosen for it halts (R201, R203). -/
def execGangRestore (s : State) : Res :=
  match findGang s s.arg.a with
  | none => gate false "GANG_RESTORE" id s
  | some g =>
    let p := g.part.toNat
    if partState s p == 1 && s.moves.isEmpty && queueHead s p g.q == some (.saved g) then
      match queueTurn s p g.q with
      | .restore l => gate true "GANG_RESTORE" (restoreGang g l) s
      | .preempt v => gate true "GANG_RESTORE" (haltGang 1 v) s
      | _ => gate false "GANG_RESTORE" id s
    else gate false "GANG_RESTORE" id s

/-! ## A restored front plane (R417) -/

/-- The recorded load runs again under R403-R405, once its plane is not in use; the context is frozen meanwhile. -/
def reloadFront (x : Nat) (s : State) : State :=
  let c := getX s x
  match c.reload with
  | none => s
  | some (form, win, e0, thr) =>
    let p := targetPlane s x
    if c.halted || planeUsed (getC s (coreOf x)) p then s
    else
      match matFmt thr with
      | none => modX s x (fun d => { d with reload := none })
      | some f =>
        let ct := f.cont
        let sc := thrBscale thr
        let m := 128 * kbOf ct
        let base := twBase (readTw c win.toNat)
        let rows := rowsOf c (base + elemBit sc ct e0 / 8 - (if sc then 32 else 0)) (if sc then m / 1024 * (32 + 128 * ct) else m * ct / 8)
        let pl : Plane := { els := planeEls s x base ct e0 sc form, thr := thr, owner := some x, form := form,
                            win := win, e0 := e0 }
        modC (addRounds x rows (getTs s x) false (modX s x (fun d => { d with reload := none }))) (coreOf x)
          (fun k => { k with loads := k.loads ++ [(s.cyc + 1, x, p, pl)] })

/-! ## The gang barrier (R139, R373) -/

/-- GANG_BARRIER_COMPLETION (a: gang): every live member has arrived and every exchange store is written (R139, R373). -/
def execGangBarrierCompletion (s : State) : Res :=
  match findGang s s.arg.a with
  | some g => gate (g.st == 1 && g.release.isNone && !g.arrived.isEmpty && g.live.all (g.arrived.contains ·) && g.xstOut == 0)
      "GANG_BARRIER_COMPLETION" (fun t =>
        addTimer (modGang g.id (fun q => { q with release := some (t.cyc + 8) }) t) 8 .gangBarrierRelease (EvArg.of g.id)) s
  | none => gate false "GANG_BARRIER_COMPLETION" id s

/-- A member is held at its `gbar`: the phase advances, its acquire actions begin. -/
def releaseMember (x : Nat) (s : State) : State :=
  let c := getX s x
  let s1 := modX s x (fun d => { d with phase := d.phase + 1, released := true })
  flushPart s1 (coreOf x) c.part

/-- GANG_BARRIER_RELEASE (a: gang), eight cycles later: GANG.PHASE advances and the members are released (R373). -/
def execGangBarrierRelease (s : State) : Res :=
  match findGang s s.arg.a with
  | some g => gate (match g.release with | some n => decide (n ≤ s.cyc) && g.st == 1 | none => false) "GANG_BARRIER_RELEASE" (fun t =>
      (g.live.map (fun i => g.xs.getD i 0)).foldl (fun u x => releaseMember x u)
        (modGang g.id (fun q => { q with arrived := [], release := none }) t)) s
  | none => gate false "GANG_BARRIER_RELEASE" id s

/-! ## Circuits opened by nodes (R194) -/

/-- The gang of a node of a record. -/
def gangOfNode (s : State) (rid n : Nat) : Option Gang := s.gangs.find? (fun g => g.rcd == rid && g.node == n)

/-- The gang has started, and still runs. -/
def gangUp (g : Gang) : Bool := g.st == 1

/-- The body of a circuit-open node as an open (R194). -/
def openNode (r : Rec) (n : Nat) (b : BitVec 512) (a d : Gang) : OpenArgs :=
  { x := a.xs.getD (coStask b) 0, k := coHandle b, dx := d.xs.getD (coDtask b) 0, base := bitsN b 192 20, limit := bitsN b 212 20,
    bar := if bit b 250 then some (16 * bitsN b 232 18) else none, g := bitsN b 164 4 + 1, lease := bitsN b 168 24, node := some (r.id, n) }

/-- The open that a node has made, while its handle is OPENING. -/
def nodeOpening (s : State) (rid n : Nat) : Bool :=
  s.circuits.any (fun q => q.node == some (rid, n) && handleIs s q 1)

/-- The node opens its circuit, or fails with CKFAIL (R194). -/
def openFromNode (r : Rec) (n : Nat) (b : BitVec 512) (s : State) : State :=
  match gangOfNode s r.id (coSnode b), gangOfNode s r.id (coDnode b) with
  | some a, some d =>
    let o := openNode r n b a d
    let h := readK (getX s o.x) o.k
    if !a.live.contains (coStask b) || !d.live.contains (coDtask b) || h.st == 1 || h.st == 2 || h.st == 3 then nodeDone r.id n 2 s
    else
      let cid := s.nextId
      let s1 := modX { s with nextId := cid + 1 } o.x (fun c => setK c o.k { CkHandle.init with st := 1, cid := cid })
      startOpen (newCircuit o cid a.part) (modRec r.id (setNodeSt n 2) s1)
  | _, _ => nodeDone r.id n 2 s

/-- A gang that an open names: it has started, or it has ended. -/
def endReady (s : State) (r : Rec) (n : Nat) : Bool :=
  nodeSt r n == 3 || (gangOfNode s r.id n).any gangUp

/-- CIRCUIT_OPEN_NODE (a: record, b: node): the node starts; once both gangs have started it opens its circuit, or once a named gang has ended it
fails; it finishes when its handle leaves OPENING (R194, R196).  The node's count says whether it has opened. -/
def execCircuitOpenNode (s : State) : Res :=
  match findRec s s.arg.a with
  | none => gate false "CIRCUIT_OPEN_NODE" id s
  | some r =>
    let n := s.arg.b
    let b := r.nodes.getD n 0
    if ndType b = 3 ∧ nodeSt r n = 2 then
      if mget 0 r.cnt n = 1 then gate (!nodeOpening s r.id n) "CIRCUIT_OPEN_NODE" (nodeDone r.id n 0) s
      else
        let ended := nodeSt r (coSnode b) == 3 || nodeSt r (coDnode b) == 3
        gate (ended || (endReady s r (coSnode b) && endReady s r (coDnode b))) "CIRCUIT_OPEN_NODE"
          (fun t => openFromNode r n b (modRec r.id (fun e => { e with cnt := mset e.cnt n 1 }) t)) s
    else nodeStart 3 "CIRCUIT_OPEN_NODE" (fun r n _ => modRec r.id (fun e => { setNodeSt n 2 e with cnt := mset e.cnt n 0 })) s

end Sys2Proof.Machine
end

