-- ==== Sys2Proof/Machine/Crypto.lean ====
section
/-!
DEFINITION. The hash and the signature check that R24 names: SHAKE256 and Ed448.  The manual gives the names only; the algorithms are
those of the public standards of these names (log entry 81, PRESUMED).
-/

namespace Sys2Proof.Machine

open Sys2Proof

/-! ## SHAKE256 (R24) -/

/-- The round constants of the permutation. -/
def keccakConstants : List Nat :=
  [0x1, 0x8082, 0x800000000000808A, 0x8000000080008000, 0x808B, 0x80000001,
   0x8000000080008081, 0x8000000000008009, 0x8A, 0x88, 0x80008009, 0x8000000A,
   0x8000808B, 0x800000000000008B, 0x8000000000008089, 0x8000000000008003, 0x8000000000008002, 0x8000000000000080,
   0x800A, 0x800000008000000A, 0x8000000080008081, 0x8000000000008080, 0x80000001, 0x8000000080008008]

/-- The rotation of each lane. -/
def keccakRotations : List Nat := [0, 1, 62, 28, 27, 36, 44, 6, 55, 20, 3, 10, 43, 25, 39, 41, 45, 15, 21, 8, 18, 2, 61, 56, 14]

/-- One round on 25 lanes of 64 bits, lane x + 5 y. -/
def keccakRound (a : List (BitVec 64)) (rc : Nat) : List (BitVec 64) :=
  let at_ (l : List (BitVec 64)) (i : Nat) : BitVec 64 := l.getD i 0
  let c := tab 5 (fun x => at_ a x ^^^ at_ a (x + 5) ^^^ at_ a (x + 10) ^^^ at_ a (x + 15) ^^^ at_ a (x + 20))
  let t := tab 25 (fun i => at_ a i ^^^ at_ c ((i + 4) % 5) ^^^ (at_ c ((i + 1) % 5)).rotateLeft 1)
  let b := tab 25 (fun i =>
    let j := (i % 5 + 3 * (i / 5)) % 5 + 5 * (i % 5)
    (at_ t j).rotateLeft (keccakRotations.getD j 0))
  let e := tab 25 (fun i => at_ b i ^^^ (~~~(at_ b (i / 5 * 5 + (i + 1) % 5)) &&& at_ b (i / 5 * 5 + (i % 5 + 2) % 5)))
  tab 25 (fun i => if i = 0 then at_ e 0 ^^^ BitVec.ofNat 64 rc else at_ e i)

/-- The permutation. -/
def keccak (a : List (BitVec 64)) : List (BitVec 64) := keccakConstants.foldl keccakRound a

/-- A block of 136 bytes enters the state. -/
def absorbBlock (a : List (BitVec 64)) (b : List Byte) : List (BitVec 64) :=
  keccak (tab 25 (fun i => a.getD i 0 ^^^ (if i < 17 then BitVec.ofNat 64 (leNat ((b.drop (8 * i)).take 8)) else 0)))

/-- All whole blocks of a padded message enter the state; n bounds their number. -/
def absorb : Nat → List (BitVec 64) → List Byte → List (BitVec 64)
  | 0, a, _ => a
  | n + 1, a, l => if l.isEmpty then a else absorb n (absorbBlock a (l.take 136)) (l.drop 136)

/-- The padding: the bits 1111, then 1, zeros and 1 to the end of a block. -/
def shakePad (l : List Byte) : List Byte :=
  let k := 136 - l.length % 136
  l ++ (if k = 1 then [0x9F] else [0x1F] ++ List.replicate (k - 2) 0 ++ [0x80])

/-- n bytes are taken from the state. -/
def squeeze : Nat → Nat → List (BitVec 64) → List Byte
  | 0, _, _ => []
  | f + 1, n, a => if n ≤ 136 then (a.flatMap (fun v => leBytes 8 v.toNat)).take n
                   else (a.flatMap (fun v => leBytes 8 v.toNat)).take 136 ++ squeeze f (n - 136) (keccak a)

/-- SHAKE256 of a message, n bytes. -/
def shake256 (l : List Byte) (n : Nat) : List Byte :=
  let m := shakePad l
  squeeze (n / 136 + 1) n (absorb (m.length / 136) (List.replicate 25 0) m)

/-! ## Ed448 (R24) -/

/-- The prime of the field. -/
def edPrime : Nat := 2 ^ 448 - 2 ^ 224 - 1
/-- The order of the base point. -/
def edOrder : Nat := 2 ^ 446 - 13818066809895115352007386748515426880336692474882178609894547503885
/-- The curve's constant, −39081. -/
def edD : Nat := edPrime - 39081

/-- A point in projective coordinates. -/
structure EdPoint where
  x : Nat
  y : Nat
  z : Nat
deriving DecidableEq, Repr

/-- The base point. -/
def edBase : EdPoint :=
  ⟨224580040295924300187604334099896036246789641632564134246125461686950415467406032909029192869357953282578032075146446173674602635247710,
   298819210078481492676017930443930673437544040154080242095928241372331506189835876003536878655418784733982303233503462500531545062832660, 1⟩

/-- The sum of two points. -/
def edAdd (p q : EdPoint) : EdPoint :=
  let m := edPrime
  let a := p.z * q.z % m
  let b := a * a % m
  let c := p.x * q.x % m
  let d := p.y * q.y % m
  let e := edD * c % m * d % m
  let f := (b + m - e) % m
  let g := (b + e) % m
  let h := (p.x + p.y) * (q.x + q.y) % m
  ⟨a * f % m * ((h + 2 * m - c - d) % m) % m, a * g % m * ((d + m - c) % m) % m, f * g % m⟩

/-- A multiple of a point by a number of f bits. -/
def edMul : Nat → Nat → EdPoint → EdPoint
  | 0, _, _ => ⟨0, 1, 1⟩
  | f + 1, n, p =>
    let r := edMul f (n / 2) (edAdd p p)
    if n % 2 = 1 then edAdd p r else r

/-- A power in the field, the exponent of f bits. -/
def edPow : Nat → Nat → Nat → Nat
  | 0, _, _ => 1
  | f + 1, b, n =>
    let r := edPow f (b * b % edPrime) (n / 2)
    if n % 2 = 1 then b * r % edPrime else r

/-- The point that 57 bytes encode: y in 455 bits, then the low bit of x. -/
def edDecode (l : List Byte) : Option EdPoint :=
  let m := edPrime
  let n := leNat l
  let y := n % 2 ^ 455
  let sign := n / 2 ^ 455
  let u := (y * y + m - 1) % m
  let v := (edD * (y * y % m) + m - 1) % m
  let u3v := u * u % m * u % m * v % m
  let x := u3v * edPow 448 (u3v * (u * u % m) % m * (v * v % m) % m) ((m - 3) / 4) % m
  if m ≤ y then none
  else if v * x % m * x % m ≠ u then none
  else if x = 0 ∧ sign = 1 then none
  else some ⟨if x % 2 = sign then x else m - x, y, 1⟩

/-- Two points are equal. -/
def edSame (p q : EdPoint) : Bool := p.x * q.z % edPrime == q.x * p.z % edPrime && p.y * q.z % edPrime == q.y * p.z % edPrime

/-- The prefix of the hash: the name, the flag 0 and an empty context. -/
def edPrefix : List Byte := [0x53, 0x69, 0x67, 0x45, 0x64, 0x34, 0x34, 0x38, 0, 0]

/-- The Ed448 signature of 114 bytes over a message holds under a public key of 57 bytes. -/
def ed448Verify (key msg sig : List Byte) : Bool :=
  let s := leNat ((sig.drop 57).take 57)
  match edDecode key, edDecode (sig.take 57) with
  | some a, some r =>
    let k := leNat (shake256 (edPrefix ++ sig.take 57 ++ key ++ msg) 114) % edOrder
    decide (s < edOrder) && edSame (edMul 448 (4 * s) edBase) (edAdd (edMul 3 4 r) (edMul 448 (4 * k) a))
  | _, _ => false

end Sys2Proof.Machine
end

