-- ==== Sys2Proof/Machine/Image.lean ====
section
/-!
DEFINITION. The boot image (R24, R25): its header, the checks of its key and signature, and its arrival at a compute die's security
controller.
-/

namespace Sys2Proof.Machine

open Sys2Proof

/-- n bytes of an image from offset o. -/
def imageBytes (l : Nat → Byte) (o n : Nat) : List Byte := tab n (fun i => l (o + i))
def imageNum (l : Nat → Byte) (o n : Nat) : Nat := leNat (imageBytes l o n)

def imBodyOff (l : Nat → Byte) : Nat := imageNum l 0x10 8
def imBodyLen (l : Nat → Byte) : Nat := imageNum l 0x18 8
def imCfgOff (l : Nat → Byte) : Nat := imageNum l 0x20 8
def imKeyOff (l : Nat → Byte) : Nat := imageNum l 0x28 8
def imSigOff (l : Nat → Byte) : Nat := imageNum l 0x30 8

/-- Two ranges have a byte in common. -/
def meet (a b : Nat × Nat) : Bool := decide (a.1 < b.1 + b.2) && decide (b.1 < a.1 + a.2)

/-- The header is as R25 states; a BODYOFF, BODYLEN or CFGOFF outside its column also gives code 0x01 (log entry 67, DESIGN CHOICE). -/
def headerOk (l : Nat → Byte) : Bool :=
  let body := (imBodyOff l, imBodyLen l)
  let key := (imKeyOff l, 57)
  let sig := (imSigOff l, 114)
  let head := (0, 256)
  imageBytes l 0 8 == [0x51, 0x4B, 0x37, 0x49, 0x4D, 0x47, 0x01, 0x00] && imageNum l 8 4 == 1 && imageNum l 0x0C 4 == 0
  && imageNum l 0x38 200 == 0 && body.1 % 4096 == 0 && decide (4096 ≤ body.2) && decide (body.2 ≤ 2 ^ 28)
  && imCfgOff l % 64 == 0 && decide (body.1 ≤ imCfgOff l) && decide (imCfgOff l + 64 ≤ body.1 + body.2)
  && !meet head body && !meet head key && !meet head sig && !meet body key && !meet body sig && !meet key sig
  && [body, key, sig].all (fun r => decide (r.1 + r.2 ≤ 2 ^ 30))

/-- The key's hash is the root key hash fused in compute die k (R24); what is fused is a free value (log entry 8, DESIGN CHOICE). -/
def keyOk (k : Nat) (l : Nat → Byte) : Bool := leNat (shake256 (imageBytes l (imKeyOff l) 57) 64) == (Config.rootKeyHash k).toNat

/-- The image's signature holds under its key over the hash of the firmware body (R24). -/
def imageSigned (l : Nat → Byte) : Bool :=
  ed448Verify (imageBytes l (imKeyOff l) 57) (shake256 (imageBytes l (imBodyOff l) (imBodyLen l)) 64) (imageBytes l (imSigOff l) 114)

/-- A byte of the boot image as compute die k's security controller holds it. -/
def imageAt (s : State) (k a : Nat) : Byte := mget 0 (mget [] s.boot.images k) a

/-- The bytes of an image piece. -/
def takePiece (o : Nat) (l : List Byte) (m : Map Byte) : Map Byte :=
  match l with
  | [] => m
  | b :: t => takePiece (o + 1) t (mset m o b)

/-- A piece of the image reaches a security controller. -/
def storePiece (k o : Nat) (l : List Byte) (s : State) : State :=
  { s with boot := { s.boot with images := mset s.boot.images k (takePiece o l (mget [] s.boot.images k)) } }

/-- A forwarded piece reaches compute die k.  With the signature, which C0 sends last, the image is whole and k checks it; a die whose check
fails is logged as class 0x02 with CAUSE 0x01 (image) or 0x02 (key) in C0's record, and fenced in step 6 (R24; log entry 68, DESIGN CHOICE of
what follows a failure). -/
def landImage (p : Pkt) (s : State) : State :=
  let k := epDie p.dst
  let s1 := storePiece k p.addr.toNat p.data s
  let l := imageAt s1 k
  if p.addr.toNat + p.data.length != imSigOff l + 114 then s1
  else
    let s2 : State := { s1 with boot := { s1.boot with fwd := mdel s1.boot.fwd k } }
    let fails (c : Nat) : State := bbxLogC0 { s2 with boot := { s2.boot with badImage := k :: s2.boot.badImage } } 0x02 k c 0xFF 0 0
    if !imageSigned l then fails 1 else if !keyOk k l then fails 2 else s2

end Sys2Proof.Machine
end

