-- ==== Sys2Proof/Machine/Answer.lean ====
section
/-!
DEFINITION. Answers to requests and their absence (R62, R65, R104, R132, R428): read responses, acknowledgements, atomic
responses; engine data at its endpoint (R139, R208, R431, R432); timeouts, and SEQs treated as lost (R51); the completion of engine
commands; posts and launches (R434, R444); and the host's accesses and its launch-queue writes (R148, R150, R156).
-/

namespace Sys2Proof.Machine

open Sys2Proof

/-! ## Timers of requests -/

/-- A timer that an answer under a tag at an endpoint stops. -/
def isRequestTimer (ep tag : Nat) (i : Instr) (a : EvArg) : Bool :=
  (match i with | .requestTimeout => true | .remoteAccessTimeout => true | _ => false) && a.a == ep && a.b == tag

/-- The answer has come: its timer stops. -/
def cancelTimer (ep tag : Nat) (s : State) : State :=
  { s with timers := dropFirst (fun q => isRequestTimer ep tag q.2.1 q.2.2) s.timers }

/-- The time of a request is over. -/
def timerOver (s : State) (ep tag : Nat) : Bool :=
  !s.timers.any (fun q => isRequestTimer ep tag q.2.1 q.2.2 && decide (s.cyc < q.1))

/-! ## Launch queues, and writes that wait for the host's earlier ones (R150, R156) -/

/-- A write of TL takes effect (R156). -/
def queueTl (p q : Nat) (v : BitVec 64) (s : State) : State :=
  if v.toNat < qTl s p q then s
  else if 256 < v.toNat - qTaken s p q then mgSetF s 0 (oQueue p q + 24) 0 4 2
  else mgSet s 0 (oQueue p q + 8) v

/-- The request that MMU.INV holds joins those that C0 serves (R174). -/
def hostInval (s : State) : State :=
  { s with nextId := s.nextId + 1, invals := s.invals ++
      [{ id := s.nextId, part := bits (mgGet s 0 oInv) 0 3, vpn := mgF s 0 (oInv + 8) 0 36, count := mgF s 0 oInv 8 24,
         all := mgF s 0 oInv 3 1 == 1, host := true, started := false, marked := [], confirmed := [] }] }

/-- Every earlier write of the host has been acknowledged: what was held back takes effect (R150). -/
def releaseHost (s : State) : State :=
  if s.mgmt.hostOut.isEmpty then
    let s1 : State := { s with mgmt := { s.mgmt with heldTl := [], heldGo := false, heldInv := false } }
    let s2 := s.mgmt.heldTl.foldl (fun t e => queueTl e.1 e.2.1 e.2.2 t) s1
    if s.mgmt.heldInv then hostInval s2 else s2
  else s

/-- QUEUE_TL_WRITE (a: partition, b: queue, c: the value): held back while a write of the host is not acknowledged (R150, R156); ignored
while C0 updates its firmware, as every write of C0's registers (R160). -/
def execQueueTlWrite (s : State) : Res :=
  let p := s.arg.a
  let q := s.arg.b
  gate (inRanges p q) "QUEUE_TL_WRITE" (fun t =>
    let v := BitVec.ofNat 64 t.arg.c
    if t.mgmt.fw.contains 0 then t else releaseHost { t with mgmt := { t.mgmt with heldTl := t.mgmt.heldTl ++ [(p, q, v)] } }) s

/-- QUEUE_ENABLE_WRITE (a: partition, b: queue, ok: EN): writing 0 then 1 zeroes TL and TAKEN (R155). -/
def execQueueEnableWrite (s : State) : Res :=
  let p := s.arg.a
  let q := s.arg.b
  gate (inRanges p q) "QUEUE_ENABLE_WRITE" (fun t =>
    let t1 := mgSetF t 0 (oQueue p q) 52 1 (if t.arg.ok then 1 else 0)
    if t.mgmt.fw.contains 0 then t
    else if t.arg.ok && !qEn t p q then mgSet (mgSet t1 0 (oQueue p q + 8) 0) 0 (oQueue p q + 16) 0 else t1) s

/-- QUEUE_STOP_WRITE (a: partition, b: queue): 1 is written to STOP: the failed entry is skipped and the queue resumes, or ERR is
cleared (R156). -/
def execQueueStopWrite (s : State) : Res :=
  let p := s.arg.a
  let q := s.arg.b
  gate (inRanges p q) "QUEUE_STOP_WRITE" (fun t =>
    let t1 := mgSetF (mgSetF t 0 (oQueue p q + 24) 0 4 0) 0 (oQueue p q + 24) 4 1 0
    if t.mgmt.fw.contains 0 then t
    else if qStop t p q then setTaken p q (qTaken t p q + 1) t1 else t1) s

/-! ## The host's memory accesses (R148) -/

/-- The UCIe boundary's endpoint. -/
def ucieEp : Ep := epId 0x11 0

/-- HOST_MEMORY_ACCESS (a: 1 for a write, b: PA, c: bytes of a read, data: bytes of a write): one access from the UCIe boundary
endpoint, within a line, with HOST = 1 and PART = 0; a write is posted (R148, R150). -/
def execHostMemoryAccess (s : State) : Res :=
  let wr := s.arg.a == 1
  let pa := s.arg.b
  let n := if wr then s.arg.data.length else s.arg.c
  gate (s.running && decide (0 < n) && decide (pa % 64 + n ≤ 64) && populated s pa) "HOST_MEMORY_ACCESS" (fun t =>
    let tag := newTag t
    let p := { mkPkt (if wr then 2 else 0) 0 0 ucieEp (homeEp t pa false) tag pa (if wr then t.arg.data else []) (if wr then .none else .read n) with
      host := true, pkg := BitVec.ofNat 8 (podPkg t) }
    let t1 : State := { t with nextId := t.nextId + 1 }
    let t2 : State := if wr then { t1 with mgmt := { t1.mgmt with hostOut := t1.mgmt.hostOut ++ [tag] } } else t1
    sendPkt t2 p) s

/-! ## Failures -/

/-- The cause that a failed answer's status gives: VIOL, REVOKED, lost (R104, R110). -/
def statusCause (st : Nat) : Nat × Nat := if st = 1 then (cPPROT, 3) else if st = 2 then (cREVOKED, 0) else (cFLOSS, 0)

/-- An access fails with a status. -/
def accFailed (x : Nat) (a : Acc) (st : Nat) (s : State) : State :=
  failAcc s x a.tag (statusCause st).1 (statusCause st).2 (namedPa s a.pa.toNat)

/-- The access of a core's contexts that has left under a tag. -/
def sentAcc (a : Acc) : Bool := match a.stat with | .sent _ => true | _ => false
def accAt (s : State) (k tag : Nat) : Option (Nat × Acc) :=
  (tab 4 (fun i => 4 * k + i)).findSome? (fun x => ((getX s x).accs.find? (fun a => a.tag == tag && sentAcc a)).map (fun a => (x, a)))

/-- The address of the transfer that a run awaits. -/
def runAddr (s : State) (r : Run) : DWord :=
  let op := cpOp r.cmd.blk
  if r.cmd.op = 2 ∨ r.cmd.op = 3 then (if cpGlobalSrc op && !r.lines.isEmpty then namedPa s (pieceSrc r) else tiVa (pieceDst r))
  else if op = 3 then namedPa s (if r.lines = linesOf (paOf (pieceSrc r)) (r.aux * cpEsz r.cmd.blk) then pieceSrc r else pieceDst r)
  else namedPa s (if cpGlobalDst op then pieceDst r else pieceSrc r + r.buf.length)

/-- A transfer of a run has failed with a status: the command stops with its trap, or its node fails (R193, R428, R433). -/
def runFailed (k : Nat) (r : Run) (st : Nat) (s : State) : State :=
  if r.node.isSome then failNodeRun k r s
  else stopRun k r.cmd.id (statusCause st).1 (statusCause st).2 0 (runAddr s r) s

/-! ## Loads (R65, R127, R132, R136, R363) -/

/-- A discarded load is sent again at once without its hint; the context is frozen until it is answered, whatever else it waits for (R65,
R258). -/
def reissue (k x : Nat) (a : Acc) (s : State) : State :=
  let b := { a with mmh := false, stat := .waiting, again := true }
  startLoad (modX s x (fun c => { c with accs := updFirst (fun q => q.tag == a.tag) (fun _ => b) c.accs, lastFrz := 2 })) k x b

/-- A load's data has come: a line of the home fills the RDC and the data cache, unless something has passed since the read left that its data may
not show (R127, R136, R253, R260); the bytes that the data cache holds dirty are the later ones. -/
def loadData (k x : Nat) (a : Acc) (p : Pkt) (s : State) : State :=
  let part := (getX s x).part
  let pa := paOf a.pa.toNat
  let whole := isLocal s a.pa.toNat && a.kind == .load
  let cached := whole && dcCached s k a
  let s1 := if whole && a.alloc && !a.nc && !sentMmh a && rdcAllocates s (dieOf k) pa
    then rdcFill s (dieOf k) pa part (BitVec.ofNat 512 (leNat p.data)) p.poison else s
  if p.poison then failAcc s1 x a.tag cPOISON 0 (namedPa s (a.pa.toNat / 64 * 64))
  else if cached && a.alloc && decide ((getC s1 k).dcDrain ≤ s.cyc) then
    let s2 := dcFill s1 k (pa / 64) part p.data
    performLine s2 x a (((dcFind (getC s2 k) (pa / 64) part).map (·.data)).getD (BitVec.ofNat 512 (leNat p.data))) false
  else performAcc s1 x a.tag (if whole then (p.data.drop (pa % 64)).take a.n else p.data)

/-- A fetch's line has come: it enters the instruction cache, or the fetch fails (R132, R233). -/
def fetchData (k x : Nat) (a : Acc) (p : Pkt) (s : State) : State :=
  let part := (getX s x).part
  let pa := paOf a.pa.toNat
  let d := BitVec.ofNat 512 (leNat p.data)
  let s1 := if isLocal s a.pa.toNat && a.alloc && !a.nc && rdcAllocates s (dieOf k) pa then rdcFill s (dieOf k) pa part d p.poison else s
  if p.poison then failAcc s1 x a.tag cPOISON 0 (namedPa s (a.pa.toNat / 64 * 64))
  else performAcc (icFill s1 k (a.pa.toNat / 64) part d) x a.tag []

/-- A response to a load, a poll or a flushing read of a context (R65, R104, R106, R110). -/
def loadAnswered (k x : Nat) (a : Acc) (p : Pkt) (s : State) : State :=
  match p.msg with
  | .fail st => accFailed x a st s
  | _ =>
    if a.kind = .fetch then fetchData k x a p s
    else if p.merged && !mergedOk s k (getX s x) p then reissue k x a s else loadData k x a p s

/-- A read of a run is answered. -/
def runRead (k : Nat) (r : Run) (p : Pkt) (s : State) : State :=
  match p.msg with
  | .fail st => runFailed k r st s
  | _ => if r.node.isSome then nodeRead k r p.data p.poison s else copyRead k r p.data p.poison s

/-- The walker's request under a tag. -/
def reqAt (s : State) (e : Ep) (tag : Nat) : Option Req := s.reqs.find? (fun q => q.ep == e && q.tag == tag)
def dropReq (e : Ep) (tag : Nat) (s : State) : State := { s with reqs := dropFirst (fun q => q.ep == e && q.tag == tag) s.reqs }

/-- An answer for the Filash die: of an access that it admitted, or of a descriptor's transfer. -/
def filashAnswer (p : Pkt) (s : State) : State :=
  match s.admitted.find? (fun a => a.tag = p.tag.toNat) with
  | some a => admittedDone a p s
  | none => match rmaOfTag s p.tag.toNat with
    | some (pt, q, r) => rmaAnswer pt q r p s
    | none => s

/-- The answer at the head of an endpoint, of a kind; what comes to C0's security controller is of the boot image and has its own event. -/
def answerAt (kind : BitVec 4) (s : State) : Option Pkt :=
  (rxHead s (argEp s)).bind (fun p => if p.kind = kind ∧ p.dst ≠ securityEp 0 then some p else none)

/-- A read response is taken (R65). -/
def readAnswered (p : Pkt) (s : State) : State :=
  let tag := p.tag.toNat
  if epDie p.dst = 16 then filashAnswer p s
  else if epDie p.dst = 17 then { s with hostOut := s.hostOut ++ [p.data] }
  else if epUnit p.dst = 73 then
    match reqAt s p.dst tag with
    | some r => waitAnswer r.a r.b (BitVec.ofNat 64 (leNat p.data)) p.poison (dropReq p.dst tag s)
    | none => s
  else match epCore s p.dst with
    | none => s
    | some k => match accAt s k tag with
      | some (x, a) => loadAnswered k x a p (if s.arg.b = 1 then softAt x (namedPa s a.pa.toNat) a.pa.toNat s else s)
      | none => match runOfTag s k tag with
        | some r => runRead k r p (if s.arg.b = 1 then bbxLog s 0x05 (dieOf k) 0 p.part.toNat (epUnit p.dst) (BitVec.ofNat 128 p.addr.toNat) else s)
        | none => s

/-- The event of an answer: it leaves its endpoint and stops its timer. -/
def answerEvent (kind : BitVec 4) (name : String) (eff : Pkt → State → State) (s : State) : Res :=
  match answerAt kind s with
  | some p => gate true name (fun t => eff p (cancelTimer p.dst.toNat p.tag.toNat (rxTake t (argEp t)))) s
  | none => gate false name id s

/-- READ_RESPONSE (a: endpoint, b: 1 when ECC corrected an error in the data): R65, R131, R313. -/
def execReadResponse (s : State) : Res := answerEvent 1 "READ_RESPONSE" readAnswered s

/-! ## Acknowledgements (R65, R136, R268, R428) -/

/-- An answer from a home of this package carries a version for the filter. -/
def fromHome (p : Pkt) : Bool := decide (8 ≤ epDie p.src) && epDie p.src != 16

/-- The version filter takes an acknowledgement, or the response of an atomic that wrote (R65). -/
def filterAnswer (k : Nat) (p : Pkt) (s : State) : State :=
  if fromHome p then filterEnter s k (p.addr.toNat / 64) p.ver else s

/-- The run at the piece that left under a tag. -/
def atPiece (r : Run) (tag : Nat) : Run :=
  match r.out.find? (fun o => o.1 == tag) with
  | some o => { r with pos := o.2.1 }
  | none => r

/-- A write of a run is acknowledged or refused; a refused `cpyrm` sends no arrivals (R428, R432). -/
def runAcked (k : Nat) (r0 : Run) (p : Pkt) (s : State) : State :=
  let r := if r0.node.isSome then r0 else atPiece r0 p.tag.toNat
  match p.msg with
  | .fail st =>
    if r.cmd.op = 3 ∧ epDie p.src < 8 then
      modRun k r.cmd.id (fun q => { q with arrived := true }) (stopRun k r.cmd.id cPPROT 1 0 (tiVa (pieceDst r)) s)
    else runFailed k r st s
  | _ => if r.node.isSome then nodeAck k r s else copyAck k r0 p.tag.toNat s

/-- A write-back has ended: when it was its line's last one, the stores of the line have been performed at their home (R136, R252). -/
def dropWriteBack (k tag : Nat) (s : State) : State :=
  match (getC s k).wbs.find? (fun w => w.1 == tag) with
  | none => s
  | some w =>
    let s1 := modC s k (fun c => { c with wbs := c.wbs.filter (fun v => v.1 != tag) })
    if (getC s1 k).wbs.any (fun v => v.2.1 == w.2.1 && v.2.2 == w.2.2) then s1
    else (partCtxs s1 k w.2.2).foldl (fun t x => doneWhere x (fun a => a.stat == .leaving && paOf a.pa.toNat / 64 == w.2.1) t) s1

/-- A write acknowledgement is taken. -/
def writeAnswered (p : Pkt) (s : State) : State :=
  let tag := p.tag.toNat
  if epDie p.dst = 16 then filashAnswer p s
  else if epDie p.dst = 17 then releaseHost { s with mgmt := { s.mgmt with hostOut := s.mgmt.hostOut.filter (· != tag) } }
  else match epCore s p.dst with
    | none => s
    | some k =>
      let s1 := filterAnswer k p s
      match accAt s1 k tag with
      | some (x, a) => (match p.msg with | .fail st => accFailed x a st s1 | _ => performAcc s1 x a.tag [])
      | none =>
        if (getC s1 k).wbs.any (fun w => w.1 == tag) then dropWriteBack k tag s1
        else match runOfTag s1 k tag with
          | some r => runAcked k r p s1
          | none => s1

/-- WRITE_ACKNOWLEDGEMENT (a: endpoint): R65. -/
def execWriteAcknowledgement (s : State) : Res := answerEvent 3 "WRITE_ACKNOWLEDGEMENT" writeAnswered s

/-- An atomic's old value comes back, or its failure (R132, R366). -/
def atomicAnswered (k x : Nat) (a : Acc) (p : Pkt) (s : State) : State :=
  match p.msg with
  | .fail st => accFailed x a st s
  | .old v _ =>
    if p.poison then failAcc s x a.tag cPOISON 0 (namedPa s (a.pa.toNat / 64 * 64))
    else performAcc (filterAnswer k p s) x a.tag (leBytes 8 v.toNat)
  | _ => s

/-- An atomic response is taken. -/
def oldAnswered (p : Pkt) (s : State) : State :=
  let tag := p.tag.toNat
  if epDie p.dst = 16 then filashAnswer p s
  else if epUnit p.dst = 73 then
    match reqAt s p.dst tag with
    | some r => nodeDone r.a r.b (if p.poison then 10 else 0) (dropReq p.dst tag s)
    | none => s
  else match epCore s p.dst with
    | none => s
    | some k => match accAt s k tag with
      | some (x, a) => atomicAnswered k x a p (if s.arg.b = 1 then softAt x (namedPa s a.pa.toNat) a.pa.toNat s else s)
      | none => s

/-- ATOMIC_RESPONSE (a: endpoint, b: 1 when ECC corrected an error in the data): R65, R366. -/
def execAtomicResponse (s : State) : Res := answerEvent 5 "ATOMIC_RESPONSE" oldAnswered s

/-! ## Timeouts (R62, R104) -/

/-- A write-back is lost: FLOSS goes to the contexts of its partition at its core. -/
def writeBackLost (k : Nat) (w : Nat × Nat × BitVec 3) (s : State) : State :=
  (partCtxs s k w.2.2).foldl (fun t x => modX t x (fun c => addCause c c.inh ⟨cFLOSS, 0, 0, 15, tiPhys (64 * w.2.1), c.pc, c.time⟩))
    (dropWriteBack k w.1 s)

/-- What awaits an answer under a tag at an endpoint, and what becomes of it when none comes. -/
def lostAnswer (s : State) (e : Ep) (tag : Nat) : Option (State → State) :=
  if epDie e = 16 then (rmaOfTag s tag).map (fun q => rmaFail q.1 q.2.1 q.2.2 4)
  else if epUnit e = 73 then
    (reqAt s e tag).map (fun r t => let t1 := dropReq e tag t; if r.use = 1 then nodeDone r.a r.b 10 t1 else t1)
  else (epCore s e).bind (fun k =>
    match accAt s k tag with
    | some (x, a) => some (accFailed x a 3)
    | none => match (getC s k).wbs.find? (fun w => w.1 == tag) with
      | some w => some (writeBackLost k w)
      | none => (runOfTag s k tag).map (fun r => runFailed k (if r.node.isSome then r else atPiece r tag) 3))

/-- The event of a timeout. -/
def timeoutEvent (name : String) (s : State) : Res :=
  match lostAnswer s (argEp s) s.arg.b with
  | some f => gate (timerOver s s.arg.a s.arg.b) name f s
  | none => gate false name id s

/-- REQUEST_TIMEOUT (a: endpoint, b: tag): R62. -/
def execRequestTimeout (s : State) : Res := timeoutEvent "REQUEST_TIMEOUT" s
/-- REMOTE_ACCESS_TIMEOUT (a: endpoint, b: tag): R104. -/
def execRemoteAccessTimeout (s : State) : Res := timeoutEvent "REMOTE_ACCESS_TIMEOUT" s

/-! ## SEQs treated as lost (R51) -/

/-- The SEQs of a flow that have reached its endpoint beyond the expected one: held, or standing before a full store. -/
def reachedSeqs (s : State) (f : Flow) : List (BitVec 12) :=
  (recvOf s f).early.map (·.seq)
  ++ (s.net.filter (fun g => g.pkt.flow == f && dueBy s (g.arr + endTime g.loc) && (match hopOf s g.loc g.pkt with | .deliver => true | _ => false))).map (fun g => g.pkt.seq)

/-- The oldest of some SEQs after n. -/
def oldestSeq (n : BitVec 12) : List (BitVec 12) → Option (BitVec 12)
  | [] => none
  | q :: l => match oldestSeq n l with
    | none => some q
    | some r => if (q - n).toNat < (r - n).toNat then some q else some r

/-- The flow is released onward from a SEQ; while early arrivals remain the timer runs again. -/
def skipTo (f : Flow) (n : BitVec 12) (s : State) : State :=
  let r : Recv := { recvOf s f with next := n }
  let s2 := releaseFrom s f [] { r with gone := r.gone.filter (laterSeq r) }
  (streamsOfFlow s2 f).foldl (fun t q => lostRecord q.1 q.2 t) s2

/-- REORDER_TIMEOUT (flow): R51; a stream whose records the flow carries is broken (R212). -/
def execReorderTimeout (s : State) : Res :=
  let f := s.arg.flow
  let r := recvOf s f
  match oldestSeq r.next (reachedSeqs s f) with
  | some n => gate (match r.since with | some c => decide (c + 262144 ≤ s.cyc) | none => false) "REORDER_TIMEOUT" (skipTo f n) s
  | none => gate false "REORDER_TIMEOUT" id s

/-! ## Engine data at a core (R139, R208, R431, R432) -/

/-- An exchange store is written into bank (phase + 1)[0] of the core of its task (R139, R365). -/
def landXst (gid task phase off : Nat) (p : Pkt) (s : State) : State :=
  match findGang s gid with
  | none => s
  | some g =>
    let s1 := modGang gid (fun q => { q with xstOut := q.xstOut - 1 }) s
    if g.live.contains task then
      modC s1 (coreOf (g.xs.getD task 0)) (fun k => { k with ts := tsWrite k.ts (0x380000 + 0x40000 * ((phase + 1) % 2) + off) p.data p.poison })
    else s1

/-- The identity add of elements of two byte lists (R432): FP32 for OP 8, BF16 for OP 9. -/
def addBytes (rule : Nat) (old new : List Byte) : List Byte :=
  let f := if rule = 8 then fp32 else bf16
  let esz := if rule = 8 then 4 else 2
  (tab (new.length / esz) (fun i =>
    let el (l : List Byte) : Ex := decodeNum f (leNat ((l.drop (esz * i)).take esz))
    leBytes esz (roundNum f .rne (identity Ex.add (el old) (el new))))).flatten

/-- The bytes of a transfer applied at a target context, then its barrier (R431, R432). -/
def applyTile (rule y off : Nat) (bar : Option Nat) (closes : Nat) (arrv : Nat) (p : Pkt) (s : State) : State :=
  let base := 65536 * (getX s y).tsBase.toNat
  let n := p.data.length
  let old := loadTs s y (base + off) n
  let bad (o m : Nat) : Bool := p.poison || (decide (8 ≤ rule) && poisonTs s y (base + off + o) m)
  let s1 := putSectors y (base + off) (if 8 ≤ rule then addBytes rule old p.data else p.data) bad s
  match bar with
  | none => s1
  | some b =>
    let s2 := if closes = 0 then s1 else tbEngine y (base + b) 0 closes s1
    if arrv = 0 then s2 else tbEngine y (base + b) arrv 0 s2

/-- The transfer of `cpymc` or `cpyrm` that has waited longest at its target's core: discarded when its task has ended, refused, or applied once the
banks have served its rows, which those served keep (R238, R431, R432); whether a bank has refused one. -/
def landTile (k : Nat) (l : Landing) (rule y off : Nat) (bar : Option Nat) (closes arrv gang : Nat) (s : State) : State × Bool :=
  let p := l.pkt
  let c := getX s y
  let reply (m : Msg) (t : State) : State := sendPkt (modC t k (fun d => { d with lands := d.lands.drop 1 })) (answer p 3 [] m)
  if rule = 6 ∧ !(c.task && c.part == p.part && c.gang == gang) then (reply .none s, false)
  else if rule ≠ 6 ∧ tileRefused s y off p.data.length bar p.part then (reply (.fail 1) s, false)
  else
    let a := 65536 * c.tsBase.toNat + off
    let rows := (rowsOf c a p.data.length).filter (fun r => !l.done.contains r)
    let q := claimRows k 4 rows s
    if q.2.isEmpty then
      let t := if 8 ≤ rule then eccSectors k y false (ctxSectors c a p.data.length) q.1 else q.1
      (reply .none (applyTile rule y off bar closes arrv p t), false)
    else
      let more : Landing := { l with done := l.done ++ rows.filter (fun r => !q.2.contains r) }
      (modC q.1 k (fun d => { d with lands := more :: d.lands.drop 1 }), true)

/-- The transfers that have reached a core, in order, until a bank refuses one. -/
def landStep (k : Nat) : Nat → State → State × Bool
  | 0, s => (s, false)
  | n + 1, s =>
    match (getC s k).lands with
    | [] => (s, false)
    | l :: _ => (match l.pkt.msg with
      | .tileWrite rule y off bar closes arrv gang =>
        let r := landTile k l rule y off bar closes arrv gang s
        if r.2 then r else landStep k n r.1
      | _ => (modC s k (fun d => { d with lands := d.lands.drop 1 }), false))

/-- Engine data for a core's tile store waits for its banks (R238); without a core of that number it is dropped. -/
def queueLanding (record : Bool) (p : Pkt) (s : State) : State :=
  match epCore s p.dst with
  | none => s
  | some k => modC s k (fun d => if record then { d with recs := d.recs ++ [⟨p, []⟩] } else { d with lands := d.lands ++ [⟨p, []⟩] })

/-- Engine data is applied at its core. -/
def landData (p : Pkt) (s : State) : State :=
  match p.msg with
  | .xst g n ph off => landXst g n ph off p s
  | .record _ _ _ _ => queueLanding true p s
  | .tileWrite _ _ _ _ _ _ _ => queueLanding false p s
  | .image => landImage p s
  | _ => s

/-- Engine data that speaks of a circuit has an event of its own. -/
def isResumeMsg : Msg → Bool
  | .resume _ _ => true
  | _ => false

/-- ENGINE_DATA (a: endpoint): at a home an engine's write is performed; at a core its payload is applied (R268, R427). -/
def execEngineData (s : State) : Res :=
  let e := argEp s
  if 8 ≤ epDie e ∧ epDie e ≠ 16 then homeEvent [6] "ENGINE_DATA" s
  else match rxHead s e with
    | some p => gate (p.kind == 6 && epDie e != 16 && !isResumeMsg p.msg) "ENGINE_DATA" (fun t => landData p (rxTake t e)) s
    | none => gate false "ENGINE_DATA" id s

/-! ## Commands that complete, posts, launches (R428, R434, R436, R444) -/

/-- The run of a command at a core. -/
def runAt (s : State) (k id : Nat) : Option Run := (getC s k).runs.find? (fun r => r.cmd.id == id)

/-- COPY_COMMAND_COMPLETION (a: core, b: command): a command, a stage of one, or a node's work completes (R196, R427, R428). -/
def execCopyCommandCompletion (s : State) : Res :=
  let k := s.arg.a
  match runAt s k s.arg.b with
  | some r => gate (runEnded r) "COPY_COMMAND_COMPLETION" (fun t =>
      match r.node with
      | some q => nodeDone q.1 q.2 (if r.stopped then 1 else 0) (dropRun k r.cmd.id t)
      | none => completeRun k r t) s
  | none => gate false "COPY_COMMAND_COMPLETION" id s

/-- A run at a port that has performed the context's earlier accesses and has not written yet. -/
def postReady (s : State) (k port op : Nat) : Option Run :=
  (portRuns (getC s k) port).find? (fun r => r.cmd.op == op && r.pos == 0 && r.step == 2 && !r.stopped)

/-- The queue takes one more descriptor (R434). -/
def rmaHasRoom (s : State) (p q : Nat) : Bool :=
  rmaEn s p q && decide ((rmaTail s p q - bits (rmaComplete s p q) 0 32).toNat < 2 ^ rmaLog s p q)

/-- A post writes its descriptor to the next entry, and TAIL advances; it completes when the descriptor retires (R434). -/
def writePost (k : Nat) (r : Run) (s : State) : State :=
  let part := (getX s r.x).part
  let p := part.toNat
  let q := r.cmd.a
  let n := rmaTail s p q
  let a := rmaSlot s p q n
  let l := leBytes 64 r.cmd.blk.toNat
  let s1 := homeWrite (rdcStoreRange s (dieOf k) part false 2 a l) a l false
  let s2 := modRun k r.cmd.id (fun e => { e with pos := 1, aux := rmaKey p q * 2 ^ 32 + n.toNat }) s1
  rmaSettle p q (mgSetF s2 0 (oRma p q + 8) 0 32 (n.toNat + 1))

/-- RMAPOST_COMMAND_START (a: core, b: port): the command takes its port; or, when its release is done and the queue has room, it
writes its descriptor (R434). -/
def execRmapostCommandStart (s : State) : Res :=
  let k := s.arg.a
  match postReady s k s.arg.b 4 with
  | some r => gate (rmaHasRoom s (getX s r.x).part.toNat r.cmd.a) "RMAPOST_COMMAND_START" (writePost k r) s
  | none => match nextCopy s k s.arg.b with
    | some (x, m) => gate (m.op == 4) "RMAPOST_COMMAND_START" (startCopy k x m) s
    | none => gate false "RMAPOST_COMMAND_START" id s

/-- The launch that a core's launch engine takes next: the oldest by issue cycle. -/
def nextLaunch (s : State) (k : Nat) : Option (Nat × Cmd) :=
  if (portRuns (getC s k) 2).any runBusy then none
  else oldest ((tab 4 (fun i => 4 * k + i)).filterMap (fun x =>
    let c := getX s x
    if c.task && !c.halted then (c.q4.head?).bind (fun m => if m.cyc < s.cyc then some (x, m) else none) else none))

/-- The launch queue takes one more entry (R444). -/
def launchHasRoom (s : State) (p q : Nat) : Bool := qEn s p q && decide (qTl s p q - qTaken s p q < 256)

/-- A launch writes its record's PA to entry TL, and TL advances (R444). -/
def writeLaunch (k : Nat) (r : Run) (s : State) : State :=
  let part := (getX s r.x).part
  let p := part.toNat
  let q := r.cmd.a
  let n := qTl s p q
  let a := qBase s p q + 8 * (n % 256)
  let l := leBytes 8 (paOf r.cmd.src.toNat)
  let s1 := homeWrite (rdcStoreRange s (dieOf k) part false 2 a l) a l false
  let s2 := modPart s1 p (fun t => { t with devs := t.devs ++ [(q, n)] })
  dropRun k r.cmd.id (mgSet s2 0 (oQueue p q + 8) (BitVec.ofNat 64 (n + 1)))

/-- LAUNCH_COMMAND_START (a: core): the command takes the launch engine; or, when its release is done and the queue has room, it
writes its entry and is done (R444). -/
def execLaunchCommandStart (s : State) : Res :=
  let k := s.arg.a
  match postReady s k 2 0x19 with
  | some r => gate (launchHasRoom s (getX s r.x).part.toNat r.cmd.a) "LAUNCH_COMMAND_START" (writeLaunch k r) s
  | none => match nextLaunch s k with
    | some (x, m) => gate true "LAUNCH_COMMAND_START" (fun t =>
        modC (modX t x (fun c => { c with q4 := dropFirst (fun q => q.id = m.id) c.q4 })) k
          (fun c => { c with runs := c.runs ++ [mkRun x none m], starts := mset c.starts 4 t.cyc })) s
    | none => gate false "LAUNCH_COMMAND_START" id s

end Sys2Proof.Machine
end

