-- ==== Sys2Proof/Machine/Host.lean ====
section
/-!
DEFINITION. The host's registers and the management controllers (R6, R19-R21, R28-R42, R148-R162): what the package reports of
itself, power limits, fencing in service, the mailbox commands, swapping, core repair, and writes of registers.
-/

namespace Sys2Proof.Machine

open Sys2Proof

/-! ## PKG.CONFIG and the cores' limits (R19, R36, R243) -/

def activeCores (s : State) : Nat := (s.cores.filter (fun c => c.2.active)).length

/-- A mask of dies. -/
def dieMask (f : Nat → Bool) : Nat := (List.range 8).foldl (fun n k => if f k then n + 2 ^ k else n) 0

/-- PKG.CONFIG as the package stands; FILASH keeps its bit (R36). -/
def setConfig (s : State) : State :=
  let cd := dieMask (dieOk s)
  let md := dieMask (memOk s)
  let fil := mgF s 0 oConfig 16 1
  let n := activeCores s
  let sp := s.mgmt.spare.length
  let degr := if cd = 255 ∧ md = 255 ∧ fil = 1 ∧ n = 512 ∧ sp = 32 then 0 else 1
  mgSet s 0 oConfig (BitVec.ofNat 64 (cd + md * 2 ^ 8 + fil * 2 ^ 16 + s.mgmt.homes.length * 2 ^ 20 + n * 2 ^ 24 + sp * 2 ^ 36 + degr * 2 ^ 42))

/-- CORE.PLIM.LIMIT of a core of a die (R243). -/
def coreLimit (s : State) (k : Nat) : Nat :=
  max 80 (min 4416 (mgF s 0 oPower 0 13 / max 1 (activeCores s) * mgF s (dieOf k) oFact 0 16 / 256))

/-- Every active core's limit is recomputed; while C0 updates its firmware limits stay as they were (R160, R243). -/
def setLimits (s : State) : State :=
  if s.mgmt.fw.contains 0 then s
  else { s with cores := s.cores.map (fun (c : Nat × Core) =>
    if c.2.active then (c.1, { c.2 with limit := BitVec.ofNat 13 (coreLimit s c.1) }) else c) }

/-- A value of LIMIT clamped into its range (R19). -/
def clampPower (w : Nat) : Nat := max 1000 (min 4400 w)

/-- A write of PKG.POWER: LIMIT is clamped, a 1 in TRIP clears it, and the limits follow (R19, R22). -/
def writePower (v : BitVec 64) (s : State) : State :=
  let s1 := mgSetF s 0 oPower 0 13 (clampPower (bitsN v 0 13))
  setLimits (if bit v 30 then mgSetF s1 0 oPower 30 1 0 else s1)

/-! ## Fencing in service (R30, R158, R159) -/

/-- A mailbox command ends: STATUS is written, GO clears, MBDONE is set, in that order (R157). -/
def endCommand (status : Nat) (s : State) : State :=
  let s1 := mgSetF (mgSetF s 0 oMbCmd 24 8 status) 0 oMbCmd 16 1 0
  setHint { s1 with mgmt := { s1.mgmt with cmdOpen := false } } hintMbDone

def gangsOfPart (s : State) (p : Nat) : List Gang := s.gangs.filter (fun g => g.part.toNat == p)

/-- A gang has a context on a die. -/
def gangOnDie (g : Gang) (k : Nat) : Bool := g.st != 2 && g.live.any (fun i => dieOf (coreOf (g.xs.getD i 0)) == k)

/-- A gang ends with FENCED; the shadow storage of its contexts is given up (R159). -/
def fenceGang (stream : Nat) (g : Gang) (s : State) : State :=
  let out := (getPart s g.part.toNat).saved.filter (fun v => g.st == 3 && g.xs.contains v.1)
  let s1 := killGang 9 stream g (out.foldl (fun t v => breakPeers v.2 stream t) s)
  modPart s1 g.part.toNat (fun t => { t with saved := t.saved.filter (fun v => !(g.st == 3 && g.xs.contains v.1)) })

/-- The runs of a partition's nodes leave their ports. -/
def dropNodeRuns (p : Nat) (s : State) : State :=
  { s with cores := s.cores.map (fun (c : Nat × Core) =>
      (c.1, { c.2 with runs := c.2.runs.filter (fun r => !(r.node.isSome && (runPart s r).toNat == p)) })) }

/-- A partition whose walker's die is fenced enters FENCING (R159). -/
def fencingPart (p : Nat) (s : State) : State :=
  let s1 := if (getPart s p).swapping = 0 then s else endCommand 3 s
  let s2 := dropNodeRuns p ((gangsOfPart s1 p).foldl (fun t g => fenceGang cLOST g t) s1)
  let s3 := (s2.recs.filter (fun r => r.part.toNat == p)).foldl (fun t r => retireRec r 9 0x3FF t) s2
  let s4 := (List.range 32).foldl (fun t q => mgSetF (mgSetF t 0 (oQueue p q + 24) 0 4 4) 0 (oQueue p q + 24) 4 1 1) s3
  setPartState p 3 (modPart s4 p (fun t => { t with streams := [], opens := [], saved := [], swapping := 0, fetching := [], devs := [] }))

/-- What the fencing of die k does to partition p (R159). -/
def fencePart (k p : Nat) (s : State) : State :=
  if mgF s 0 (oPartCfg p) 19 2 = 0 ∨ partDies s p / 2 ^ k % 2 = 0 then s
  else if walkerDie s p = k then fencingPart p s
  else (gangsOfPart s p).foldl (fun t g => if gangOnDie g k then fenceGang cPEND g t else t) s

/-- Circuits that cross die k: one whose sender is lost is over; the others collapse with FENCE (R92, R158). -/
def fenceCircuits (k : Nat) (s : State) : State :=
  let s1 := (s.circuits.filter (fun q => dieOf (coreOf q.x) == k)).foldl (fun t q => retireCircuit q t) s
  (s1.circuits.filter (fun q => dieOf (coreOf q.dx) == k)).foldl (fun t q => collapse q.cid ckFENCE false t) s1

/-- A promoted flow that is over gives up its lanes and what ponds reserve for it. -/
def endPromo (s : State) (f : Promo) : State :=
  let t := dropLanes (promoVal f.fid) s
  let l := t.ponds.map (fun (q : Nat × Pond) => (q.1, { q.2 with resv := q.2.resv.filter (fun r => r.1 != f.fid) }))
  dropPromo f.fid { t with ponds := l }

/-- A flow's relay die is fenced: what waits there or would go there is lost, and the flow falls back over what of its circuit stands (R85,
R87; log entry 69, DEDUCED). -/
def loseRelay (k : Nat) (s : State) (f : Promo) : State :=
  let i := epDie f.src
  let stays : PondItem → Bool := fun it => match it with | .pkt g p _ => g != f.fid || epDie p.dst == k | .beat _ _ => true
  let s1 := modPond i (fun q => { q with dep := mset q.dep k ((mget [] q.dep k).filter stays) }) s
  fallback f.fid false (modPromo f.fid (fun g => { g with relay := none, relayed := 0 }) s1)

/-- Promoted flows to or from die k are over; those that relay through it lose what they relay (R85, R87). -/
def fencePromos (k : Nat) (s : State) : State :=
  let s1 := (s.promos.filter (fun f => epDie f.src == k || epDie f.dst == k)).foldl endPromo s
  (s1.promos.filter (fun f => f.relay == some k)).foldl (loseRelay k) s1

/-- The work of nodes on die k fails with FENCED (R195). -/
def fenceNodes (k : Nat) (s : State) : State :=
  (s.cores.filter (fun c => dieOf c.1 == k)).foldl (fun t c => c.2.runs.foldl (fun u r =>
    match r.node with | some q => nodeDone q.1 q.2 9 u | none => u) t) s

/-- A flight stands on the die of a die code, at its module, or on a link of it. -/
def onDie (k : Nat) : Loc → Bool
  | .router d _ _ _ => d == k
  | .ucie d => d == k
  | .mem j _ => 8 + j == k
  | .wire l => l / 8 == k || (across (l / 8) (l % 8)).1 == k
  | .filash => k == 16

/-- Everything that die k holds is lost: cores, contexts, caches, traffic, its millpond (R29, R30). -/
def wipeDie (k : Nat) (s : State) : State :=
  { s with
    cores := s.cores.filter (fun c => dieOf c.1 != k), ctxs := s.ctxs.filter (fun c => dieOf (coreOf c.1) != k),
    todo := s.todo.filter (fun q => dieOf (q / 2) != k), net := s.net.filter (fun f => !onDie k f.loc),
    rx := s.rx.filter (fun p => epDie p.dst != k), merges := s.merges.filter (fun e => e.die != k),
    sluices := s.sluices.filter (fun e => e.1 / 1024 != k), rdc := s.rdc.filter (fun e => e.1 / 16 != k),
    ponds := mdel s.ponds k, grains := s.grains.filter (fun g => g.source != k && g.dest != k),
    reqs := s.reqs.filter (fun r => epDie r.ep != k), plcs := mdel s.plcs k, probes := s.probes.filter (fun p => p.die != k),
    lanes := s.lanes.filter (fun e => e.1 / 1728 != k), moves := s.moves.filter (fun m => m.die != k),
    ecc := s.ecc.filter (fun e => (if e.place = 2 then e.owner else dieOf e.owner) != k),
    mgmt := { s.mgmt with repairs := s.mgmt.repairs.filter (fun r => dieOf r.1 != k), spare := s.mgmt.spare.filter (fun c => c.1 / 4 != k) } }

/-- The pod links of a fenced die carry nothing more (R29, R116). -/
def podsDown (t : Nat → Bool) (s : State) : State :=
  ((List.range 16).filter t).foldl (fun u n => if mgF u 0 (oPodLink n) 0 1 = 0 then u else mgSetF { u with podPorts := mdel u.podPorts n } 0 (oPodLink n) 0 1 0) s

/-- The host is interrupted for a fence in service (R151). -/
def fencedHint (s : State) : State := if s.boot.step = 8 then setHint s hintFenced else s

/-- Compute die k is fenced in service (R29, R30, R158, R159). -/
def fenceCompute (k : Nat) (s : State) : State :=
  if isFenced s k then s
  else
    let s0 := if s.mgmt.repairs.any (fun r => dieOf r.1 == k && r.2 == 2) then endCommand 1 s else s
    let s1 := fenceNodes k (fencePromos k (fenceCircuits k s0))
    let s2 := (List.range 8).foldl (fun t p => fencePart k p t) s1
    let s3 := wipeDie k s2
    let s4 : State := { s3 with mgmt := { s3.mgmt with fenced := k :: s3.mgmt.fenced } }
    fencedHint (settleInval (setLimits (setConfig (podsDown (fun n => n / 2 == k) (bbxLog s4 0x03 k 0 0xFF 0 0)))))

/-- A memory die or the Filash die is fenced in service (R21, R29): what its home slice holds is lost; the Filash die takes the mill and the
pod links with it. -/
def fenceOther (code : Nat) (s : State) : State :=
  if isFenced s code then s
  else
    let s1 : State := { s with
      mgmt := { s.mgmt with fenced := code :: s.mgmt.fenced }, rx := s.rx.filter (fun p => epDie p.dst != code),
      net := s.net.filter (fun f => !onDie code f.loc), slices := if 8 ≤ code ∧ code < 16 then mdel s.slices (code - 8) else s.slices }
    let s2 := if code = 16 then
        let t := mgSetF s1 0 oConfig 16 1 0
        let u := (t.circuits.filter (fun q => dieOf (coreOf q.x) != dieOf (coreOf q.dx))).foldl (fun v q => collapse q.cid ckFENCE false v) t
        (u.promos.filter crosses).foldl (fun v f => fallback f.fid true v) u
      else s1
    fencedHint (setConfig (podsDown (fun _ => code == 16) (bbxLog s2 0x03 code 0 0xFF 0 0)))

/-! ## The mailbox (R157, R158) -/

def mbCmd (s : State) : Nat := mgF s 0 oMbCmd 0 8
def mbTgt (s : State) : Nat := mgF s 0 oMbCmd 8 8
def mbArg0 (s : State) : BitVec 64 := mgGet s 0 oMbArg0
def mbArg1 (s : State) : BitVec 64 := mgGet s 0 oMbArg1

/-- A command may be carried out: GO is set and not held back, no other command runs, C0 does not update its firmware. -/
def mbReady (s : State) : Bool :=
  s.running && mgF s 0 oMbCmd 16 1 == 1 && !s.mgmt.heldGo && !s.mgmt.cmdOpen && !s.mgmt.fw.contains 0

/-- A command that ends at once: a refusal, or its effect and OK. -/
def command (n : Nat) (name : String) (status : State → Nat) (eff : State → State) (s : State) : Res :=
  gate (mbReady s && mbCmd s == n) name (fun t => if status t = 0 then endCommand 0 (eff t) else endCommand (status t) t) s

/-- Contexts of a die that no ACTIVE partition has (R158). -/
def freeContexts (s : State) (k : Nat) : Nat :=
  4 * (s.cores.filter (fun c => c.2.active && dieOf c.1 == k)).length
  - ((List.range 8).filter (fun p => partState s p == 1 && partDies s p / 2 ^ k % 2 == 1)).foldl (fun n p => n + partCtx s p) 0

def crDies (s : State) : Nat := bitsN (mbArg0 s) 0 8
def crCtx (s : State) : Nat := bitsN (mbArg0 s) 8 9
def crMem (s : State) : Nat := bitsN (mbArg0 s) 32 10

/-- First-tier capacity in GiB (R119, R158). -/
def firstTier (s : State) : Nat := granules s / 16384 + s.mgmt.homes.length * placed s

/-- The status of CREATE (R158). -/
def createStatus (s : State) : Nat :=
  let a := mbArg0 s
  let used := (List.range 8).foldl (fun n p => n + (if mgF s 0 (oPartCfg p) 19 2 = 0 then 0 else partMem s p)) 0
  if 8 ≤ mbTgt s || anySet64 a [(19, 13), (42, 22)] || mbArg1 s != 0 || crDies s == 0 || crCtx s == 0 || 256 < crCtx s || 512 < crMem s then 1
  else if partState s (mbTgt s) ≠ 0 then 3
  else if (List.range 8).any (fun k => crDies s / 2 ^ k % 2 == 1 && (!dieOk s k || decide (freeContexts s k < crCtx s)))
      || decide (firstTier s < used + crMem s) then 2
  else if bit a 17 ∧ 2 ≤ ((List.range 8).filter (fun p => mgF s 0 (oPartCfg p) 19 2 != 0 && partLc s p)).length then 6
  else 0
where
  anySet64 (b : BitVec 64) (l : List (Nat × Nat)) : Bool := l.any (fun f => bitsN b f.1 f.2 != 0)

/-- C0 empties every core's copies of MMU.ROOT and MMU.THR of a partition (R163). -/
def clearRoots (p : Nat) (s : State) : State :=
  { s with cores := s.cores.map (fun (c : Nat × Core) => (c.1, { c.2 with roots := mdel c.2.roots p, thr := mdel c.2.thr p })) }

/-- The effect of CREATE. -/
def createPart (s : State) : State :=
  let p := mbTgt s
  let a := mbArg0 s
  clearRoots p (mgSet s 0 (oPartCfg p) (BitVec.ofNat 64 (bitsN a 0 19 + 1 * 2 ^ 19 + crMem s * 2 ^ 32)))

/-- CREATE: R158. -/
def execCreate (s : State) : Res := command 1 "CREATE" createStatus createPart s

/-- The command has a partition for its target and no arguments. -/
def plainArgs (s : State) : Bool := decide (mbTgt s < 8) && mbArg0 s == 0 && mbArg1 s == 0

/-- The status of DESTROY (R158). -/
def destroyStatus (s : State) : Nat :=
  let p := mbTgt s
  if !plainArgs s then 1
  else if (List.range 32).any (qEn s p) || (gangsOfPart s p).any (fun g => decide (g.st ≤ 1)) then 3 else 0

/-- The effect of DESTROY: nothing of the partition stays. -/
def destroyPart (s : State) : State :=
  let p := mbTgt s
  let s1 := dropNodeRuns p s
  let s2 : State := { s1 with gangs := s1.gangs.filter (fun g => g.part.toNat != p), recs := s1.recs.filter (fun r => r.part.toNat != p),
                              parts := mset s1.parts p { Part.init with epoch := (getPart s p).epoch, kept := (getPart s p).kept } }
  clearRoots p (mgSet (mgSet s2 0 (oPartCfg p) 0) 0 (oPartRs p) 0)

/-- DESTROY: R158. -/
def execDestroy (s : State) : Res := command 2 "DESTROY" destroyStatus destroyPart s

/-- The status of FENCE (R158). -/
def fenceStatus (s : State) : Nat :=
  let k := mbTgt s
  if k = 0 ∨ ¬ plainArgs s then 1 else dieBusy s k
where
  dieBusy (s : State) (k : Nat) : Nat :=
    if (List.range 8).any (fun p => mgF s 0 (oPartCfg p) 19 2 != 0 && partDies s p / 2 ^ k % 2 == 1) then 3 else 0

/-- FENCE: R158. -/
def execFence (s : State) : Res := command 5 "FENCE" fenceStatus (fun t => fenceCompute (mbTgt t) t) s

/-- MAILBOX_UNLISTED_COMMAND: BADARG, without effect (R158). -/
def execMailboxUnlistedCommand (s : State) : Res :=
  gate (mbReady s && (mbCmd s == 0 || decide (7 < mbCmd s))) "MAILBOX_UNLISTED_COMMAND" (endCommand 1) s

/-! ## Swapping (R158, R201, R203) -/

/-- A gang that is placed and has not started gives its contexts back; its node is eligible again. -/
def unplace (g : Gang) (s : State) : State :=
  let s1 := modRec g.rcd (setNodeSt g.node 1) { s with gangs := s.gangs.filter (fun q => q.id != g.id) }
  g.xs.foldl (fun t x => setX t x Ctx.init) s1

/-- A gang halts for a swap or a repair. -/
def stopGang (why : Nat) (s : State) (g : Gang) : State :=
  if g.st = 0 then unplace g s else if g.st = 1 ∧ g.halt = 0 then haltGang why g s else s

/-- The contexts that the gangs of a partition hold on a core. -/
def partHeld (s : State) (p k : Nat) : Nat :=
  (gangsOfPart s p).foldl (fun n g => if g.st = 1 then n + (g.live.filter (fun i => coreOf (g.xs.getD i 0) == k)).length else n) 0

/-- The shadow slots of core k in use (R203). -/
def shadowUsed (s : State) (k : Nat) : Nat := s.parts.foldl (fun n p => n + (p.2.saved.filter (fun v => coreOf v.1 == k)).length) 0

/-- The status of SWAPOUT (R158, R203). -/
def swapOutStatus (s : State) : Nat :=
  if !plainArgs s then 1
  else if partState s (mbTgt s) ≠ 1 then 3
  else if s.cores.any (fun c => decide (8 < shadowUsed s c.1 + partHeld s (mbTgt s) c.1)) then 2 else 0

/-- SWAPOUT: every context of the partition halts (R158, R201); a gang that already halts is saved first. -/
def execSwapout (s : State) : Res :=
  let p := mbTgt s
  gate (mbReady s && mbCmd s == 3 && !(gangsOfPart s p).any (fun g => g.halt != 0)) "SWAPOUT" (fun t =>
    if swapOutStatus t ≠ 0 then endCommand (swapOutStatus t) t
    else
      let t1 := (gangsOfPart t p).foldl (stopGang 3) t
      modPart { t1 with mgmt := { t1.mgmt with cmdOpen := true } } p (fun u => { u with swapping := 1 })) s

/-- A context is saved to its core's shadow storage and freed; its span and its tiles stay its own (R203). -/
def shadowSave (s : State) (x : Nat) : State :=
  let p := (getX s x).part
  let s1 := syncPart (coreOf x) p s
  let c := keptCtx s1 x
  setX (dropStaged x (modPart s1 p.toNat (fun t => { t with saved := t.saved ++ [(x, c)] }))) x Ctx.init

/-- Every task of a gang is saved. -/
def shadowGang (s : State) (g : Gang) : State :=
  modGang g.id (fun q => { q with st := 3, halt := 0, release := none }) ((g.live.map (fun i => g.xs.getD i 0)).foldl shadowSave s)

/-- SWAPOUT_SAVE_END (a: partition): R203. -/
def execSwapoutSaveEnd (s : State) : Res :=
  let p := s.arg.a
  let l := (gangsOfPart s p).filter (fun g => g.halt == 3)
  gate ((getPart s p).swapping == 1 && l.all (gangQuiet s)) "SWAPOUT_SAVE_END" (fun t =>
    let t1 := modPart (l.foldl shadowGang t) p (fun u => { u with swapping := 0 })
    endCommand 0 (setPartState p 2 t1)) s

/-- The status of SWAPIN (R158, R203). -/
def swapInStatus (s : State) : Nat :=
  if !plainArgs s then 1
  else if partState s (mbTgt s) ≠ 2 then 3
  else if (getPart s (mbTgt s)).saved.any (fun v => ctxHeld s v.1) then 2 else 0

/-- SWAPIN: the saved contexts take their places again (R158, R203). -/
def execSwapin (s : State) : Res :=
  let p := mbTgt s
  gate (mbReady s && mbCmd s == 4) "SWAPIN" (fun t =>
    if swapInStatus t ≠ 0 then endCommand (swapInStatus t) t
    else
      let t1 := (getPart t p).saved.foldl (fun u v => setX u v.1 { restoredCtx u v.2 with halted := true }) t
      modPart { t1 with mgmt := { t1.mgmt with cmdOpen := true } } p (fun u => { u with swapping := 2 })) s

/-- SWAPIN_RESTORE_END (a: partition): the contexts run on, and their ports attach (R203, R222). -/
def execSwapinRestoreEnd (s : State) : Res :=
  let p := s.arg.a
  gate ((getPart s p).swapping == 2) "SWAPIN_RESTORE_END" (fun t =>
    let back := (getPart t p).saved
    let t1 := (gangsOfPart t p).foldl (fun u g => if g.st = 3 then modGang g.id (fun q => { q with st := 1 }) u else u) t
    let t2 := setPartState p 1 (modPart t1 p (fun u => { u with swapping := 0, saved := [] }))
    let run (u : State) (v : Nat × Ctx) : State :=
      modX u v.1 (fun c => { c with halted := false, pri := partPri u p c.rset, readyAt := u.cyc + 1 })
    endCommand 0 (attachAll (back.map (·.1)) (back.foldl run t2))) s

/-! ## Repair (R35, R161, R162) -/

/-- The gangs with a live context on core k. -/
def gangsOnCore (s : State) (k : Nat) : List Gang :=
  s.gangs.filter (fun g => decide (g.st ≤ 1) && g.live.any (fun i => coreOf (g.xs.getD i 0) == k))

/-- A repair begins: every gang with a context on the core halts (R161, step 1). -/
def beginRepair (k why : Nat) (s : State) : State :=
  (gangsOnCore s k).foldl (stopGang 2) { s with mgmt := { s.mgmt with repairs := s.mgmt.repairs ++ [(k, why)] } }

/-- The repair's second part may run: the core's gangs are ready to be saved, and no work of a node is on its way. -/
def repairReady (s : State) (k : Nat) : Bool :=
  (gangsOnCore s k).all (fun g => g.halt == 2 && gangQuiet s g) && (getC s k).wbs.isEmpty && (getC s k).runs.all (fun r => r.out.isEmpty)

/-- A gang's images are written to memory (R161, step 2). -/
def saveForRepair (s : State) (g : Gang) : State := match saveTasks g g.live s with | some t => t | none => killGang 4 cPEND g s

/-- The spare takes the core's number, cleared (R161, step 3). -/
def takeSpare (k site : Nat) (s : State) : State :=
  let c := getC s k
  let cl := k / 16
  let s1 := modC { s with free := s.free + 1 } k (fun _ =>
    { Core.init with active := true, site := BitVec.ofNat 5 site, ts := tsForget ⟨[], [], []⟩ 0 0x400000 s.free, limit := c.limit, eff := c.eff,
                     nar := c.nar, runs := c.runs, acc := tab 8 (fun t => (t, { AccTile.init with epoch := some s.free })) })
  { s1 with mgmt := { s1.mgmt with spare := mdel s1.mgmt.spare cl } }

/-- The gangs saved for a repair return: to their contexts, or without a spare to the front of their queues (R161, R203). -/
def afterRepair (spare : Bool) (s : State) (gid : Nat) : State :=
  match findGang s gid with
  | none => s
  | some g =>
    if spare then restoreGang { g with halt := 0 } (tab g.tasks (fun i => (i, g.xs.getD i 0))) (modGang gid (fun q => { q with halt := 0 }) s)
    else
      let t := modGang gid (fun q => { q with st := 2, halt := 0, release := none }) s
      { t with gangs := (t.gangs.filter (fun q => q.id != gid)) ++ (t.gangs.filter (fun q => q.id == gid)) }

/-- The core is removed (R161); the work of a node on it fails. -/
def removeCore (k : Nat) (s : State) : State :=
  let s1 := (getC s k).runs.foldl (fun t r => match r.node with | some q => nodeDone q.1 q.2 1 t | none => t) s
  { s1 with cores := mdel s1.cores k }

/-- The dirty lines of a core's data cache reach their homes. -/
def syncCore (k : Nat) (s : State) : State := (List.range 8).foldl (fun t p => syncPart k (BitVec.ofNat 3 p) t) s

/-- The repair ends: images, spare, report (R161, R162). -/
def finishRepair (k why : Nat) (s : State) : State :=
  let gs := gangsOnCore s k
  let old := (getC s k).site.toNat
  let sp := mfind s.mgmt.spare (k / 16)
  let s1 := gs.foldl saveForRepair (syncCore k s)
  let s2 := match sp with | some site => takeSpare k site s1 | none => removeCore k s1
  let s3 := (gs.map (·.id)).foldl (afterRepair sp.isSome) { s2 with mgmt := { s2.mgmt with repairs := s2.mgmt.repairs.filter (fun r => r.1 != k) } }
  let log := dieOf k + clusterOf k * 2 ^ 3 + coreNum k * 2 ^ 5 + old * 2 ^ 9 + sp.getD 31 * 2 ^ 14 + why * 2 ^ 19
  let s4 := bbxLog (mgSet s3 0 oRepLog (BitVec.ofNat 64 log)) 0x04 (dieOf k) 0 0xFF (17 * clusterOf k + old) 0
  let s5 := settleInval (setHint (setLimits (setConfig s4)) hintRepair)
  if why = 2 then endCommand (if sp.isSome then 0 else 5) s5 else s5

/-- More than 64 corrected errors have arisen in the core within the present 2^20-cycle step (R161). -/
def errorRate (s : State) (k : Nat) : Bool := (getC s k).corr.1 == coreCyc s / 1048576 && decide (64 < (getC s k).corr.2)

/-- An uncorrectable error in a core's logic or its shadow storage is logged (R40, R161). -/
def logCoreError (k : Nat) (s : State) : State := bbxLog s 0x06 (dieOf k) 0 0xFF (epUnit (coreEp s k)) 0

/-- CORE_REPAIR (a: core, b: WHY, 0 an uncorrectable error, which comes from outside, or 1 the corrected-error rate): a core's contexts are
pre-empted; or, once they are halted, the core is replaced or removed (R161). -/
def execCoreRepair (s : State) : Res :=
  let k := s.arg.a
  match s.mgmt.repairs.find? (fun r => r.1 = k) with
  | some r => gate (repairReady s k) "CORE_REPAIR" (finishRepair k r.2) s
  | none =>
    if s.arg.b = 0 then gate (getC s k).active "CORE_REPAIR" (fun t => beginRepair k 0 (logCoreError k t)) s
    else gate ((getC s k).active && s.arg.b == 1 && errorRate s k) "CORE_REPAIR" (beginRepair k 1) s

/-- The core that RETIRE names. -/
def retireCore (s : State) : Nat := 64 * mbTgt s + 16 * bitsN (mbArg0 s) 0 2 + bitsN (mbArg0 s) 2 4

/-- The status of RETIRE before it begins (R158). -/
def retireStatus (s : State) : Nat :=
  if 8 ≤ mbTgt s || bitsN (mbArg0 s) 6 58 != 0 || mbArg1 s != 0 || !dieOk s (mbTgt s) || !(getC s (retireCore s)).active then 1 else 0

/-- RETIRE: R158, R161. -/
def execRetire (s : State) : Res :=
  gate (mbReady s && mbCmd s == 7 && !s.mgmt.repairs.any (fun r => r.1 == retireCore s)) "RETIRE" (fun t =>
    if retireStatus t ≠ 0 then endCommand (retireStatus t) t
    else beginRepair (retireCore t) 2 { t with mgmt := { t.mgmt with cmdOpen := true } }) s

/-! ## Firmware updates (R160) -/

/-- FWUPD's arguments are in range: the image is a range of populated PAs, at most the 2^30 bytes that R25 allows an image (R158). -/
def updateArgs (s : State) : Bool :=
  let a := (mbArg0 s).toNat
  let n := (mbArg1 s).toNat
  decide (mbTgt s < 8) && decide (a < 2 ^ 48) && decide (n ≤ 2 ^ 30) && decide (1 ≤ n) && populatedRange s a n

/-- The image that FWUPD names passes the checks of R24 and R25 on die k. -/
def updateOk (s : State) (k : Nat) : Bool :=
  let a := (mbArg0 s).toNat
  let n := (mbArg1 s).toNat
  let l (i : Nat) : Byte := memByte s.mem (a + i)
  decide (256 ≤ n) && headerOk l
  && [(imBodyOff l, imBodyLen l), (imKeyOff l, 57), (imSigOff l, 114)].all (fun r => decide (r.1 + r.2 ≤ n)) && imageSigned l && keyOk k l

/-- The status of FWUPD: BADARG, BUSY as for FENCE, or AUTH (R158, R160). -/
def fwupdStatus (s : State) : Nat :=
  let k := mbTgt s
  if !updateArgs s then 1
  else if fenceStatus.dieBusy s k ≠ 0 then 3
  else if !dieOk s k || !updateOk s k then 4 else 0

/-- FWUPD: the image is checked, and the controllers restart from it (R160). -/
def execFwupd (s : State) : Res :=
  command 6 "FWUPD" fwupdStatus (fun t =>
    let k := mbTgt t
    bbxLog { t with mgmt := { t.mgmt with fw := k :: t.mgmt.fw } } 0x0B k 0 0xFF 0 0) s

/-- PART.RS is written (R154). -/
def writeRs (p : Nat) (v : BitVec 64) (s : State) : State := mgSet s 0 (oPartRs p) (v &&& 0xFF#64)

/-- C0 fails: the whole device stops and keeps its black-box records (R28). -/
def stopDevice (s : State) : State := { s with boot := { s.boot with stopped := true } }

/-- FWUPD_END (a: die, ok: the re-authentication holds): FWDONE, or the die is fenced (R160). -/
def execFwupdEnd (s : State) : Res :=
  let k := s.arg.a
  gate (s.mgmt.fw.contains k) "FWUPD_END" (fun t =>
    let t1 : State := { t with mgmt := { t.mgmt with fw := t.mgmt.fw.filter (· != k) } }
    let t2 := setHint (bbxLog t1 0x0B k 0 0xFF 0 0) hintFwDone
    if t.arg.ok then
      if k = 0 then
        setLimits (t2.mgmt.heldRs.foldl (fun u e => writeRs e.1 e.2 u) { t2 with mgmt := { t2.mgmt with heldRs := [] } })
      else t2
    else
      let t3 := bbxLogC0 t2 0x02 k 0 0xFF 0 0
      if k = 0 then stopDevice t3 else fenceCompute k t3) s

/-- PART_RS_WRITE (a: partition, b: value): it waits while C0 updates (R154, R160). -/
def execPartRsWrite (s : State) : Res :=
  let p := s.arg.a
  gate (decide (p < 8)) "PART_RS_WRITE" (fun t =>
    let v := BitVec.ofNat 64 t.arg.b
    if t.mgmt.fw.contains 0 then { t with mgmt := { t.mgmt with heldRs := t.mgmt.heldRs ++ [(p, v)] } } else writeRs p v t) s

/-- The partition's contexts on core k whose priority is not the one that PART.RS gives. -/
def stalePri (s : State) (p k : Nat) : List Nat :=
  (tasksOn s k).filter (fun x => (getX s x).part.toNat == p && (getX s x).pri != partPri s p (getX s x).rset)

/-- PRIORITY_CHANGE (a: partition, b: core): the core's contexts of the partition change priority at one cycle boundary (R187). -/
def execPriorityChange (s : State) : Res :=
  let p := s.arg.a
  let k := s.arg.b
  gate (partState s p == 1 && !(stalePri s p k).isEmpty) "PRIORITY_CHANGE" (fun t =>
    (stalePri t p k).foldl (fun u x => modX u x (fun c => { c with pri := partPri t p c.rset })) t) s

/-! ## Failures in service (R28, R32, R42) -/

/-- MEMORY_DIE_FAILURE (a: memory die, pairs: the lines that read uncorrectable): logged, and the lines are poisoned; the map stays, and the
die leaves it at the next cold boot (R32, R131). -/
def execMemoryDieFailure (s : State) : Res :=
  let m := s.arg.a
  gate (memOk s m) "MEMORY_DIE_FAILURE" (fun t =>
    let mine := (t.arg.pairs.map (·.1)).filter (fun l => !isTier2 (64 * l) && homeMem t (64 * l) == m)
    let t1 := bbxLog t 0x06 (8 + m) 0 0xFF 0 (BitVec.ofNat 128 (64 * mine.headD 0))
    { t1 with poison := mine.foldl (fun q l => if q.contains l then q else l :: q) t1.poison,
              boot := { t1.boot with badTest := if t1.boot.badTest.contains (8 + m) then t1.boot.badTest else (8 + m) :: t1.boot.badTest } }) s

/-- BLACK_BOX_ENTRY_READ (a: die, b: index; `ok` false: the entry has become uncorrectable): the host reads an entry's 32 bytes; an
uncorrectable one reads as 0xFF bytes and sets ECCERR (R42); while the die updates its firmware it reads as zero (R160). -/
def execBlackBoxEntryRead (s : State) : Res :=
  let d := s.arg.a
  let i := s.arg.b
  gate (dieOk s d && decide (i < 32768)) "BLACK_BOX_ENTRY_READ" (fun t =>
    let bad := !t.arg.ok || t.badBbx.contains (d, i)
    if t.mgmt.fw.contains d then { t with hostOut := t.hostOut ++ [List.replicate 32 0] }
    else if bad then
      let t1 := mgSetF t d oBbx 48 1 1
      { t1 with badBbx := if t1.badBbx.contains (d, i) then t1.badBbx else (d, i) :: t1.badBbx, hostOut := t1.hostOut ++ [List.replicate 32 0xFF] }
    else { t with hostOut := t.hostOut ++ [leBytes 32 (mget 0 t.bbx (d * 32768 + i)).toNat] }) s

/-- C0_SERVICE_FAILURE: R28. -/
def execC0ServiceFailure (s : State) : Res := gate (s.boot.step == 8) "C0_SERVICE_FAILURE" stopDevice s

/-! ## Registers that the host writes (R6, R149) -/

/-- The RW fields of a register that has no behaviour of its own, as a mask: bits from, number of bits. -/
def rwFields (die off : Nat) : List (Nat × Nat) :=
  let sub := off - oPool 0
  if oThresh 0 ≤ off ∧ off ≤ oThresh 7 then [(0, 16)]
  else if off = oSluSel then [(0, 16)]
  else if off = oCpCtl then [(0, 4), (8, 8), (16, 7)]
  else if oPlim 0 ≤ off ∧ off ≤ oPlim 7 then [(0, 10)]
  else if off = oPlcCtl then [(0, 40)]
  else if oPool 0 ≤ off ∧ off ≤ oPool 9 + 8 then (if sub % 16 = 0 then [(6, 42), (48, 4)] else [(0, 32)])
  else if off = oPlcRet ∨ off = oPlcLost then [(6, 42), (48, 4)]
  else if off = oPlcRet + 8 ∨ off = oPlcLost + 8 then [(32, 32)]
  else if die ≠ 0 then []
  else if off = oHintMask then [(0, 13)]
  else if oRoot 0 ≤ off ∧ off ≤ oRoot 7 then [(16, 33)]
  else if oThr 0 ≤ off ∧ off ≤ oThr 7 then [(12, 36)]
  else if oHvec 0 ≤ off ∧ off ≤ oHvec 7 then [(2, 50)]
  else if off = oPodCtl then [(0, 12)]
  else if oPodPart 0 ≤ off ∧ off ≤ oPodPart 7 then [(0, 17)]
  else if oPodRoute 0 ≤ off ∧ off ≤ oPodRoute 255 then [(0, 32)]
  else []

/-- A word with fields taken from another. -/
def takeFields (old v : BitVec 64) (l : List (Nat × Nat)) : BitVec 64 := l.foldl (fun w f => setBits w f.1 f.2 (bitsN v f.1 f.2)) old

/-- The W1C fields of a register that has no behaviour of its own. -/
def w1cFields (die off : Nat) : List (Nat × Nat) :=
  if off = oBbx then [(48, 1)]
  else if off = oPlcAbort then [(7, 1)]
  else if die ≠ 0 then []
  else if off = oHint then [(0, 13)]
  else if off = oPodViol then [(57, 1)]
  else []

/-- Ones written to W1C fields clear their bits. -/
def clearFields (old v : BitVec 64) (l : List (Nat × Nat)) : BitVec 64 :=
  l.foldl (fun w f => w &&& ~~~(BitVec.ofNat 64 (bitsN v f.1 f.2 * 2 ^ f.1))) old

/-- MB.CMD: while GO = 1 nothing is written; GO is held back behind the host's earlier writes (R150, R157). -/
def writeMbCmd (v : BitVec 64) (s : State) : State :=
  if mgF s 0 oMbCmd 16 1 = 1 then s
  else
    let s1 := mgSet s 0 oMbCmd (takeFields (mgGet s 0 oMbCmd) v [(0, 17)])
    if bit v 16 then releaseHost { s1 with mgmt := { s1.mgmt with heldGo := true } } else s1

/-- MMU.INV: likewise (R150, R174). -/
def writeInv (v : BitVec 64) (s : State) : State :=
  if mgF s 0 oInv 4 1 = 1 then s
  else
    let s1 := mgSet s 0 oInv (takeFields (mgGet s 0 oInv) v [(0, 5), (8, 24)])
    if bit v 4 then releaseHost { s1 with mgmt := { s1.mgmt with heldInv := true } } else s1

/-- POD.ID: when it changes while flows are in use, what becomes of the packets in flight is open (R115). -/
def writePodId (v : BitVec 64) (s : State) : State :=
  let w := takeFields (mgGet s 0 oPodId) v [(0, 9)]
  let s1 := mgSet s 0 oPodId w
  if w = mgGet s 0 oPodId ∨ podFlows s = 0 then s1
  else
    let keep (f : PodSend) : PodSend := { f with held := f.held.filter (fun h => Config.podFate (s.free + 65536 * f.src.toNat + h.seq.toNat)) }
    { s1 with podSend := s1.podSend.map keep, free := s1.free + 2 ^ 32 }

/-- The outcome of an event's meaning, or the state when it does not arise. -/
def orKeep (s : State) : Res → State
  | .next t => t
  | _ => s

/-- An event with an argument of its own. -/
def withArg (a : EvArg) (f : State → Res) (s : State) : State := orKeep s (f { s with arg := a })

/-- A launch queue's registers (R155, R156). -/
def writeQueue (p q part : Nat) (v : BitVec 64) (s : State) : State :=
  if part = 0 then
    let s1 := if qEn s p q then s else mgSet s 0 (oQueue p q) (takeFields (mgGet s 0 (oQueue p q)) v [(6, 46)])
    withArg { EvArg.of2 p q with ok := bit v 52 } execQueueEnableWrite s1
  else if part = 1 then withArg (EvArg.of3 p q v.toNat) execQueueTlWrite s
  else if part = 3 ∧ bit v 4 then withArg (EvArg.of2 p q) execQueueStopWrite s
  else s

/-- A registration's registers (R107). -/
def writeReg (p i part : Nat) (v : BitVec 64) (s : State) : State :=
  let free := (regOf s p i).st == 0
  if part = 0 ∧ free then mgSet s 0 (oReg p i) (takeFields 0 v [(12, 36)])
  else if part = 1 ∧ free then mgSet s 0 (oReg p i + 8) (takeFields 0 v [(0, 51)])
  else if part = 2 then withArg (EvArg.of3 p i (bitsN v 0 2)) execRegistrationStateWrite s
  else s

/-- An RMA queue's registers (R112). -/
def writeRma (p q part : Nat) (v : BitVec 64) (s : State) : State :=
  if part = 0 then mgSet s 0 (oRma p q) (takeFields 0 v [(6, 42), (48, 4)])
  else if part = 1 then withArg (EvArg.of3 p q (bitsN v 0 32)) execRmaTailWrite s
  else if part = 3 then
    let s1 := if bit v 2 then withArg (EvArg.of2 p q) execRmaErrstopWrite s else s
    withArg { EvArg.of2 p q with ok := bit v 3 } execRmaEnableWrite s1
  else s

/-- A register of a die's window is written (R149). -/
def writeRegister (die off : Nat) (v : BitVec 64) (s : State) : State :=
  if oLink 0 ≤ off ∧ off ≤ oLink 6 then
    (if bit v 50 then mgSetF (mgSetF s die off 0 32 0) die off 32 16 0 else s)
  else if die = 0 ∧ off = oPower then writePower v s
  else if die = 0 ∧ off = oMbCmd then writeMbCmd v s
  else if die = 0 ∧ (off = oMbArg0 ∨ off = oMbArg1) then (if mgF s 0 oMbCmd 16 1 = 1 then s else mgSet s 0 off v)
  else if die = 0 ∧ off = oInv then writeInv v s
  else if die = 0 ∧ off = oInv + 8 then (if mgF s 0 oInv 4 1 = 1 then s else mgSet s 0 off (takeFields 0 v [(0, 36)]))
  else if die = 0 ∧ oPartRs 0 ≤ off ∧ off ≤ oPartRs 7 then withArg (EvArg.of2 ((off - oPartRs 0) / 8) v.toNat) execPartRsWrite s
  else if die = 0 ∧ off = oPodId then writePodId v s
  else if die = 0 ∧ oPodLink 0 ≤ off ∧ off ≤ oPodLink 15 then (if bit v 48 then mgSetF s 0 off 16 32 0 else s)
  else if die = 0 ∧ oQueue 0 0 ≤ off ∧ off < oQueue 8 0 then
    (let o := off - oQueue 0 0; writeQueue (o / 0x400) (o % 0x400 / 32) (o % 32 / 8) v s)
  else if die = 0 ∧ oReg 0 0 ≤ off ∧ off < oReg 8 0 then
    (let o := off - oReg 0 0; writeReg (o / 0x2000) (o % 0x2000 / 32) (o % 32 / 8) v s)
  else if die = 0 ∧ oRma 0 0 ≤ off ∧ off < oRma 8 0 then
    (let o := off - oRma 0 0; writeRma (o / 0x800) (o % 0x800 / 32) (o % 32 / 8) v s)
  else
    let old := mgGet s die off
    let new := clearFields (takeFields old v (rwFields die off)) v (w1cFields die off)
    if new = old then s else hintEdge s (mgSet s die off new)

/-- A write reaches the register: aligned, 8 bytes, on a healthy die that does not update its firmware; PART.RS waits instead
(R149, R160). -/
def writeTaken (s : State) (die off size : Nat) : Bool :=
  off % 8 == 0 && size == 8 && dieOk s die
  && (!s.mgmt.fw.contains die || off == oBbx || (die == 0 && decide (oPartRs 0 ≤ off) && decide (off ≤ oPartRs 7)))

/-- REGISTER_WRITE (a: offset in the control aperture, b: bytes, c: value): R6, R148, R149. -/
def execRegisterWrite (s : State) : Res :=
  let die := s.arg.a / 2 ^ 24
  let off := s.arg.a % 2 ^ 24
  gate (decide (2 ≤ s.boot.step)) "REGISTER_WRITE" (fun t =>
    if writeTaken t die off t.arg.b then writeRegister die off (BitVec.ofNat 64 t.arg.c) t else t) s

/-- PKG_POWER_WRITE (a: value): R19. -/
def execPkgPowerWrite (s : State) : Res :=
  gate (decide (2 ≤ s.boot.step)) "PKG_POWER_WRITE" (fun t => if t.mgmt.fw.contains 0 then t else writePower (BitVec.ofNat 64 t.arg.a) t) s

/-- The calendar as 8-byte words of a window (R79). -/
def calendarWord (s : State) (die o : Nat) : BitVec 64 :=
  BitVec.ofNat 64 ((tab 4 (fun i => let n := o / 2 + i; (calEntry s die (n / 128) (n % 128)).toNat * 2 ^ (16 * i))).foldl (· + ·) 0)

/-- SLU.DATA: the meter entry that SLU.SEL names (R61). -/
def sluiceWord (s : State) (die part : Nat) : BitVec 64 :=
  let r := mgF s die oSluSel 0 7
  let port := mgF s die oSluSel 7 3
  let sl := mget Sluice.init s.sluices (sluiceKey die (r % 9) (r / 9) port)
  let m := meterOf sl (mgF s die oSluSel 10 6)
  if part = 0 then BitVec.ofNat 64 (m.src.toNat + m.dst.toNat * 2 ^ 16 + m.label.toNat * 2 ^ 32 + m.st * 2 ^ 48)
  else BitVec.ofNat 64 (m.count + sl.miss * 2 ^ 32)

/-- LOGN below 4 reads as 4 (R112, R144). -/
def readLogn (v : BitVec 64) : BitVec 64 := setBits v 48 4 (max 4 (bitsN v 48 4))

/-- What the host reads of a register of a window (R149). -/
def readRegister (s : State) (die off : Nat) : BitVec 64 :=
  if off = oMillPos then millPos s
  else if off = oSluData then sluiceWord s die 0
  else if off = oSluData + 8 then sluiceWord s die 1
  else if oCal ≤ off ∧ off < oCal + 1792 then calendarWord s die (off - oCal)
  else if oBbxEntry ≤ off ∧ off < oBbxEntry + 0x100000 then
    (if s.badBbx.contains (die, (off - oBbxEntry) / 32) then BitVec.allOnes 64
     else bits (mget 0 s.bbx (die * 32768 + (off - oBbxEntry) / 32)) (64 * (off % 32 / 8)) 64)
  else if die = 0 ∧ off = oPodCtl then setBits (mgGet s 0 oPodCtl) 16 13 (podFlows s)
  else if (oPool 0 ≤ off ∧ off ≤ oPool 9 ∧ off % 16 = 0) ∨ off = oPlcRet ∨ off = oPlcLost then readLogn (mgGet s die off)
  else if die = 0 ∧ oRma 0 0 ≤ off ∧ off < oRma 8 0 ∧ off % 32 = 0 then readLogn (mgGet s die off)
  else mgGet s die off

/-- A host read of a window, and the state after it: all ones when it is unaligned, not 8 bytes, or of a fenced die; zero while the die
updates (R149, R160); a read of an uncorrectable black-box entry sets ECCERR (R42). -/
def hostRead (s : State) (a size : Nat) : BitVec 64 × State :=
  let die := a / 2 ^ 24
  let off := a % 2 ^ 24
  if off % 8 ≠ 0 ∨ size ≠ 8 ∨ ¬ dieOk s die then (BitVec.allOnes 64, s)
  else if s.mgmt.fw.contains die ∧ off ≠ oBbx then (0, s)
  else
    let lost := decide (oBbxEntry ≤ off) && decide (off < oBbxEntry + 0x100000) && s.badBbx.contains (die, (off - oBbxEntry) / 32)
    (readRegister s die off, if lost then mgSetF s die oBbx 48 1 1 else s)

end Sys2Proof.Machine
end

