-- ==== Sys2Proof/Machine/Boot.lean ====
section
/-!
DEFINITION. The start of life (R17, R23-R31, R34, R118-R121, R147): the boot steps, cold and warm reset; power and temperature
(R19-R21).
-/

namespace Sys2Proof.Machine

open Sys2Proof

/-! ## What boot finds (R24-R31, R34) -/

/-- A byte of the boot image as C0's security controller holds it. -/
def bootByte (s : State) (a : Nat) : Byte := imageAt s 0 a

/-- The range of the image that C0 asks for next: at most 64 bytes, one request at a time, the header, the body, the key, the signature in
that order (R25; log entry 70, DESIGN CHOICE). -/
def wantedPiece (s : State) : Option (Nat × Nat) :=
  match s.boot.want with
  | [] => none
  | (o, n) :: _ => some (o, min 64 n)

/-- C0's security controller asks for the next piece: a read request to the UCIe boundary whose ADDR is the offset in the image (R25). -/
def askPiece (s : State) : State :=
  match wantedPiece s with
  | none => s
  | some (o, n) => sendPkt { s with nextId := s.nextId + 1 } (mkPkt 0 0 0 (securityEp 0) ucieEp (newTag s) o [] (.read n))

/-- What remains to be fetched after a piece has arrived. -/
def afterPiece : List (Nat × Nat) → List (Nat × Nat)
  | [] => []
  | (o, n) :: l => if n ≤ 64 then l else (o + 64, n - 64) :: l

/-- A die fails authentication: its image's check (R24), or both tries of step 4 (R27). -/
def authFails (s : State) (code : Nat) : Bool := s.boot.badImage.contains code || decide (2 ≤ mget 0 s.boot.authTries code)

/-- A die fails self-test, or its stack or the Filash die its training (R23, step 5). -/
def testFails (s : State) (code : Nat) : Bool := s.boot.badTest.contains code || (code == 16 && !s.boot.filashOk)

/-- The sites of a cluster that pass self-test, ascending (R34). -/
def passing (s : State) (cl : Nat) : List Nat := (List.range 17).filter (fun i => !s.boot.badSites.contains (17 * cl + i))

/-- A core as it comes up at a site: its tile store and tiles undefined (R137, R199). -/
def bootCore (free site : Nat) : Core :=
  { Core.init with active := true, site := BitVec.ofNat 5 site, ts := tsForget ⟨[], [], []⟩ 0 0x400000 free,
                   acc := tab 8 (fun t => (t, { AccTile.init with epoch := some free })) }

/-- The cores of a cluster: the first 16 passing sites, in order (R34). -/
def clusterBoot (s : State) (cl : Nat) : Map Core :=
  let l := (passing s cl).take 16
  tab l.length (fun i => (16 * cl + i, bootCore s.free (l.getD i 0)))

/-- The clusters of healthy dies, numbered die × 4 + cluster. -/
def bootClusters (s : State) : List Nat := ((List.range 8).filter (dieOk s)).flatMap (fun k => tab 4 (fun c => 4 * k + c))

/-- Cores and spares are numbered (R34). -/
def bootSites (s : State) : State :=
  let spares := (bootClusters s).filterMap (fun cl => ((passing s cl)[16]?).map (fun i => (cl, i)))
  { s with cores := (bootClusters s).flatMap (clusterBoot s), mgmt := { s.mgmt with spare := spares }, free := s.free + 1 }

/-- A site that fails self-test is disabled, and logged (R34, R40). -/
def logSites (s : State) : State :=
  (bootClusters s).foldl (fun t cl => ((List.range 17).filter (fun i => t.boot.badSites.contains (17 * cl + i))).foldl
    (fun u i => bbxLog u 0x04 (cl / 4) 0 0xFF (17 * (cl % 4) + i) 0) t) s

/-- The dies that step 6 fences beside those already fenced (R29), with the links that did not train down. -/
def bootFences (s : State) : State :=
  let bad := (List.range 17).filter (fun d => !isFenced s d && (authFails s d || testFails s d))
  let add (t : State) (l : List Nat) : State := { t with mgmt := { t.mgmt with fenced := t.mgmt.fenced ++ l } }
  let s1 := add { s with mgmt := { s.mgmt with down := s.boot.badLinks } } bad
  let s2 := add s1 ((List.range 8).filter (fun k => dieOk s1 k && !(reach s1 8 [0]).contains k))
  let s3 := add s2 (((List.range 8).filter (fun k => memOk s2 k && !dieOk s2 k && !dieOk s2 ((k + 1) % 8))).map (· + 8))
  ((List.range 17).filter (fun d => isFenced s3 d && !isFenced s d)).foldl (fun t d => bbxLog t 0x03 d 0 0xFF 0 0) s3

/-- The granules of the hashed window, taken in ascending order while the home die has a frame left of its F; `n` bounds the
count (R121). -/
def countGranules (homes : List Nat) (f : Nat) : Nat → Nat → Map Nat → Nat
  | 0, g, _ => g
  | n + 1, g, m =>
    let h := hashPick homes (h32 g)
    let c := mget 0 m h
    if f ≤ c then g else countGranules homes f n (g + 1) (mset m h (c + 1))

/-- PKG.MEM.G (R121); with no healthy memory die there is none. -/
def bootGranules (s : State) : Nat :=
  if s.mgmt.homes.isEmpty then 0 else countGranules s.mgmt.homes (1048064 - 16384 * s.boot.placed) 8388608 0 []

/-- The frame table of a memory die says where granule g lies: rank(g), the granules before it that have the same home (R121). -/
def granuleRank (homes : List Nat) (g : Nat) : Nat :=
  ((List.range g).filter (fun h => hashPick homes (h32 h) == hashPick homes (h32 g))).length

/-- The memory die and the frame of 64 KiB of its stack that hold a first-tier address (R121).  The map takes different addresses to different places,
so the model keeps memory by PA. -/
def frameOf (s : State) (pa : Nat) : Nat × Nat :=
  if pa < 0x8000000000 then (homeMem s pa, granuleRank s.mgmt.homes (pa / 65536))
  else (homeMem s pa, 1048064 - 16384 * s.boot.placed + (pa - 0x8000000000) % 0x1000000000 / 65536)

/-! ## Progress of boot (R23) -/

/-- A boot step is logged (R40). -/
def stepDone (n : Nat) (s : State) : State := bbxLog s 0x01 0 0 0xFF 0 (BitVec.ofNat 128 n)

def setStep (n : Nat) (s : State) : State := { s with boot := { s.boot with step := n } }

/-- The device does not boot (R28). -/
def bootStop (s : State) : State := stopDevice (bbxLog s 0x02 0 0 0xFF 0 0)

/-- BOOTFAIL on module 0: the host is told the code and the step, and the device waits for a cold reset (R24, R26, R153). -/
def bootFail (code : Nat) (s : State) : State :=
  let m := BitVec.ofNat 64 (2 + code * 2 ^ 16 + s.boot.step * 2 ^ 24)
  stopDevice { bbxLog s 0x02 0 code 0xFF 0 0 with side := s.side ++ [(0, m)] }

/-- Pod link n has trained: it carries traffic, with the delay measured, a free value (R116; log entry 71, DESIGN CHOICE). -/
def podTrained (s : State) (n : Nat) : State :=
  if s.boot.badPods.contains n || !dieOk s (n / 2) || isFenced s 16 then s
  else mgSetF (mgSetF s 0 (oPodLink n) 0 1 1) 0 (oPodLink n) 1 15 (Config.podDelay n).toNat

/-- Step 8: PKG.CONFIG and PKG.MEM are published, the limits set, the host interrupted (R23, R26, R36, R119). -/
def bootReady (s : State) : State :=
  let fil := if isFenced s 16 then 0 else 1
  let s1 := setConfig (mgSetF (setStep 8 s) 0 oConfig 16 1 fil)
  let mem := s1.boot.placed + bootGranules s1 * 2 ^ 8 + (s1.boot.t2size - 1) * 2 ^ 32
  let s2 := mgSet s1 0 oMem (BitVec.ofNat 64 mem)
  let s3 := if s2.boot.plimit = 0 then s2 else mgSetF s2 0 oPower 0 13 (clampPower s2.boot.plimit)
  let s4 := ((List.range 8).filter (dieOk s3)).foldl (fun t k => mgSetF t k oFact 0 16 (Config.powerFactor k).toNat) s3
  setHint (stepDone 8 (setLimits ((List.range 16).foldl podTrained s4))) hintReady

/-- Step 7: the cicada starts (R17). -/
def bootClock (s : State) : State := bootReady (stepDone 7 { setStep 7 s with running := true, cicada := 0, sub := 0 })

/-- Step 6 ends when the host's second tier is known; `t2size` holds its GiB plus one (R153). -/
def bootMapped (s : State) : State := if s.boot.t2size = 0 then s else bootClock (stepDone 6 s)

/-- The configuration block is as R26 states. -/
def configOk (l : Nat → Byte) : Bool :=
  let o := imCfgOff l
  imageNum l o 4 == 1 && decide (imageNum l (o + 4) 1 ≤ 32) && imageNum l (o + 5) 3 == 0 && decide (imageNum l (o + 10) 2 ≤ 1000)
  && imageNum l (o + 12) 52 == 0

/-- T2WAIT in cycles of 940 MHz (R26). -/
def waitCycles (l : Nat → Byte) : Nat :=
  let ms := imageNum l (imCfgOff l + 10) 2
  940000 * (if ms = 0 then 100 else ms)

/-- Step 6: the configuration block, the fences, the map (R23, R26, R29, R31, R34, R147). -/
def bootMap (s0 : State) : State :=
  let s := setStep 6 s0
  let l := bootByte s
  let o := imCfgOff l
  if !configOk l then bootFail 3 s
  else
    let s1 := bootFences s
    if isFenced s1 0 then bootStop s1
    else
      let mods := (List.range 8).filter (fun k => dieOk s1 k && !s1.boot.badModules.contains k)
      let s3 : State := { s1 with
        mgmt := { s1.mgmt with homes := (List.range 8).filter (memOk s1), modules := mods }
        boot := { s1.boot with placed := imageNum l (o + 4) 1, plimit := imageNum l (o + 8) 2, t2wait := waitCycles l } }
      let s4 := logSites (bootSites s3)
      bootMapped (if s4.boot.t2size = 0 then addTimer s4 s4.boot.t2wait .t2waitExpiry EvArg.zero else s4)

/-- Step 5 finds what it finds; C0's own failure ends boot (R23, R28). -/
def bootTest (s : State) : State :=
  let t := setStep 5 s
  if testFails t 0 then bootStop t else bootMap (stepDone 5 t)

/-- What the next try of a die's authentication finds: 0 both checks hold, 1 one fails, 2 no answer (R27; log entry 9, DESIGN CHOICE). -/
def tryFinds (s : State) (d : Nat) : Nat := mget 0 s.boot.auth (2 * d + mget 0 s.boot.authTries d)

/-- The die that C0 authenticates with next: in turn, those that are up, have not passed and may still be tried (R27). -/
def tryDie (s : State) : Option Nat :=
  (tab 16 (· + 1)).find? (fun d => !isFenced s d && !authFails s d && tryFinds s d != 0)

/-- A try has failed; after the second the failure is logged, in C0's record (R27, R37, R40). -/
def tryFailed (d : Nat) (s : State) : State :=
  let n := mget 0 s.boot.authTries d + 1
  let t : State := { s with boot := { s.boot with authTries := mset s.boot.authTries d n } }
  if n < 2 then t else bbxLogC0 t 0x02 d 0 0xFF 0 0

/-- 100 ms in cycles. -/
def authWait : Nat := 94000000

/-- Step 4: dies in turn, at most n tries; one that does not answer is waited for (R27). -/
def authTurns : Nat → State → State
  | 0, s => s
  | n + 1, s =>
    match tryDie s with
    | none => bootTest (stepDone 4 s)
    | some d => if tryFinds s d = 2 then addTimer s authWait .authenticationTimeout (EvArg.of d) else authTurns n (tryFailed d s)

/-- Step 4: C0 and each other die authenticate each other (R27). -/
def bootAuth (s : State) : State := authTurns 33 s

/-- Step 3: C0 forwards the image to every other compute die, its key and signature last (R24). -/
def bootFirmware (s : State) : State :=
  let l := bootByte s
  let parts := [(0, 256), (imBodyOff l, imBodyLen l), (imKeyOff l, 57), (imSigOff l, 114)]
  { setStep 3 s with boot := { (setStep 3 s).boot with fwd := ((List.range 8).filter (fun k => k != 0 && dieOk s k)).map (fun k => (k, parts)) } }

/-- The next packet of the image to compute die k: engine data of at most 288 bytes, with the offset as its address (R24, R44). -/
def forwardPiece (s : State) (k : Nat) : State :=
  match mget [] s.boot.fwd k with
  | [] => s
  | (o, n) :: l =>
    let rest := if n ≤ 288 then l else (o + 288, n - 288) :: l
    sendPkt { s with boot := { s.boot with fwd := mset s.boot.fwd k rest } }
      (mkPkt 6 0 0 (securityEp 0) (securityEp k) 0 o (imageBytes (bootByte s) o (min 288 n)) .image)

/-- A cycle of step 3: a packet to each die; when every die has checked the image step 4 begins (R23, R24). -/
def bootTick (s : State) : State :=
  if s.boot.step ≠ 3 ∨ s.boot.stopped then s
  else if s.boot.fwd.isEmpty then bootAuth (setStep 4 (stepDone 3 s))
  else (s.boot.fwd.map (·.1)).foldl forwardPiece s

/-- Step 2 with the whole image: C0 verifies it (R24). -/
def bootRoot (s : State) : State :=
  let l := bootByte s
  if !imageSigned l then bootFail 1 s
  else if !keyOk 0 l then bootFail 2 s
  else bootFirmware (stepDone 2 s)

/-- The header has arrived: the rest of the image is asked for, or the header is refused (R25). -/
def bootHeader (s : State) : State :=
  let l := bootByte s
  if !headerOk l then bootFail 1 s
  else askPiece { s with boot := { s.boot with want := [(imBodyOff l, imBodyLen l), (imKeyOff l, 57), (imSigOff l, 114)] } }

/-- A piece of the image has arrived at C0: the next is asked for, or the header or the whole is checked (R24, R25). -/
def imagePiece (o : Nat) (l : List Byte) (s : State) : State :=
  let t0 := storePiece 0 o l s
  let t : State := { t0 with boot := { t0.boot with want := afterPiece t0.boot.want } }
  if !t.boot.want.isEmpty then askPiece t else if o < 256 then bootHeader t else bootRoot t

/-- BOOT_IMAGE_READ_RESPONSE (a: offset, data: bytes): the host answers the request of C0's security controller that stands at the UCIe
boundary; and without arguments the answer's arrival there (R25). -/
def execBootImageReadResponse (s : State) : Res :=
  match rxHead s (securityEp 0) with
  | some p => gate (s.boot.step == 2 && !s.boot.stopped && p.kind == 1) "BOOT_IMAGE_READ_RESPONSE"
      (fun t => imagePiece p.addr.toNat p.data (rxTake t (securityEp 0))) s
  | none =>
    match rxHead s ucieEp with
    | some p => gate (p.src == securityEp 0 && p.kind == 0 && p.addr.toNat == s.arg.a && readLen p == s.arg.data.length)
        "BOOT_IMAGE_READ_RESPONSE" (fun t => sendPkt (rxTake t ucieEp) (answer p 1 t.arg.data .none)) s
    | none => gate false "BOOT_IMAGE_READ_RESPONSE" id s

/-- AUTHENTICATION_TIMEOUT (a: die): tried once more, then given up (R27). -/
def execAuthenticationTimeout (s : State) : Res :=
  let d := s.arg.a
  gate (s.boot.step == 4 && !s.boot.stopped && tryDie s == some d && tryFinds s d == 2) "AUTHENTICATION_TIMEOUT"
    (fun t => bootAuth (tryFailed d t)) s

/-- T2SIZE (a: the payload): the host's second tier in GiB; more than 4,096 counts as 4,096, a message of another TYPE is ignored, and so is one
that comes after step 6 (R153). -/
def execT2size (s : State) : Res :=
  gate (decide (1 ≤ s.boot.step) && !s.boot.stopped) "T2SIZE" (fun t =>
    let v := BitVec.ofNat 64 t.arg.a
    if bitsN v 0 8 ≠ 3 ∨ 6 < t.boot.step then t
    else
      let t1 : State := { t with boot := { t.boot with t2size := min 4096 (bitsN v 16 13) + 1 } }
      if t1.boot.step = 6 then bootMapped t1 else t1) s

/-- T2WAIT_EXPIRY: the host has not answered, and the second tier is unpopulated (R26, R153). -/
def execT2waitExpiry (s : State) : Res :=
  gate (s.boot.step == 6 && !s.boot.stopped && s.boot.t2size == 0) "T2WAIT_EXPIRY" (fun t =>
    bootMapped { t with boot := { t.boot with t2size := 1 } }) s

/-! ## Reset -/

/-- Step 0 of a cold reset: nothing is left but the physical facts of boot (log entry 9, DESIGN CHOICE). -/
def coldState (s : State) : State :=
  { State.reset with boot := { Boot.init with
      auth := s.boot.auth, badTest := s.boot.badTest, badSites := s.boot.badSites, badModules := s.boot.badModules,
      badLinks := s.boot.badLinks, badPods := s.boot.badPods, filashOk := s.boot.filashOk } }

/-- COLD_BOOT: step 1 holds every die in reset; without module 0 the device does not boot; step 2 asks for the image's header
(R23, R25, R38). -/
def execColdBoot (s : State) : Res :=
  gate true "COLD_BOOT" (fun t =>
    let t1 := setStep 1 (coldState t)
    if t1.boot.badModules.contains 0 then bootStop t1
    else
      let t2 := setStep 2 (stepDone 1 t1)
      askPiece { t2 with boot := { t2.boot with want := [(0, 256)] } }) s

/-- A register that a warm reset leaves whole: what boot fixed until the next cold boot, the black box's, the link counts (R38, R67, R116,
R119, R243). -/
def keptRegister (die off : Nat) : Bool :=
  off == oBbx || off == oFact || (decide (oLink 0 ≤ off) && decide (off ≤ oLink 6))
  || (die == 0 && (off == oConfig || off == oMem || (decide (oPodLink 0 ≤ off) && decide (off ≤ oPodLink 15))))

/-- The registers after a warm reset; the counts since cold boot of POD.VIOL and PLC.ABORT go on (R110, R181). -/
def warmRegisters (s : State) : Map DWord :=
  let s0 : State := { State.reset with mg := s.mg.filter (fun e => keptRegister (e.1 / 2 ^ 21) (e.1 % 2 ^ 21 * 8)) }
  let s1 := mgSetF s0 0 (oPodViol + 8) 16 32 (mgF s 0 (oPodViol + 8) 16 32)
  let s2 := (List.range 8).foldl (fun t k => mgSetF t k oPlcAbort 48 16 (mgF s k oPlcAbort 48 16)) s1
  (if s.boot.plimit = 0 then s2 else mgSetF s2 0 oPower 0 13 (clampPower s.boot.plimit)).mg

/-- A core after a warm reset keeps its site and its count of limiter freezes (R34, R250). -/
def warmCore (free : Nat) (c : Nat × Core) : Nat × Core :=
  (c.1, { bootCore free c.2.site.toNat with active := c.2.active, pfrz := c.2.pfrz })

/-- WARM_RESET: the cicada, the black-box records and their pointers stay (R17, R38), and so do memory and what boot has fixed; all else
is as at reset (log entry 10, DEDUCED). -/
def execWarmReset (s : State) : Res :=
  gate (s.boot.step == 8 && !s.boot.stopped) "WARM_RESET" (fun t =>
    let m := { Mgmt.init with fenced := t.mgmt.fenced, down := t.mgmt.down, portErrs := t.mgmt.portErrs, spare := t.mgmt.spare, modules := t.mgmt.modules, homes := t.mgmt.homes }
    setLimits { State.reset with
      boot := t.boot, mgmt := m, running := t.running, cicada := t.cicada, sub := t.sub, cyc := t.cyc, free := t.free + 1,
      mg := warmRegisters t, mem := t.mem, ver := t.ver, poison := t.poison, cores := t.cores.map (warmCore t.free),
      nextId := t.nextId, bbx := t.bbx, badBbx := t.badBbx, side := t.side, hostOut := t.hostOut }) s

/-! ## Power and temperature (R19-R22) -/

/-- The alarm changes state: PKG.POWER, an interrupt, an entry (R20, R151). -/
def setAlarm (on : Bool) (s : State) : State :=
  setHint (bbxLog (mgSetF s 0 oPower 29 1 (if on then 1 else 0)) 0x09 0 0 0xFF 0 (if on then 1 else 0)) hintPAlarm

/-- Samples to the millisecond, and samples in 10 ms: one each 100 µs (R20). -/
def perMs : Nat := 10
def calmSamples : Nat := 100

/-- The new sample's sums and the alarm's conditions (R20): watts of the package, highest temperature. -/
def takeSamplePower (watts temp : Nat) (s : State) : State :=
  let means := (watts :: s.mgmt.means).take perMs
  let sum := means.foldl (· + ·) 0
  let n := means.length
  let limit := mgF s 0 oPower 0 13
  let calm := if sum * 100 < 95 * limit * n ∧ temp < 100 then s.mgmt.calm + 1 else 0
  let s1 := mgSetF (mgSetF { s with mgmt := { s.mgmt with means := means, calm := calm } } 0 oPower 16 13 (min 8191 (sum / n))) 0 oPower 32 8 (min 255 temp)
  let on := mgF s 0 oPower 29 1 == 1
  if s1.mgmt.fw.contains 0 then s1
  else if !on && (decide (limit * n < sum) || decide (105 ≤ temp)) then setAlarm true s1
  else if on && decide (calmSamples ≤ calm) then setAlarm false s1
  else s1

/-- POWER_SAMPLE (pairs: watts and junction temperature of each die, by die code): R20. -/
def execPowerSample (s : State) : Res :=
  gate (s.boot.step == 8 && !s.boot.stopped) "POWER_SAMPLE" (fun t =>
    let dies := (List.range 17).filter (fun d => !isFenced t d)
    let watts := (t.arg.pairs.map (·.1)).foldl (· + ·) 0
    takeSamplePower watts (dies.foldl (fun m d => max m (t.arg.pairs.getD d (0, 0)).2) 0) t) s

/-- A die is fenced before the map is built: it stops at once, and boot goes on without it (R21, R23). -/
def tripInBoot (d : Nat) (s : State) : State :=
  let waited := s.boot.step == 4 && tryDie s == some d
  let s1 : State := { s with
    mgmt := { s.mgmt with fenced := d :: s.mgmt.fenced }, boot := { s.boot with fwd := mdel s.boot.fwd d },
    net := s.net.filter (fun f => !onDie d f.loc), rx := s.rx.filter (fun p => epDie p.dst != d) }
  let s2 := bbxLog s1 0x03 d 0 0xFF 0 0
  if waited then bootAuth s2 else s2

/-- THERMAL_TRIP (a: die): the die is fenced, logged in C0's record, TRIP set, the host interrupted; C0's trip stops the device (R21, R37). -/
def execThermalTrip (s : State) : Res :=
  let d := s.arg.a
  gate (decide (2 ≤ s.boot.step) && !s.boot.stopped && decide (d < 17) && !isFenced s d) "THERMAL_TRIP" (fun t =>
    let t1 := setHint (mgSetF (bbxLogC0 t 0x0A d 0 0xFF 0 0) 0 oPower 30 1 1) hintTrip
    if d = 0 then stopDevice t1
    else if t1.boot.step < 6 then tripInBoot d t1
    else if d < 8 then fenceCompute d t1 else fenceOther d t1) s

end Sys2Proof.Machine
end

