-- ==== Sys2Proof/Machine/Mill.lean ====
section
/-!
DEFINITION. The mill (R75-R78, R82-R85): sail boundaries, grains and their delivery, relays; and the end of a link's retraining
(R54, R69, R99).
-/

namespace Sys2Proof.Machine

open Sys2Proof

/-! ## Sail boundaries (R85, R88) -/

/-- Sails from the current one to the next occurrence of a sail, 1 to 7. -/
def sailsTo (now sail : Nat) : Nat := (sail + 6 - now) % 7 + 1

/-- The open grains of the next direct sail carry this many bytes. -/
def directCapacity (s : State) (i j : Nat) : Nat := 32768 * (openGrains s i (directSail i j)).length

/-- The packets of a departure queue ahead of a flow's first one, all of them when it has none there (R85; log entry 20, DEDUCED). -/
def aheadOf (fid : Nat) (l : List PondItem) : List PondItem :=
  (l.filter isPktItem).takeWhile (fun i => match i with | .pkt g _ _ => g != fid | _ => true)

/-- A flow from die i to die j moves to the relay path through the partner of the sail that begins (R85, R88). -/
def relayNow (s : State) (f : Promo) : Option Nat :=
  let i := epDie f.src
  let j := epDie f.dst
  let n := sailIndex s
  let m := partner i n
  if bit (mgGet s i oCpCtl) (8 + f.part.toNat)
      && decide (directCapacity s i j < queueBytes (aheadOf f.fid ((mget [] (getPond s i).dep j).filter (fun x => dueBy s (itemDue x)))))
      && dieOk s m && m != j && decide (sailsTo n (directSail m j) < sailsTo n (directSail i j))
      && relayRoom s m && relayRoom s j then some m else none

/-- What a sail boundary decides for a promoted flow (R85, R88). -/
def sailFlow (f0 : Promo) (s : State) : State :=
  match s.promos.find? (fun f => f.fid = f0.fid) with
  | none => s
  | some f =>
    let i := epDie f.src
    let j := epDie f.dst
    if !crosses f || f.probing then s
    else if !f.live then (if f.change.isNone then goLive f.fid s else s)
    else if f.change.isSome then s
    else
      match f.relay with
      | none =>
        (match relayNow s f with
        | some m => sendMarkers f.fid 2 m false (relayTake j f.fid (relayTake m f.fid s))
        | none => s)
      | some m =>
        if (mget [] (getPond s i).dep j).isEmpty && relayRoom s j then
          sendMarkers f.fid 3 m false (relayTake j f.fid s)
        else s

/-- SAIL_BOUNDARY: R75, R85, R88. -/
def execSailBoundary (s : State) : Res :=
  gate (s.running && coreCyc s % 1128 == 0) "SAIL_BOUNDARY" (fun t => t.promos.foldl (fun u f => sailFlow f u) t) s

/-! ## Grains (R78, R83, R84) -/

/-- A circuit's own beats in a departure queue, in order, into n bytes, and the items that stay; an END beat takes no data bytes (R83, R92). -/
def takeBeats (cid : Nat) : Nat → List PondItem → List PondItem × List PondItem
  | _, [] => ([], [])
  | n, i :: l =>
    match i with
    | .beat c b =>
      if c = cid then
        if 4 * b.ws.length ≤ n then let r := takeBeats cid (n - 4 * b.ws.length) l; (i :: r.1, r.2) else ([], i :: l)
      else let r := takeBeats cid n l; (r.1, i :: r.2)
    | .pkt _ _ _ => let r := takeBeats cid n l; (r.1, i :: r.2)

/-- The bytes that a flow may still send through its relay die before a report of space (R85). -/
def relayLeft (s : State) (m : Nat) (used : Nat → Nat) (fid : Nat) (final : Nat) : Nat :=
  match s.promos.find? (fun f => f.fid = fid) with
  | some f => if final = m then 1073741824 else 1048576 - (f.relayed + used fid)
  | none => 1073741824

/-- The final die of a promoted flow's packet. -/
def pktDie (p : Pkt) : Nat := epDie p.dst

/-- Whole packets, in order, into a grain with n bytes left; a flow that waits for space in its relay holds back its own packets
(R83-R85). -/
def takePkts (s : State) (m : Nat) : Nat → List Nat → (Nat → Nat) → List PondItem → List PondItem × List PondItem
  | _, _, _, [] => ([], [])
  | n, stuck, used, i :: l =>
    match i with
    | .pkt fid p _ =>
      let b := flitBytes p
      if stuck.contains fid || decide (relayLeft s m used fid (pktDie p) < b) then
        let r := takePkts s m n (fid :: stuck) used l; (r.1, i :: r.2)
      else if b ≤ n then
        let r := takePkts s m (n - b) stuck (fun g => if g = fid ∧ pktDie p ≠ m then used g + b else used g) l
        (i :: r.1, r.2)
      else ([], i :: l)
    | _ => let r := takePkts s m n stuck used l; (r.1, i :: r.2)

/-- The relay queue's packets for a die, in order, into a grain with n bytes left (R84). -/
def takeRelay (m : Nat) : Nat → List (Nat × PondItem) → List PondItem × List (Nat × PondItem)
  | _, [] => ([], [])
  | n, (d, i) :: l =>
    if d = m then
      if itemBytes i ≤ n then let r := takeRelay m (n - itemBytes i) l; (i :: r.1, r.2) else ([], (d, i) :: l)
    else let r := takeRelay m n l; (r.1, (d, i) :: r.2)

/-- What a grain of die i carries of what has reached the millpond, and the millpond after: an open one the relay queue's packets for its partner, and only when none of
them is left m's own (R83, R84). -/
def grainTake (s : State) (i g : Nat) : List PondItem × Pond :=
  let sail := sailIndex s
  let m := partner i sail
  let p := getPond s i
  let there := (mget [] p.dep m).takeWhile (fun x => dueBy s (itemDue x))
  let coming := (mget [] p.dep m).dropWhile (fun x => dueBy s (itemDue x))
  if !(dieOk s i && dieOk s m && filashOk s) then ([], p)
  else if calEntry s i sail g == 0 then
    let a := takeRelay m 32768 p.relay
    let b := if a.2.any (fun e => e.1 == m) then ([], there) else takePkts s m (32768 - queueBytes a.1) [] (fun _ => 0) there
    (a.1 ++ b.1, { p with relay := a.2, dep := mset p.dep m (b.2 ++ coming) })
  else
    match s.circuits.find? (fun c => c.grains.contains (calKey i sail g) && decide (c.usable ≤ sailNumber s) && decide (2 ≤ c.stage)) with
    | some c => let a := takeBeats c.cid 32768 there; (a.1, { p with dep := mset p.dep m (a.2 ++ coming) })
    | none => ([], p)

/-- An item leaves die i in a grain to die m.  A packet of a flow that leaves its relay die is reported, and one that goes through a relay
die counts against its space (R85); behind a circuit's END beat its grains are open again (R80). -/
def grainItem (i m : Nat) (s : State) (it : PondItem) : State :=
  match it with
  | .pkt fid p _ =>
    let b := flitBytes p
    if epDie p.src = i then
      (if pktDie p = m then s else modPromo fid (fun f => { f with relayed := f.relayed + b }) s)
    else sendPkt s (mkPkt 8 2 p.part (hubEp i (epCluster p.src)) (hubEp (epDie p.src) (epCluster p.src)) 0 0 [] (.relaySpace fid b))
  | .beat c b =>
    match findCircuit s c with
    | some q => if b.last then reopenGrains q s else s
    | none => s

/-- The payload bytes of a grain. -/
def grainBytes (l : List PondItem) : List Byte := l.flatMap (fun i => match i with | .beat _ b => bytesOfWords b.ws | .pkt _ p _ => packetBytes p)

/-- GRAIN (a: die, b: grain): at its first cycle the grain takes what is wholly in the queue, with a CRC-32C over it; it reaches the partner's
millpond 16 cycles after its last cycle (R75, R78, R83). -/
def execGrain (s : State) : Res :=
  let i := s.arg.a
  let g := s.arg.b
  let r := grainTake s i g
  let m := partner i (sailIndex s)
  gate (s.running && decide (i < 8) && decide (g < 128) && sailOffset s == 10 + 8 * g && !r.1.isEmpty
      && !s.grains.any (fun l => l.source == i && l.arrive == s.cyc + 23)) "GRAIN" (fun t =>
    let t1 := modPond i (fun _ => r.2) t
    let t2 : State := { t1 with grains := t1.grains ++ [⟨i, m, t1.cyc + 23, r.1, crc32c (grainBytes r.1)⟩] }
    r.1.foldl (grainItem i m) t2) s

/-- An item of a good grain in the millpond of die m: to its circuit's or its flow's receiving lane, whose first beat leaves at once, or to the relay
queue (R68, R70). -/
def landItem (m : Nat) (s : State) (it : PondItem) : State :=
  match it with
  | .beat c b => modCircuit s c (fun q => if q.report.isSome then q else ontoLaneFar (beatTime (pathHops m q.lanes) true) b s q)
  | .pkt fid p _ =>
    if pktDie p = m then
      modPromo fid (fun f => if f.lanes.isEmpty then f else ontoFar (2 * s.cyc + beatTime (pathHops m f.lanes) true + packetBeats p - 1) p f) s
    else modPond m (fun q => { q with relay := q.relay ++ [(pktDie p, it)] }) s

/-- The circuits whose data a grain carries. -/
def itemCircuits (l : List PondItem) : List Nat :=
  (l.filterMap (fun i => match i with | .beat c _ => some c | .pkt _ _ _ => none)).eraseDups

/-- The check of a grain as it is received, some bits at its start inverted (R78). -/
def grainGood (l : GrainLoad) (flips : BitVec 256) : Bool :=
  flips == 0 || crc32c ((grainBytes l.items).zipWith (· ^^^ ·) (leBytes 32 flips.toNat ++ tab (grainBytes l.items).length (fun _ => 0))) == l.crc

/-- GRAIN_DELIVERY (a: die; bits: which of the grain's first bits arrive inverted): R78. -/
def execGrainDelivery (s : State) : Res :=
  let m := s.arg.a
  match s.grains.find? (fun l => l.dest = m && decide (l.arrive ≤ s.cyc)) with
  | some l => gate true "GRAIN_DELIVERY" (fun t =>
      let t1 : State := { t with grains := dropFirst (fun q => q = l) t.grains }
      if grainGood l t.arg.bits then l.items.foldl (landItem m) t1
      else (itemCircuits l.items).foldl (fun u c => collapse c ckLINK false u) t1) s
  | none => gate false "GRAIN_DELIVERY" id s

/-- Data of a flow that goes through die m still waits in its own die's departure queue for m. -/
def relayWaits (s : State) (f : Promo) (m : Nat) : Bool :=
  (mget [] (getPond s (epDie f.src)).dep m).any (fun i => match i with | .pkt g p _ => g == f.fid && pktDie p != m | _ => false)

/-- RELAY_SPACE_REPORT (a: promoted flow): its relay die has forwarded data; once it is back on the direct path and its last relayed
data has left the relay die, the reservation is released (R85). -/
def execRelaySpaceReport (s : State) : Res :=
  let fid := s.arg.a
  match s.rx.find? (fun p => match p.msg with | .relaySpace f _ => f == fid | _ => false) with
  | none => gate false "RELAY_SPACE_REPORT" id s
  | some p => gate (rxHead s p.dst == some p) "RELAY_SPACE_REPORT" (fun t =>
      let n := match p.msg with | .relaySpace _ b => b | _ => 0
      let t1 := modPromo fid (fun f => { f with relayed := f.relayed - n }) (rxTake t p.dst)
      match t1.promos.find? (fun f => f.fid = fid) with
      | some f => if f.relay.isNone && f.relayed == 0 && !relayWaits t1 f (epDie p.src) then relayDrop (epDie p.src) fid t1 else t1
      | none => relayDrop (epDie p.src) fid t1) s

/-! ## Links (R54, R69, R99) -/

/-- A circuit crosses a die's mill port. -/
def usesMill (k : Nat) (q : Circuit) : Bool :=
  let i := dieOf (coreOf q.x)
  let j := dieOf (coreOf q.dx)
  i != j && (i == k || j == k)

/-- A mill port that fails ends the circuits across it, and promoted flows across it fall back (R78, R87, R92). -/
def millPortDown (k : Nat) (s : State) : State :=
  let s1 := (s.circuits.filter (usesMill k)).foldl (fun t q => collapse q.cid ckLINK false t) s
  (s1.promos.filter (fun f => crosses f && (epDie f.src == k || epDie f.dst == k))).foldl (fun t f => fallback f.fid true t) s1

/-- The flits on a link, both ways, are lost with its replay buffers (R54). -/
def dropWire (k n : Nat) (s : State) : State :=
  let e := across k n
  let gone := [Loc.wire (linkKey k n), Loc.wire (linkKey e.1 e.2)]
  { s with net := s.net.filter (fun f => !gone.contains f.loc) }

/-- The compute dies' ends of a link or port, one for the Filash and UCIe ports. -/
def linkEnds (k n : Nat) : List (Nat × Nat) := (if n ≤ 4 then [(k, n), across k n] else [(k, n)]).filter (fun e => e.1 < 8)

/-- A die-to-die link or port is marked down: DOWN at its ends, an interrupt, and the flits in its replay buffers are discarded
(R54, R151). -/
def linkDown (k n : Nat) (s : State) : State :=
  let s1 := (linkEnds k n).foldl (fun t e => mgSetF { t with mgmt := { t.mgmt with down := linkKey e.1 e.2 :: t.mgmt.down } } e.1 (oLink e.2) 48 1 1) s
  let s2 := setHint (if n ≤ 4 then dropWire k n s1 else s1) hintLinkDn
  if n = 5 then millPortDown k s2 else s2

/-- A link's retraining is over at both its ends (R54, R67). -/
def linkTrained (k n : Nat) (s : State) : State :=
  let ends := linkEnds k n
  ends.foldl (fun t e => mgSetF t e.1 (oLink e.2) 49 1 0)
    { s with mgmt := { s.mgmt with retrain := s.mgmt.retrain.filter (fun q => !(ends.map (fun e => linkKey e.1 e.2)).contains q) } }

/-- A mesh link is marked down: what holds or waits for one of its lanes loses it: program circuits collapse, promoted ones fall back, a
probe's open or promotion fails (R60, R69, R87, R92). -/
def meshDown (k r out : Nat) (s : State) : State :=
  let keys := tab 4 (laneKey k r out)
  let held := keys.map (fun q => mget 0 s.lanes q)
  let s1 : State := { s with mgmt := { s.mgmt with down := meshLink k r out :: s.mgmt.down },
                             probes := s.probes.map (fun p => if p.claim.any (keys.contains ·) then { p with claim := none } else p) }
  let s2 := (s1.circuits.filter (fun q => held.contains (progVal q.cid))).foldl (fun t q => collapse q.cid ckLINK false t) s1
  (s2.promos.filter (fun f => held.contains (promoVal f.fid))).foldl (fun t f => fallback f.fid true t) s2

/-- LINK_RETRAIN_END (a: die, or 16 for a pod link; b: gateway or pod link, or 8 + 4 × router + output for a mesh link; `ok`): the retraining of
a link ends; a mesh link, a mill port or a UCIe module, which have no replay, only fail (R54, R69, R78, R99, R147). -/
def execLinkRetrainEnd (s : State) : Res :=
  let k := s.arg.a
  let n := s.arg.b
  if k < 8 ∧ 8 ≤ n then
    gate (dieOk s k && decide (n < 296) && !s.arg.ok) "LINK_RETRAIN_END" (meshDown k ((n - 8) / 4) ((n - 8) % 4)) s
  else if k < 8 ∧ 5 ≤ n then gate (dieOk s k && decide (n < 7) && !s.arg.ok) "LINK_RETRAIN_END" (linkDown k n) s
  else
    gate (s.mgmt.retrain.contains (linkKey k n)) "LINK_RETRAIN_END" (fun t =>
      if k = 16 then
        let t1 : State := { t with mgmt := { t.mgmt with retrain := dropFirst (· == linkKey k n) t.mgmt.retrain } }
        if t.arg.ok then t1 else setHint (mgSetF { t1 with podPorts := mdel t1.podPorts n } 0 (oPodLink n) 0 1 0) hintLinkDn
      else if t.arg.ok then linkTrained k n t else linkDown k n (linkTrained k n t)) s

end Sys2Proof.Machine
end

