-- ==== Sys2Proof/Machine/Flags.lean ====
section
/-!
DEFINITION. Conditions of compares (R342) and the flags of the accumulator (R299).
-/

namespace Sys2Proof.Machine

open Sys2Proof

/-- The conditions of R342. -/
inductive Cond where
  | eq
  | ne
  | lt
  | le
  | lo
  | ls
deriving DecidableEq, Repr

/-- The condition holds of two 64-bit values: `lt` and `le` signed, `lo` and `ls` unsigned. -/
def Cond.holds (q : Cond) (a b : DWord) : Bool :=
  match q with
  | .eq => a == b
  | .ne => a != b
  | .lt => a.slt b
  | .le => a.sle b
  | .lo => a.ult b
  | .ls => a.ule b

end Sys2Proof.Machine
end

