-- ==== Sys2Proof/Machine/Scalar.lean ====
section
/-!
DEFINITION. Scalar arithmetic, logic, immediates, predicates and selection (R336-R344): one slot for each form.
-/

namespace Sys2Proof.Machine

open Sys2Proof

/-- A slot of the form sD := f(sA, sB) at latency L. -/
def binS (lat : Nat) (d a b : BitVec 5) (f : DWord → DWord → DWord) : Slot :=
  slotS d lat (fun c => f (readS c a) (readS c b))

/-- A slot of the form sD := f(sA) at latency 1. -/
def unS (d a : BitVec 5) (f : DWord → DWord) : Slot := slotS d 1 (fun c => f (readS c a))

/-- The full product of R338, bits 127:64: signed. -/
def mulhS (a b : DWord) : DWord := (BitVec.signExtend 128 a * BitVec.signExtend 128 b).extractLsb' 64 64
/-- The full product of R338, bits 127:64: unsigned. -/
def mulhU (a b : DWord) : DWord := (BitVec.zeroExtend 128 a * BitVec.zeroExtend 128 b).extractLsb' 64 64

/-- The signed quotient and remainder of R339. -/
def divS (a b : DWord) : DWord := if b = 0 then 0 else BitVec.ofInt 64 (a.toInt.tdiv b.toInt)
def remS (a b : DWord) : DWord := if b = 0 then a else BitVec.ofInt 64 (a.toInt - a.toInt.tdiv b.toInt * b.toInt)
/-- The unsigned quotient and remainder of R339. -/
def divU (a b : DWord) : DWord := if b = 0 then 0 else BitVec.ofNat 64 (a.toNat / b.toNat)
def remU (a b : DWord) : DWord := if b = 0 then a else BitVec.ofNat 64 (a.toNat % b.toNat)

/-- The divide family: the divider is held for 18 cycles from the issue cycle, whichever context holds it (R235, R338). -/
def slotDivider (d a b : BitVec 5) (f : DWord → DWord → DWord) : Slot := fun _ s =>
  let k := coreOf s.cur
  if s.cyc < (getC s k).div then .hold 1 id
  else .go (fun t => retS d 18 (f (readS (getX s s.cur) a) (readS (getX s s.cur) b)) (modC t k (fun c => { c with div := s.cyc + 18 })))

/-- Leading zero bits, from bit n − 1 down. -/
def leadZeros (a : DWord) : Nat → Nat
  | 0 => 0
  | n + 1 => if a.getLsbD n then 0 else leadZeros a n + 1
/-- Trailing zero bits among bits i to i + n − 1. -/
def trailZeros (a : DWord) : Nat → Nat → Nat
  | 0, _ => 0
  | n + 1, i => if a.getLsbD i then 0 else trailZeros a n (i + 1) + 1
/-- One bits among the n low bits. -/
def countOnes (a : DWord) : Nat → Nat
  | 0 => 0
  | n + 1 => countOnes a n + (if a.getLsbD n then 1 else 0)

/-- The shift count b[5:0] (R338). -/
def shamt (b : DWord) : Nat := bitsN b 0 6

def slotNop : Slot := fun _ _ => .go id
def slotAdd (d a b : BitVec 5) : Slot := binS 1 d a b (· + ·)
def slotSub (d a b : BitVec 5) : Slot := binS 1 d a b (· - ·)
def slotMul (d a b : BitVec 5) : Slot := binS 3 d a b (· * ·)
def slotMulh (d a b : BitVec 5) : Slot := binS 3 d a b mulhS
def slotMulhz (d a b : BitVec 5) : Slot := binS 3 d a b mulhU
def slotDiv (d a b : BitVec 5) : Slot := slotDivider d a b divS
def slotDivz (d a b : BitVec 5) : Slot := slotDivider d a b divU
def slotRem (d a b : BitVec 5) : Slot := slotDivider d a b remS
def slotRemz (d a b : BitVec 5) : Slot := slotDivider d a b remU
def slotAnd (d a b : BitVec 5) : Slot := binS 1 d a b (· &&& ·)
def slotOr (d a b : BitVec 5) : Slot := binS 1 d a b (· ||| ·)
def slotXor (d a b : BitVec 5) : Slot := binS 1 d a b (· ^^^ ·)
def slotAndn (d a b : BitVec 5) : Slot := binS 1 d a b (fun x y => x &&& ~~~y)
def slotShl (d a b : BitVec 5) : Slot := binS 1 d a b (fun x y => x <<< shamt y)
def slotShr (d a b : BitVec 5) : Slot := binS 1 d a b (fun x y => x >>> shamt y)
def slotSar (d a b : BitVec 5) : Slot := binS 1 d a b (fun x y => x.sshiftRight (shamt y))
def slotRol (d a b : BitVec 5) : Slot := binS 1 d a b (fun x y => x.rotateLeft (shamt y))
def slotMin (d a b : BitVec 5) : Slot := binS 1 d a b (fun x y => if x.slt y then x else y)
def slotMax (d a b : BitVec 5) : Slot := binS 1 d a b (fun x y => if x.slt y then y else x)
def slotMinz (d a b : BitVec 5) : Slot := binS 1 d a b (fun x y => if x.ult y then x else y)
def slotMaxz (d a b : BitVec 5) : Slot := binS 1 d a b (fun x y => if x.ult y then y else x)
def slotClz (d a : BitVec 5) : Slot := unS d a (fun x => BitVec.ofNat 64 (leadZeros x 64))
def slotCtz (d a : BitVec 5) : Slot := unS d a (fun x => BitVec.ofNat 64 (trailZeros x 64 0))
def slotPopc (d a : BitVec 5) : Slot := unS d a (fun x => BitVec.ofNat 64 (countOnes x 64))
def slotExtB (d a : BitVec 5) : Slot := unS d a (fun x => BitVec.signExtend 64 (bits x 0 8))
def slotExtH (d a : BitVec 5) : Slot := unS d a (fun x => BitVec.signExtend 64 (bits x 0 16))
def slotExtW (d a : BitVec 5) : Slot := unS d a (fun x => BitVec.signExtend 64 (bits x 0 32))
def slotExtzB (d a : BitVec 5) : Slot := unS d a (fun x => BitVec.zeroExtend 64 (bits x 0 8))
def slotExtzH (d a : BitVec 5) : Slot := unS d a (fun x => BitVec.zeroExtend 64 (bits x 0 16))
def slotExtzW (d a : BitVec 5) : Slot := unS d a (fun x => BitVec.zeroExtend 64 (bits x 0 32))
def slotMov (d a : BitVec 5) : Slot := unS d a id

/-! ## Immediate forms (R340, R341) -/

def slotAddi (d a : BitVec 5) (i : BitVec 11) (x : Option (BitVec 28)) : Slot := unS d a (· + immOf i x)
def slotMuli (d a : BitVec 5) (i : BitVec 11) (x : Option (BitVec 28)) : Slot :=
  slotS d 3 (fun c => readS c a * immOf i x)
def slotAndi (d a : BitVec 5) (i : BitVec 11) (x : Option (BitVec 28)) : Slot := unS d a (· &&& immOf i x)
def slotOri (d a : BitVec 5) (i : BitVec 11) (x : Option (BitVec 28)) : Slot := unS d a (· ||| immOf i x)
def slotXori (d a : BitVec 5) (i : BitVec 11) (x : Option (BitVec 28)) : Slot := unS d a (· ^^^ immOf i x)
def slotShli (d a : BitVec 5) (i : BitVec 6) : Slot := unS d a (· <<< i.toNat)
def slotShri (d a : BitVec 5) (i : BitVec 6) : Slot := unS d a (· >>> i.toNat)
def slotSari (d a : BitVec 5) (i : BitVec 6) : Slot := unS d a (fun x => x.sshiftRight i.toNat)
def slotMovi (d : BitVec 5) (i : BitVec 16) (x : Option (BitVec 28)) : Slot := slotS d 1 (fun _ => immOf i x)
def slotMovh (d : BitVec 5) (i : BitVec 16) : Slot := slotS d 1 (fun c => i ++ bits (readS c d) 0 48)

/-! ## Compares, predicates, selection (R342-R344) -/

def slotCmp (q : Cond) (d : BitVec 4) (a b : BitVec 5) : Slot := slotP d 1 (fun c => q.holds (readS c a) (readS c b))
def slotCmpi (q : Cond) (d : BitVec 4) (a : BitVec 5) (i : BitVec 11) (x : Option (BitVec 28)) : Slot :=
  slotP d 1 (fun c => q.holds (readS c a) (immOf i x))

def slotCmpEq (d : BitVec 4) (a b : BitVec 5) : Slot := slotCmp .eq d a b
def slotCmpNe (d : BitVec 4) (a b : BitVec 5) : Slot := slotCmp .ne d a b
def slotCmpLt (d : BitVec 4) (a b : BitVec 5) : Slot := slotCmp .lt d a b
def slotCmpLe (d : BitVec 4) (a b : BitVec 5) : Slot := slotCmp .le d a b
def slotCmpLo (d : BitVec 4) (a b : BitVec 5) : Slot := slotCmp .lo d a b
def slotCmpLs (d : BitVec 4) (a b : BitVec 5) : Slot := slotCmp .ls d a b
def slotCmpiEq (d : BitVec 4) (a : BitVec 5) (i : BitVec 11) (x : Option (BitVec 28)) : Slot := slotCmpi .eq d a i x
def slotCmpiNe (d : BitVec 4) (a : BitVec 5) (i : BitVec 11) (x : Option (BitVec 28)) : Slot := slotCmpi .ne d a i x
def slotCmpiLt (d : BitVec 4) (a : BitVec 5) (i : BitVec 11) (x : Option (BitVec 28)) : Slot := slotCmpi .lt d a i x
def slotCmpiLe (d : BitVec 4) (a : BitVec 5) (i : BitVec 11) (x : Option (BitVec 28)) : Slot := slotCmpi .le d a i x
def slotCmpiLo (d : BitVec 4) (a : BitVec 5) (i : BitVec 11) (x : Option (BitVec 28)) : Slot := slotCmpi .lo d a i x
def slotCmpiLs (d : BitVec 4) (a : BitVec 5) (i : BitVec 11) (x : Option (BitVec 28)) : Slot := slotCmpi .ls d a i x

def slotPand (d a b : BitVec 4) : Slot := slotP d 1 (fun c => readP c a && readP c b)
def slotPor (d a b : BitVec 4) : Slot := slotP d 1 (fun c => readP c a || readP c b)
def slotPxor (d a b : BitVec 4) : Slot := slotP d 1 (fun c => readP c a != readP c b)
def slotPandn (d a b : BitVec 4) : Slot := slotP d 1 (fun c => readP c a && !readP c b)
def slotPnot (d a : BitVec 4) : Slot := slotP d 1 (fun c => !readP c a)
def slotSel (d a b g : BitVec 5) : Slot := slotS d 1 (fun c => if guardOn c g then readS c a else readS c b)

end Sys2Proof.Machine
end

