-- ==== Sys2Proof/Machine/Bundle.lean ====
section
/-!
DEFINITION. The slot of each instruction, for bundles of several slots (R304, R319), and the words that the instruction of a
bundle of its own takes.
-/

namespace Sys2Proof.Machine

open Sys2Proof

/-- The slot of an instruction; an event has none. -/
def slotOf : Instr → Option Slot
  | .nop => some (slotNop)
  | .add d a b => some (slotAdd d a b)
  | .sub d a b => some (slotSub d a b)
  | .mul d a b => some (slotMul d a b)
  | .mulh d a b => some (slotMulh d a b)
  | .mulhz d a b => some (slotMulhz d a b)
  | .div d a b => some (slotDiv d a b)
  | .divz d a b => some (slotDivz d a b)
  | .rem d a b => some (slotRem d a b)
  | .remz d a b => some (slotRemz d a b)
  | .and d a b => some (slotAnd d a b)
  | .or d a b => some (slotOr d a b)
  | .xor d a b => some (slotXor d a b)
  | .andn d a b => some (slotAndn d a b)
  | .shl d a b => some (slotShl d a b)
  | .shr d a b => some (slotShr d a b)
  | .sar d a b => some (slotSar d a b)
  | .rol d a b => some (slotRol d a b)
  | .min d a b => some (slotMin d a b)
  | .max d a b => some (slotMax d a b)
  | .minz d a b => some (slotMinz d a b)
  | .maxz d a b => some (slotMaxz d a b)
  | .clz d a => some (slotClz d a)
  | .ctz d a => some (slotCtz d a)
  | .popc d a => some (slotPopc d a)
  | .extB d a => some (slotExtB d a)
  | .extH d a => some (slotExtH d a)
  | .extW d a => some (slotExtW d a)
  | .extzB d a => some (slotExtzB d a)
  | .extzH d a => some (slotExtzH d a)
  | .extzW d a => some (slotExtzW d a)
  | .mov d a => some (slotMov d a)
  | .addi d a im x => some (slotAddi d a im x)
  | .muli d a im x => some (slotMuli d a im x)
  | .andi d a im x => some (slotAndi d a im x)
  | .ori d a im x => some (slotOri d a im x)
  | .xori d a im x => some (slotXori d a im x)
  | .shli d a im => some (slotShli d a im)
  | .shri d a im => some (slotShri d a im)
  | .sari d a im => some (slotSari d a im)
  | .movi d im x => some (slotMovi d im x)
  | .movh d im => some (slotMovh d im)
  | .cmpEq d a b => some (slotCmpEq d a b)
  | .cmpNe d a b => some (slotCmpNe d a b)
  | .cmpLt d a b => some (slotCmpLt d a b)
  | .cmpLe d a b => some (slotCmpLe d a b)
  | .cmpLo d a b => some (slotCmpLo d a b)
  | .cmpLs d a b => some (slotCmpLs d a b)
  | .cmpiEq d a im x => some (slotCmpiEq d a im x)
  | .cmpiNe d a im x => some (slotCmpiNe d a im x)
  | .cmpiLt d a im x => some (slotCmpiLt d a im x)
  | .cmpiLe d a im x => some (slotCmpiLe d a im x)
  | .cmpiLo d a im x => some (slotCmpiLo d a im x)
  | .cmpiLs d a im x => some (slotCmpiLs d a im x)
  | .pand d a b => some (slotPand d a b)
  | .por d a b => some (slotPor d a b)
  | .pxor d a b => some (slotPxor d a b)
  | .pandn d a b => some (slotPandn d a b)
  | .pnot d a => some (slotPnot d a)
  | .sel d a b g => some (slotSel d a b g)
  | .ldB d a im x => some (slotLdB d a im x)
  | .ldH d a im x => some (slotLdH d a im x)
  | .ldW d a im x => some (slotLdW d a im x)
  | .ldD d a im x => some (slotLdD d a im x)
  | .ldzB d a im x => some (slotLdzB d a im x)
  | .ldzH d a im x => some (slotLdzH d a im x)
  | .ldzW d a im x => some (slotLdzW d a im x)
  | .stB g a b im x => some (slotStB g a b im x)
  | .stH g a b im x => some (slotStH g a b im x)
  | .stW g a b im x => some (slotStW g a b im x)
  | .stD g a b im x => some (slotStD g a b im x)
  | .br g im x => some (slotBr g im x)
  | .call d im x => some (slotCall d im x)
  | .jmp g a => some (slotJmp g a)
  | .jcall d a => some (slotJcall d a)
  | .lvl d a b f => some (slotLvl d a b f)
  | .loop n => some (slotLoop n)
  | .loopSp sc n => some (slotLoopSp sc n)
  | .crr d c => some (slotCrr d c)
  | .crw d c => some (slotCrw d c)
  | .trap im => some (slotTrap im)
  | .tret => some (slotTret)
  | .tend => some (slotTend)
  | .ldgB d a h x => some (slotLdgB d a h x)
  | .ldgH d a h x => some (slotLdgH d a h x)
  | .ldgW d a h x => some (slotLdgW d a h x)
  | .ldgD d a h x => some (slotLdgD d a h x)
  | .ldgzB d a h x => some (slotLdgzB d a h x)
  | .ldgzH d a h x => some (slotLdgzH d a h x)
  | .ldgzW d a h x => some (slotLdgzW d a h x)
  | .stgB g a b h x => some (slotStgB g a b h x)
  | .stgH g a b h x => some (slotStgH g a b h x)
  | .stgW g a b h x => some (slotStgW g a b h x)
  | .stgD g a b h x => some (slotStgD g a b h x)
  | .ldgV d a h x => some (slotLdgV d a h x)
  | .stgV g a b h x => some (slotStgV g a b h x)
  | .xst g a b c => some (slotXst g a b c)
  | .aadd d a b h z x => some (slotAadd d a b h z x)
  | .asub d a b h z x => some (slotAsub d a b h z x)
  | .aand d a b h z x => some (slotAand d a b h z x)
  | .aor d a b h z x => some (slotAor d a b h z x)
  | .axor d a b h z x => some (slotAxor d a b h z x)
  | .amin d a b h z x => some (slotAmin d a b h z x)
  | .amax d a b h z x => some (slotAmax d a b h z x)
  | .aminz d a b h z x => some (slotAminz d a b h z x)
  | .amaxz d a b h z x => some (slotAmaxz d a b h z x)
  | .aswp d a b h z x => some (slotAswp d a b h z x)
  | .acas d a b h z x => some (slotAcas d a b h z x)
  | .afadd d a b h z x => some (slotAfadd d a b h z x)
  | .trans d a => some (slotTrans d a)
  | .transAr d a => some (slotTransAr d a)
  | .hstat d a => some (slotHstat d a)
  | .inv a b => some (slotInv a b)
  | .invAll => some (slotInvAll)
  | .fenceCm sc m => some (slotFenceCm sc m)
  | .fenceSc => some (slotFenceSc)
  | .gbar => some (slotGbar)
  | .phase p => some (slotPhase p)
  | .tlwait sc a b => some (slotTlwait sc a b)
  | .tlinc a b => some (slotTlinc a b)
  | .tlrd d a => some (slotTlrd d a)
  | .tlmwait sc a b h => some (slotTlmwait sc a b h)
  | .tlmsig sc a b h => some (slotTlmsig sc a b h)
  | .tbinit c a b => some (slotTbinit c a b)
  | .tbarr a b => some (slotTbarr a b)
  | .tbwait sc a b => some (slotTbwait sc a b)
  | .vadd d a b r t => some (slotVadd d a b r t)
  | .vsub d a b r t => some (slotVsub d a b r t)
  | .vmul d a b r t => some (slotVmul d a b r t)
  | .vdiv d a b r t => some (slotVdiv d a b r t)
  | .vmin d a b r t => some (slotVmin d a b r t)
  | .vmax d a b r t => some (slotVmax d a b r t)
  | .viadd d a b r t => some (slotViadd d a b r t)
  | .vimul d a b r t => some (slotVimul d a b r t)
  | .vimax d a b r t => some (slotVimax d a b r t)
  | .vimin d a b r t => some (slotVimin d a b r t)
  | .vand d a b t => some (slotVand d a b t)
  | .vor d a b t => some (slotVor d a b t)
  | .vxor d a b t => some (slotVxor d a b t)
  | .vshl d a b t => some (slotVshl d a b t)
  | .vshr d a b t => some (slotVshr d a b t)
  | .vsar d a b t => some (slotVsar d a b t)
  | .vcmpEq d a b t => some (slotVcmpEq d a b t)
  | .vcmpNe d a b t => some (slotVcmpNe d a b t)
  | .vcmpLt d a b t => some (slotVcmpLt d a b t)
  | .vcmpLe d a b t => some (slotVcmpLe d a b t)
  | .vcmpGt d a b t => some (slotVcmpGt d a b t)
  | .vcmpGe d a b t => some (slotVcmpGe d a b t)
  | .vsel d a b g => some (slotVsel d a b g)
  | .vselm d a b c => some (slotVselm d a b c)
  | .visab d a t => some (slotVisab d a t)
  | .vispr d a t => some (slotVispr d a t)
  | .vfill d a b t => some (slotVfill d a b t)
  | .vneg d a r t => some (slotVneg d a r t)
  | .vmag d a r t => some (slotVmag d a r t)
  | .vexp d a r t => some (slotVexp d a r t)
  | .vlog d a r t => some (slotVlog d a r t)
  | .vrcp d a r t => some (slotVrcp d a r t)
  | .vsqrt d a r t => some (slotVsqrt d a r t)
  | .vrsqrt d a r t => some (slotVrsqrt d a r t)
  | .vtanh d a r t => some (slotVtanh d a r t)
  | .vsigm d a r t => some (slotVsigm d a r t)
  | .vgelu d a r t => some (slotVgelu d a r t)
  | .vfma d a b r t c => some (slotVfma d a b r t c)
  | .vfms d a b r t c => some (slotVfms d a b r t c)
  | .vfnma d a b r t c => some (slotVfnma d a b r t c)
  | .vredSum d a x t => some (slotVredSum d a x t)
  | .vredMax d a x t => some (slotVredMax d a x t)
  | .vredMin d a x t => some (slotVredMin d a x t)
  | .vredMean d a x t => some (slotVredMean d a x t)
  | .vredCount d a x t => some (slotVredCount d a x t)
  | .vcvt d a u t x => some (slotVcvt d a u t x)
  | .vtrn d a => some (slotVtrn d a)
  | .vperm d a b => some (slotVperm d a b)
  | .vbrow d a f => some (slotVbrow d a f)
  | .vbcs d a t => some (slotVbcs d a t)
  | .vmov d a => some (slotVmov d a)
  | .vext d a b t => some (slotVext d a b t)
  | .vins d a b t => some (slotVins d a b t)
  | .vtmask d a => some (slotVtmask d a)
  | .vld d a w x => some (slotVld d a w x)
  | .vst g a b w x => some (slotVst g a b w x)
  | .vldc d a w x => some (slotVldc d a w x)
  | .vstc g a b w x => some (slotVstc g a b w x)
  | .mldb a w => some (slotMldb a w)
  | .mldbt a w => some (slotMldbt a w)
  | .mma t a w => some (slotMma t a w)
  | .mmaC t a w => some (slotMmaC t a w)
  | .mdrnRaw t a w r x => some (slotMdrnRaw t a w r x)
  | .mdrnRawa t a w r x => some (slotMdrnRawa t a w r x)
  | .mdrnMean t a w r x => some (slotMdrnMean t a w r x)
  | .mdrnCount t a w r x => some (slotMdrnCount t a w r x)
  | .mclr t => some (slotMclr t)
  | .sclA a w => some (slotSclA a w)
  | .sclB a w => some (slotSclB a w)
  | .sclrA => some (slotSclrA)
  | .sclrB => some (slotSclrB)
  | .cpy a l n x => some (slotCpy a l n x)
  | .cpyaw d a l n x => some (slotCpyaw d a l n x)
  | .cpymc a l n x => some (slotCpymc a l n x)
  | .cpyrm a l n x => some (slotCpyrm a l n x)
  | .rmapost a b l n x => some (slotRmapost a b l n x)
  | .sopen d a => some (slotSopen d a)
  | .spush d a b => some (slotSpush d a b)
  | .spop d a => some (slotSpop d a)
  | .sclose a => some (slotSclose a)
  | .sstat d a => some (slotSstat d a)
  | .ckopen d a => some (slotCkopen d a)
  | .ckhold a b => some (slotCkhold a b)
  | .cksend c a b l n x => some (slotCksend c a b l n x)
  | .ckclose a => some (slotCkclose a)
  | .ckstat d a => some (slotCkstat d a)
  | .kvcommit d a b l n x => some (slotKvcommit d a b l n x)
  | .launch a b => some (slotLaunch a b)
  | .coldBoot => none
  | .warmReset => none
  | .bootImageReadResponse => none
  | .t2size => none
  | .t2waitExpiry => none
  | .authenticationTimeout => none
  | .powerSample => none
  | .thermalTrip => none
  | .pkgPowerWrite => none
  | .registerWrite => none
  | .cicadaTick => none
  | .periodicDrain => none
  | .sluiceDecay => none
  | .packetRoute => none
  | .readRequest => none
  | .readResponse => none
  | .write => none
  | .writeAcknowledgement => none
  | .atomicRequest => none
  | .atomicResponse => none
  | .engineData => none
  | .pathMarker => none
  | .markerAcknowledgement => none
  | .reorderTimeout => none
  | .requestTimeout => none
  | .linkReplay => none
  | .linkRetrainEnd => none
  | .homeSliceFill => none
  | .probeAcknowledgement => none
  | .probeRefusal => none
  | .circuitBeat => none
  | .collapseNotice => none
  | .resumePointReport => none
  | .resumeReportTimeout => none
  | .leaseExpiry => none
  | .sendAcknowledgement => none
  | .grainReservation => none
  | .circuitSetupRequest => none
  | .sailBoundary => none
  | .grain => none
  | .grainDelivery => none
  | .relaySpaceReport => none
  | .podNextHop => none
  | .podAccessAdmission => none
  | .sack => none
  | .podResendTimeout => none
  | .remoteAccessTimeout => none
  | .flushingReadResponse => none
  | .registrationStateWrite => none
  | .rmaTailWrite => none
  | .rmaEnableWrite => none
  | .rmaErrstopWrite => none
  | .rmaNop => none
  | .rmaPut => none
  | .rmaGet => none
  | .rmaWait => none
  | .rmaDescriptorRetire => none
  | .hostMemoryAccess => none
  | .queueTlWrite => none
  | .queueEnableWrite => none
  | .queueStopWrite => none
  | .queueEntryTake => none
  | .recordFetch => none
  | .recordStart => none
  | .gangNode => none
  | .gangStart => none
  | .gangRestore => none
  | .copyNode => none
  | .collectiveNode => none
  | .circuitOpenNode => none
  | .signalNode => none
  | .subgraphNode => none
  | .joinNode => none
  | .waitNode => none
  | .recordRetirement => none
  | .create => none
  | .destroy => none
  | .swapout => none
  | .swapin => none
  | .fence => none
  | .fwupd => none
  | .retire => none
  | .mailboxUnlistedCommand => none
  | .swapoutSaveEnd => none
  | .swapinRestoreEnd => none
  | .fwupdEnd => none
  | .coreRepair => none
  | .memoryDieFailure => none
  | .partRsWrite => none
  | .priorityChange => none
  | .invalidationRequest => none
  | .invalidationMarking => none
  | .invalidationConfirmation => none
  | .walkNotice => none
  | .placementEvaluation => none
  | .plcRetHeadWrite => none
  | .plcLostHeadWrite => none
  | .resultWrite => none
  | .trapEntry => none
  | .wdog => none
  | .bundleHoldRelease => none
  | .phaseDrainEnd => none
  | .mmaRowWrite => none
  | .scaleLatchLanding => none
  | .copyCommandStart => none
  | .copyStageStart => none
  | .copyCommandCompletion => none
  | .circuitPortCommandStart => none
  | .streamUnitCommandStart => none
  | .rmapostCommandStart => none
  | .launchCommandStart => none
  | .streamOpenCheck => none
  | .sampleFlit => none
  | .streamSampleApplication => none
  | .creditFlit => none
  | .detachFlit => none
  | .attachFlit => none
  | .closeFlit => none
  | .breakFlit => none
  | .streamLossTimeout => none
  | .gangBarrierCompletion => none
  | .gangBarrierRelease => none
  | .rejectedStoreReport => none
  | .blackBoxEntryRead => none
  | .c0ServiceFailure => none

/-- The slots of a bundle, in slot order (R319). -/
def slotsOf : List (Nat × Instr) → List (Nat × Slot)
  | [] => []
  | (p, i) :: l => match slotOf i with
    | some f => (p, f) :: slotsOf l
    | none => slotsOf l

end Sys2Proof.Machine
end

