-- ==== Sys2Proof/Machine/Present.lean ====
section
/-!
DEFINITION. The presentation of a bundle (R188, R305, R329, R492), its weight (R241), and the release of a held bundle (R371).
-/

namespace Sys2Proof.Machine

open Sys2Proof

/-- What comes of presenting the next bundle of a context: a trap has been taken, a hold has begun, or its slots stand ready
to issue. -/
inductive Present where
  | trapped (t : State)
  | held (t : State)
  | one (i : Instr) (weight : Nat) (rows reads : List Nat) (t : State)
  | many (words : Nat) (slots : List (Nat × Slot)) (weight : Nat) (rows reads : List Nat) (t : State)

/-- The current weight of a slot at a position (R241); a fused triple is a V word with an X. -/
def slotWeight : Nat × Instr → Nat
  | (0, _) => 2
  | (1, _) => 1
  | (2, i) => (match i with | .vfma _ _ _ _ _ _ => 15 | .vfms _ _ _ _ _ _ => 15 | .vfnma _ _ _ _ _ _ => 15 | _ => 6)
  | (3, _) => 6
  | (4, _) => 20
  | (5, _) => 1
  | _ => 3

/-- The instruction's first row enters the array in its own step (R407). -/
def startsRow : Nat × Instr → Bool
  | (_, .mma _ _ _) => true
  | (_, .mmaC _ _ _) => true
  | _ => false

/-- The weights of a bundle's slots, and the array's when a row of the bundle is the one that makes it compute (R241, R418). -/
def bundleWeight (c : Core) (l : List (Nat × Instr)) : Nat :=
  l.foldl (fun a p => a + slotWeight p) 0 + (if l.any startsRow && !arrayBusy c then (if c.arrNar then 12 else 24) else 0)

/-- The window whose record a slot decodes or encodes by (R169). -/
def thrWindow : Instr → Option (BitVec 4)
  | .vldc _ _ w _ => some w
  | .vstc _ _ _ w _ => some w
  | .mldb _ w => some w
  | .mldbt _ w => some w
  | .mma _ _ w => some w
  | .mmaC _ _ w => some w
  | .mdrnRaw _ _ w _ _ => some w
  | .mdrnRawa _ _ w _ _ => some w
  | .mdrnMean _ _ w _ _ => some w
  | .mdrnCount _ _ w _ _ => some w
  | _ => none

/-- A bundle that names a record needs the core's table of them (R169). -/
def needThr (l : List (Nat × Instr)) (s : State) : State :=
  if l.any (fun p => (thrWindow p.2).any (fun w => twThr (readTw (getX s s.cur) w.toNat) != 0)) then useThr s else s

/-! ## The rows of a bundle (R239) -/

/-- A tile-store access: whether it reads, core address, number of bytes. -/
abbrev Span := Bool × Nat × Nat

/-- The ranges of m elements from e0 of a formatted window. -/
def seqSpans (rd : Bool) (s : State) (w : BitVec 4) (e0 m : Nat) : List Span :=
  let r := windowRecord s s.cur w.toNat
  match thrFmt r with
  | some f => (seqRanges (thrBscale r) f.cont e0 m).map (fun p => (rd, twBase (readTw (getX s s.cur) w.toNat) + p.1, p.2))
  | none => []

/-- The bytes that a load of a plane reads (R403). -/
def planeSpans (s : State) (a : BitVec 5) (w : BitVec 4) : List Span :=
  let r := windowRecord s s.cur w.toNat
  match matFmt r with
  | some f =>
    let sc := thrBscale r
    let m := 128 * kbOf f.cont
    [(true, twBase (readTw (getX s s.cur) w.toNat) + elemBit sc f.cont (readS (getX s s.cur) a).toNat / 8 - (if sc then 32 else 0),
      if sc then m / 1024 * (32 + 128 * f.cont) else m * f.cont / 8)]
  | none => []

/-- A block that a form reads at issue (R422). -/
def blockSpan (s : State) (a : BitVec 5) (n : Nat) : List Span := [(true, (readS (getX s s.cur) a).toNat, n)]

/-- The tile-store accesses that an instruction makes in the rounds of its bundle, when it issues (R239, R422). -/
def slotSpans (s : State) : Instr → List Span
  | .ldB _ a i x => [(true, smAddr c a 1 i x, 1)]
  | .ldH _ a i x => [(true, smAddr c a 2 i x, 2)]
  | .ldW _ a i x => [(true, smAddr c a 4 i x, 4)]
  | .ldD _ a i x => [(true, smAddr c a 8 i x, 8)]
  | .ldzB _ a i x => [(true, smAddr c a 1 i x, 1)]
  | .ldzH _ a i x => [(true, smAddr c a 2 i x, 2)]
  | .ldzW _ a i x => [(true, smAddr c a 4 i x, 4)]
  | .stB g a _ i x => on g [(false, smAddr c a 1 i x, 1)]
  | .stH g a _ i x => on g [(false, smAddr c a 2 i x, 2)]
  | .stW g a _ i x => on g [(false, smAddr c a 4 i x, 4)]
  | .stD g a _ i x => on g [(false, smAddr c a 8 i x, 8)]
  | .vld _ a w x => [(true, twBase (readTw c w.toNat) + vmOff c a x, vecBytes c)]
  | .vst g a _ w x => on g [(false, twBase (readTw c w.toNat) + vmOff c a x, vecBytes c)]
  | .vldc _ a w _ => seqSpans true s w (readS c a).toNat (laneCount c)
  | .mldb a w => planeSpans s a w
  | .mldbt a w => planeSpans s a w
  | .mdrnRaw _ a w _ _ => seqSpans false s w (readS c a).toNat 16384
  | .mdrnRawa _ a w _ _ => seqSpans false s w (readS c a).toNat 16384
  | .mdrnMean _ a w _ _ => seqSpans false s w (readS c a).toNat 16384
  | .mdrnCount _ a w _ _ => seqSpans false s w (readS c a).toNat 16384
  | .sclA a w => [(true, twBase (readTw c w.toNat) + (readS c a).toNat, 2048)]
  | .sclB a w => [(true, twBase (readTw c w.toNat) + (readS c a).toNat, 2048)]
  | .tbinit _ a _ => [(false, (readS c a).toNat, 16)]
  | .tbarr a _ => blockSpan s a 16
  | .tbwait _ a _ => blockSpan s a 16
  | .cpy a _ _ _ => blockSpan s a 64
  | .cpyaw _ a _ _ _ => blockSpan s a 64
  | .cpymc a _ _ _ => blockSpan s a 64
  | .cpyrm a _ _ _ => blockSpan s a 64
  | .rmapost a _ _ _ _ => blockSpan s a 64
  | .kvcommit _ a _ _ _ _ => blockSpan s a 64
  | .sopen _ a => blockSpan s a 64
  | .spush _ q b => [(true, (readS c b).toNat, sdRec (readQ c q.toNat).desc)]
  | .ckopen _ a => blockSpan s a 16
  | _ => []
where
  c : Ctx := getX s s.cur
  on (g : BitVec 5) (l : List Span) : List Span := if guardOn (getX s s.cur) g then l else []

/-- The rows that the encoded elements of an earlier `vstc` take in this bundle's rounds: the store belongs to the bundle at its write point (R396). -/
def dueRows (c : Ctx) : List Nat :=
  (c.results.flatMap (fun r => match r.eff with
    | .tile cells => if r.wp = c.time + 1 then cells.map (fun p => tsPhys c p.1 / 64) else []
    | _ => [])).eraseDups

/-- The rows that a bundle accesses. -/
def bundleRows (l : List (Nat × Instr)) (s : State) : List Nat :=
  l.flatMap (fun p => (slotSpans s p.2).flatMap (fun q => rowsOf (getX s s.cur) q.2.1 q.2.2)) ++ dueRows (getX s s.cur)

/-- The sectors that a bundle reads. -/
def bundleReads (l : List (Nat × Instr)) (s : State) : List Nat :=
  if s.ecc.isEmpty then []
  else l.flatMap (fun p => ((slotSpans s p.2).filter (·.1)).flatMap (fun q => ctxSectors (getX s s.cur) q.2.1 q.2.2))

/-- The next bundle of context x is presented: a result not ready freezes it; then the boundary's traps; then its fetch and
its examination (R188, R227, R305, R329). -/
def present (s0 : State) (x : Nat) : Present :=
  let s := { settle s0 x with cur := x }
  let c := getX s x
  if notReady c then .held (freeze s x 2)
  else
    match boundaryTrap s x with
    | some t => .trapped t
    | none =>
      match fetchBundle s x with
      | .fault q => if c.inh then .trapped (endTask s x true) else .trapped (issueTrap s x 15 q)
      | .wait q f => .held (freeze (f s) x q)
      | .ok ws =>
        let t := latchBody (touchFetch s x ws.length) x ws
        match examine ws with
        | .ien r => .trapped (issueTrap t x 15 ⟨cIEN, r, 0, tiVa c.pc.toNat⟩)
        | .iil op p before =>
          (match firstTrap (examineSlots ws.length (slotsOf before) t) with
          | some (q, k) => .trapped (issueTrap t x q k)
          | none => .trapped (issueTrap t x p ⟨cIIL, 0, op, 0⟩))
        | .ok [(p, i)] => .one i (bundleWeight (getC s (coreOf x)) [(p, i)]) (bundleRows [(p, i)] t) (bundleReads [(p, i)] t) (needThr [(p, i)] t)
        | .ok l => .many ws.length (slotsOf l) (bundleWeight (getC s (coreOf x)) l) (bundleRows l t) (bundleReads l t) (needThr l t)

/-- A held context is presented again: its hold goes on, or it is ready, in the cycle after the one in which the result that it waited for came
(R183, R227, R371, R492). -/
def refreshHold (s : State) (x : Nat) : State :=
  let free := modX s x (fun c => { c with hold := none })
  if (getX s x).hold = some 2 ∧ (getX s x).fillCyc = s.cyc then s
  else match present s x with
  | .held t => t
  | .trapped _ => free
  | .one i _ _ _ t =>
    (match slotOf i with
    | some f => if wouldHold 1 [(0, f)] { t with cur := x } then issue 1 [(0, f)] { t with cur := x } else free
    | none => s)
  | .many n sl _ _ _ t => if wouldHold n sl { t with cur := x } then issue n sl { t with cur := x } else free

/-- A held context whose bundle would not be held any longer. -/
def holdOver (s : State) (x : Nat) : Bool := (getX (refreshHold s x) x).hold.isNone

/-- BUNDLE_HOLD_RELEASE (a: context): the hold ends, and the bundle is examined afresh when the selector takes it (R371, R492). -/
def execBundleHoldRelease (s : State) : Res :=
  let x := s.arg.a
  let c := getX s x
  gate (c.task && c.hold.isSome && !c.halted && holdOver s x) "BUNDLE_HOLD_RELEASE" (fun t => refreshHold t x) s

end Sys2Proof.Machine
end

