-- ==== Sys2Proof/Machine/Single.lean ====
section
/-!
DEFINITION. The meaning of each instruction as the one instruction of its bundle, issued by the current context (R226, R304):
its slot (in the file of its family) examined and, if nothing stops it, issued.
-/

namespace Sys2Proof.Machine

open Sys2Proof

/-- The words of an instruction with an optional continuation (R323). -/
def xWords {α : Type} (x : Option α) : Nat := if x.isSome then 2 else 1

/-- `NOP` (R338). -/
def execNop (s : State) : Res :=
  single (Instr.nop).wf 0x00 1 0 (slotNop) s

/-- `ADD` (R338). -/
def execAdd (d : BitVec 5) (a : BitVec 5) (b : BitVec 5) (s : State) : Res :=
  single (Instr.add d a b).wf 0x01 1 0 (slotAdd d a b) s

/-- `SUB` (R338). -/
def execSub (d : BitVec 5) (a : BitVec 5) (b : BitVec 5) (s : State) : Res :=
  single (Instr.sub d a b).wf 0x02 1 0 (slotSub d a b) s

/-- `MUL` (R338). -/
def execMul (d : BitVec 5) (a : BitVec 5) (b : BitVec 5) (s : State) : Res :=
  single (Instr.mul d a b).wf 0x03 1 0 (slotMul d a b) s

/-- `MULH` (R338). -/
def execMulh (d : BitVec 5) (a : BitVec 5) (b : BitVec 5) (s : State) : Res :=
  single (Instr.mulh d a b).wf 0x04 1 0 (slotMulh d a b) s

/-- `MULHZ` (R338). -/
def execMulhz (d : BitVec 5) (a : BitVec 5) (b : BitVec 5) (s : State) : Res :=
  single (Instr.mulhz d a b).wf 0x05 1 0 (slotMulhz d a b) s

/-- `DIV` (R339). -/
def execDiv (d : BitVec 5) (a : BitVec 5) (b : BitVec 5) (s : State) : Res :=
  single (Instr.div d a b).wf 0x06 1 0 (slotDiv d a b) s

/-- `DIVZ` (R339). -/
def execDivz (d : BitVec 5) (a : BitVec 5) (b : BitVec 5) (s : State) : Res :=
  single (Instr.divz d a b).wf 0x07 1 0 (slotDivz d a b) s

/-- `REM` (R339). -/
def execRem (d : BitVec 5) (a : BitVec 5) (b : BitVec 5) (s : State) : Res :=
  single (Instr.rem d a b).wf 0x08 1 0 (slotRem d a b) s

/-- `REMZ` (R339). -/
def execRemz (d : BitVec 5) (a : BitVec 5) (b : BitVec 5) (s : State) : Res :=
  single (Instr.remz d a b).wf 0x09 1 0 (slotRemz d a b) s

/-- `AND` (R338). -/
def execAnd (d : BitVec 5) (a : BitVec 5) (b : BitVec 5) (s : State) : Res :=
  single (Instr.and d a b).wf 0x0A 1 0 (slotAnd d a b) s

/-- `OR` (R338). -/
def execOr (d : BitVec 5) (a : BitVec 5) (b : BitVec 5) (s : State) : Res :=
  single (Instr.or d a b).wf 0x0B 1 0 (slotOr d a b) s

/-- `XOR` (R338). -/
def execXor (d : BitVec 5) (a : BitVec 5) (b : BitVec 5) (s : State) : Res :=
  single (Instr.xor d a b).wf 0x0C 1 0 (slotXor d a b) s

/-- `ANDN` (R338). -/
def execAndn (d : BitVec 5) (a : BitVec 5) (b : BitVec 5) (s : State) : Res :=
  single (Instr.andn d a b).wf 0x0D 1 0 (slotAndn d a b) s

/-- `SHL` (R338). -/
def execShl (d : BitVec 5) (a : BitVec 5) (b : BitVec 5) (s : State) : Res :=
  single (Instr.shl d a b).wf 0x0E 1 0 (slotShl d a b) s

/-- `SHR` (R338). -/
def execShr (d : BitVec 5) (a : BitVec 5) (b : BitVec 5) (s : State) : Res :=
  single (Instr.shr d a b).wf 0x0F 1 0 (slotShr d a b) s

/-- `SAR` (R338). -/
def execSar (d : BitVec 5) (a : BitVec 5) (b : BitVec 5) (s : State) : Res :=
  single (Instr.sar d a b).wf 0x10 1 0 (slotSar d a b) s

/-- `ROL` (R338). -/
def execRol (d : BitVec 5) (a : BitVec 5) (b : BitVec 5) (s : State) : Res :=
  single (Instr.rol d a b).wf 0x11 1 0 (slotRol d a b) s

/-- `MIN` (R338). -/
def execMin (d : BitVec 5) (a : BitVec 5) (b : BitVec 5) (s : State) : Res :=
  single (Instr.min d a b).wf 0x12 1 0 (slotMin d a b) s

/-- `MAX` (R338). -/
def execMax (d : BitVec 5) (a : BitVec 5) (b : BitVec 5) (s : State) : Res :=
  single (Instr.max d a b).wf 0x13 1 0 (slotMax d a b) s

/-- `MINZ` (R338). -/
def execMinz (d : BitVec 5) (a : BitVec 5) (b : BitVec 5) (s : State) : Res :=
  single (Instr.minz d a b).wf 0x14 1 0 (slotMinz d a b) s

/-- `MAXZ` (R338). -/
def execMaxz (d : BitVec 5) (a : BitVec 5) (b : BitVec 5) (s : State) : Res :=
  single (Instr.maxz d a b).wf 0x15 1 0 (slotMaxz d a b) s

/-- `CLZ` (R338). -/
def execClz (d : BitVec 5) (a : BitVec 5) (s : State) : Res :=
  single (Instr.clz d a).wf 0x16 1 0 (slotClz d a) s

/-- `CTZ` (R338). -/
def execCtz (d : BitVec 5) (a : BitVec 5) (s : State) : Res :=
  single (Instr.ctz d a).wf 0x17 1 0 (slotCtz d a) s

/-- `POPC` (R338). -/
def execPopc (d : BitVec 5) (a : BitVec 5) (s : State) : Res :=
  single (Instr.popc d a).wf 0x18 1 0 (slotPopc d a) s

/-- `EXT_B` (R338). -/
def execExtB (d : BitVec 5) (a : BitVec 5) (s : State) : Res :=
  single (Instr.extB d a).wf 0x19 1 0 (slotExtB d a) s

/-- `EXT_H` (R338). -/
def execExtH (d : BitVec 5) (a : BitVec 5) (s : State) : Res :=
  single (Instr.extH d a).wf 0x19 1 0 (slotExtH d a) s

/-- `EXT_W` (R338). -/
def execExtW (d : BitVec 5) (a : BitVec 5) (s : State) : Res :=
  single (Instr.extW d a).wf 0x19 1 0 (slotExtW d a) s

/-- `EXTZ_B` (R338). -/
def execExtzB (d : BitVec 5) (a : BitVec 5) (s : State) : Res :=
  single (Instr.extzB d a).wf 0x1A 1 0 (slotExtzB d a) s

/-- `EXTZ_H` (R338). -/
def execExtzH (d : BitVec 5) (a : BitVec 5) (s : State) : Res :=
  single (Instr.extzH d a).wf 0x1A 1 0 (slotExtzH d a) s

/-- `EXTZ_W` (R338). -/
def execExtzW (d : BitVec 5) (a : BitVec 5) (s : State) : Res :=
  single (Instr.extzW d a).wf 0x1A 1 0 (slotExtzW d a) s

/-- `MOV` (R338). -/
def execMov (d : BitVec 5) (a : BitVec 5) (s : State) : Res :=
  single (Instr.mov d a).wf 0x1B 1 0 (slotMov d a) s

/-- `ADDI` (R340). -/
def execAddi (d : BitVec 5) (a : BitVec 5) (im : BitVec 11) (x : Option (BitVec 28)) (s : State) : Res :=
  single (Instr.addi d a im x).wf 0x20 (xWords x) 0 (slotAddi d a im x) s

/-- `MULI` (R340). -/
def execMuli (d : BitVec 5) (a : BitVec 5) (im : BitVec 11) (x : Option (BitVec 28)) (s : State) : Res :=
  single (Instr.muli d a im x).wf 0x21 (xWords x) 0 (slotMuli d a im x) s

/-- `ANDI` (R340). -/
def execAndi (d : BitVec 5) (a : BitVec 5) (im : BitVec 11) (x : Option (BitVec 28)) (s : State) : Res :=
  single (Instr.andi d a im x).wf 0x22 (xWords x) 0 (slotAndi d a im x) s

/-- `ORI` (R340). -/
def execOri (d : BitVec 5) (a : BitVec 5) (im : BitVec 11) (x : Option (BitVec 28)) (s : State) : Res :=
  single (Instr.ori d a im x).wf 0x23 (xWords x) 0 (slotOri d a im x) s

/-- `XORI` (R340). -/
def execXori (d : BitVec 5) (a : BitVec 5) (im : BitVec 11) (x : Option (BitVec 28)) (s : State) : Res :=
  single (Instr.xori d a im x).wf 0x24 (xWords x) 0 (slotXori d a im x) s

/-- `SHLI` (R340). -/
def execShli (d : BitVec 5) (a : BitVec 5) (im : BitVec 6) (s : State) : Res :=
  single (Instr.shli d a im).wf 0x25 1 0 (slotShli d a im) s

/-- `SHRI` (R340). -/
def execShri (d : BitVec 5) (a : BitVec 5) (im : BitVec 6) (s : State) : Res :=
  single (Instr.shri d a im).wf 0x26 1 0 (slotShri d a im) s

/-- `SARI` (R340). -/
def execSari (d : BitVec 5) (a : BitVec 5) (im : BitVec 6) (s : State) : Res :=
  single (Instr.sari d a im).wf 0x27 1 0 (slotSari d a im) s

/-- `MOVI` (R341). -/
def execMovi (d : BitVec 5) (im : BitVec 16) (x : Option (BitVec 28)) (s : State) : Res :=
  single (Instr.movi d im x).wf 0x28 (xWords x) 0 (slotMovi d im x) s

/-- `MOVH` (R341). -/
def execMovh (d : BitVec 5) (im : BitVec 16) (s : State) : Res :=
  single (Instr.movh d im).wf 0x29 1 0 (slotMovh d im) s

/-- `CMP_EQ` (R342). -/
def execCmpEq (d : BitVec 4) (a : BitVec 5) (b : BitVec 5) (s : State) : Res :=
  single (Instr.cmpEq d a b).wf 0x30 1 0 (slotCmpEq d a b) s

/-- `CMP_NE` (R342). -/
def execCmpNe (d : BitVec 4) (a : BitVec 5) (b : BitVec 5) (s : State) : Res :=
  single (Instr.cmpNe d a b).wf 0x30 1 0 (slotCmpNe d a b) s

/-- `CMP_LT` (R342). -/
def execCmpLt (d : BitVec 4) (a : BitVec 5) (b : BitVec 5) (s : State) : Res :=
  single (Instr.cmpLt d a b).wf 0x30 1 0 (slotCmpLt d a b) s

/-- `CMP_LE` (R342). -/
def execCmpLe (d : BitVec 4) (a : BitVec 5) (b : BitVec 5) (s : State) : Res :=
  single (Instr.cmpLe d a b).wf 0x30 1 0 (slotCmpLe d a b) s

/-- `CMP_LO` (R342). -/
def execCmpLo (d : BitVec 4) (a : BitVec 5) (b : BitVec 5) (s : State) : Res :=
  single (Instr.cmpLo d a b).wf 0x30 1 0 (slotCmpLo d a b) s

/-- `CMP_LS` (R342). -/
def execCmpLs (d : BitVec 4) (a : BitVec 5) (b : BitVec 5) (s : State) : Res :=
  single (Instr.cmpLs d a b).wf 0x30 1 0 (slotCmpLs d a b) s

/-- `CMPI_EQ` (R342). -/
def execCmpiEq (d : BitVec 4) (a : BitVec 5) (im : BitVec 11) (x : Option (BitVec 28)) (s : State) : Res :=
  single (Instr.cmpiEq d a im x).wf 0x31 (xWords x) 0 (slotCmpiEq d a im x) s

/-- `CMPI_NE` (R342). -/
def execCmpiNe (d : BitVec 4) (a : BitVec 5) (im : BitVec 11) (x : Option (BitVec 28)) (s : State) : Res :=
  single (Instr.cmpiNe d a im x).wf 0x32 (xWords x) 0 (slotCmpiNe d a im x) s

/-- `CMPI_LT` (R342). -/
def execCmpiLt (d : BitVec 4) (a : BitVec 5) (im : BitVec 11) (x : Option (BitVec 28)) (s : State) : Res :=
  single (Instr.cmpiLt d a im x).wf 0x33 (xWords x) 0 (slotCmpiLt d a im x) s

/-- `CMPI_LE` (R342). -/
def execCmpiLe (d : BitVec 4) (a : BitVec 5) (im : BitVec 11) (x : Option (BitVec 28)) (s : State) : Res :=
  single (Instr.cmpiLe d a im x).wf 0x34 (xWords x) 0 (slotCmpiLe d a im x) s

/-- `CMPI_LO` (R342). -/
def execCmpiLo (d : BitVec 4) (a : BitVec 5) (im : BitVec 11) (x : Option (BitVec 28)) (s : State) : Res :=
  single (Instr.cmpiLo d a im x).wf 0x35 (xWords x) 0 (slotCmpiLo d a im x) s

/-- `CMPI_LS` (R342). -/
def execCmpiLs (d : BitVec 4) (a : BitVec 5) (im : BitVec 11) (x : Option (BitVec 28)) (s : State) : Res :=
  single (Instr.cmpiLs d a im x).wf 0x36 (xWords x) 0 (slotCmpiLs d a im x) s

/-- `PAND` (R343). -/
def execPand (d : BitVec 4) (a : BitVec 4) (b : BitVec 4) (s : State) : Res :=
  single (Instr.pand d a b).wf 0x38 1 0 (slotPand d a b) s

/-- `POR` (R343). -/
def execPor (d : BitVec 4) (a : BitVec 4) (b : BitVec 4) (s : State) : Res :=
  single (Instr.por d a b).wf 0x39 1 0 (slotPor d a b) s

/-- `PXOR` (R343). -/
def execPxor (d : BitVec 4) (a : BitVec 4) (b : BitVec 4) (s : State) : Res :=
  single (Instr.pxor d a b).wf 0x3A 1 0 (slotPxor d a b) s

/-- `PANDN` (R343). -/
def execPandn (d : BitVec 4) (a : BitVec 4) (b : BitVec 4) (s : State) : Res :=
  single (Instr.pandn d a b).wf 0x3B 1 0 (slotPandn d a b) s

/-- `PNOT` (R343). -/
def execPnot (d : BitVec 4) (a : BitVec 4) (s : State) : Res :=
  single (Instr.pnot d a).wf 0x3C 1 0 (slotPnot d a) s

/-- `SEL` (R344). -/
def execSel (d : BitVec 5) (a : BitVec 5) (b : BitVec 5) (g : BitVec 5) (s : State) : Res :=
  single (Instr.sel d a b g).wf 0x3D 1 0 (slotSel d a b g) s

/-- `LD_B` (R361). -/
def execLdB (d : BitVec 5) (a : BitVec 5) (im : BitVec 6) (x : Option (BitVec 28)) (s : State) : Res :=
  single (Instr.ldB d a im x).wf 0x40 (xWords x) 0 (slotLdB d a im x) s

/-- `LD_H` (R361). -/
def execLdH (d : BitVec 5) (a : BitVec 5) (im : BitVec 6) (x : Option (BitVec 28)) (s : State) : Res :=
  single (Instr.ldH d a im x).wf 0x41 (xWords x) 0 (slotLdH d a im x) s

/-- `LD_W` (R361). -/
def execLdW (d : BitVec 5) (a : BitVec 5) (im : BitVec 6) (x : Option (BitVec 28)) (s : State) : Res :=
  single (Instr.ldW d a im x).wf 0x42 (xWords x) 0 (slotLdW d a im x) s

/-- `LD_D` (R361). -/
def execLdD (d : BitVec 5) (a : BitVec 5) (im : BitVec 6) (x : Option (BitVec 28)) (s : State) : Res :=
  single (Instr.ldD d a im x).wf 0x43 (xWords x) 0 (slotLdD d a im x) s

/-- `LDZ_B` (R361). -/
def execLdzB (d : BitVec 5) (a : BitVec 5) (im : BitVec 6) (x : Option (BitVec 28)) (s : State) : Res :=
  single (Instr.ldzB d a im x).wf 0x44 (xWords x) 0 (slotLdzB d a im x) s

/-- `LDZ_H` (R361). -/
def execLdzH (d : BitVec 5) (a : BitVec 5) (im : BitVec 6) (x : Option (BitVec 28)) (s : State) : Res :=
  single (Instr.ldzH d a im x).wf 0x45 (xWords x) 0 (slotLdzH d a im x) s

/-- `LDZ_W` (R361). -/
def execLdzW (d : BitVec 5) (a : BitVec 5) (im : BitVec 6) (x : Option (BitVec 28)) (s : State) : Res :=
  single (Instr.ldzW d a im x).wf 0x46 (xWords x) 0 (slotLdzW d a im x) s

/-- `ST_B` (R361). -/
def execStB (g : BitVec 5) (a : BitVec 5) (b : BitVec 5) (im : BitVec 6) (x : Option (BitVec 28)) (s : State) : Res :=
  single (Instr.stB g a b im x).wf 0x48 (xWords x) 0 (slotStB g a b im x) s

/-- `ST_H` (R361). -/
def execStH (g : BitVec 5) (a : BitVec 5) (b : BitVec 5) (im : BitVec 6) (x : Option (BitVec 28)) (s : State) : Res :=
  single (Instr.stH g a b im x).wf 0x49 (xWords x) 0 (slotStH g a b im x) s

/-- `ST_W` (R361). -/
def execStW (g : BitVec 5) (a : BitVec 5) (b : BitVec 5) (im : BitVec 6) (x : Option (BitVec 28)) (s : State) : Res :=
  single (Instr.stW g a b im x).wf 0x4A (xWords x) 0 (slotStW g a b im x) s

/-- `ST_D` (R361). -/
def execStD (g : BitVec 5) (a : BitVec 5) (b : BitVec 5) (im : BitVec 6) (x : Option (BitVec 28)) (s : State) : Res :=
  single (Instr.stD g a b im x).wf 0x4B (xWords x) 0 (slotStD g a b im x) s

/-- `BR` (R345). -/
def execBr (g : BitVec 5) (im : BitVec 16) (x : Option (BitVec 28)) (s : State) : Res :=
  single (Instr.br g im x).wf 0x50 (xWords x) 0 (slotBr g im x) s

/-- `CALL` (R345). -/
def execCall (d : BitVec 5) (im : BitVec 16) (x : Option (BitVec 28)) (s : State) : Res :=
  single (Instr.call d im x).wf 0x51 (xWords x) 0 (slotCall d im x) s

/-- `JMP` (R346). -/
def execJmp (g : BitVec 5) (a : BitVec 5) (s : State) : Res :=
  single (Instr.jmp g a).wf 0x52 1 0 (slotJmp g a) s

/-- `JCALL` (R346). -/
def execJcall (d : BitVec 5) (a : BitVec 5) (s : State) : Res :=
  single (Instr.jcall d a).wf 0x53 1 0 (slotJcall d a) s

/-- `LVL` (R348). -/
def execLvl (d : BitVec 5) (a : BitVec 5) (b : BitVec 5) (f : BitVec 6) (s : State) : Res :=
  single (Instr.lvl d a b f).wf 0x58 1 0 (slotLvl d a b f) s

/-- `LOOP` (R349). -/
def execLoop (n : BitVec 6) (s : State) : Res :=
  single (Instr.loop n).wf 0x59 1 0 (slotLoop n) s

/-- `LOOP_SP` (R351). -/
def execLoopSp (sc : BitVec 4) (n : BitVec 6) (s : State) : Res :=
  single (Instr.loopSp sc n).wf 0x5A 1 0 (slotLoopSp sc n) s

/-- `CRR` (R354). -/
def execCrr (d : BitVec 5) (c : BitVec 12) (s : State) : Res :=
  single (Instr.crr d c).wf 0x60 1 0 (slotCrr d c) s

/-- `CRW` (R354). -/
def execCrw (d : BitVec 5) (c : BitVec 12) (s : State) : Res :=
  single (Instr.crw d c).wf 0x61 1 0 (slotCrw d c) s

/-- `TRAP` (R355). -/
def execTrap (im : BitVec 8) (s : State) : Res :=
  single (Instr.trap im).wf 0x62 1 0 (slotTrap im) s

/-- `TRET` (R356). -/
def execTret (s : State) : Res :=
  single (Instr.tret).wf 0x63 1 0 (slotTret) s

/-- `TEND` (R357). -/
def execTend (s : State) : Res :=
  single (Instr.tend).wf 0x64 1 0 (slotTend) s

/-- `LDG_B` (R362). -/
def execLdgB (d : BitVec 5) (a : BitVec 5) (h : BitVec 4) (x : Option WgLd) (s : State) : Res :=
  single (Instr.ldgB d a h x).wf 0x00 (xWords x) 1 (slotLdgB d a h x) s

/-- `LDG_H` (R362). -/
def execLdgH (d : BitVec 5) (a : BitVec 5) (h : BitVec 4) (x : Option WgLd) (s : State) : Res :=
  single (Instr.ldgH d a h x).wf 0x01 (xWords x) 1 (slotLdgH d a h x) s

/-- `LDG_W` (R362). -/
def execLdgW (d : BitVec 5) (a : BitVec 5) (h : BitVec 4) (x : Option WgLd) (s : State) : Res :=
  single (Instr.ldgW d a h x).wf 0x02 (xWords x) 1 (slotLdgW d a h x) s

/-- `LDG_D` (R362). -/
def execLdgD (d : BitVec 5) (a : BitVec 5) (h : BitVec 4) (x : Option WgLd) (s : State) : Res :=
  single (Instr.ldgD d a h x).wf 0x03 (xWords x) 1 (slotLdgD d a h x) s

/-- `LDGZ_B` (R362). -/
def execLdgzB (d : BitVec 5) (a : BitVec 5) (h : BitVec 4) (x : Option WgLd) (s : State) : Res :=
  single (Instr.ldgzB d a h x).wf 0x04 (xWords x) 1 (slotLdgzB d a h x) s

/-- `LDGZ_H` (R362). -/
def execLdgzH (d : BitVec 5) (a : BitVec 5) (h : BitVec 4) (x : Option WgLd) (s : State) : Res :=
  single (Instr.ldgzH d a h x).wf 0x05 (xWords x) 1 (slotLdgzH d a h x) s

/-- `LDGZ_W` (R362). -/
def execLdgzW (d : BitVec 5) (a : BitVec 5) (h : BitVec 4) (x : Option WgLd) (s : State) : Res :=
  single (Instr.ldgzW d a h x).wf 0x06 (xWords x) 1 (slotLdgzW d a h x) s

/-- `STG_B` (R364). -/
def execStgB (g : BitVec 5) (a : BitVec 5) (b : BitVec 5) (h : BitVec 4) (x : Option WgSt) (s : State) : Res :=
  single (Instr.stgB g a b h x).wf 0x08 (xWords x) 1 (slotStgB g a b h x) s

/-- `STG_H` (R364). -/
def execStgH (g : BitVec 5) (a : BitVec 5) (b : BitVec 5) (h : BitVec 4) (x : Option WgSt) (s : State) : Res :=
  single (Instr.stgH g a b h x).wf 0x09 (xWords x) 1 (slotStgH g a b h x) s

/-- `STG_W` (R364). -/
def execStgW (g : BitVec 5) (a : BitVec 5) (b : BitVec 5) (h : BitVec 4) (x : Option WgSt) (s : State) : Res :=
  single (Instr.stgW g a b h x).wf 0x0A (xWords x) 1 (slotStgW g a b h x) s

/-- `STG_D` (R364). -/
def execStgD (g : BitVec 5) (a : BitVec 5) (b : BitVec 5) (h : BitVec 4) (x : Option WgSt) (s : State) : Res :=
  single (Instr.stgD g a b h x).wf 0x0B (xWords x) 1 (slotStgD g a b h x) s

/-- `LDG_V` (R362). -/
def execLdgV (d : BitVec 5) (a : BitVec 5) (h : BitVec 4) (x : Option WgLd) (s : State) : Res :=
  single (Instr.ldgV d a h x).wf 0x0C (xWords x) 1 (slotLdgV d a h x) s

/-- `STG_V` (R362). -/
def execStgV (g : BitVec 5) (a : BitVec 5) (b : BitVec 5) (h : BitVec 4) (x : Option WgSt) (s : State) : Res :=
  single (Instr.stgV g a b h x).wf 0x0D (xWords x) 1 (slotStgV g a b h x) s

/-- `XST` (R365). -/
def execXst (g : BitVec 5) (a : BitVec 5) (b : BitVec 5) (c : BitVec 5) (s : State) : Res :=
  single (Instr.xst g a b c).wf 0x0E 2 1 (slotXst g a b c) s

/-- `AADD` (R366). -/
def execAadd (d : BitVec 5) (a : BitVec 5) (b : BitVec 5) (h : BitVec 4) (z : BitVec 1) (x : AtExt) (s : State) : Res :=
  single (Instr.aadd d a b h z x).wf 0x10 2 1 (slotAadd d a b h z x) s

/-- `ASUB` (R366). -/
def execAsub (d : BitVec 5) (a : BitVec 5) (b : BitVec 5) (h : BitVec 4) (z : BitVec 1) (x : AtExt) (s : State) : Res :=
  single (Instr.asub d a b h z x).wf 0x11 2 1 (slotAsub d a b h z x) s

/-- `AAND` (R366). -/
def execAand (d : BitVec 5) (a : BitVec 5) (b : BitVec 5) (h : BitVec 4) (z : BitVec 1) (x : AtExt) (s : State) : Res :=
  single (Instr.aand d a b h z x).wf 0x12 2 1 (slotAand d a b h z x) s

/-- `AOR` (R366). -/
def execAor (d : BitVec 5) (a : BitVec 5) (b : BitVec 5) (h : BitVec 4) (z : BitVec 1) (x : AtExt) (s : State) : Res :=
  single (Instr.aor d a b h z x).wf 0x13 2 1 (slotAor d a b h z x) s

/-- `AXOR` (R366). -/
def execAxor (d : BitVec 5) (a : BitVec 5) (b : BitVec 5) (h : BitVec 4) (z : BitVec 1) (x : AtExt) (s : State) : Res :=
  single (Instr.axor d a b h z x).wf 0x14 2 1 (slotAxor d a b h z x) s

/-- `AMIN` (R366). -/
def execAmin (d : BitVec 5) (a : BitVec 5) (b : BitVec 5) (h : BitVec 4) (z : BitVec 1) (x : AtExt) (s : State) : Res :=
  single (Instr.amin d a b h z x).wf 0x15 2 1 (slotAmin d a b h z x) s

/-- `AMAX` (R366). -/
def execAmax (d : BitVec 5) (a : BitVec 5) (b : BitVec 5) (h : BitVec 4) (z : BitVec 1) (x : AtExt) (s : State) : Res :=
  single (Instr.amax d a b h z x).wf 0x16 2 1 (slotAmax d a b h z x) s

/-- `AMINZ` (R366). -/
def execAminz (d : BitVec 5) (a : BitVec 5) (b : BitVec 5) (h : BitVec 4) (z : BitVec 1) (x : AtExt) (s : State) : Res :=
  single (Instr.aminz d a b h z x).wf 0x17 2 1 (slotAminz d a b h z x) s

/-- `AMAXZ` (R366). -/
def execAmaxz (d : BitVec 5) (a : BitVec 5) (b : BitVec 5) (h : BitVec 4) (z : BitVec 1) (x : AtExt) (s : State) : Res :=
  single (Instr.amaxz d a b h z x).wf 0x18 2 1 (slotAmaxz d a b h z x) s

/-- `ASWP` (R366). -/
def execAswp (d : BitVec 5) (a : BitVec 5) (b : BitVec 5) (h : BitVec 4) (z : BitVec 1) (x : AtExt) (s : State) : Res :=
  single (Instr.aswp d a b h z x).wf 0x19 2 1 (slotAswp d a b h z x) s

/-- `ACAS` (R366). -/
def execAcas (d : BitVec 5) (a : BitVec 5) (b : BitVec 5) (h : BitVec 4) (z : BitVec 1) (x : CasExt) (s : State) : Res :=
  single (Instr.acas d a b h z x).wf 0x1A 2 1 (slotAcas d a b h z x) s

/-- `AFADD` (R366). -/
def execAfadd (d : BitVec 5) (a : BitVec 5) (b : BitVec 5) (h : BitVec 4) (z : BitVec 1) (x : AtExt) (s : State) : Res :=
  single (Instr.afadd d a b h z x).wf 0x1B 2 1 (slotAfadd d a b h z x) s

/-- `TRANS` (R368). -/
def execTrans (d : BitVec 4) (a : BitVec 5) (s : State) : Res :=
  single (Instr.trans d a).wf 0x20 1 1 (slotTrans d a) s

/-- `TRANS_AR` (R368). -/
def execTransAr (d : BitVec 4) (a : BitVec 5) (s : State) : Res :=
  single (Instr.transAr d a).wf 0x20 1 1 (slotTransAr d a) s

/-- `HSTAT` (R369). -/
def execHstat (d : BitVec 5) (a : BitVec 4) (s : State) : Res :=
  single (Instr.hstat d a).wf 0x21 1 1 (slotHstat d a) s

/-- `INV` (R370). -/
def execInv (a : BitVec 5) (b : BitVec 5) (s : State) : Res :=
  single (Instr.inv a b).wf 0x22 1 1 (slotInv a b) s

/-- `INV_ALL` (R370). -/
def execInvAll (s : State) : Res :=
  single (Instr.invAll).wf 0x22 1 1 (slotInvAll) s

/-- `FENCE_CM` (R261). -/
def execFenceCm (sc : BitVec 3) (m : BitVec 16) (s : State) : Res :=
  single (Instr.fenceCm sc m).wf 0x28 1 1 (slotFenceCm sc m) s

/-- `FENCE_SC` (R262). -/
def execFenceSc (s : State) : Res :=
  single (Instr.fenceSc).wf 0x29 1 1 (slotFenceSc) s

/-- `GBAR` (R373). -/
def execGbar (s : State) : Res :=
  single (Instr.gbar).wf 0x2A 1 1 (slotGbar) s

/-- `PHASE` (R374). -/
def execPhase (p : BitVec 3) (s : State) : Res :=
  single (Instr.phase p).wf 0x2B 1 1 (slotPhase p) s

/-- `TLWAIT` (R375). -/
def execTlwait (sc : BitVec 3) (a : BitVec 3) (b : BitVec 5) (s : State) : Res :=
  single (Instr.tlwait sc a b).wf 0x30 1 1 (slotTlwait sc a b) s

/-- `TLINC` (R376). -/
def execTlinc (a : BitVec 3) (b : BitVec 5) (s : State) : Res :=
  single (Instr.tlinc a b).wf 0x31 1 1 (slotTlinc a b) s

/-- `TLRD` (R375). -/
def execTlrd (d : BitVec 5) (a : BitVec 3) (s : State) : Res :=
  single (Instr.tlrd d a).wf 0x32 1 1 (slotTlrd d a) s

/-- `TLMWAIT` (R377). -/
def execTlmwait (sc : BitVec 3) (a : BitVec 5) (b : BitVec 5) (h : BitVec 4) (s : State) : Res :=
  single (Instr.tlmwait sc a b h).wf 0x33 1 1 (slotTlmwait sc a b h) s

/-- `TLMSIG` (R377). -/
def execTlmsig (sc : BitVec 3) (a : BitVec 5) (b : BitVec 5) (h : BitVec 4) (s : State) : Res :=
  single (Instr.tlmsig sc a b h).wf 0x34 1 1 (slotTlmsig sc a b h) s

/-- `TBINIT` (R378). -/
def execTbinit (c : BitVec 5) (a : BitVec 5) (b : BitVec 5) (s : State) : Res :=
  single (Instr.tbinit c a b).wf 0x38 1 1 (slotTbinit c a b) s

/-- `TBARR` (R378). -/
def execTbarr (a : BitVec 5) (b : BitVec 5) (s : State) : Res :=
  single (Instr.tbarr a b).wf 0x39 1 1 (slotTbarr a b) s

/-- `TBWAIT` (R378). -/
def execTbwait (sc : BitVec 3) (a : BitVec 5) (b : BitVec 5) (s : State) : Res :=
  single (Instr.tbwait sc a b).wf 0x3A 1 1 (slotTbwait sc a b) s

/-- `VADD` (R384). -/
def execVadd (d : BitVec 5) (a : BitVec 5) (b : BitVec 5) (r : BitVec 3) (t : BitVec 3) (s : State) : Res :=
  single (Instr.vadd d a b r t).wf 0x00 1 2 (slotVadd d a b r t) s

/-- `VSUB` (R384). -/
def execVsub (d : BitVec 5) (a : BitVec 5) (b : BitVec 5) (r : BitVec 3) (t : BitVec 3) (s : State) : Res :=
  single (Instr.vsub d a b r t).wf 0x01 1 2 (slotVsub d a b r t) s

/-- `VMUL` (R384). -/
def execVmul (d : BitVec 5) (a : BitVec 5) (b : BitVec 5) (r : BitVec 3) (t : BitVec 3) (s : State) : Res :=
  single (Instr.vmul d a b r t).wf 0x02 1 2 (slotVmul d a b r t) s

/-- `VDIV` (R384). -/
def execVdiv (d : BitVec 5) (a : BitVec 5) (b : BitVec 5) (r : BitVec 3) (t : BitVec 3) (s : State) : Res :=
  single (Instr.vdiv d a b r t).wf 0x03 1 2 (slotVdiv d a b r t) s

/-- `VMIN` (R384). -/
def execVmin (d : BitVec 5) (a : BitVec 5) (b : BitVec 5) (r : BitVec 3) (t : BitVec 3) (s : State) : Res :=
  single (Instr.vmin d a b r t).wf 0x04 1 2 (slotVmin d a b r t) s

/-- `VMAX` (R384). -/
def execVmax (d : BitVec 5) (a : BitVec 5) (b : BitVec 5) (r : BitVec 3) (t : BitVec 3) (s : State) : Res :=
  single (Instr.vmax d a b r t).wf 0x05 1 2 (slotVmax d a b r t) s

/-- `VIADD` (R384). -/
def execViadd (d : BitVec 5) (a : BitVec 5) (b : BitVec 5) (r : BitVec 3) (t : BitVec 3) (s : State) : Res :=
  single (Instr.viadd d a b r t).wf 0x06 1 2 (slotViadd d a b r t) s

/-- `VIMUL` (R384). -/
def execVimul (d : BitVec 5) (a : BitVec 5) (b : BitVec 5) (r : BitVec 3) (t : BitVec 3) (s : State) : Res :=
  single (Instr.vimul d a b r t).wf 0x07 1 2 (slotVimul d a b r t) s

/-- `VIMAX` (R384). -/
def execVimax (d : BitVec 5) (a : BitVec 5) (b : BitVec 5) (r : BitVec 3) (t : BitVec 3) (s : State) : Res :=
  single (Instr.vimax d a b r t).wf 0x08 1 2 (slotVimax d a b r t) s

/-- `VIMIN` (R384). -/
def execVimin (d : BitVec 5) (a : BitVec 5) (b : BitVec 5) (r : BitVec 3) (t : BitVec 3) (s : State) : Res :=
  single (Instr.vimin d a b r t).wf 0x09 1 2 (slotVimin d a b r t) s

/-- `VAND` (R387). -/
def execVand (d : BitVec 5) (a : BitVec 5) (b : BitVec 5) (t : BitVec 3) (s : State) : Res :=
  single (Instr.vand d a b t).wf 0x0A 1 2 (slotVand d a b t) s

/-- `VOR` (R387). -/
def execVor (d : BitVec 5) (a : BitVec 5) (b : BitVec 5) (t : BitVec 3) (s : State) : Res :=
  single (Instr.vor d a b t).wf 0x0B 1 2 (slotVor d a b t) s

/-- `VXOR` (R387). -/
def execVxor (d : BitVec 5) (a : BitVec 5) (b : BitVec 5) (t : BitVec 3) (s : State) : Res :=
  single (Instr.vxor d a b t).wf 0x0C 1 2 (slotVxor d a b t) s

/-- `VSHL` (R387). -/
def execVshl (d : BitVec 5) (a : BitVec 5) (b : BitVec 5) (t : BitVec 3) (s : State) : Res :=
  single (Instr.vshl d a b t).wf 0x0D 1 2 (slotVshl d a b t) s

/-- `VSHR` (R387). -/
def execVshr (d : BitVec 5) (a : BitVec 5) (b : BitVec 5) (t : BitVec 3) (s : State) : Res :=
  single (Instr.vshr d a b t).wf 0x0E 1 2 (slotVshr d a b t) s

/-- `VSAR` (R387). -/
def execVsar (d : BitVec 5) (a : BitVec 5) (b : BitVec 5) (t : BitVec 3) (s : State) : Res :=
  single (Instr.vsar d a b t).wf 0x0F 1 2 (slotVsar d a b t) s

/-- `VCMP_EQ` (R388). -/
def execVcmpEq (d : BitVec 5) (a : BitVec 5) (b : BitVec 5) (t : BitVec 3) (s : State) : Res :=
  single (Instr.vcmpEq d a b t).wf 0x10 1 2 (slotVcmpEq d a b t) s

/-- `VCMP_NE` (R388). -/
def execVcmpNe (d : BitVec 5) (a : BitVec 5) (b : BitVec 5) (t : BitVec 3) (s : State) : Res :=
  single (Instr.vcmpNe d a b t).wf 0x10 1 2 (slotVcmpNe d a b t) s

/-- `VCMP_LT` (R388). -/
def execVcmpLt (d : BitVec 5) (a : BitVec 5) (b : BitVec 5) (t : BitVec 3) (s : State) : Res :=
  single (Instr.vcmpLt d a b t).wf 0x10 1 2 (slotVcmpLt d a b t) s

/-- `VCMP_LE` (R388). -/
def execVcmpLe (d : BitVec 5) (a : BitVec 5) (b : BitVec 5) (t : BitVec 3) (s : State) : Res :=
  single (Instr.vcmpLe d a b t).wf 0x10 1 2 (slotVcmpLe d a b t) s

/-- `VCMP_GT` (R388). -/
def execVcmpGt (d : BitVec 5) (a : BitVec 5) (b : BitVec 5) (t : BitVec 3) (s : State) : Res :=
  single (Instr.vcmpGt d a b t).wf 0x10 1 2 (slotVcmpGt d a b t) s

/-- `VCMP_GE` (R388). -/
def execVcmpGe (d : BitVec 5) (a : BitVec 5) (b : BitVec 5) (t : BitVec 3) (s : State) : Res :=
  single (Instr.vcmpGe d a b t).wf 0x10 1 2 (slotVcmpGe d a b t) s

/-- `VSEL` (R390). -/
def execVsel (d : BitVec 5) (a : BitVec 5) (b : BitVec 5) (g : BitVec 5) (s : State) : Res :=
  single (Instr.vsel d a b g).wf 0x11 1 2 (slotVsel d a b g) s

/-- `VSELM` (R390). -/
def execVselm (d : BitVec 5) (a : BitVec 5) (b : BitVec 5) (c : BitVec 5) (s : State) : Res :=
  single (Instr.vselm d a b c).wf 0x12 2 2 (slotVselm d a b c) s

/-- `VISAB` (R389). -/
def execVisab (d : BitVec 5) (a : BitVec 5) (t : BitVec 3) (s : State) : Res :=
  single (Instr.visab d a t).wf 0x13 1 2 (slotVisab d a t) s

/-- `VISPR` (R389). -/
def execVispr (d : BitVec 5) (a : BitVec 5) (t : BitVec 3) (s : State) : Res :=
  single (Instr.vispr d a t).wf 0x14 1 2 (slotVispr d a t) s

/-- `VFILL` (R389). -/
def execVfill (d : BitVec 5) (a : BitVec 5) (b : BitVec 5) (t : BitVec 3) (s : State) : Res :=
  single (Instr.vfill d a b t).wf 0x15 1 2 (slotVfill d a b t) s

/-- `VNEG` (R384). -/
def execVneg (d : BitVec 5) (a : BitVec 5) (r : BitVec 3) (t : BitVec 3) (s : State) : Res :=
  single (Instr.vneg d a r t).wf 0x16 1 2 (slotVneg d a r t) s

/-- `VMAG` (R384). -/
def execVmag (d : BitVec 5) (a : BitVec 5) (r : BitVec 3) (t : BitVec 3) (s : State) : Res :=
  single (Instr.vmag d a r t).wf 0x17 1 2 (slotVmag d a r t) s

/-- `VEXP` (R386). -/
def execVexp (d : BitVec 5) (a : BitVec 5) (r : BitVec 3) (t : BitVec 3) (s : State) : Res :=
  single (Instr.vexp d a r t).wf 0x18 1 2 (slotVexp d a r t) s

/-- `VLOG` (R386). -/
def execVlog (d : BitVec 5) (a : BitVec 5) (r : BitVec 3) (t : BitVec 3) (s : State) : Res :=
  single (Instr.vlog d a r t).wf 0x19 1 2 (slotVlog d a r t) s

/-- `VRCP` (R386). -/
def execVrcp (d : BitVec 5) (a : BitVec 5) (r : BitVec 3) (t : BitVec 3) (s : State) : Res :=
  single (Instr.vrcp d a r t).wf 0x1A 1 2 (slotVrcp d a r t) s

/-- `VSQRT` (R386). -/
def execVsqrt (d : BitVec 5) (a : BitVec 5) (r : BitVec 3) (t : BitVec 3) (s : State) : Res :=
  single (Instr.vsqrt d a r t).wf 0x1B 1 2 (slotVsqrt d a r t) s

/-- `VRSQRT` (R386). -/
def execVrsqrt (d : BitVec 5) (a : BitVec 5) (r : BitVec 3) (t : BitVec 3) (s : State) : Res :=
  single (Instr.vrsqrt d a r t).wf 0x1C 1 2 (slotVrsqrt d a r t) s

/-- `VTANH` (R386). -/
def execVtanh (d : BitVec 5) (a : BitVec 5) (r : BitVec 3) (t : BitVec 3) (s : State) : Res :=
  single (Instr.vtanh d a r t).wf 0x1D 1 2 (slotVtanh d a r t) s

/-- `VSIGM` (R386). -/
def execVsigm (d : BitVec 5) (a : BitVec 5) (r : BitVec 3) (t : BitVec 3) (s : State) : Res :=
  single (Instr.vsigm d a r t).wf 0x1E 1 2 (slotVsigm d a r t) s

/-- `VGELU` (R386). -/
def execVgelu (d : BitVec 5) (a : BitVec 5) (r : BitVec 3) (t : BitVec 3) (s : State) : Res :=
  single (Instr.vgelu d a r t).wf 0x1F 1 2 (slotVgelu d a r t) s

/-- `VFMA` (R385). -/
def execVfma (d : BitVec 5) (a : BitVec 5) (b : BitVec 5) (r : BitVec 3) (t : BitVec 3) (c : BitVec 5) (s : State) : Res :=
  single (Instr.vfma d a b r t c).wf 0x20 2 2 (slotVfma d a b r t c) s

/-- `VFMS` (R385). -/
def execVfms (d : BitVec 5) (a : BitVec 5) (b : BitVec 5) (r : BitVec 3) (t : BitVec 3) (c : BitVec 5) (s : State) : Res :=
  single (Instr.vfms d a b r t c).wf 0x21 2 2 (slotVfms d a b r t c) s

/-- `VFNMA` (R385). -/
def execVfnma (d : BitVec 5) (a : BitVec 5) (b : BitVec 5) (r : BitVec 3) (t : BitVec 3) (c : BitVec 5) (s : State) : Res :=
  single (Instr.vfnma d a b r t c).wf 0x22 2 2 (slotVfnma d a b r t c) s

/-- `VRED_SUM` (R391). -/
def execVredSum (d : BitVec 5) (a : BitVec 5) (x : BitVec 1) (t : BitVec 3) (s : State) : Res :=
  single (Instr.vredSum d a x t).wf 0x28 1 2 (slotVredSum d a x t) s

/-- `VRED_MAX` (R391). -/
def execVredMax (d : BitVec 5) (a : BitVec 5) (x : BitVec 1) (t : BitVec 3) (s : State) : Res :=
  single (Instr.vredMax d a x t).wf 0x28 1 2 (slotVredMax d a x t) s

/-- `VRED_MIN` (R391). -/
def execVredMin (d : BitVec 5) (a : BitVec 5) (x : BitVec 1) (t : BitVec 3) (s : State) : Res :=
  single (Instr.vredMin d a x t).wf 0x28 1 2 (slotVredMin d a x t) s

/-- `VRED_MEAN` (R391). -/
def execVredMean (d : BitVec 5) (a : BitVec 5) (x : BitVec 1) (t : BitVec 3) (s : State) : Res :=
  single (Instr.vredMean d a x t).wf 0x28 1 2 (slotVredMean d a x t) s

/-- `VRED_COUNT` (R391). -/
def execVredCount (d : BitVec 5) (a : BitVec 5) (x : BitVec 1) (t : BitVec 3) (s : State) : Res :=
  single (Instr.vredCount d a x t).wf 0x28 1 2 (slotVredCount d a x t) s

/-- `VCVT` (R392). -/
def execVcvt (d : BitVec 5) (a : BitVec 5) (u : BitVec 3) (t : BitVec 3) (x : Option CvtExt) (s : State) : Res :=
  single (Instr.vcvt d a u t x).wf 0x2A (xWords x) 2 (slotVcvt d a u t x) s

/-- `VTRN` (R397). -/
def execVtrn (d : BitVec 5) (a : BitVec 5) (s : State) : Res :=
  single (Instr.vtrn d a).wf 0x30 1 2 (slotVtrn d a) s

/-- `VPERM` (R397). -/
def execVperm (d : BitVec 5) (a : BitVec 5) (b : BitVec 5) (s : State) : Res :=
  single (Instr.vperm d a b).wf 0x31 1 2 (slotVperm d a b) s

/-- `VBROW` (R397). -/
def execVbrow (d : BitVec 5) (a : BitVec 5) (f : BitVec 6) (s : State) : Res :=
  single (Instr.vbrow d a f).wf 0x32 1 2 (slotVbrow d a f) s

/-- `VBCS` (R397). -/
def execVbcs (d : BitVec 5) (a : BitVec 5) (t : BitVec 3) (s : State) : Res :=
  single (Instr.vbcs d a t).wf 0x33 1 2 (slotVbcs d a t) s

/-- `VMOV` (R397). -/
def execVmov (d : BitVec 5) (a : BitVec 5) (s : State) : Res :=
  single (Instr.vmov d a).wf 0x34 1 2 (slotVmov d a) s

/-- `VEXT` (R398). -/
def execVext (d : BitVec 5) (a : BitVec 5) (b : BitVec 5) (t : BitVec 3) (s : State) : Res :=
  single (Instr.vext d a b t).wf 0x35 1 2 (slotVext d a b t) s

/-- `VINS` (R398). -/
def execVins (d : BitVec 5) (a : BitVec 5) (b : BitVec 5) (t : BitVec 3) (s : State) : Res :=
  single (Instr.vins d a b t).wf 0x36 1 2 (slotVins d a b t) s

/-- `VTMASK` (R399). -/
def execVtmask (d : BitVec 5) (a : BitVec 5) (s : State) : Res :=
  single (Instr.vtmask d a).wf 0x38 1 2 (slotVtmask d a) s

/-- `VLD` (R393). -/
def execVld (d : BitVec 5) (a : BitVec 5) (w : BitVec 4) (x : Option (BitVec 18)) (s : State) : Res :=
  single (Instr.vld d a w x).wf 0x3C (xWords x) 2 (slotVld d a w x) s

/-- `VST` (R393). -/
def execVst (g : BitVec 5) (a : BitVec 5) (b : BitVec 5) (w : BitVec 4) (x : Option (BitVec 18)) (s : State) : Res :=
  single (Instr.vst g a b w x).wf 0x3D (xWords x) 2 (slotVst g a b w x) s

/-- `VLDC` (R395). -/
def execVldc (d : BitVec 5) (a : BitVec 5) (w : BitVec 4) (x : VldcExt) (s : State) : Res :=
  single (Instr.vldc d a w x).wf 0x3E 2 2 (slotVldc d a w x) s

/-- `VSTC` (R396). -/
def execVstc (g : BitVec 5) (a : BitVec 5) (b : BitVec 5) (w : BitVec 4) (x : VstcExt) (s : State) : Res :=
  single (Instr.vstc g a b w x).wf 0x3F 2 2 (slotVstc g a b w x) s

/-- `MLDB` (R403). -/
def execMldb (a : BitVec 5) (w : BitVec 4) (s : State) : Res :=
  single (Instr.mldb a w).wf 0x01 1 4 (slotMldb a w) s

/-- `MLDBT` (R403). -/
def execMldbt (a : BitVec 5) (w : BitVec 4) (s : State) : Res :=
  single (Instr.mldbt a w).wf 0x02 1 4 (slotMldbt a w) s

/-- `MMA` (R406). -/
def execMma (t : BitVec 3) (a : BitVec 5) (w : BitVec 4) (s : State) : Res :=
  single (Instr.mma t a w).wf 0x08 1 4 (slotMma t a w) s

/-- `MMA_C` (R410). -/
def execMmaC (t : BitVec 3) (a : BitVec 5) (w : BitVec 4) (s : State) : Res :=
  single (Instr.mmaC t a w).wf 0x08 1 4 (slotMmaC t a w) s

/-- `MDRN_RAW` (R414). -/
def execMdrnRaw (t : BitVec 3) (a : BitVec 5) (w : BitVec 4) (r : BitVec 2) (x : Option (BitVec 5)) (s : State) : Res :=
  single (Instr.mdrnRaw t a w r x).wf 0x10 (xWords x) 4 (slotMdrnRaw t a w r x) s

/-- `MDRN_RAWA` (R414). -/
def execMdrnRawa (t : BitVec 3) (a : BitVec 5) (w : BitVec 4) (r : BitVec 2) (x : Option (BitVec 5)) (s : State) : Res :=
  single (Instr.mdrnRawa t a w r x).wf 0x10 (xWords x) 4 (slotMdrnRawa t a w r x) s

/-- `MDRN_MEAN` (R414). -/
def execMdrnMean (t : BitVec 3) (a : BitVec 5) (w : BitVec 4) (r : BitVec 2) (x : Option (BitVec 5)) (s : State) : Res :=
  single (Instr.mdrnMean t a w r x).wf 0x10 (xWords x) 4 (slotMdrnMean t a w r x) s

/-- `MDRN_COUNT` (R414). -/
def execMdrnCount (t : BitVec 3) (a : BitVec 5) (w : BitVec 4) (r : BitVec 2) (x : Option (BitVec 5)) (s : State) : Res :=
  single (Instr.mdrnCount t a w r x).wf 0x10 (xWords x) 4 (slotMdrnCount t a w r x) s

/-- `MCLR` (R416). -/
def execMclr (t : BitVec 3) (s : State) : Res :=
  single (Instr.mclr t).wf 0x11 1 4 (slotMclr t) s

/-- `SCL_A` (R412). -/
def execSclA (a : BitVec 5) (w : BitVec 4) (s : State) : Res :=
  single (Instr.sclA a w).wf 0x01 1 5 (slotSclA a w) s

/-- `SCL_B` (R412). -/
def execSclB (a : BitVec 5) (w : BitVec 4) (s : State) : Res :=
  single (Instr.sclB a w).wf 0x01 1 5 (slotSclB a w) s

/-- `SCLR_A` (R412). -/
def execSclrA (s : State) : Res :=
  single (Instr.sclrA).wf 0x02 1 5 (slotSclrA) s

/-- `SCLR_B` (R412). -/
def execSclrB (s : State) : Res :=
  single (Instr.sclrB).wf 0x02 1 5 (slotSclrB) s

/-- `CPY` (R425). -/
def execCpy (a : BitVec 5) (l : BitVec 3) (n : BitVec 1) (x : Option (BitVec 16)) (s : State) : Res :=
  single (Instr.cpy a l n x).wf 0x00 (xWords x) 6 (slotCpy a l n x) s

/-- `CPYAW` (R430). -/
def execCpyaw (d : BitVec 3) (a : BitVec 5) (l : BitVec 3) (n : BitVec 1) (x : Option (BitVec 16)) (s : State) : Res :=
  single (Instr.cpyaw d a l n x).wf 0x01 (xWords x) 6 (slotCpyaw d a l n x) s

/-- `CPYMC` (R431). -/
def execCpymc (a : BitVec 5) (l : BitVec 3) (n : BitVec 1) (x : Option (BitVec 16)) (s : State) : Res :=
  single (Instr.cpymc a l n x).wf 0x02 (xWords x) 6 (slotCpymc a l n x) s

/-- `CPYRM` (R432). -/
def execCpyrm (a : BitVec 5) (l : BitVec 3) (n : BitVec 1) (x : Option (BitVec 16)) (s : State) : Res :=
  single (Instr.cpyrm a l n x).wf 0x03 (xWords x) 6 (slotCpyrm a l n x) s

/-- `RMAPOST` (R434). -/
def execRmapost (a : BitVec 5) (b : BitVec 5) (l : BitVec 3) (n : BitVec 1) (x : Option (BitVec 16)) (s : State) : Res :=
  single (Instr.rmapost a b l n x).wf 0x04 (xWords x) 6 (slotRmapost a b l n x) s

/-- `SOPEN` (R437). -/
def execSopen (d : BitVec 3) (a : BitVec 5) (s : State) : Res :=
  single (Instr.sopen d a).wf 0x08 1 6 (slotSopen d a) s

/-- `SPUSH` (R438). -/
def execSpush (d : BitVec 5) (a : BitVec 3) (b : BitVec 5) (s : State) : Res :=
  single (Instr.spush d a b).wf 0x09 1 6 (slotSpush d a b) s

/-- `SPOP` (R439). -/
def execSpop (d : BitVec 5) (a : BitVec 3) (s : State) : Res :=
  single (Instr.spop d a).wf 0x0A 1 6 (slotSpop d a) s

/-- `SCLOSE` (R440). -/
def execSclose (a : BitVec 3) (s : State) : Res :=
  single (Instr.sclose a).wf 0x0B 1 6 (slotSclose a) s

/-- `SSTAT` (R440). -/
def execSstat (d : BitVec 5) (a : BitVec 3) (s : State) : Res :=
  single (Instr.sstat d a).wf 0x0C 1 6 (slotSstat d a) s

/-- `CKOPEN` (R441). -/
def execCkopen (d : BitVec 3) (a : BitVec 5) (s : State) : Res :=
  single (Instr.ckopen d a).wf 0x10 1 6 (slotCkopen d a) s

/-- `CKHOLD` (R443). -/
def execCkhold (a : BitVec 3) (b : BitVec 5) (s : State) : Res :=
  single (Instr.ckhold a b).wf 0x11 1 6 (slotCkhold a b) s

/-- `CKSEND` (R442). -/
def execCksend (c : BitVec 5) (a : BitVec 3) (b : BitVec 5) (l : BitVec 3) (n : BitVec 1) (x : Option (BitVec 16)) (s : State) : Res :=
  single (Instr.cksend c a b l n x).wf 0x12 (xWords x) 6 (slotCksend c a b l n x) s

/-- `CKCLOSE` (R443). -/
def execCkclose (a : BitVec 3) (s : State) : Res :=
  single (Instr.ckclose a).wf 0x13 1 6 (slotCkclose a) s

/-- `CKSTAT` (R443). -/
def execCkstat (d : BitVec 5) (a : BitVec 3) (s : State) : Res :=
  single (Instr.ckstat d a).wf 0x14 1 6 (slotCkstat d a) s

/-- `KVCOMMIT` (R436). -/
def execKvcommit (d : BitVec 5) (a : BitVec 5) (b : BitVec 5) (l : BitVec 3) (n : BitVec 1) (x : Option (BitVec 16)) (s : State) : Res :=
  single (Instr.kvcommit d a b l n x).wf 0x18 (xWords x) 6 (slotKvcommit d a b l n x) s

/-- `LAUNCH` (R444). -/
def execLaunch (a : BitVec 5) (b : BitVec 5) (s : State) : Res :=
  single (Instr.launch a b).wf 0x19 1 6 (slotLaunch a b) s

end Sys2Proof.Machine
end

