-- ==== Sys2Proof/Machine/Tick.lean ====
section
/-!
DEFINITION. The cicada (R17) and what a tick brings: the version filters (R65), `fence.sc` (R262), samples (R213), the watchdog
(R314), the periodic drain (R55-R57); results at their write points (R226) and trap entry (R308) as events of their own.
-/

namespace Sys2Proof.Machine

open Sys2Proof

/-! ## The tick (R17) -/

/-- A context at a tick: a `fence.sc` that waits for it completes (R262), and the watchdog counts (R314). -/
def tickCtx (s : State) (x : Nat) : State :=
  let c := getX s x
  if !c.task || c.halted then s
  else
    let s1 := if c.inh then s else modX s x (fun d => { d with wdCount := d.wdCount + 1 })
    if c.await = .fenceSc 3 then acquireEnd s1 x true else s1

/-- The events of a tick's first cycle: the drain at each multiple of 128 (R56), the decay at each multiple of 16 (R59), the
placement evaluation at each multiple of 4,096 (R142), the samples that are due (R216). -/
def tickEvents (s : State) : State :=
  let n := s.cicada.toNat
  let s1 := if n % 128 = 0 then addTimer s 0 .periodicDrain EvArg.zero else s
  let s2 := if n % 16 = 0 then addTimer s1 0 .sluiceDecay EvArg.zero else s1
  let s3 := if n % 4096 = 0 then ((List.range 8).filter (dieOk s2)).foldl (fun t d => addTimer t 0 .placementEvaluation (EvArg.of2 d 0)) s2 else s2
  (s3.ctxs.filter (fun e => e.2.task && !e.2.qr.isEmpty)).foldl
    (fun t e => addTimer t 0 .streamSampleApplication (EvArg.of e.1)) s3

/-- CICADA_TICK: R17. -/
def execCicadaTick (s : State) : Res :=
  gate (s.running && decide (256 ≤ s.sub)) "CICADA_TICK" (fun t =>
    let t1 : State := { t with sub := t.sub - 256, cicada := t.cicada + 1 }
    let t2 := (t1.cores.map (·.1)).foldl filterFree t1
    let t3 := (t2.ctxs.map (·.1)).foldl tickCtx t2
    tickEvents (sackAll (sampleAll t3))) s

/-! ## The periodic drain (R55-R57) -/

/-- The routers of the plane by number: router r of compute die k is 72 k + r, that of memory die j is 576 + j.  This is the number of a place
at which a link ends. -/
def nodeOf : Loc → Nat
  | .router k x y _ => 72 * k + (9 * y + x)
  | .mem j _ => 576 + j
  | _ => 584

/-- The directed links that leave a router of the healthy plane, each with its port and the place at which it ends: mesh links,
die-to-die links, memory ports (R55).  A link and its reverse have the same port at a router. -/
def outLinks (s : State) (node : Nat) : List (Nat × Loc) :=
  if node < 576 then
    let k := node / 72
    let x := node % 72 % 9
    let y := node % 72 / 9
    let up (n : Nat) : Bool := !s.mgmt.down.contains (meshLink k (routerNo (x, y)) n)
    let hub (n : Nat) : Bool := gatewayXY n == (x, y)
    if !dieOk s k then [] else
      (if x < 8 ∧ up 0 then [(0, .router k (x + 1) y 1)] else []) ++ (if 0 < x ∧ up 1 then [(1, .router k (x - 1) y 0)] else [])
      ++ (if y < 7 ∧ up 2 then [(2, .router k x (y + 1) 3)] else []) ++ (if 0 < y ∧ up 3 then [(3, .router k x (y - 1) 2)] else [])
      ++ (tab 5 id).filterMap (fun n => if hub n && gateOpen s k n then some (5 + n, wireEnd (linkKey k n)) else none)
  else [3, 4].filterMap (fun n => if gateOpen s (across (8 + (node - 576)) n).1 n then some (n, wireEnd (linkKey (8 + (node - 576)) n)) else none)
where
  gateOpen (s : State) (k n : Nat) : Bool :=
    if n = 0 then ringUp s k else if n = 1 then ringUp s ((k + 7) % 8) else if n = 2 then chordUp s k
    else memOk s ((across k n).1 - 8) && memPortUp s k ((across k n).1 - 8)

/-- A spanning tree of the plane from C0: for each router reached, the port that leads to its parent.  `seen` is a set of numbers. -/
def drainTree (s : State) : Nat → List Nat → Nat → List (Nat × Nat) → List (Nat × Nat)
  | 0, _, _, t => t
  | f + 1, front, seen, t =>
    let r := front.foldl (fun (a : List Nat × Nat × List (Nat × Nat)) u => (outLinks s u).foldl (fun b o =>
      let v := nodeOf o.2
      if b.2.1.testBit v then b else (v :: b.1, b.2.1 ||| 2 ^ v, (v, inPort o.2) :: b.2.2)) a) ([], seen, t)
    if r.1.isEmpty then r.2.2 else drainTree s f r.1 r.2.1 r.2.2

/-- The port of a router that leads to its parent in the tree. -/
def parentPort (t : List (Nat × Nat)) (u : Nat) : Option Nat := (t.find? (fun e => e.1 == u)).map (·.2)

/-- A link is of the tree, seen from one end. -/
def treeLink (t : List (Nat × Nat)) (u : Nat) (o : Nat × Loc) : Bool :=
  parentPort t u == some o.1 || parentPort t (nodeOf o.2) == some (inPort o.2)

/-- The ports of a router between which the cycle turns: tree links to children and the links outside the tree that it owns, as
the lower-numbered end, ascending; then the link to its parent. -/
def drainTurn (s : State) (t : List (Nat × Nat)) (u : Nat) : List (Nat × Loc) :=
  let l := outLinks s u
  l.filter (fun o => parentPort t u != some o.1 && (treeLink t u o || decide (u < nodeOf o.2)))
  ++ l.filter (fun o => parentPort t u == some o.1)

/-- The link that follows, in the drain cycle, the link that ends at a router's port (R55): the next of the router's turn; a link outside the
tree that the other end owns is followed by its reverse.  So the order walks around the tree and takes every other link out and
back once: one cycle of all directed links (log entry 18, DESIGN CHOICE of the cycle). -/
def drainNext (s : State) (t : List (Nat × Nat)) (u inp : Nat) : Option Loc :=
  let turn := drainTurn s t u
  if turn.any (fun o => o.1 == inp) then
    ((turn.dropWhile (fun o => o.1 != inp)).drop 1 ++ turn).head?.map (·.2)
  else ((outLinks s u).find? (fun o => o.1 == inp)).map (·.2)

/-- Where the drain moves what stands in the input buffer at the end of a link; injection stores do not move (R56). -/
def drainLoc (s : State) (t : List (Nat × Nat)) (f : Flight) : Option Loc :=
  match f.loc with
  | .router _ _ _ inp => if inp = 4 ∨ 10 ≤ inp then none else drainNext s t (nodeOf f.loc) inp
  | .mem _ inp => if 5 ≤ inp then none else drainNext s t (nodeOf f.loc) inp
  | _ => none

/-- The spanning tree that the drain cycle goes around. -/
def planeTree (s : State) : List (Nat × Nat) := drainTree s 584 [0] 1 []

/-- PERIODIC_DRAIN: R56. -/
def execPeriodicDrain (s : State) : Res :=
  gate (s.running && s.sub == 0 && s.cicada != 0 && s.cicada.toNat % 128 == 0) "PERIODIC_DRAIN" (fun t =>
    let tree := if t.net.isEmpty then [] else planeTree t
    let move (f : Flight) : Flight := match drainLoc t tree f with
      | some l => { f with loc := l, pkt := { f.pkt with disp := true }, arr := 2 * t.cyc }
      | none => f
    { t with net := t.net.map move }) s

/-! ## Results, traps, the watchdog -/

/-- The first result due can be written: it is complete, or its access has failed (R226, R227). -/
def writable (c : Ctx) : Bool :=
  match c.results with
  | [] => false
  | r :: _ => decide (r.wp ≤ c.time) && (match r.stat with | .waiting _ => false | _ => true)

/-- RESULT_WRITE (a: context): R226, R304. -/
def execResultWrite (s : State) : Res :=
  let x := s.arg.a
  gate ((getX s x).task && writable (getX s x)) "RESULT_WRITE" (fun t => settle t x) s

/-- A context stands at a bundle boundary at which a trap may be taken (R183, R305). -/
def atBoundary (s : State) (x : Nat) : Bool :=
  let c := getX s x
  c.task && !c.halted && c.await == .none && c.reload.isNone && decide (c.readyAt ≤ s.cyc) && !notReady c
  && !(getC s (coreOf x)).rounds.any (fun r => r.x == x)

/-- TRAP_ENTRY (a: context): R305, R308. -/
def execTrapEntry (s : State) : Res :=
  let x := s.arg.a
  match boundaryTrap s x with
  | some u => gate (atBoundary s x) "TRAP_ENTRY" (fun _ => u) s
  | none => gate false "TRAP_ENTRY" id s

/-- A freeze that WDOG interrupts: a fence, an acquire, an invalidation (R314). -/
def interruptible : Await → Bool
  | .acquire _ _ => true
  | .fenceCm _ _ _ => true
  | .fenceSc _ => true
  | .waitAcq _ _ => true
  | .rdc _ _ => true
  | .inv _ _ _ _ => true
  | _ => false

/-- TI.ENA.WDOG (R306). -/
def wdLimit (c : Ctx) : Nat := bitsN (mget 0 c.ti 8) 16 16

/-- The watchdog of a context has expired, and WDOG is not pending yet; a context that is ending takes none (R314, R357). -/
def wdExpired (c : Ctx) : Bool :=
  c.task && !c.inh && !c.halted && wdLimit c != 0 && decide (wdLimit c ≤ c.wdCount) && !pendBit c cWDOG
  && (match c.await with | .ending _ => false | _ => true)

/-- WDOG (a: context): it becomes pending and is logged; a freeze that it interrupts ends in the trap at once (R314). -/
def execWdog (s : State) : Res :=
  let x := s.arg.a
  gate (wdExpired (getX s x)) "WDOG" (fun t =>
    let c := getX t x
    let k := coreOf x
    let t1 := modX t x (fun d => setPend d cWDOG true)
    let t2 := bbxLog t1 0x0C (dieOf k) cWDOG c.part.toNat (epUnit (coreEp t k)) (BitVec.ofNat 128 x)
    if interruptible c.await then (match boundaryTrap t2 x with | some u => u | none => t2) else t2) s

end Sys2Proof.Machine
end

