-- ==== Sys2Proof/Machine/Dispatch.lean ====
section
/-!
DEFINITION. One arm for each row of the opcode table.
-/

namespace Sys2Proof.Machine

open Sys2Proof

def exec (i : Instr) (s : State) : Host.Outcome State Fault Refusal :=
  match i with
  | .nop => Sys2Proof.Machine.execNop s
  | .add d a b => Sys2Proof.Machine.execAdd d a b s
  | .sub d a b => Sys2Proof.Machine.execSub d a b s
  | .mul d a b => Sys2Proof.Machine.execMul d a b s
  | .mulh d a b => Sys2Proof.Machine.execMulh d a b s
  | .mulhz d a b => Sys2Proof.Machine.execMulhz d a b s
  | .div d a b => Sys2Proof.Machine.execDiv d a b s
  | .divz d a b => Sys2Proof.Machine.execDivz d a b s
  | .rem d a b => Sys2Proof.Machine.execRem d a b s
  | .remz d a b => Sys2Proof.Machine.execRemz d a b s
  | .and d a b => Sys2Proof.Machine.execAnd d a b s
  | .or d a b => Sys2Proof.Machine.execOr d a b s
  | .xor d a b => Sys2Proof.Machine.execXor d a b s
  | .andn d a b => Sys2Proof.Machine.execAndn d a b s
  | .shl d a b => Sys2Proof.Machine.execShl d a b s
  | .shr d a b => Sys2Proof.Machine.execShr d a b s
  | .sar d a b => Sys2Proof.Machine.execSar d a b s
  | .rol d a b => Sys2Proof.Machine.execRol d a b s
  | .min d a b => Sys2Proof.Machine.execMin d a b s
  | .max d a b => Sys2Proof.Machine.execMax d a b s
  | .minz d a b => Sys2Proof.Machine.execMinz d a b s
  | .maxz d a b => Sys2Proof.Machine.execMaxz d a b s
  | .clz d a => Sys2Proof.Machine.execClz d a s
  | .ctz d a => Sys2Proof.Machine.execCtz d a s
  | .popc d a => Sys2Proof.Machine.execPopc d a s
  | .extB d a => Sys2Proof.Machine.execExtB d a s
  | .extH d a => Sys2Proof.Machine.execExtH d a s
  | .extW d a => Sys2Proof.Machine.execExtW d a s
  | .extzB d a => Sys2Proof.Machine.execExtzB d a s
  | .extzH d a => Sys2Proof.Machine.execExtzH d a s
  | .extzW d a => Sys2Proof.Machine.execExtzW d a s
  | .mov d a => Sys2Proof.Machine.execMov d a s
  | .addi d a im x => Sys2Proof.Machine.execAddi d a im x s
  | .muli d a im x => Sys2Proof.Machine.execMuli d a im x s
  | .andi d a im x => Sys2Proof.Machine.execAndi d a im x s
  | .ori d a im x => Sys2Proof.Machine.execOri d a im x s
  | .xori d a im x => Sys2Proof.Machine.execXori d a im x s
  | .shli d a im => Sys2Proof.Machine.execShli d a im s
  | .shri d a im => Sys2Proof.Machine.execShri d a im s
  | .sari d a im => Sys2Proof.Machine.execSari d a im s
  | .movi d im x => Sys2Proof.Machine.execMovi d im x s
  | .movh d im => Sys2Proof.Machine.execMovh d im s
  | .cmpEq d a b => Sys2Proof.Machine.execCmpEq d a b s
  | .cmpNe d a b => Sys2Proof.Machine.execCmpNe d a b s
  | .cmpLt d a b => Sys2Proof.Machine.execCmpLt d a b s
  | .cmpLe d a b => Sys2Proof.Machine.execCmpLe d a b s
  | .cmpLo d a b => Sys2Proof.Machine.execCmpLo d a b s
  | .cmpLs d a b => Sys2Proof.Machine.execCmpLs d a b s
  | .cmpiEq d a im x => Sys2Proof.Machine.execCmpiEq d a im x s
  | .cmpiNe d a im x => Sys2Proof.Machine.execCmpiNe d a im x s
  | .cmpiLt d a im x => Sys2Proof.Machine.execCmpiLt d a im x s
  | .cmpiLe d a im x => Sys2Proof.Machine.execCmpiLe d a im x s
  | .cmpiLo d a im x => Sys2Proof.Machine.execCmpiLo d a im x s
  | .cmpiLs d a im x => Sys2Proof.Machine.execCmpiLs d a im x s
  | .pand d a b => Sys2Proof.Machine.execPand d a b s
  | .por d a b => Sys2Proof.Machine.execPor d a b s
  | .pxor d a b => Sys2Proof.Machine.execPxor d a b s
  | .pandn d a b => Sys2Proof.Machine.execPandn d a b s
  | .pnot d a => Sys2Proof.Machine.execPnot d a s
  | .sel d a b g => Sys2Proof.Machine.execSel d a b g s
  | .ldB d a im x => Sys2Proof.Machine.execLdB d a im x s
  | .ldH d a im x => Sys2Proof.Machine.execLdH d a im x s
  | .ldW d a im x => Sys2Proof.Machine.execLdW d a im x s
  | .ldD d a im x => Sys2Proof.Machine.execLdD d a im x s
  | .ldzB d a im x => Sys2Proof.Machine.execLdzB d a im x s
  | .ldzH d a im x => Sys2Proof.Machine.execLdzH d a im x s
  | .ldzW d a im x => Sys2Proof.Machine.execLdzW d a im x s
  | .stB g a b im x => Sys2Proof.Machine.execStB g a b im x s
  | .stH g a b im x => Sys2Proof.Machine.execStH g a b im x s
  | .stW g a b im x => Sys2Proof.Machine.execStW g a b im x s
  | .stD g a b im x => Sys2Proof.Machine.execStD g a b im x s
  | .br g im x => Sys2Proof.Machine.execBr g im x s
  | .call d im x => Sys2Proof.Machine.execCall d im x s
  | .jmp g a => Sys2Proof.Machine.execJmp g a s
  | .jcall d a => Sys2Proof.Machine.execJcall d a s
  | .lvl d a b f => Sys2Proof.Machine.execLvl d a b f s
  | .loop n => Sys2Proof.Machine.execLoop n s
  | .loopSp sc n => Sys2Proof.Machine.execLoopSp sc n s
  | .crr d c => Sys2Proof.Machine.execCrr d c s
  | .crw d c => Sys2Proof.Machine.execCrw d c s
  | .trap im => Sys2Proof.Machine.execTrap im s
  | .tret => Sys2Proof.Machine.execTret s
  | .tend => Sys2Proof.Machine.execTend s
  | .ldgB d a h x => Sys2Proof.Machine.execLdgB d a h x s
  | .ldgH d a h x => Sys2Proof.Machine.execLdgH d a h x s
  | .ldgW d a h x => Sys2Proof.Machine.execLdgW d a h x s
  | .ldgD d a h x => Sys2Proof.Machine.execLdgD d a h x s
  | .ldgzB d a h x => Sys2Proof.Machine.execLdgzB d a h x s
  | .ldgzH d a h x => Sys2Proof.Machine.execLdgzH d a h x s
  | .ldgzW d a h x => Sys2Proof.Machine.execLdgzW d a h x s
  | .stgB g a b h x => Sys2Proof.Machine.execStgB g a b h x s
  | .stgH g a b h x => Sys2Proof.Machine.execStgH g a b h x s
  | .stgW g a b h x => Sys2Proof.Machine.execStgW g a b h x s
  | .stgD g a b h x => Sys2Proof.Machine.execStgD g a b h x s
  | .ldgV d a h x => Sys2Proof.Machine.execLdgV d a h x s
  | .stgV g a b h x => Sys2Proof.Machine.execStgV g a b h x s
  | .xst g a b c => Sys2Proof.Machine.execXst g a b c s
  | .aadd d a b h z x => Sys2Proof.Machine.execAadd d a b h z x s
  | .asub d a b h z x => Sys2Proof.Machine.execAsub d a b h z x s
  | .aand d a b h z x => Sys2Proof.Machine.execAand d a b h z x s
  | .aor d a b h z x => Sys2Proof.Machine.execAor d a b h z x s
  | .axor d a b h z x => Sys2Proof.Machine.execAxor d a b h z x s
  | .amin d a b h z x => Sys2Proof.Machine.execAmin d a b h z x s
  | .amax d a b h z x => Sys2Proof.Machine.execAmax d a b h z x s
  | .aminz d a b h z x => Sys2Proof.Machine.execAminz d a b h z x s
  | .amaxz d a b h z x => Sys2Proof.Machine.execAmaxz d a b h z x s
  | .aswp d a b h z x => Sys2Proof.Machine.execAswp d a b h z x s
  | .acas d a b h z x => Sys2Proof.Machine.execAcas d a b h z x s
  | .afadd d a b h z x => Sys2Proof.Machine.execAfadd d a b h z x s
  | .trans d a => Sys2Proof.Machine.execTrans d a s
  | .transAr d a => Sys2Proof.Machine.execTransAr d a s
  | .hstat d a => Sys2Proof.Machine.execHstat d a s
  | .inv a b => Sys2Proof.Machine.execInv a b s
  | .invAll => Sys2Proof.Machine.execInvAll s
  | .fenceCm sc m => Sys2Proof.Machine.execFenceCm sc m s
  | .fenceSc => Sys2Proof.Machine.execFenceSc s
  | .gbar => Sys2Proof.Machine.execGbar s
  | .phase p => Sys2Proof.Machine.execPhase p s
  | .tlwait sc a b => Sys2Proof.Machine.execTlwait sc a b s
  | .tlinc a b => Sys2Proof.Machine.execTlinc a b s
  | .tlrd d a => Sys2Proof.Machine.execTlrd d a s
  | .tlmwait sc a b h => Sys2Proof.Machine.execTlmwait sc a b h s
  | .tlmsig sc a b h => Sys2Proof.Machine.execTlmsig sc a b h s
  | .tbinit c a b => Sys2Proof.Machine.execTbinit c a b s
  | .tbarr a b => Sys2Proof.Machine.execTbarr a b s
  | .tbwait sc a b => Sys2Proof.Machine.execTbwait sc a b s
  | .vadd d a b r t => Sys2Proof.Machine.execVadd d a b r t s
  | .vsub d a b r t => Sys2Proof.Machine.execVsub d a b r t s
  | .vmul d a b r t => Sys2Proof.Machine.execVmul d a b r t s
  | .vdiv d a b r t => Sys2Proof.Machine.execVdiv d a b r t s
  | .vmin d a b r t => Sys2Proof.Machine.execVmin d a b r t s
  | .vmax d a b r t => Sys2Proof.Machine.execVmax d a b r t s
  | .viadd d a b r t => Sys2Proof.Machine.execViadd d a b r t s
  | .vimul d a b r t => Sys2Proof.Machine.execVimul d a b r t s
  | .vimax d a b r t => Sys2Proof.Machine.execVimax d a b r t s
  | .vimin d a b r t => Sys2Proof.Machine.execVimin d a b r t s
  | .vand d a b t => Sys2Proof.Machine.execVand d a b t s
  | .vor d a b t => Sys2Proof.Machine.execVor d a b t s
  | .vxor d a b t => Sys2Proof.Machine.execVxor d a b t s
  | .vshl d a b t => Sys2Proof.Machine.execVshl d a b t s
  | .vshr d a b t => Sys2Proof.Machine.execVshr d a b t s
  | .vsar d a b t => Sys2Proof.Machine.execVsar d a b t s
  | .vcmpEq d a b t => Sys2Proof.Machine.execVcmpEq d a b t s
  | .vcmpNe d a b t => Sys2Proof.Machine.execVcmpNe d a b t s
  | .vcmpLt d a b t => Sys2Proof.Machine.execVcmpLt d a b t s
  | .vcmpLe d a b t => Sys2Proof.Machine.execVcmpLe d a b t s
  | .vcmpGt d a b t => Sys2Proof.Machine.execVcmpGt d a b t s
  | .vcmpGe d a b t => Sys2Proof.Machine.execVcmpGe d a b t s
  | .vsel d a b g => Sys2Proof.Machine.execVsel d a b g s
  | .vselm d a b c => Sys2Proof.Machine.execVselm d a b c s
  | .visab d a t => Sys2Proof.Machine.execVisab d a t s
  | .vispr d a t => Sys2Proof.Machine.execVispr d a t s
  | .vfill d a b t => Sys2Proof.Machine.execVfill d a b t s
  | .vneg d a r t => Sys2Proof.Machine.execVneg d a r t s
  | .vmag d a r t => Sys2Proof.Machine.execVmag d a r t s
  | .vexp d a r t => Sys2Proof.Machine.execVexp d a r t s
  | .vlog d a r t => Sys2Proof.Machine.execVlog d a r t s
  | .vrcp d a r t => Sys2Proof.Machine.execVrcp d a r t s
  | .vsqrt d a r t => Sys2Proof.Machine.execVsqrt d a r t s
  | .vrsqrt d a r t => Sys2Proof.Machine.execVrsqrt d a r t s
  | .vtanh d a r t => Sys2Proof.Machine.execVtanh d a r t s
  | .vsigm d a r t => Sys2Proof.Machine.execVsigm d a r t s
  | .vgelu d a r t => Sys2Proof.Machine.execVgelu d a r t s
  | .vfma d a b r t c => Sys2Proof.Machine.execVfma d a b r t c s
  | .vfms d a b r t c => Sys2Proof.Machine.execVfms d a b r t c s
  | .vfnma d a b r t c => Sys2Proof.Machine.execVfnma d a b r t c s
  | .vredSum d a x t => Sys2Proof.Machine.execVredSum d a x t s
  | .vredMax d a x t => Sys2Proof.Machine.execVredMax d a x t s
  | .vredMin d a x t => Sys2Proof.Machine.execVredMin d a x t s
  | .vredMean d a x t => Sys2Proof.Machine.execVredMean d a x t s
  | .vredCount d a x t => Sys2Proof.Machine.execVredCount d a x t s
  | .vcvt d a u t x => Sys2Proof.Machine.execVcvt d a u t x s
  | .vtrn d a => Sys2Proof.Machine.execVtrn d a s
  | .vperm d a b => Sys2Proof.Machine.execVperm d a b s
  | .vbrow d a f => Sys2Proof.Machine.execVbrow d a f s
  | .vbcs d a t => Sys2Proof.Machine.execVbcs d a t s
  | .vmov d a => Sys2Proof.Machine.execVmov d a s
  | .vext d a b t => Sys2Proof.Machine.execVext d a b t s
  | .vins d a b t => Sys2Proof.Machine.execVins d a b t s
  | .vtmask d a => Sys2Proof.Machine.execVtmask d a s
  | .vld d a w x => Sys2Proof.Machine.execVld d a w x s
  | .vst g a b w x => Sys2Proof.Machine.execVst g a b w x s
  | .vldc d a w x => Sys2Proof.Machine.execVldc d a w x s
  | .vstc g a b w x => Sys2Proof.Machine.execVstc g a b w x s
  | .mldb a w => Sys2Proof.Machine.execMldb a w s
  | .mldbt a w => Sys2Proof.Machine.execMldbt a w s
  | .mma t a w => Sys2Proof.Machine.execMma t a w s
  | .mmaC t a w => Sys2Proof.Machine.execMmaC t a w s
  | .mdrnRaw t a w r x => Sys2Proof.Machine.execMdrnRaw t a w r x s
  | .mdrnRawa t a w r x => Sys2Proof.Machine.execMdrnRawa t a w r x s
  | .mdrnMean t a w r x => Sys2Proof.Machine.execMdrnMean t a w r x s
  | .mdrnCount t a w r x => Sys2Proof.Machine.execMdrnCount t a w r x s
  | .mclr t => Sys2Proof.Machine.execMclr t s
  | .sclA a w => Sys2Proof.Machine.execSclA a w s
  | .sclB a w => Sys2Proof.Machine.execSclB a w s
  | .sclrA => Sys2Proof.Machine.execSclrA s
  | .sclrB => Sys2Proof.Machine.execSclrB s
  | .cpy a l n x => Sys2Proof.Machine.execCpy a l n x s
  | .cpyaw d a l n x => Sys2Proof.Machine.execCpyaw d a l n x s
  | .cpymc a l n x => Sys2Proof.Machine.execCpymc a l n x s
  | .cpyrm a l n x => Sys2Proof.Machine.execCpyrm a l n x s
  | .rmapost a b l n x => Sys2Proof.Machine.execRmapost a b l n x s
  | .sopen d a => Sys2Proof.Machine.execSopen d a s
  | .spush d a b => Sys2Proof.Machine.execSpush d a b s
  | .spop d a => Sys2Proof.Machine.execSpop d a s
  | .sclose a => Sys2Proof.Machine.execSclose a s
  | .sstat d a => Sys2Proof.Machine.execSstat d a s
  | .ckopen d a => Sys2Proof.Machine.execCkopen d a s
  | .ckhold a b => Sys2Proof.Machine.execCkhold a b s
  | .cksend c a b l n x => Sys2Proof.Machine.execCksend c a b l n x s
  | .ckclose a => Sys2Proof.Machine.execCkclose a s
  | .ckstat d a => Sys2Proof.Machine.execCkstat d a s
  | .kvcommit d a b l n x => Sys2Proof.Machine.execKvcommit d a b l n x s
  | .launch a b => Sys2Proof.Machine.execLaunch a b s
  | .coldBoot => Sys2Proof.Machine.execColdBoot s
  | .warmReset => Sys2Proof.Machine.execWarmReset s
  | .bootImageReadResponse => Sys2Proof.Machine.execBootImageReadResponse s
  | .t2size => Sys2Proof.Machine.execT2size s
  | .t2waitExpiry => Sys2Proof.Machine.execT2waitExpiry s
  | .authenticationTimeout => Sys2Proof.Machine.execAuthenticationTimeout s
  | .powerSample => Sys2Proof.Machine.execPowerSample s
  | .thermalTrip => Sys2Proof.Machine.execThermalTrip s
  | .pkgPowerWrite => Sys2Proof.Machine.execPkgPowerWrite s
  | .registerWrite => Sys2Proof.Machine.execRegisterWrite s
  | .cicadaTick => Sys2Proof.Machine.execCicadaTick s
  | .periodicDrain => Sys2Proof.Machine.execPeriodicDrain s
  | .sluiceDecay => Sys2Proof.Machine.execSluiceDecay s
  | .packetRoute => Sys2Proof.Machine.execPacketRoute s
  | .readRequest => Sys2Proof.Machine.execReadRequest s
  | .readResponse => Sys2Proof.Machine.execReadResponse s
  | .write => Sys2Proof.Machine.execWrite s
  | .writeAcknowledgement => Sys2Proof.Machine.execWriteAcknowledgement s
  | .atomicRequest => Sys2Proof.Machine.execAtomicRequest s
  | .atomicResponse => Sys2Proof.Machine.execAtomicResponse s
  | .engineData => Sys2Proof.Machine.execEngineData s
  | .pathMarker => Sys2Proof.Machine.execPathMarker s
  | .markerAcknowledgement => Sys2Proof.Machine.execMarkerAcknowledgement s
  | .reorderTimeout => Sys2Proof.Machine.execReorderTimeout s
  | .requestTimeout => Sys2Proof.Machine.execRequestTimeout s
  | .linkReplay => Sys2Proof.Machine.execLinkReplay s
  | .linkRetrainEnd => Sys2Proof.Machine.execLinkRetrainEnd s
  | .homeSliceFill => Sys2Proof.Machine.execHomeSliceFill s
  | .probeAcknowledgement => Sys2Proof.Machine.execProbeAcknowledgement s
  | .probeRefusal => Sys2Proof.Machine.execProbeRefusal s
  | .circuitBeat => Sys2Proof.Machine.execCircuitBeat s
  | .collapseNotice => Sys2Proof.Machine.execCollapseNotice s
  | .resumePointReport => Sys2Proof.Machine.execResumePointReport s
  | .resumeReportTimeout => Sys2Proof.Machine.execResumeReportTimeout s
  | .leaseExpiry => Sys2Proof.Machine.execLeaseExpiry s
  | .sendAcknowledgement => Sys2Proof.Machine.execSendAcknowledgement s
  | .grainReservation => Sys2Proof.Machine.execGrainReservation s
  | .circuitSetupRequest => Sys2Proof.Machine.execCircuitSetupRequest s
  | .sailBoundary => Sys2Proof.Machine.execSailBoundary s
  | .grain => Sys2Proof.Machine.execGrain s
  | .grainDelivery => Sys2Proof.Machine.execGrainDelivery s
  | .relaySpaceReport => Sys2Proof.Machine.execRelaySpaceReport s
  | .podNextHop => Sys2Proof.Machine.execPodNextHop s
  | .podAccessAdmission => Sys2Proof.Machine.execPodAccessAdmission s
  | .sack => Sys2Proof.Machine.execSack s
  | .podResendTimeout => Sys2Proof.Machine.execPodResendTimeout s
  | .remoteAccessTimeout => Sys2Proof.Machine.execRemoteAccessTimeout s
  | .flushingReadResponse => Sys2Proof.Machine.execFlushingReadResponse s
  | .registrationStateWrite => Sys2Proof.Machine.execRegistrationStateWrite s
  | .rmaTailWrite => Sys2Proof.Machine.execRmaTailWrite s
  | .rmaEnableWrite => Sys2Proof.Machine.execRmaEnableWrite s
  | .rmaErrstopWrite => Sys2Proof.Machine.execRmaErrstopWrite s
  | .rmaNop => Sys2Proof.Machine.execRmaNop s
  | .rmaPut => Sys2Proof.Machine.execRmaPut s
  | .rmaGet => Sys2Proof.Machine.execRmaGet s
  | .rmaWait => Sys2Proof.Machine.execRmaWait s
  | .rmaDescriptorRetire => Sys2Proof.Machine.execRmaDescriptorRetire s
  | .hostMemoryAccess => Sys2Proof.Machine.execHostMemoryAccess s
  | .queueTlWrite => Sys2Proof.Machine.execQueueTlWrite s
  | .queueEnableWrite => Sys2Proof.Machine.execQueueEnableWrite s
  | .queueStopWrite => Sys2Proof.Machine.execQueueStopWrite s
  | .queueEntryTake => Sys2Proof.Machine.execQueueEntryTake s
  | .recordFetch => Sys2Proof.Machine.execRecordFetch s
  | .recordStart => Sys2Proof.Machine.execRecordStart s
  | .gangNode => Sys2Proof.Machine.execGangNode s
  | .gangStart => Sys2Proof.Machine.execGangStart s
  | .gangRestore => Sys2Proof.Machine.execGangRestore s
  | .copyNode => Sys2Proof.Machine.execCopyNode s
  | .collectiveNode => Sys2Proof.Machine.execCollectiveNode s
  | .circuitOpenNode => Sys2Proof.Machine.execCircuitOpenNode s
  | .signalNode => Sys2Proof.Machine.execSignalNode s
  | .subgraphNode => Sys2Proof.Machine.execSubgraphNode s
  | .joinNode => Sys2Proof.Machine.execJoinNode s
  | .waitNode => Sys2Proof.Machine.execWaitNode s
  | .recordRetirement => Sys2Proof.Machine.execRecordRetirement s
  | .create => Sys2Proof.Machine.execCreate s
  | .destroy => Sys2Proof.Machine.execDestroy s
  | .swapout => Sys2Proof.Machine.execSwapout s
  | .swapin => Sys2Proof.Machine.execSwapin s
  | .fence => Sys2Proof.Machine.execFence s
  | .fwupd => Sys2Proof.Machine.execFwupd s
  | .retire => Sys2Proof.Machine.execRetire s
  | .mailboxUnlistedCommand => Sys2Proof.Machine.execMailboxUnlistedCommand s
  | .swapoutSaveEnd => Sys2Proof.Machine.execSwapoutSaveEnd s
  | .swapinRestoreEnd => Sys2Proof.Machine.execSwapinRestoreEnd s
  | .fwupdEnd => Sys2Proof.Machine.execFwupdEnd s
  | .coreRepair => Sys2Proof.Machine.execCoreRepair s
  | .memoryDieFailure => Sys2Proof.Machine.execMemoryDieFailure s
  | .partRsWrite => Sys2Proof.Machine.execPartRsWrite s
  | .priorityChange => Sys2Proof.Machine.execPriorityChange s
  | .invalidationRequest => Sys2Proof.Machine.execInvalidationRequest s
  | .invalidationMarking => Sys2Proof.Machine.execInvalidationMarking s
  | .invalidationConfirmation => Sys2Proof.Machine.execInvalidationConfirmation s
  | .walkNotice => Sys2Proof.Machine.execWalkNotice s
  | .placementEvaluation => Sys2Proof.Machine.execPlacementEvaluation s
  | .plcRetHeadWrite => Sys2Proof.Machine.execPlcRetHeadWrite s
  | .plcLostHeadWrite => Sys2Proof.Machine.execPlcLostHeadWrite s
  | .resultWrite => Sys2Proof.Machine.execResultWrite s
  | .trapEntry => Sys2Proof.Machine.execTrapEntry s
  | .wdog => Sys2Proof.Machine.execWdog s
  | .bundleHoldRelease => Sys2Proof.Machine.execBundleHoldRelease s
  | .phaseDrainEnd => Sys2Proof.Machine.execPhaseDrainEnd s
  | .mmaRowWrite => Sys2Proof.Machine.execMmaRowWrite s
  | .scaleLatchLanding => Sys2Proof.Machine.execScaleLatchLanding s
  | .copyCommandStart => Sys2Proof.Machine.execCopyCommandStart s
  | .copyStageStart => Sys2Proof.Machine.execCopyStageStart s
  | .copyCommandCompletion => Sys2Proof.Machine.execCopyCommandCompletion s
  | .circuitPortCommandStart => Sys2Proof.Machine.execCircuitPortCommandStart s
  | .streamUnitCommandStart => Sys2Proof.Machine.execStreamUnitCommandStart s
  | .rmapostCommandStart => Sys2Proof.Machine.execRmapostCommandStart s
  | .launchCommandStart => Sys2Proof.Machine.execLaunchCommandStart s
  | .streamOpenCheck => Sys2Proof.Machine.execStreamOpenCheck s
  | .sampleFlit => Sys2Proof.Machine.execSampleFlit s
  | .streamSampleApplication => Sys2Proof.Machine.execStreamSampleApplication s
  | .creditFlit => Sys2Proof.Machine.execCreditFlit s
  | .detachFlit => Sys2Proof.Machine.execDetachFlit s
  | .attachFlit => Sys2Proof.Machine.execAttachFlit s
  | .closeFlit => Sys2Proof.Machine.execCloseFlit s
  | .breakFlit => Sys2Proof.Machine.execBreakFlit s
  | .streamLossTimeout => Sys2Proof.Machine.execStreamLossTimeout s
  | .gangBarrierCompletion => Sys2Proof.Machine.execGangBarrierCompletion s
  | .gangBarrierRelease => Sys2Proof.Machine.execGangBarrierRelease s
  | .rejectedStoreReport => Sys2Proof.Machine.execRejectedStoreReport s
  | .blackBoxEntryRead => Sys2Proof.Machine.execBlackBoxEntryRead s
  | .c0ServiceFailure => Sys2Proof.Machine.execC0ServiceFailure s

end Sys2Proof.Machine
end

