-- ==== Sys2Proof/Machine/Cycle.lean ====
section
/-!
DEFINITION. What a core does in a cycle beside issuing: its limits (R20, R243, R244), its accesses, waits, streams, ports and tasks
that end (R357); and the event that comes next by itself (log entry 1, DESIGN CHOICE).
-/

namespace Sys2Proof.Machine

open Sys2Proof

/-! ## Limits and narrowed mode (R20, R243, R244) -/

/-- The power alarm is raised (R20). -/
def alarmOn (s : State) : Bool := mgF s 0 oPower 29 1 == 1

/-- The core holds a context of a latency-critical partition. -/
def holdsLc (s : State) (k : Nat) : Bool := (tasksOn s k).any (fun x => partLc s (getX s x).part.toNat)

/-- Narrowed mode changes at a bundle boundary; EFF follows LIMIT, the alarm and the mode (R243, R244). -/
def setMode (k : Nat) (s : State) : State :=
  modC s k (fun c =>
    let nar := if c.half then c.nar else alarmOn s && holdsLc s k
    { c with nar := nar, eff := if alarmOn s && !nar then BitVec.ofNat 13 (max 80 (3 * c.limit.toNat / 4)) else c.limit })

/-! ## The end of a task (R357) -/

/-- No M-slot instruction of the context is under way. -/
def matrixDone (s : State) (x : Nat) : Bool :=
  let c := getX s x
  let k := getC s (coreOf x)
  c.latches.isEmpty && !hasRounds k x && !k.entry.any (fun e => e.x == x) && !k.loads.any (fun l => l.2.1 == x)
  && (List.range 8).all (fun t => !bit c.acm t || (getAcc k t).busy.isEmpty)

/-- No engine command of the context is in a queue or under way, and its increments are applied. -/
def enginesDone (s : State) (x : Nat) : Bool :=
  let c := getX s x
  c.q1.isEmpty && c.q2.isEmpty && c.q3.isEmpty && c.q4.isEmpty && c.incs.isEmpty
  && (getC s (coreOf x)).runs.all (fun r => r.x != x || r.node.isSome)
  && s.circuits.all (fun q => q.x != x || q.sends.isEmpty) && c.kr.all (fun h => h.2.st != 1)

/-- Everything that a task's end awaits is complete; posted remote stores are not awaited (R357, step 2). -/
def endReached (s : State) (x : Nat) : Bool :=
  (getX s x).accs.all (fun a => overDone a || isPosted a) && matrixDone s x && enginesDone s x

/-- The open circuits of a context close as with CLOSE (R92, R357). -/
def closeCircuits (x : Nat) (s : State) : State :=
  (s.circuits.filter (fun q => q.x == x && handleIs s q 2)).foldl (fun t q => collapse q.cid ckCLOSE false t) s

/-- A context whose task ends (R357). -/
def endStep (x : Nat) (fault : Bool) (s : State) : State :=
  if endReached s x then leaveGang x fault (closePorts x (closeCircuits x s)) else pushWhere x (fun a => !isPosted a) s

/-! ## A core's part of a cycle -/

/-- The freezes of a context go on: what it waits for, its return, its reload, its hold. -/
def resolveCtx (x : Nat) (s : State) : State :=
  let s1 := reloadFront x (resolveAwait s x)
  let s2 := if (getX s1 x).await = .tret then resolveReturn s1 x else settle s1 x
  if (getX s2 x).hold.isSome then refreshHold s2 x else s2

/-- A context's part of the prologue: its accesses leave, its increments are applied, its ports report; then its end, or its
freezes. -/
def ctxProlog (s : State) (x : Nat) : State :=
  if !(getX s x).task then s
  else
    let s1 := streamStep x (settleIncs (pump s x) x)
    match (getX s1 x).await with
    | .ending f => endStep x f s1
    | _ => if (getX s1 x).halted then pushWhere x (fun _ => true) s1 else resolveCtx x s1

/-- The part of a cycle of an engine agent that seeks banks (R238). -/
def agentStep (k : Nat) : Nat → State → State × Bool
  | 0, s => engineStep k 0 s
  | 1, s => engineStep k 1 s
  | 2, s => landStep k (getC s k).lands.length s
  | 3, s => recordStep k (getC s k).recs.length s
  | _, s => circuitSends k s

/-- The banks of a core before a bundle issues: the gather unit's rows, the agents that have been refused for 8 cycles, the unfinished rounds
(R238, R239). -/
def bankProlog (k : Nat) (s : State) : State :=
  let s1 := if (getC s k).early.isEmpty then s else modC s k (fun c => { c with early := [] })
  let s2 := (claimRows k 1 (gatherRows s1 k) s1).1
  serveRounds k ([0, 1, 2, 3, 4].foldl (fun t a => earlyTurn k a (agentStep k a) t) s2)

/-- Before a core issues in a cycle. -/
def coreProlog (k : Nat) (s : State) : State :=
  startProbes k (invalPush k ((tab 4 (fun i => 4 * k + i)).foldl ctxProlog (bankProlog k (landLoads (setMode k s) k))))

/-- A core's engine ports in a cycle, in the order in which banks serve them; limiter freeze cycles do not stop them (R238, R242). -/
def portsStep (k : Nat) (s : State) : State :=
  let turn (a : Nat) (t : State) : State := agentTurn k a (agentStep k a) t
  promoSends k (turn 4 (turn 3 (turn 2 (engineStep k 2 (replayStep k (turn 1 (turn 0 s)))).1)))

/-! ## Events that arise by themselves -/

/-- An event that may come next: its name, its argument, its meaning. -/
structure Cand where
  name : Instr
  arg : EvArg
  eff : State → Res

/-- An event that may come next. -/
def cand (i : Instr) (a : EvArg) (f : State → Res) : Cand := ⟨i, a, f⟩

/-- The event arises. -/
def arises (s : State) (c : Cand) : Bool :=
  match c.eff { s with arg := c.arg } with
  | .next _ => true
  | _ => false

/-- The circuit that a packet's message names. -/
def msgCircuit : Msg → Nat
  | .setup c => c
  | .probeAck c => c
  | .probeRefusal c _ => c
  | .collapse c _ => c
  | .resume c _ => c
  | .sendAck c _ => c
  | .relaySpace f _ => f
  | _ => 0

/-- What a packet at the head of an endpoint may be there. -/
def packetCands (p : Pkt) : List Cand :=
  let e := EvArg.of p.dst.toNat
  let c := EvArg.of (msgCircuit p.msg)
  [cand .readRequest e execReadRequest, cand .write e execWrite, cand .atomicRequest e execAtomicRequest,
   cand .readResponse e execReadResponse, cand .writeAcknowledgement e execWriteAcknowledgement, cand .atomicResponse e execAtomicResponse,
   cand .resumePointReport c execResumePointReport, cand .collapseNotice c execCollapseNotice, cand .sendAcknowledgement c execSendAcknowledgement,
   cand .circuitSetupRequest c execCircuitSetupRequest, cand .probeAcknowledgement c execProbeAcknowledgement,
   cand .probeRefusal c execProbeRefusal, cand .relaySpaceReport c execRelaySpaceReport,
   cand .pathMarker e execPathMarker, cand .markerAcknowledgement e execMarkerAcknowledgement, cand .engineData e execEngineData,
   cand .sampleFlit e execSampleFlit, cand .creditFlit e execCreditFlit, cand .detachFlit e execDetachFlit, cand .attachFlit e execAttachFlit,
   cand .closeFlit e execCloseFlit, cand .breakFlit e execBreakFlit, cand .podNextHop EvArg.zero execPodNextHop]
  ++ (if p.dst = securityEp 0 then [cand .bootImageReadResponse EvArg.zero execBootImageReadResponse] else [])

/-- The packets at the heads of the endpoints. -/
def rxHeads (s : State) : List Pkt := ((s.rx.map (·.dst)).eraseDups).filterMap (rxHead s)

/-- Events of the network, the homes and the circuits. -/
def fabricCands (s : State) : List Cand :=
  (inOrder (s.net.filter (fun f => arrived s f.arr))).map (fun f => cand .packetRoute (EvArg.of f.id) execPacketRoute)
  ++ (rxHeads s).flatMap packetCands
  ++ s.slices.flatMap (fun e => (e.2.pend ++ e.2.miss).map (fun l => cand .homeSliceFill (EvArg.of2 e.1 l) execHomeSliceFill))
  ++ s.podSend.flatMap (fun f => (f.held.filter (resendDue s)).map (fun h =>
      cand .podResendTimeout { EvArg.of3 f.src.toNat f.dpkg.toNat f.cls.toNat with d := h.seq.toNat } execPodResendTimeout))
  ++ s.flushes.map (fun f => cand .flushingReadResponse (EvArg.of f.1) execFlushingReadResponse)
  ++ s.circuits.flatMap (fun q => [cand .circuitBeat (EvArg.of q.cid) execCircuitBeat, cand .grainReservation (EvArg.of q.cid) execGrainReservation,
      cand .probeAcknowledgement (EvArg.of q.cid) execProbeAcknowledgement])
  ++ s.promos.flatMap (fun f => [cand .circuitBeat (EvArg.of f.fid) execCircuitBeat, cand .probeAcknowledgement (EvArg.of f.fid) execProbeAcknowledgement])
  ++ s.ponds.map (fun e => cand .grain (EvArg.of2 e.1 ((sailOffset s - 10) / 8)) execGrain)
  ++ s.grains.map (fun g => cand .grainDelivery (EvArg.of g.dest) execGrainDelivery)

/-- The registers of C0's window in a range that hold something, by their place in it in units of 32 bytes. -/
def written (s : State) (lo hi : Nat) : List Nat :=
  ((s.mg.filter (fun e => decide (lo ≤ 8 * e.1) && decide (8 * e.1 < hi))).map (fun e => (8 * e.1 - lo) / 32)).eraseDups

/-- Events of the RMA queues. -/
def rmaCands (s : State) : List Cand :=
  (written s (oRma 0 0) (oRma 8 0)).flatMap (fun n =>
    let a := EvArg.of2 (n / 64) (n % 64)
    [cand .rmaDescriptorRetire a execRmaDescriptorRetire, cand .rmaWait a execRmaWait, cand .rmaNop a execRmaNop, cand .rmaPut a execRmaPut,
     cand .rmaGet a execRmaGet])

/-- The event of a node by its type. -/
def nodeCand (a : EvArg) (ty : Nat) : Cand :=
  if ty = 0 then cand .gangNode a execGangNode else if ty = 1 then cand .copyNode a execCopyNode
  else if ty = 2 then cand .collectiveNode a execCollectiveNode else if ty = 3 then cand .circuitOpenNode a execCircuitOpenNode
  else if ty = 4 then cand .signalNode a execSignalNode else if ty = 5 then cand .subgraphNode a execSubgraphNode
  else if ty = 6 then cand .joinNode a execJoinNode else cand .waitNode a execWaitNode

/-- Events of the graph walkers: queues, records, nodes, gangs. -/
def walkerCands (s : State) : List Cand :=
  (written s (oQueue 0 0) (oQueue 8 0)).flatMap (fun n =>
    let a := EvArg.of2 (n / 32) (n % 32)
    [cand .recordFetch a execRecordFetch, cand .queueEntryTake a execQueueEntryTake])
  ++ s.recs.flatMap (fun r => cand .recordRetirement (EvArg.of r.id) execRecordRetirement :: cand .recordStart (EvArg.of r.id) execRecordStart
      :: ((List.range r.nodes.length).filter (fun n => nodeSt r n == 1 || nodeSt r n == 2)).map (fun n =>
        nodeCand (EvArg.of2 r.id n) (ndType (r.nodes.getD n 0))))
  ++ s.gangs.flatMap (fun g => [cand .gangStart (EvArg.of g.id) execGangStart, cand .gangRestore (EvArg.of g.id) execGangRestore,
      cand .gangBarrierCompletion (EvArg.of g.id) execGangBarrierCompletion])

/-- Events of the management controllers: the mailbox, swaps, repairs, invalidations, priorities, walk notices, opens. -/
def mgmtCands (s : State) : List Cand :=
  (if mgF s 0 oMbCmd 16 1 = 1 then
    [cand .create EvArg.zero execCreate, cand .destroy EvArg.zero execDestroy, cand .swapout EvArg.zero execSwapout,
     cand .swapin EvArg.zero execSwapin, cand .fence EvArg.zero execFence, cand .fwupd EvArg.zero execFwupd, cand .retire EvArg.zero execRetire,
     cand .mailboxUnlistedCommand EvArg.zero execMailboxUnlistedCommand]
   else [])
  ++ s.parts.flatMap (fun p => [cand .swapoutSaveEnd (EvArg.of p.1) execSwapoutSaveEnd, cand .swapinRestoreEnd (EvArg.of p.1) execSwapinRestoreEnd,
      cand .streamOpenCheck (EvArg.of p.1) execStreamOpenCheck])
  ++ s.mgmt.repairs.map (fun r => cand .coreRepair (EvArg.of2 r.1 r.2) execCoreRepair)
  ++ (s.cores.filter (fun c => decide (64 < c.2.corr.2))).map (fun c => cand .coreRepair (EvArg.of2 c.1 1) execCoreRepair)
  ++ (if s.invals.isEmpty then [] else cand .invalidationRequest EvArg.zero execInvalidationRequest :: s.cores.flatMap (fun c =>
      [cand .invalidationMarking (EvArg.of c.1) execInvalidationMarking, cand .invalidationConfirmation (EvArg.of c.1) execInvalidationConfirmation]))
  ++ s.plcs.map (fun e => cand .walkNotice (EvArg.of e.1) execWalkNotice)

/-- Events of a core: its engine ports and the priority of its contexts. -/
def coreCands (k : Nat) (c : Core) : List Cand :=
  c.runs.map (fun r => cand .copyCommandCompletion (EvArg.of2 k r.cmd.id) execCopyCommandCompletion)
  ++ [cand .copyCommandStart (EvArg.of2 k 0) execCopyCommandStart, cand .copyCommandStart (EvArg.of2 k 1) execCopyCommandStart,
      cand .copyStageStart (EvArg.of2 k 0) execCopyStageStart, cand .copyStageStart (EvArg.of2 k 1) execCopyStageStart,
      cand .rmapostCommandStart (EvArg.of2 k 0) execRmapostCommandStart, cand .rmapostCommandStart (EvArg.of2 k 1) execRmapostCommandStart,
      cand .circuitPortCommandStart (EvArg.of k) execCircuitPortCommandStart, cand .streamUnitCommandStart (EvArg.of k) execStreamUnitCommandStart,
      cand .launchCommandStart (EvArg.of k) execLaunchCommandStart]

/-- The scheduling priorities of the partitions in the two sets of PART.RS. -/
def allPris (s : State) : List (BitVec 4) := tab 16 (fun i => partPri s (i / 2) (i % 2 == 1))

/-- Events of the contexts that hold tasks. -/
def ctxCands (pris : List (BitVec 4)) (x : Nat) (c : Ctx) : List Cand :=
  (if wdExpired c then [cand .wdog (EvArg.of x) execWdog] else [])
  ++ (if c.pri != pris.getD (2 * c.part.toNat + c.rset.toNat) 0 then [cand .priorityChange (EvArg.of2 c.part.toNat (coreOf x)) execPriorityChange] else [])

/-- The cores whose ports may have something to do. -/
def busyCores (s : State) : List (Nat × Core) :=
  let ks := (s.ctxs.filter (fun e => e.2.task && !(e.2.q1.isEmpty && e.2.q2.isEmpty && e.2.q3.isEmpty && e.2.q4.isEmpty))).map (fun e => coreOf e.1)
  s.cores.filter (fun c => c.2.active && (!c.2.runs.isEmpty || ks.contains c.1))

/-- Every event that may arise by itself, the first that does comes next: power-on, the tick, then the rest. -/
def cands (s : State) : List Cand :=
  (if s.boot.step = 0 then [cand .coldBoot EvArg.zero execColdBoot] else [])
  ++ cand .cicadaTick EvArg.zero execCicadaTick :: fabricCands s
  ++ rmaCands s ++ walkerCands s ++ mgmtCands s
  ++ (busyCores s).flatMap (fun c => coreCands c.1 c.2)
  ++ (let pris := allPris s; (s.ctxs.filter (fun c => c.2.task)).flatMap (fun c => ctxCands pris c.1 c.2))

/-- The event that comes next by itself. -/
def autoEvent (s : State) : Option (Instr × EvArg) := ((cands s).find? (arises s)).map (fun c => (c.name, c.arg))

end Sys2Proof.Machine
end

