-- ==== Sys2Proof/Machine/Select.lean ====
section
/-!
DEFINITION. The selector of a core (R183-R186), the limiter (R241-R244), and what the package does next (log entry 1, DESIGN CHOICE).
-/

namespace Sys2Proof.Machine

open Sys2Proof

/-! ## The selector (R183-R186) -/

/-- A context is ready (R183); a load that was sent again freezes it until it is answered (R65). -/
def ready (s : State) (x : Nat) : Bool :=
  let c := getX s x
  c.task && !c.halted && c.hold.isNone && c.await == .none && c.reload.isNone && decide (c.readyAt ≤ s.cyc) && !hasRounds (getC s (coreOf x)) x
  && !c.accs.any (fun a => a.again && !accDone a)

/-- The contexts of a core that the selector chooses among: ready, and of the highest priority (R185). -/
def candidates (s : State) (k : Nat) : List Nat :=
  let rdy := (tab 4 (fun i => 4 * k + i)).filter (ready s)
  let p := rdy.foldl (fun m x => max m (getX s x).pri.toNat) 0
  rdy.filter (fun x => (getX s x).pri.toNat = p)

/-- The context that R185 chooses, and whether its deficit is refilled. -/
def choose (s : State) (k : Nat) : Option (Nat × Bool) :=
  let cand := candidates s k
  let l := 4 * k + (getC s k).last.toNat
  match cand.find? (fun x => (getX s x).age = 255) with
  | some x => some (x, false)
  | none =>
    if cand.contains l && (getX s l).dfc != 0 then some (l, false)
    else
      match (tab 4 (fun i => 4 * k + (l + i + 1) % 4)).find? (fun x => cand.contains x) with
      | some x => some (x, (getX s x).dfc == 0)
      | none => none

/-- The candidates other than x age by one cycle (R185). -/
def ageOthers (pre : State) (k x : Nat) (s : State) : State :=
  ((candidates pre k).filter (fun y => y != x)).foldl
    (fun t y => modX t y (fun c => { c with age := if c.age = 255 then 255 else c.age + 1 })) s

/-- The fields of the selector after context x has issued (R185). -/
def afterChoice (pre : State) (k x : Nat) (refill : Bool) (s : State) : State :=
  let aged := ageOthers pre k x s
  let s1 := modX aged x (fun c =>
    let d := if refill then (getX pre x).wCur else c.dfc
    { c with dfc := if d = 0 then 0 else d - 1, age := 0 })
  modC s1 k (fun c => { c with last := BitVec.ofNat 2 x })

/-! ## The limiter and the end of a core's cycle (R241, R242, R244) -/

/-- The array weight of a cycle. -/
def arrayWeight (c : Core) : Nat := if arrayBusy c then (if c.arrNar then 12 else 24) else 0

/-- The weight of the previous 63 cycles. -/
def windowSum (c : Core) : Nat := c.window.foldl (· + ·) 0

/-- The array's part of a cycle that runs: a step, or the first half of a narrowed one; its mode changes only between steps (R236, R244). -/
def arrayCycle (k : Nat) (s : State) : State :=
  if stepNow (getC s k) then
    modC (arrayStep k s) k (fun c => { c with mid := false, arrNar := alarmOn s && holdsLc s k })
  else modC s k (fun c => { c with mid := true })

/-- The core's part of the cycle ends: the weight enters the window, the array has its part, and the core has no more to do in this cycle.  In
narrowed mode a bundle takes a second cycle (R242, R244). -/
def endCycle (k w : Nat) (issued : Bool) (s : State) : State :=
  let s1 := modC s k (fun c => { c with window := (w :: c.window).take 63, half := c.nar && issued && !c.half })
  let s2 := portsStep k (rowWrites k (arrayCycle k s1))
  { s2 with todo := s2.todo.drop 1 }

/-- A limiter freeze cycle: the divider, the pipes and the gather unit hold their state (R240, R242). -/
def limiterFreeze (k : Nat) (s : State) : State :=
  let later := fun (n : Nat) => if s.cyc < n then n + 1 else n
  let s1 := modC s k (fun c =>
    { c with window := (0 :: c.window).take 63, pfrz := c.pfrz + 1, limCyc := s.cyc, div := later c.div, pipe0 := later c.pipe0,
             pipe1 := later c.pipe1, bank := c.bank.filter (fun m => m.2 != 1) })
  let s2 := portsStep k s1
  { s2 with todo := s2.todo.drop 1 }

/-- The cycle would exceed the limit. -/
def overLimit (c : Core) (x : Nat) : Bool := decide (c.eff.toNat < windowSum c + x)

/-! ## What comes next (log entry 1, DESIGN CHOICE) -/

/-- What the package does next: an event, with the state to go on with when it does not arise; a part of a core's cycle; or
the bundle of a context, with the state before it. -/
inductive Pick where
  | stop
  | event (i : Instr) (t : State) (orElse : Option State)
  | cycle (t : State)
  | one (i : Instr) (k : Nat) (refill : Bool) (weight : Nat) (t : State)
  | many (words : Nat) (slots : List (Nat × Slot)) (k : Nat) (refill : Bool) (weight : Nat) (t : State)

/-- The cores whose part of a cycle is to be done, each with its prologue first: entry 2k is the prologue of core k, 2k + 1
its issue. -/
def coresToRun (s : State) : List Nat := (s.cores.filter (fun c => c.2.active)).map (fun c => 2 * c.1)

/-- The clock advances by one cycle, and every core has its part of it to do (R4, R17). -/
def clockTick (s : State) : State :=
  let s0 := saveHalting (rmaTick (applyRegWrites s))
  let s1 := bootTick (probesStep { movesStep s0 with cyc := s0.cyc + 1, sub := if s0.running then s0.sub + 1 else s0.sub, todo := coresToRun s0 })
  if s1.running && coreCyc s1 % 1128 == 0 then addTimer s1 0 .sailBoundary EvArg.zero else s1

/-- Every row that a bundle accesses is in a bank that another has taken in this cycle: a bank conflict before any access (R232, R239). -/
def bankBlocked (s : State) (k : Nat) (rows : List Nat) : Bool := !rows.isEmpty && (serveRows 3 rows (marks s k)).2.length == rows.length

/-- A presented bundle is examined, then weighed: one that would be held adds nothing and freezes its context, one that a slot's trap cancels adds no
weight of its own, one that would issue makes the cycle run or be frozen (R232, R239, R241, R242). -/
def tryIssue (k x words : Nat) (slots : List (Nat × Slot)) (w : Nat) (rows reads : List Nat) (s t : State) (go : Nat → State → Pick) : Pick :=
  let c := getC s k
  let a := arrayWeight c
  if wouldHold words slots t then .cycle (issue words slots t)
  else if wouldTrap words slots t then
    (if overLimit c a then .cycle (limiterFreeze k s) else go a (modC t k (fun d => { d with want := [] })))
  else if bankBlocked t k rows then .cycle (freeze t x 3)
  else if overLimit c (w + a) then .cycle (limiterFreeze k s)
  else go (w + a) (eccSectors k x true reads (modC t k (fun d => { d with want := rows })))

/-- The issue of core k in this cycle (R185, R232, R242). -/
def issueOf (k : Nat) (s : State) : Pick :=
  let c := getC s k
  if c.half then
    .cycle (if overLimit c (arrayWeight c) then limiterFreeze k s
            else endCycle k (arrayWeight c) false (ageOthers s k (4 * k + c.last.toNat) s))
  else
    match choose s k with
    | none => .cycle (if overLimit c (arrayWeight c) then limiterFreeze k s else endCycle k (arrayWeight c) false s)
    | some (x, refill) =>
      match present s x with
      | .held t => .cycle t
      | .trapped t => .cycle (endCycle k (arrayWeight c) false (afterChoice s k x refill t))
      | .one i w rows reads t =>
        (match slotOf i with
        | some f => tryIssue k x 1 [(0, f)] w rows reads s t (.one i k refill)
        | none => .cycle t)
      | .many n sl w rows reads t => tryIssue k x n sl w rows reads s t (.many n sl k refill)

/-- What comes next: for a device that has stopped a cold reset or nothing (R28); else what the agenda says; else the event that
arises by itself; else the next part of the cores' cycles;
else the clock. -/
def pick (s : State) : Pick :=
  if s.boot.stopped then
    match s.agenda with
    | (some .coldBoot, a) :: l => .event .coldBoot { s with agenda := l, arg := a } none
    | _ => .stop
  else
    match s.agenda with
    | (some i, a) :: l => .event i { s with agenda := l, arg := a } none
    | (none, _) :: l => nextCycle { s with agenda := l }
    | [] =>
      match s.timers.find? (fun t => t.1 ≤ s.cyc) with
      | some (due, i, a) =>
        let t := { s with timers := dropFirst (fun q => q.1 = due) s.timers, arg := a }
        .event i t (some t)
      | none =>
        match autoEvent s with
        | some (i, a) => .event i { s with arg := a } none
        | none => nextCycle s
where
  nextCycle (s : State) : Pick :=
    match s.todo with
    | [] => .cycle (clockTick s)
    | q :: l =>
      if q % 2 = 0 then .cycle { coreProlog (q / 2) s with todo := (q + 1) :: l } else issueOf (q / 2) s

/-- After a bundle has been presented and has issued, or trapped: round 0 of its accesses falls in this cycle and the rest are left for later rounds;
the selector's fields change and the core's cycle ends (R185, R232, R239). -/
def afterIssue (pre : State) (k : Nat) (refill : Bool) (w : Nat) (s : State) : State :=
  if (getX s pre.cur).hold.isSome then s
  else
    let x := pre.cur
    let q := claimRows k 3 (getC pre k).want s
    let latch := decide ((getX pre x).latches.length < (getX s x).latches.length)
    let s1 := if q.2.isEmpty then q.1 else addRounds x q.2 (getC pre k).ts latch q.1
    endCycle k w true (afterChoice pre k x refill s1)

end Sys2Proof.Machine
end

