-- ==== Sys2Proof/Machine/Step.lean ====
section
/-!
DEFINITION. One step of the package, and the placing of an instruction for a step to fetch.
-/

namespace Sys2Proof.Machine

open Sys2Proof

/-- One step of the package: the next event, or the next part of a core's cycle, in which at most one bundle issues. -/
def step (s : State) : Host.Outcome State Fault Refusal :=
  match pick s with
  | .stop => .fault .deviceStopped
  | .cycle t => .next t
  | .event i t orElse =>
    match exec i t, orElse with
    | .refused _, some u => .next u
    | r, _ => r
  | .one i k refill w t =>
    match exec i t with
    | .next u => .next (afterIssue t k refill w u)
    | r => r
  | .many n sl k refill w t => .next (afterIssue t k refill w (issue n sl t))

/-- The state with an instruction placed where the next step fetches it: context 0 of core 0 of C0 holds a task whose next
bundle is at VA 0, a page that the core's translation cache maps to memory at PA 0, in a line that its instruction cache holds; the word, its E bit set, lies there; no
event comes before it (log entry 5, DESIGN CHOICE). -/
def State.withFetchWord (s : State) (nbits w : Nat) : State :=
  let word := wordBytes (BitVec.ofNat 32 (w % 2 ^ nbits) ||| 0x80000000#32)
  let page : TlbEntry :=
    { part := 0, vpn := 0, size := 0, pa := BitVec.ofNat 56 (podPkg s * 2 ^ 48), rd := true, wr := true, x := true, u := true,
      nc := false, fmt := 0, stop := false }
  let s1 := { s with mem := memWrite s.mem 0 word, agenda := [], timers := [], rx := [], net := [], cur := 0, todo := [1],
                     boot := { s.boot with step := 8, stopped := false } }
  let s2 := mgSetF s1 0 oMem 8 24 (max 1 (granules s1))
  let s3 := setX s2 0 { Ctx.init with task := true, sup := true, readyAt := 0, tsSize := 64, acm := 0xFF }
  modC s3 0 (fun k => { k with active := true, tlb := page :: k.tlb, ic := ⟨podPkg s * 2 ^ 42, 0, 0⟩ :: k.ic,
                               window := [], nar := false, half := false })

end Sys2Proof.Machine
end

