-- ==== Sys2Proof/Safety.lean ====
section
/-!
DEFINITION. What counts as a safe run, and the terms that statements use: the canonical form of memory, the context whose bundle a
step issues, the three ways in which an instruction that is its own bundle ends, and when a page serves an access.
-/

namespace Sys2Proof.Machine

open Sys2Proof

/-- The canonical form of memory. -/
def State.MemCanon (s : State) : Prop := memWf s.mem = true

/-- A step that goes on: an event or a bundle happened. -/
def goesOn (s : State) : Bool :=
  match step s with
  | .next _ => true
  | _ => false

/-- The context whose bundle issues. -/
abbrev State.ctx (s : State) : Ctx := getX s s.cur

/-- The core of that context. -/
abbrev State.core (s : State) : Core := getC s (coreOf s.cur)

/-- No result of the context is due and unwritten: its next bundle may be examined (R227). -/
def Unblocked (s : State) : Prop := notReady s.ctx = false

/-- The instruction issues as a bundle of w words: `eff` happens, and the context's time and sequence go on (R225, R304). -/
def Issues (i : Instr) (s : State) (w : Nat) (eff : State → State) : Prop := exec i s = .next (finish w (eff s) s.cur)

/-- The instruction's bundle is cancelled by an issue trap of cause q, found by the slot at position pos (R304). -/
def Traps (i : Instr) (s : State) (pos : Nat) (q : Cause) : Prop := exec i s = .next (issueTrap s s.cur pos q)

/-- The instruction's bundle is held before issue, with a cause of LASTFRZ, after what the hold sets going (R492). -/
def Holds (i : Instr) (s : State) (cause : Nat) (eff : State → State) : Prop := exec i s = .next (freeze (eff s) s.cur cause)

/-- Nothing is under way in the context: no result in flight, no transfer, no loop, no wait, no trap asked for. -/
def Ctx.Quiet (c : Ctx) : Prop :=
  c.results = [] ∧ c.npc = none ∧ c.curLoop = none ∧ c.await = .none ∧ c.trapi = none

/-- The pod address that a handle gives byte o of its page (R171). -/
def Handle.addrAt (h : Handle) (o : Nat) : Nat := (h.pa.toNat + o) % 2 ^ 56

/-- Bytes of the page of a size code (R171). -/
def pageSpan (size : BitVec 2) : Nat := 65536 * (if size = 0 then 1 else if size = 1 then 32 else if size = 2 then 4096 else 32768)

/-- The handle serves n bytes at byte offset o: it is VALID, the address is a multiple of `align`, the bytes lie in the page, memory of this
package is there, the page permits the access and is not being moved (R118, R164, R171, R173, R179, R360). -/
def Serves (s : State) (h : Handle) (o n align : Nat) (rd wr : Bool) : Prop :=
  h.st = 1 ∧ (h.pa.toNat + o) % align = 0 ∧ o + n ≤ pageSpan h.size
  ∧ (isLocal s (h.addrAt o) = true → populatedRange s (h.addrAt o % 2 ^ 48) n = true) ∧ moving s (h.addrAt o) = false
  ∧ (rd = true → h.rd = true) ∧ (wr = true → h.wr = true)

/-- The translation cache of the context's core maps the page of a VA: its first entry that covers the page is m, which still hits and whose
page is not being moved (R170, R175, R179). -/
def Mapped (s : State) (va : Nat) (m : TlbEntry) : Prop :=
  s.core.tlb.find? (fun e => e.part == s.ctx.part && decide (e.vpn.toNat ≤ va / 65536) && decide (65536 * (va / 65536) < 65536 * e.vpn.toNat + pageSpan e.size)) = some m
  ∧ m.stop = false ∧ moving s ((m.pa.toNat + (va - m.vpn.toNat * 65536)) % 2 ^ 56) = false

/-- n bytes from core address a are bytes of the context's tile store (R133, R359). -/
def InStore (s : State) (a : Int) (n : Nat) : Prop := 0 ≤ a ∧ tsOpen s.ctx s.core a.toNat n = true

/-- n bytes from offset o of window w lie in the window and in the context's tile store (R134). -/
def InWindow (s : State) (w : BitVec 4) (o : Int) (n : Nat) : Prop :=
  0 < twSize (readTw s.ctx w.toNat) ∧ 0 ≤ o ∧ o + n ≤ (twSize (readTw s.ctx w.toNat) : Int) ∧ InStore s (twBase (readTw s.ctx w.toNat) + o) n

/-- Nothing of a halting context is under way that must complete before its state is saved: no return, boundary move or end of a task, every
access performed, no write-back of its partition, no latch write or tile-store round outstanding, its commands complete or between stages, its
tiles at rest, its circuits over, its consumer ports with every record that was sent (R201, R203, R221, R417). -/
def Rests (s : State) (x : Nat) : Prop :=
  let c := getX s x
  let k := getC s (coreOf x)
  c.await ≠ .tret ∧ (∀ n w, c.await ≠ .phase n w) ∧ (∀ f, c.await ≠ .ending f)
  ∧ (∀ a ∈ c.accs, a.stat = .done) ∧ (∀ w ∈ k.wbs, w.2.2 ≠ c.part) ∧ c.latches = [] ∧ c.reload = none
  ∧ (∀ r ∈ k.runs, r.x = x → r.node = none → betweenStages r = true)
  ∧ (∀ r ∈ k.rounds, r.x ≠ x) ∧ (∀ l ∈ k.loads, l.2.1 ≠ x) ∧ (∀ e ∈ k.entry, e.x ≠ x)
  ∧ (∀ t < 8, bit c.acm t = true → (getAcc k t).busy = [])
  ∧ (∀ h ∈ c.kr, h.2.st ≠ 2 ∧ h.2.st ≠ 3 ∧ (h.2.st = 1 → ∃ m ∈ c.q2, m.op = 0x10 ∧ m.a = h.1))
  ∧ (∀ q ∈ s.circuits, q.dx = x → q.report ≠ none) ∧ (∀ q ∈ c.qr, portDetached q.2 = true)

/-- Every live task of a gang rests, no exchange store of it is on its way, and no page is being moved (R179, R201). -/
def GangRests (s : State) (g : Gang) : Prop := s.moves = [] ∧ g.xstOut = 0 ∧ ∀ i ∈ g.live, Rests s (g.xs.getD i 0)

/-- When the cores have had their part of a cycle, a packet that has arrived may make its next move: on a link it is the first, and neither end retrains; else it has come to its endpoint, which takes it, or starts its flow's
timer, or the output it goes by does not retrain and its replay buffer of 128 flits has room, or there is no way on (R50, R51, R53, R54). -/
def MayGo (s : State) (f : Flight) : Prop :=
  s.todo = [] ∧ f.arr ≤ 2 * s.cyc + 1 ∧ (badHeader f.pkt = true ∨ match f.loc with
  | .wire link => retraining s (link / 8) (link % 8) = false ∧ ∃ g, firstOnWire s link = some g ∧ g.id = f.id
  | _ => match hopOf s f.loc f.pkt with
    | .deliver => f.arr + endTime f.loc ≤ 2 * s.cyc + 1 ∧ (accepts s f.pkt = true ∨ (recvOf s f.pkt.flow).since = none)
    | .to _ (.wire link) => retraining s (link / 8) (link % 8) = false ∧ replayFlits s link + flitCount f.pkt ≤ 128
    | .to port l => mayLeave s f port l = true
    | _ => True)

/-- A context that holds a task and does not halt. -/
def Runs (c : Ctx) : Prop := c.task = true ∧ c.halted = false

/-- The command is the first of a queue with a property. -/
def FirstIn (l : List Cmd) (m : Cmd) (ok : Cmd → Bool) : Prop := l.find? ok = some m

/-- No other context of the core has a command in the queue that is older, by its issue cycle and then by its context (R493). -/
def NoElder (s : State) (x : Nat) (m : Cmd) (q : Ctx → List Cmd) : Prop :=
  ∀ y, coreOf y = coreOf x → y ≠ x → (getX s y).task = true → ∀ e ∈ q (getX s y), m.cyc < e.cyc ∨ (m.cyc = e.cyc ∧ x < y)

end Sys2Proof.Machine
end

