-- ==== Sys2Proof/Certificates/Slice0/Obligations.lean ====
section
/-!
DEFINITION. The statements for the provers.
-/

open Sys2Proof Sys2Proof.Machine

/-! ## Scalar instructions -/

/-- R338: each register form of latency 1 or 3 issues and its result is the table's value of a and b.  (The value reaches the
register as `ResultReachesRegister` says.) -/
def Obligations.ScalarRegisterForms : Prop := ∀ (s : State) (d a b : BitVec 5), Unblocked s →
  let x := readS s.ctx a
  let y := readS s.ctx b
  let n := y.toNat % 64
  Issues .nop s 1 id
  ∧ Issues (.add d a b) s 1 (retS d 1 (BitVec.ofNat 64 (x.toNat + y.toNat)))
  ∧ Issues (.sub d a b) s 1 (retS d 1 (BitVec.ofInt 64 (x.toNat - y.toNat)))
  ∧ Issues (.mul d a b) s 1 (retS d 3 (BitVec.ofNat 64 (x.toNat * y.toNat)))
  ∧ Issues (.mulh d a b) s 1 (retS d 3 (BitVec.ofInt 64 (x.toInt * y.toInt / 2 ^ 64)))
  ∧ Issues (.mulhz d a b) s 1 (retS d 3 (BitVec.ofNat 64 (x.toNat * y.toNat / 2 ^ 64)))
  ∧ Issues (.and d a b) s 1 (retS d 1 (x &&& y))
  ∧ Issues (.or d a b) s 1 (retS d 1 (x ||| y))
  ∧ Issues (.xor d a b) s 1 (retS d 1 (x ^^^ y))
  ∧ Issues (.andn d a b) s 1 (retS d 1 (x &&& ~~~y))
  ∧ Issues (.shl d a b) s 1 (retS d 1 (BitVec.ofNat 64 (x.toNat * 2 ^ n)))
  ∧ Issues (.shr d a b) s 1 (retS d 1 (BitVec.ofNat 64 (x.toNat / 2 ^ n)))
  ∧ Issues (.sar d a b) s 1 (retS d 1 (BitVec.ofInt 64 (x.toInt / 2 ^ n)))
  ∧ Issues (.rol d a b) s 1 (retS d 1 (x.rotateLeft n))
  ∧ Issues (.min d a b) s 1 (retS d 1 (BitVec.ofInt 64 (min x.toInt y.toInt)))
  ∧ Issues (.max d a b) s 1 (retS d 1 (BitVec.ofInt 64 (max x.toInt y.toInt)))
  ∧ Issues (.minz d a b) s 1 (retS d 1 (BitVec.ofNat 64 (min x.toNat y.toNat)))
  ∧ Issues (.maxz d a b) s 1 (retS d 1 (BitVec.ofNat 64 (max x.toNat y.toNat)))
  ∧ (∃ k : Nat, Issues (.clz d a) s 1 (retS d 1 (BitVec.ofNat 64 k)) ∧ k ≤ 64 ∧ x.toNat < 2 ^ (64 - k)
      ∧ (k < 64 → 2 ^ (63 - k) ≤ x.toNat))
  ∧ (∃ k : Nat, Issues (.ctz d a) s 1 (retS d 1 (BitVec.ofNat 64 k)) ∧ k ≤ 64 ∧ 2 ^ k ∣ x.toNat
      ∧ (k < 64 → ¬ 2 ^ (k + 1) ∣ x.toNat))
  ∧ Issues (.popc d a) s 1 (retS d 1 (BitVec.ofNat 64 ((List.range 64).countP (fun i => x.getLsbD i))))
  ∧ Issues (.extB d a) s 1 (retS d 1 (BitVec.signExtend 64 (x.extractLsb' 0 8)))
  ∧ Issues (.extH d a) s 1 (retS d 1 (BitVec.signExtend 64 (x.extractLsb' 0 16)))
  ∧ Issues (.extW d a) s 1 (retS d 1 (BitVec.signExtend 64 (x.extractLsb' 0 32)))
  ∧ Issues (.extzB d a) s 1 (retS d 1 (BitVec.ofNat 64 (x.toNat % 2 ^ 8)))
  ∧ Issues (.extzH d a) s 1 (retS d 1 (BitVec.ofNat 64 (x.toNat % 2 ^ 16)))
  ∧ Issues (.extzW d a) s 1 (retS d 1 (BitVec.ofNat 64 (x.toNat % 2 ^ 32)))
  ∧ Issues (.mov d a) s 1 (retS d 1 x)

/-- R235, R339: while the core's divider is free a division issues, holds the divider for 18 cycles, and its quotient and
remainder are those of truncated division, with a = q × b + r in every case; while another holds the divider the bundle waits. -/
def Obligations.DivideForms : Prop := ∀ (s : State) (d a b : BitVec 5), Unblocked s →
  let x := readS s.ctx a
  let y := readS s.ctx b
  let k := coreOf s.cur
  let busy := fun (t : State) => modC t k (fun c => { c with div := s.cyc + 18 })
  (s.core.div ≤ s.cyc → ∃ q r qz rz : DWord,
      Issues (.div d a b) s 1 (fun t => retS d 18 q (busy t)) ∧ Issues (.rem d a b) s 1 (fun t => retS d 18 r (busy t))
      ∧ Issues (.divz d a b) s 1 (fun t => retS d 18 qz (busy t)) ∧ Issues (.remz d a b) s 1 (fun t => retS d 18 rz (busy t))
      ∧ x = q * y + r ∧ x = qz * y + rz
      ∧ (y = 0 → q = 0 ∧ qz = 0)
      ∧ (y ≠ 0 → r.toInt = x.toInt.tmod y.toInt ∧ qz.toNat = x.toNat / y.toNat ∧ rz.toNat = x.toNat % y.toNat)
      ∧ (y ≠ 0 → ¬ (x.toInt = -2 ^ 63 ∧ y.toInt = -1) → q.toInt = x.toInt.tdiv y.toInt)
      ∧ (x.toInt = -2 ^ 63 ∧ y.toInt = -1 → q.toInt = -2 ^ 63))
  ∧ (s.cyc < s.core.div → Holds (.div d a b) s 1 id ∧ Holds (.rem d a b) s 1 id ∧ Holds (.divz d a b) s 1 id
      ∧ Holds (.remz d a b) s 1 id)

/-- R323, R340, R341: the immediate forms issue, with the signed value of I, or of X above I. -/
def Obligations.ImmediateForms : Prop := ∀ (s : State) (d a : BitVec 5) (i : BitVec 11) (l : BitVec 16) (n : BitVec 6)
    (x : Option (BitVec 28)), Unblocked s →
  let v := readS s.ctx a
  let im : DWord := BitVec.ofInt 64 (match x with | none => i.toInt | some e => e.toInt * 2 ^ 11 + i.toNat)
  let il : DWord := BitVec.ofInt 64 (match x with | none => l.toInt | some e => e.toInt * 2 ^ 16 + l.toNat)
  let w := if x.isSome then 2 else 1
  Issues (.addi d a i x) s w (retS d 1 (v + im)) ∧ Issues (.muli d a i x) s w (retS d 3 (v * im))
  ∧ Issues (.andi d a i x) s w (retS d 1 (v &&& im)) ∧ Issues (.ori d a i x) s w (retS d 1 (v ||| im))
  ∧ Issues (.xori d a i x) s w (retS d 1 (v ^^^ im))
  ∧ Issues (.shli d a n) s 1 (retS d 1 (BitVec.ofNat 64 (v.toNat * 2 ^ n.toNat)))
  ∧ Issues (.shri d a n) s 1 (retS d 1 (BitVec.ofNat 64 (v.toNat / 2 ^ n.toNat)))
  ∧ Issues (.sari d a n) s 1 (retS d 1 (BitVec.ofInt 64 (v.toInt / 2 ^ n.toNat)))
  ∧ Issues (.movi d l x) s w (retS d 1 il)
  ∧ Issues (.movh d l) s 1 (retS d 1 (BitVec.ofNat 64 (l.toNat * 2 ^ 48 + (readS s.ctx d).toNat % 2 ^ 48)))

/-- R342 to R344: compares and predicate forms issue and write their truth value, `sel` the source that its guard chooses. -/
def Obligations.ConditionForms : Prop := ∀ (s : State) (p q r : BitVec 4) (d a b g : BitVec 5) (i : BitVec 11)
    (x : Option (BitVec 28)), Unblocked s →
  let v := readS s.ctx a
  let y := readS s.ctx b
  let im : DWord := BitVec.ofInt 64 (match x with | none => i.toInt | some e => e.toInt * 2 ^ 11 + i.toNat)
  let w := if x.isSome then 2 else 1
  let f := readP s.ctx q
  let h := readP s.ctx r
  Issues (.cmpEq p a b) s 1 (retP p 1 (decide (v = y))) ∧ Issues (.cmpNe p a b) s 1 (retP p 1 (decide (v ≠ y)))
  ∧ Issues (.cmpLt p a b) s 1 (retP p 1 (decide (v.toInt < y.toInt))) ∧ Issues (.cmpLe p a b) s 1 (retP p 1 (decide (v.toInt ≤ y.toInt)))
  ∧ Issues (.cmpLo p a b) s 1 (retP p 1 (decide (v.toNat < y.toNat))) ∧ Issues (.cmpLs p a b) s 1 (retP p 1 (decide (v.toNat ≤ y.toNat)))
  ∧ Issues (.cmpiEq p a i x) s w (retP p 1 (decide (v = im))) ∧ Issues (.cmpiNe p a i x) s w (retP p 1 (decide (v ≠ im)))
  ∧ Issues (.cmpiLt p a i x) s w (retP p 1 (decide (v.toInt < im.toInt))) ∧ Issues (.cmpiLe p a i x) s w (retP p 1 (decide (v.toInt ≤ im.toInt)))
  ∧ Issues (.cmpiLo p a i x) s w (retP p 1 (decide (v.toNat < im.toNat))) ∧ Issues (.cmpiLs p a i x) s w (retP p 1 (decide (v.toNat ≤ im.toNat)))
  ∧ Issues (.pand p q r) s 1 (retP p 1 (f && h)) ∧ Issues (.por p q r) s 1 (retP p 1 (f || h))
  ∧ Issues (.pxor p q r) s 1 (retP p 1 (f != h)) ∧ Issues (.pandn p q r) s 1 (retP p 1 (f && !h))
  ∧ Issues (.pnot p q) s 1 (retP p 1 (!f))
  ∧ Issues (.sel d a b g) s 1 (retS d 1 (if readP s.ctx (g.extractLsb' 0 4) != g.getLsbD 4 then v else y))

/-! ## Control -/

/-- R345 to R347: branches and calls issue.  A transfer that is taken goes to V + 4 × d or to the register's low 52 bits, a call
writes the address after its bundle, and a misaligned register target that would be taken is ALIGN. -/
def Obligations.BranchForms : Prop := ∀ (s : State) (d a g : BitVec 5) (i : BitVec 16) (x : Option (BitVec 28)), Unblocked s →
  let v := readS s.ctx a
  let on := readP s.ctx (g.extractLsb' 0 4) != g.getLsbD 4
  let im : Int := match x with | none => i.toInt | some e => e.toInt * 2 ^ 16 + i.toNat
  let target : Va := BitVec.ofInt 52 (s.ctx.pc.toNat + 4 * im)
  let w := if x.isSome then 2 else 1
  let link := fun (n : Nat) => (BitVec.ofNat 64 ((s.ctx.pc.toNat + 4 * n) % 2 ^ 52) : DWord)
  let reg : Va := BitVec.ofNat 52 (v.toNat % 2 ^ 52)
  (on = true → Issues (.br g i x) s w (transfer target))
  ∧ (on = false → Issues (.br g i x) s w id ∧ Issues (.jmp g a) s 1 id)
  ∧ Issues (.call d i x) s w (fun t => retS d 1 (link w) (transfer target t))
  ∧ (v.toNat % 4 = 0 → (on = true → Issues (.jmp g a) s 1 (transfer reg))
      ∧ Issues (.jcall d a) s 1 (fun t => retS d 1 (link 1) (transfer reg t)))
  ∧ (v.toNat % 4 ≠ 0 → (on = true → Traps (.jmp g a) s 0 ⟨0x05, 0, 0, BitVec.ofNat 64 (v.toNat % 2 ^ 56)⟩)
      ∧ Traps (.jcall d a) s 0 ⟨0x05, 0, 0, BitVec.ofNat 64 (v.toNat % 2 ^ 56)⟩)

/-- R348: `lvl` arms a level of the pending nest or adds a pair to it; it is BOUND for a count above 32 bits, for a count other than
the armed one, and for a fifth pair.
(The TI.ADDR and EXTRA of a cause for which the rule names none are log entry 21, DESIGN CHOICE.) -/
def Obligations.LoopLevels : Prop := ∀ (s : State) (d a b : BitVec 5) (f : BitVec 6), Unblocked s → f.toNat ≤ 5 →
  let v := readS s.ctx a
  let l := mget Level.init s.ctx.curNest f.toNat
  let old := if l.armed then l.pairs else []
  let pairs := if d = 0 then old else old ++ [(physS s.ctx d.toNat, readS s.ctx b)]
  let bad := 2 ^ 32 ≤ v.toNat ∨ (l.armed = true ∧ l.count ≠ v.extractLsb' 0 32) ∨ (d ≠ 0 ∧ l.armed = true ∧ 4 ≤ l.pairs.length)
  (¬ bad → Issues (.lvl d a b f) s 1 (fun t => modX t t.cur (fun k => k.setNest (mset k.curNest f.toNat ⟨true, v.extractLsb' 0 32, pairs⟩))))
  ∧ (bad → Traps (.lvl d a b f) s 0 ⟨0x06, 0, 0, BitVec.ofNat 64 (v.toNat % 2 ^ 56)⟩)

/-- R349, R351: `loop` and `loop.sp` take the pending nest.  With N passes to make they start the loop at the bundle after theirs,
`loop.sp` with the stage predicates; with none they act as a branch past the body; with no level armed, in a running loop, or
for `loop.sp` in a handler, they are BOUND.
(The TI.ADDR and EXTRA of a cause for which the rule names none are log entry 21, DESIGN CHOICE.) -/
def Obligations.LoopForms : Prop := ∀ (s : State) (n : BitVec 6) (st : BitVec 4), Unblocked s →
  let c := s.ctx
  let ls := nestLevels c.curNest
  let total := (ls.map (fun l => l.count.toNat)).foldl (fun p k => p * k) 1
  let stages := st.toNat + 1
  let start := c.pc + 4
  let run := fun (stages passes : Nat) => (⟨ls, start, n.toNat + 1, stages, total, passes, 0, 0, []⟩ : Loop)
  let stagePreds := fun (k : Ctx) => (List.range 8).foldl (fun q i =>
    q.setResults (insResult q.results ⟨q.time + 1, .preg (8 + i) (8 + i == physP c 8), 0, .done⟩)) k
  (ls = [] ∨ c.curLoop.isSome = true → Traps (.loop n) s 0 ⟨0x06, 0, 0, 0⟩ ∧ Traps (.loopSp st n) s 0 ⟨0x06, 0, 0, 0⟩)
  ∧ (c.inh = true → Traps (.loopSp st n) s 0 ⟨0x06, 0, 0, 0⟩)
  ∧ (2 ^ 64 ≤ total → Traps (.loop n) s 0 ⟨0x06, 0, 0, 0⟩)
  ∧ (ls ≠ [] → c.curLoop = none → 0 < total → total < 2 ^ 64 →
      Issues (.loop n) s 1 (fun t => modX t s.cur (fun k => (k.setNest []).setLoop (some (run 0 total)))))
  ∧ (ls ≠ [] → c.curLoop = none → c.inh = false → 0 < total → total + stages - 1 < 2 ^ 64 →
      Issues (.loopSp st n) s 1 (fun t => modX t s.cur (fun k => stagePreds ((k.setNest []).setLoop (some (run stages (total + stages - 1)))))))
  ∧ (∀ e, ls ≠ [] → c.curLoop = none → total = 0 → bodyEnd s s.cur (n.toNat + 1) start.toNat = .inl e →
      Issues (.loop n) s 1 (fun t => transfer (BitVec.ofNat 52 e) (modX t s.cur (fun k => k.setNest [])))
      ∧ (c.inh = false → Issues (.loopSp st n) s 1 (fun t => transfer (BitVec.ofNat 52 e) (modX t s.cur (fun k => k.setNest [])))))

/-- R350: at the boundary after pass t, the change of a level's digit is that of the mixed-radix number of the pass, the top
digit unbounded; so the digits of a pass give its number back. -/
def Obligations.LoopDigits : Prop := ∀ (cs : List Nat) (t : Nat), cs ≠ [] → (∀ c ∈ cs, 0 < c) →
  let w := fun (l : Nat) => (cs.take l).foldl (fun p c => p * c) 1
  let top := cs.length - 1
  (List.range cs.length).foldl (fun (n : Nat) l => n + digitOf (w l) (cs.getD l 1) (decide (l = top)) t * w l) 0 = t

/-- R215, R245, R306, R354: a mapped control register is read at latency 2 and written at issue, those of the trap image by a supervisor only;
CTX.VSHAPE takes only a shape of at most 2,048 bytes.  A writable register reads back what was written but for its reserved and
read-only bits; the read-only ones of the image and of the core stay. -/
def Obligations.ControlRegisterForms : Prop := ∀ (s : State) (d : BitVec 5) (n : BitVec 12) (x : Nat) (u : DWord), Unblocked s →
  let cx := getX s x
  let after := fun (n : Nat) => setX s x (crWrite cx n u)
  let k := n.toNat
  let v := readS s.ctx d
  let mapped := k ≤ 8 ∨ (0x10 ≤ k ∧ k ≤ 0x1F) ∨ (0x20 ≤ k ∧ k ≤ 0x22) ∨ (0x30 ≤ k ∧ k ≤ 0x33) ∨ (0x40 ≤ k ∧ k ≤ 0x5F)
  let shape := (v.toNat % 64 + 1) * (v.toNat / 2 ^ 8 % 128 + 1) * (if v.getLsbD 15 then 4 else 2)
  (¬ mapped → Traps (.crr d n) s 0 ⟨0x02, 0, 0x60, 0⟩ ∧ Traps (.crw d n) s 0 ⟨0x02, 0, 0x61, 0⟩)
  ∧ (mapped → 0x40 ≤ k → s.ctx.sup = false →
      Traps (.crr d n) s 0 ⟨0x03, 0, 0, BitVec.ofNat 64 k⟩ ∧ Traps (.crw d n) s 0 ⟨0x03, 0, 0, BitVec.ofNat 64 k⟩)
  ∧ (mapped → (k < 0x40 ∨ s.ctx.sup = true) → Issues (.crr d n) s 1 (retS d 2 (crRead s s.cur k))
      ∧ (k ≠ 6 ∨ shape ≤ 2048 → Issues (.crw d n) s 1 (fun t => modX t t.cur (fun c => crWrite c k v))))
  ∧ (k = 6 → 2048 < shape → Traps (.crw d n) s 0 ⟨0x06, 0, 0, BitVec.ofNat 64 (v.toNat % 2 ^ 56)⟩)
  ∧ (∀ n : Nat, n = 0x41 ∨ n = 0x47 → crRead (after n) x n = u &&& 0xFFFFFFFFFFFFC#64)
  ∧ (∀ n : Nat, 0x4A ≤ n → n ≤ 0x4D → crRead (after n) x n = u)
  ∧ crRead (after 0x48) x 0x48 = u &&& 0xFFFF0003#64
  ∧ (∀ n : Nat, 0x10 ≤ n → n ≤ 0x1F → crRead (after n) x n = u &&& 0x1FFFFFFFFFF#64)
  ∧ crRead (after 0x06) x 0x06 = u &&& 0xFF3F#64
  ∧ (∀ j, j < 64 → (crRead (after 0x40) x 0x40).getLsbD j = if j = 14 ∨ j = 15 then u.getLsbD j else (crRead s x 0x40).getLsbD j)
  ∧ (∀ n : Nat, n ∈ [0x00, 0x01, 0x02, 0x03, 0x04, 0x07, 0x08, 0x20, 0x21, 0x22, 0x30, 0x31, 0x32, 0x33, 0x42, 0x43, 0x44, 0x45, 0x46, 0x49] →
      crWrite cx n u = cx)
  ∧ (∀ n : Nat, 0x4E ≤ n → n ≤ 0x5F → crRead s x n = 0)

/-- R355 to R357: `trap` and `tend` issue; `tret` in a handler issues and waits, and outside one is PRIV with 0x040. -/
def Obligations.EnterAndLeaveForms : Prop := ∀ (s : State) (i : BitVec 8), Unblocked s →
  Issues (.trap i) s 1 (fun t => modX t t.cur (fun c => { c with trapi := some i.toNat }))
  ∧ Issues .tend s 1 (fun t => modX t t.cur (fun c => { c with await := .ending false }))
  ∧ (s.ctx.inh = true → Issues .tret s 1 (fun t => modX t t.cur (fun c => { c with await := .tret })))
  ∧ (s.ctx.inh = false → Traps .tret s 0 ⟨0x03, 0, 0, 0x40⟩)

/-! ## What an issue leaves -/

/-- R225, R226, R229: in a context with nothing under way, an instruction of w words whose one effect is a scalar result of latency L
advances the context's time and pc; with L = 1 the named register alone changes, and s0 not at all; with more, no register does
and the result is in flight.  A predicate result of latency 1 changes the named predicate alone, and p0 not at all.  Other contexts,
memory, cores and management registers stay. -/
def Obligations.ResultReachesRegister : Prop := ∀ (s : State) (w lat : Nat) (d : BitVec 5) (v : DWord) (e : BitVec 4) (b : Bool), s.ctx.Quiet → 1 ≤ lat →
  let c := s.ctx
  let t := finish w (retS d lat v s) s.cur
  let c' := getX t s.cur
  c'.pc = c.pc + BitVec.ofNat 52 (4 * w) ∧ c'.time = c.time + 1 ∧ c'.inh = c.inh ∧ c'.sup = c.sup
  ∧ (∀ r : BitVec 5, readS c' r = if lat = 1 ∧ r = d ∧ d ≠ 0 then v else readS c r)
  ∧ c'.results = (if lat = 1 ∨ d = 0 then [] else [⟨c.time + lat, .sreg (physS c d.toNat) v, 0, .done⟩])
  ∧ (∀ p : BitVec 4, readP c' p = readP c p) ∧ (∀ r : BitVec 5, readV c' r = readV c r)
  ∧ c'.hr = c.hr ∧ c'.kr = c.kr ∧ c'.qr = c.qr ∧ c'.tlr = c.tlr ∧ c'.tw = c.tw ∧ c'.vshape = c.vshape ∧ c'.ti = c.ti ∧ c'.la = c.la ∧ c'.lb = c.lb
  ∧ (∀ y, y ≠ s.cur → getX t y = getX s y)
  ∧ t.mem = s.mem ∧ t.ver = s.ver ∧ t.poison = s.poison ∧ t.cores = s.cores ∧ t.mg = s.mg
  ∧ (let u := finish w (retP e 1 b s) s.cur
     let d' := getX u s.cur
     d'.pc = c.pc + BitVec.ofNat 52 (4 * w) ∧ d'.time = c.time + 1 ∧ d'.inh = c.inh ∧ d'.sup = c.sup
     ∧ (∀ p : BitVec 4, readP d' p = if p = e ∧ e ≠ 0 then b else readP c p)
     ∧ d'.sr = c.sr ∧ d'.vr = c.vr ∧ d'.hr = c.hr ∧ d'.kr = c.kr ∧ d'.qr = c.qr ∧ d'.tlr = c.tlr ∧ d'.tw = c.tw ∧ d'.vshape = c.vshape ∧ d'.ti = c.ti
     ∧ (∀ y, y ≠ s.cur → getX u y = getX s y)
     ∧ u.mem = s.mem ∧ u.ver = s.ver ∧ u.poison = s.poison ∧ u.cores = s.cores ∧ u.mg = s.mg)

/-- R225, R226, R361, R364: the frame of an instruction of w words whose one effect is a store to the tile store, or a global access that joins
the context's accesses, in a context with nothing under way: every register, predicate, handle, timeline and special register, other
contexts, memory, and every byte of the tile store outside the pieces stored to stay; the context's time and pc go on. -/
def Obligations.StoresKeepTheRest : Prop := ∀ (s : State) (w e : Nat) (l : List Byte) (bad : Bool) (kind : AccKind) (pa n : Nat)
    (cls : BitVec 4) (sem : BitVec 2) (scope : BitVec 3) (nc : Bool) (data : List Byte), s.ctx.Quiet →
  let c := s.ctx
  let keeps := fun (t : State) =>
    let c' := getX t s.cur
    c'.pc = c.pc + BitVec.ofNat 52 (4 * w) ∧ c'.time = c.time + 1 ∧ c'.inh = c.inh ∧ c'.sup = c.sup ∧ c'.results = []
    ∧ c'.sr = c.sr ∧ c'.pr = c.pr ∧ c'.vr = c.vr ∧ c'.hr = c.hr ∧ c'.kr = c.kr ∧ c'.qr = c.qr ∧ c'.tlr = c.tlr ∧ c'.tw = c.tw
    ∧ c'.vshape = c.vshape ∧ c'.ti = c.ti ∧ c'.la = c.la ∧ c'.lb = c.lb
    ∧ (∀ y, y ≠ s.cur → getX t y = getX s y) ∧ t.mem = s.mem ∧ t.ver = s.ver ∧ t.poison = s.poison ∧ t.mg = s.mg
  let a := finish w (storeTs s s.cur e l bad) s.cur
  let b := finish w (addAccess s.cur kind pa n cls sem scope false nc data s) s.cur
  keeps a ∧ keeps b ∧ b.cores = s.cores
  ∧ (∀ k, k ≠ coreOf s.cur → getC a k = getC s k)
  ∧ (∀ i, (∀ p ∈ tsParts c e l.length, ¬ (p.1 ≤ i ∧ i < p.1 + p.2.2)) → tsByte (getTs a s.cur) i = tsByte (getTs s s.cur) i)

/-- R347, R233: in a context with nothing under way, a transfer makes the target the next bundle; the context is not ready in the
two cycles after, and nothing else of the program changes. -/
def Obligations.TransferTakesEffect : Prop := ∀ (s : State) (w : Nat) (target : Va), s.ctx.Quiet →
  let c := s.ctx
  let t := finish w (transfer target s) s.cur
  let c' := getX t s.cur
  c'.pc = target ∧ c'.time = c.time + 1 ∧ c'.readyAt = s.cyc + 3 ∧ c'.npc = none ∧ c'.inh = c.inh ∧ c'.sup = c.sup
  ∧ c'.sr = c.sr ∧ c'.pr = c.pr ∧ c'.vr = c.vr ∧ c'.hr = c.hr ∧ c'.kr = c.kr ∧ c'.qr = c.qr ∧ c'.tlr = c.tlr ∧ c'.tw = c.tw ∧ c'.ti = c.ti
  ∧ (∀ y, y ≠ s.cur → getX t y = getX s y)
  ∧ t.mem = s.mem ∧ t.ver = s.ver ∧ t.poison = s.poison ∧ t.cores = s.cores ∧ t.mg = s.mg

/-! ## Traps -/

/-- R306, R308, R311: taking a trap outside handler mode.  The image is written, the cause's pending bit is cleared and no other,
privilege and mode change, handler time is 0, fetching starts at TI.HVEC, and the context is not ready for 12 cycles; the program's
registers and time, other contexts and memory stay.  In handler mode a trap writes no image and ends the task. -/
def Obligations.TrapEntryWritesImage : Prop :=
  (∀ (s : State) (x kind slot : Nat) (q : Cause) (opc : Va) (oct : Nat),
    let c := getX s x
    let t := enterTrap s x kind slot q opc oct
    let c' := getX t x
    c.inh = false → mget 0 c.ti 7 ≠ 0 → kind < 4 → slot < 16 → q.code < 64 → q.reason < 256 → q.extra < 256 →
    tiRead c' 0 = BitVec.ofNat 64 (q.code + 256 * kind + 1024 * slot + 65536 * q.reason + 16777216 * q.extra)
    ∧ tiRead c' 1 = BitVec.zeroExtend 64 c.pc ∧ tiRead c' 2 = BitVec.ofNat 64 c.ct ∧ tiRead c' 3 = q.addr
    ∧ tiRead c' 4 = BitVec.zeroExtend 64 opc ∧ tiRead c' 5 = BitVec.ofNat 64 oct
    ∧ (∀ k, k < 64 → (tiRead c' 9).getLsbD k = ((tiRead c 9).getLsbD k && decide (k ≠ q.code)))
    ∧ (∀ j, j = 7 ∨ j = 8 ∨ (10 ≤ j ∧ j ≤ 13) → tiRead c' j = tiRead c j)
    ∧ c'.psup = c.sup ∧ c'.sup = true ∧ c'.inh = true ∧ c'.hct = 0 ∧ c'.pc = BitVec.truncate 52 (mget 0 c.ti 7) ∧ c'.readyAt = s.cyc + 13
    ∧ c'.ct = c.ct ∧ c'.infl = c.infl ∧ c'.sr = c.sr ∧ c'.pr = c.pr ∧ c'.vr = c.vr ∧ c'.hr = c.hr ∧ c'.kr = c.kr ∧ c'.qr = c.qr ∧ c'.tlr = c.tlr
    ∧ c'.nest = c.nest ∧ c'.loop = c.loop ∧ c'.hnest = [] ∧ c'.hloop = none
    ∧ (∀ y, y ≠ x → getX t y = getX s y) ∧ t.mem = s.mem ∧ t.cores = s.cores ∧ t.mg = s.mg)
  ∧ (∀ (s : State) (x kind slot : Nat) (q : Cause) (opc : Va) (oct : Nat),
    let c := getX s x
    let t := enterTrap s x kind slot q opc oct
    let c' := getX t x
    c.inh = true → c'.await = .ending true ∧ (∀ j, j < 9 → tiRead c' j = tiRead c j) ∧ c'.infl = [] ∧ c'.hinfl = [] ∧ c'.deferred = []
    ∧ c'.pc = c.pc ∧ c'.sr = c.sr ∧ (∀ y, y ≠ x → getX t y = getX s y) ∧ t.mem = s.mem)

/-- R308, R310: a trap taken outside handler mode and returned from with ACT = RETRY, in a handler that has written neither TI.CAUSE nor
TI.PC, leaves the program where it was: pc, time, privilege, registers, results in flight and loops. -/
def Obligations.TrapAndReturnRestore : Prop := ∀ (s : State) (x kind slot : Nat) (q : Cause) (opc : Va) (oct : Nat),
  let c := getX s x
  let c' := getX (returnFrom (enterTrap s x kind slot q opc oct) x none) x
  c.inh = false → mget 0 c.ti 7 ≠ 0 → q.code < 64 →
  c'.inh = false ∧ c'.pc = c.pc ∧ c'.ct = c.ct ∧ c'.sup = c.sup ∧ c'.infl = c.infl ∧ c'.nest = c.nest ∧ c'.loop = c.loop
  ∧ (∀ r : BitVec 5, readS c' r = readS c r) ∧ (∀ p : BitVec 4, readP c' p = readP c p) ∧ (∀ r : BitVec 5, readV c' r = readV c r)
  ∧ c'.hr = c.hr ∧ c'.tlr = c.tlr ∧ c'.readyAt = s.cyc + 5 ∧ c'.await = c.await.again

/-- R310: the return from a handler by ACT: RETRY resumes at TI.PC, SKIP of an issue trap resumes after the bundle at TI.PC with
CT + 1, END and 3 end the task; privilege is restored and handler mode left. -/
def Obligations.ReturnByAct : Prop := ∀ (s : State) (x n : Nat),
  let c := getX s x
  let act := (tiRead c 0).toNat / 2 ^ 14 % 4
  let kind := (tiRead c 0).toNat / 2 ^ 8 % 4
  let pc : Va := BitVec.truncate 52 (tiRead c 1)
  c.hdeferred = [] →
  (act = 2 ∨ act = 3 → returnFrom s x (some n) = endTask s x true ∧ returnFrom s x none = endTask s x true)
  ∧ (act = 0 → ∀ k, let c' := getX (returnFrom s x k) x
      c'.pc = pc ∧ c'.ct = c.ct ∧ c'.inh = false ∧ c'.sup = c.psup ∧ c'.readyAt = s.cyc + 5 ∧ c'.sr = c.sr ∧ c'.pr = c.pr)
  ∧ (act = 1 → kind = 0 → c.loop = none → c.infl = [] → let c' := getX (returnFrom s x (some n)) x
      c'.pc = pc + BitVec.ofNat 52 (4 * n) ∧ c'.ct = c.ct + 1 ∧ c'.inh = false ∧ c'.sup = c.psup ∧ c'.sr = c.sr ∧ c'.pr = c.pr)
  ∧ (act = 1 → kind ≠ 0 → let c' := getX (returnFrom s x (some n)) x
      c'.pc = pc ∧ c'.ct = c.ct ∧ c'.inh = false ∧ c'.sup = c.psup)

/-- R355: `trap` has one encoding, with every bit outside I[7:0] fixed.  In a program with nothing under way it takes full effect and
then enters the handler with kind 2 (after), EXTRA = I, and TI.PC and TI.CT naming the next bundle (R304); in handler mode it is a
double trap, which ends the task (R311). -/
def Obligations.TrapInstructionEnters : Prop :=
  (∀ (i : BitVec 8), encode (.trap i) = some (0#1 ++ 0#3 ++ 0x62#7 ++ 0#5 ++ 0#8 ++ i, none))
  ∧ (∀ (w : Word) (x : Option (BitVec 28)) (i : BitVec 8), w.getLsbD 31 = false → decodeInstr w x = .ok (.trap i) →
    w = 0#1 ++ 0#3 ++ 0x62#7 ++ 0#5 ++ 0#8 ++ i ∧ x = none)
  ∧ (∀ (s : State) (i : BitVec 8), s.ctx.Quiet →
    (s.ctx.inh = false → mget 0 s.ctx.ti 7 ≠ 0 → ∃ t, exec (.trap i) s = .next t ∧
      let c' := getX t s.cur
      c'.inh = true ∧ c'.sup = true ∧ c'.psup = s.ctx.sup ∧ c'.pc = BitVec.truncate 52 (mget 0 s.ctx.ti 7)
      ∧ tiRead c' 0 = BitVec.ofNat 64 (0x11 + 2 * 256 + 16777216 * i.toNat) ∧ tiRead c' 1 = BitVec.zeroExtend 64 (s.ctx.pc + 4)
      ∧ tiRead c' 2 = BitVec.ofNat 64 (s.ctx.ct + 1) ∧ c'.ct = s.ctx.ct + 1 ∧ c'.sr = s.ctx.sr ∧ t.mem = s.mem)
    ∧ (s.ctx.inh = true → ∃ t, exec (.trap i) s = .next t ∧ (getX t s.cur).await = .ending true ∧ (getX t s.cur).sr = s.ctx.sr ∧ t.mem = s.mem))

/-- R305: at a boundary the oldest deferred cause is taken, of equal age the lowest code; within a slot the lowest code. -/
def Obligations.TrapPriorities : Prop :=
  (∀ (l : List Deferred) (d : Deferred), firstDeferred l = some d → d ∈ l ∧ ∀ e ∈ l, d.oct < e.oct ∨ (d.oct = e.oct ∧ d.code ≤ e.code))
  ∧ (∀ (l : List Cause) (q : Cause), lowestCause l = some q → q ∈ l ∧ ∀ e ∈ l, q.code ≤ e.code)
  ∧ (∀ (l : List Cause), l ≠ [] → (lowestCause l).isSome = true) ∧ (∀ (l : List Deferred), l ≠ [] → (firstDeferred l).isSome = true)

/-- R329: an instruction with an enumerated field that its row does not list is cancelled with IIL, whatever its operands. -/
def Obligations.IllFormedIsIil : Prop := ∀ (i : Instr) (s : State), Unblocked s → i.wf = false →
  ∃ pos op, Traps i s pos ⟨0x02, 0, op, 0⟩

/-- R319, R304: a well-formed instruction that is its own bundle does what its slot does in a bundle. -/
def Obligations.InstructionIsItsSlot : Prop := ∀ (i : Instr) (f : Slot), slotOf i = some f → i.wf = true →
  ∃ w pos, 1 ≤ w ∧ w ≤ 2 ∧ ∀ s, exec i s = .next (issue w [(pos, f)] s)

/-! ## The tile store -/

/-- R359, R361: a tile-store load at sA + off issues and its value, extended from the access's size, is written at latency 4; with a
poisoned byte the result is a deferred POISON; misaligned it is ALIGN, outside the region BOUND. -/
def Obligations.TileLoadForms : Prop := ∀ (s : State) (d a : BitVec 5) (i : BitVec 6) (x : Option (BitVec 28)), Unblocked s →
  let c := s.ctx
  let off : Int := match x with | none => i.toInt | some e => e.toInt * 2 ^ 6 + i.toNat
  let ea := fun (n : Nat) => ((readS c a).toNat + off * n) % 2 ^ 64
  let w := if x.isSome then 2 else 1
  let form := fun (n : Nat) (sx : Bool) (ins : Instr) =>
    let e := (ea n).toNat
    let v := leNat (loadTs s s.cur e n)
    let val : DWord := if sx then BitVec.ofInt 64 (if v < 2 ^ (8 * n - 1) then (v : Int) else (v : Int) - 2 ^ (8 * n)) else BitVec.ofNat 64 v
    (e % n = 0 → tsOpen c s.core e n = true → poisonTs s s.cur e n = false → Issues ins s w (retS d 4 val))
    ∧ (e % n = 0 → tsOpen c s.core e n = true → poisonTs s s.cur e n = true → ∃ f, Issues ins s w (fun t => modX t t.cur (fun k =>
        k.addResult 4 (.sreg (physS c d.toNat) 0) f (.failed ⟨0x0B, 0, 0, 0, BitVec.ofNat 64 (e % 2 ^ 56 + 2 ^ 62), c.pc, c.time⟩))))
    ∧ (e % n ≠ 0 → Traps ins s 0 ⟨0x05, 0, 0, BitVec.ofNat 64 (e % 2 ^ 56)⟩)
    ∧ (e % n = 0 → tsOpen c s.core e n = false → Traps ins s 0 ⟨0x06, 0, 0, BitVec.ofNat 64 (e % 2 ^ 56)⟩)
  form 1 true (.ldB d a i x) ∧ form 2 true (.ldH d a i x) ∧ form 4 true (.ldW d a i x) ∧ form 8 true (.ldD d a i x)
  ∧ form 1 false (.ldzB d a i x) ∧ form 2 false (.ldzH d a i x) ∧ form 4 false (.ldzW d a i x)

/-- R358, R359, R361: a tile-store store whose guard holds issues and its bytes are in the tile store in the issue cycle; its checks
are those of a load; with a guard that does not hold nothing happens, its checks included. -/
def Obligations.TileStoreForms : Prop := ∀ (s : State) (g a b : BitVec 5) (i : BitVec 6) (x : Option (BitVec 28)), Unblocked s →
  let c := s.ctx
  let off : Int := match x with | none => i.toInt | some e => e.toInt * 2 ^ 6 + i.toNat
  let ea := fun (n : Nat) => ((readS c a).toNat + off * n) % 2 ^ 64
  let w := if x.isSome then 2 else 1
  let on := readP c (g.extractLsb' 0 4) != g.getLsbD 4
  let form := fun (n : Nat) (ins : Instr) =>
    let e := (ea n).toNat
    (on = true → e % n = 0 → tsOpen c s.core e n = true →
      Issues ins s w (fun t => storeTs t t.cur e (leBytes n (readS c b).toNat) false))
    ∧ (on = true → e % n ≠ 0 → Traps ins s 0 ⟨0x05, 0, 0, BitVec.ofNat 64 (e % 2 ^ 56)⟩)
    ∧ (on = true → e % n = 0 → tsOpen c s.core e n = false → Traps ins s 0 ⟨0x06, 0, 0, BitVec.ofNat 64 (e % 2 ^ 56)⟩)
    ∧ (on = false → Issues ins s w id)
  form 1 (.stB g a b i x) ∧ form 2 (.stH g a b i x) ∧ form 4 (.stW g a b i x) ∧ form 8 (.stD g a b i x)

/-- R132, R133, R264: bytes stored to a tile store are read back, and every other byte reads as before; a clean write of a whole
sector clears its poison, a part of one does not. -/
def Obligations.TileStoreReadAfterWrite : Prop := ∀ (t : TileStore) (a : Nat) (l : List Byte) (bad : Bool) (b k : Nat),
  tsByte (tsWrite t a l bad) b = (if a ≤ b ∧ b < a + l.length then l.getD (b - a) 0 else tsByte t b)
  ∧ (k ∈ (tsWrite t a l bad).poison ↔
      (bad = true ∧ l ≠ [] ∧ a < 32 * k + 32 ∧ 32 * k < a + l.length) ∨ (k ∈ t.poison ∧ ¬ (bad = false ∧ a ≤ 32 * k ∧ 32 * k + 32 ≤ a + l.length)))

/-! ## Memory and its homes -/

/-- R3, R252: a byte written to memory is read back, and every other byte reads as before; the bytes of a read are those of memory, in
rising order. -/
def Obligations.MemoryReadAfterWrite : Prop :=
  (∀ (m : List Host.Cell) (a b : Nat) (l : List Byte), memWf m = true →
    memByte (memWrite m a l) b = if a ≤ b ∧ b < a + l.length then l.getD (b - a) 0 else memByte m b)
  ∧ (∀ (m : List Host.Cell) (a n : Nat), memWf m = true →
    memBytes m a n = (List.range n).map (fun i => memByte m (a + i)))

/-- R64, R123, R132: a write at a home of at most 64 bytes in a line: its bytes, one step of the line's version (none in the second
tier), and its poison: set by poisoned data, cleared by a clean write of the whole line, else kept; other lines stay. -/
def Obligations.HomeWriteVersionAndPoison : Prop := ∀ (s : State) (pa : Nat) (l : List Byte) (bad : Bool) (n : Nat),
  l ≠ [] → pa % 64 + l.length ≤ 64 →
  let t := homeWrite s pa l bad
  t.mem = memWrite s.mem pa l
  ∧ lineVer t n = (if n = pa / 64 ∧ isTier2 (64 * n) = false then lineVer s n + 1 else lineVer s n)
  ∧ (linePoison t n = true ↔ (n = pa / 64 ∧ bad = true) ∨ (linePoison s n = true ∧ ¬ (n = pa / 64 ∧ bad = false ∧ l.length = 64)))
  ∧ t.ctxs = s.ctxs ∧ t.cores = s.cores ∧ t.mg = s.mg

/-! ## Global accesses -/

/-- R171 to R173, R360: a global operand of a VALID handle is its pod address when it is aligned, within the page, populated if it is
of this package, permitted, and not being moved; each check that fails is its cause.  An INVALID handle without automatic re-translation is HINV; a
DRAINING one holds the bundle. -/
def Obligations.ValidHandleServes : Prop :=
  (∀ (s : State) (x hn o n align : Nat) (rd wr : Bool),
    let h := readH (getX s x) hn
    let pa := (h.pa.toNat + o) % 2 ^ 56
    let page := 65536 * (if h.size = 0 then 1 else if h.size = 1 then 32 else if h.size = 2 then 4096 else 32768)
    let va := BitVec.ofNat 64 ((h.vpn.toNat * 65536 + o) % 2 ^ 56)
    h.st = 1 →
    let cause := fun (code reason : Nat) => (⟨code, reason, hn, va⟩ : Cause)
    let lowest := fun (q : Cause) => ∃ l, globalOperand s x hn o n align rd wr = .bad l ∧ lowestCause l = some q
    let aligned := (h.pa.toNat + o) % align = 0
    let permitted := (rd = true → h.rd = true) ∧ (wr = true → h.wr = true)
    (aligned → o + n ≤ page → (isLocal s pa = true → populatedRange s (pa % 2 ^ 48) n = true) → permitted →
      (moving s pa = false → globalOperand s x hn o n align rd wr = .ok h pa ((h.vpn.toNat * 65536 + o) % 2 ^ 56))
      ∧ (moving s pa = true → globalOperand s x hn o n align rd wr = .wait 7 id))
    ∧ (¬ aligned → lowest (cause 0x05 0)) ∧ (aligned → page < o + n → lowest (cause 0x06 0))
    ∧ (aligned → o + n ≤ page → (isLocal s pa = true → populatedRange s (pa % 2 ^ 48) n = true) → ¬ permitted → lowest (cause 0x09 1)))
  ∧ (∀ (s : State) (x hn o n align : Nat) (rd wr : Bool),
    let h := readH (getX s x) hn
    (h.st = 0 → h.aret = false → globalOperand s x hn o n align rd wr = .bad [⟨0x07, 0, hn, 0⟩])
    ∧ (h.st = 2 → globalOperand s x hn o n align rd wr = .wait 7 id))

/-- R358, R362 to R364: a global load or store issues when its handle is VALID, its address aligned and its bytes in the page, populated and permitted,
in a page that is not being moved, while the data cache does not drain, and for a store to another package while there is room in the remote-store
set: the access joins the context's accesses, and a load's result waits for it at latency 12; a store whose guard does not hold has no
effect. -/
def Obligations.GlobalLoadAndStoreForms : Prop := ∀ (s : State) (d a b g : BitVec 5) (h : BitVec 4) (xl : Option WgLd) (xs : Option WgSt),
    Unblocked s → wfLd xl = true → wfSt xs = true →
  let c := s.ctx
  let hd := readH c h.toNat
  let ql := xl.getD ⟨0, false, 0, 0, 0⟩
  let qs := xs.getD ⟨0, 0, 0, 0⟩
  let wl := if xl.isSome then 2 else 1
  let ws := if xs.isSome then 2 else 1
  let ol := (readS c a + BitVec.signExtend 64 ql.off).toNat
  let os := (readS c a + BitVec.signExtend 64 qs.off).toNat
  let on := readP c (g.extractLsb' 0 4) != g.getLsbD 4
  let free := fun (o : Nat) => s.core.dcDrain ≤ s.cyc ∨ s.core.split = 0 ∨ hd.nc = true ∨ isLocal s (hd.addrAt o) = false
  let room := isLocal s (hd.addrAt os) = true ∨ BitVec.ofNat 8 (hd.addrAt os / 2 ^ 48) ∈ remoteSet s c ∨ (remoteSet s c).length < 8
  let vs := shapeBytes c.vshape
  let load := fun (n form : Nat) (ins : Instr) => Serves s hd ol n n true false → free ol →
    Issues ins s wl (globalLoad s.cur form (hd.addrAt ol) n (if d = 0 then .tile [] else .sreg (physS c d.toNat) 0) ql hd.nc)
  let store := fun (n : Nat) (ins : Instr) => (on = true → Serves s hd os n n false true → free os → room →
      Issues ins s ws (addAccess s.cur .store (hd.addrAt os) n qs.oc qs.sem qs.scope false hd.nc (leBytes n (readS c b).toNat)))
    ∧ (on = false → Issues ins s ws id)
  load 1 8 (.ldgB d a h xl) ∧ load 2 9 (.ldgH d a h xl) ∧ load 4 10 (.ldgW d a h xl) ∧ load 8 11 (.ldgD d a h xl)
  ∧ load 1 0 (.ldgzB d a h xl) ∧ load 2 1 (.ldgzH d a h xl) ∧ load 4 2 (.ldgzW d a h xl)
  ∧ (Serves s hd ol vs 64 true false → free ol →
      Issues (.ldgV d a h xl) s wl (globalLoad s.cur 0 (hd.addrAt ol) vs (.vreg (physV c d.toNat) 0 (lowMask vs)) ql hd.nc))
  ∧ store 1 (.stgB g a b h xs) ∧ store 2 (.stgH g a b h xs) ∧ store 4 (.stgW g a b h xs) ∧ store 8 (.stgD g a b h xs)
  ∧ (on = true → Serves s hd os vs 64 false true → free os → room →
      Issues (.stgV g a b h xs) s ws (addAccess s.cur .store (hd.addrAt os) vs qs.oc qs.sem qs.scope false hd.nc (tileBytes (readV c b) vs)))
  ∧ (on = false → Issues (.stgV g a b h xs) s ws id)

/-- R366, R365: an atomic issues when its handle is VALID, its address aligned and its bytes in the page, populated, readable and writable, in a page that
is not being moved: the access joins the context's accesses with its
operation, operands and class, and with D ≠ 0 its result waits for it at latency 12; an acquire freezes the context after the
bundle; a guard that does not hold leaves no effect.  An exchange store of a gang member, aligned and inside the window, to a task
that still runs, leaves as one packet, and the gang counts it; to a task that has ended it is discarded. -/
def Obligations.AtomicForms : Prop :=
  (∀ (s : State) (d a b : BitVec 5) (h : BitVec 4) (z : BitVec 1) (x : AtExt) (y : CasExt),
      Unblocked s → wfSemScope x.sem x.scope = true → wfSemScope y.sem y.scope = true →
    let c := s.ctx
    let hd := readH c h.toNat
    let o := (readS c a).toNat
    let n := if z = 1 then 8 else 4
    let eff := fun (op : Nat) (wide : Bool) (cmp : DWord) (oc : BitVec 4) (sem : BitVec 2) (scope : BitVec 3) (t : State) =>
      let t1 := addAccess s.cur (.atomic op wide (readS c b) cmp (d != 0)) (hd.addrAt o) (if wide then 8 else 4) oc sem scope false hd.nc [] t
      let t2 := if d = 0 then t1
        else modX t1 s.cur (fun k => k.addResult 12 (.sreg (physS c d.toNat) 0) (if wide then 11 else 10) (.waiting t.nextId))
      if sem = 1 ∨ sem = 3 then modX t2 s.cur (fun k => { k with await := .acquire t.nextId scope.toNat, lastFrz := 1 }) else t2
    let on := fun (g : BitVec 5) => readP c (g.extractLsb' 0 4) != g.getLsbD 4
    let served := fun (m : Nat) => Serves s hd o m m true true
    let form := fun (op : Nat) (ins : Instr) =>
      (on x.g = true → served n → Issues ins s 2 (eff op (z == 1) 0 x.oc x.sem x.scope)) ∧ (on x.g = false → Issues ins s 2 id)
    form 0 (.aadd d a b h z x) ∧ form 1 (.asub d a b h z x) ∧ form 2 (.aand d a b h z x) ∧ form 3 (.aor d a b h z x)
    ∧ form 4 (.axor d a b h z x) ∧ form 5 (.amin d a b h z x) ∧ form 6 (.amax d a b h z x) ∧ form 7 (.aminz d a b h z x)
    ∧ form 8 (.amaxz d a b h z x) ∧ form 9 (.aswp d a b h z x)
    ∧ (on y.g = true → served n → Issues (.acas d a b h z y) s 2 (eff 10 (z == 1) (readS c y.c) y.oc y.sem y.scope))
    ∧ (on y.g = false → Issues (.acas d a b h z y) s 2 id)
    ∧ (on x.g = true → served 4 → Issues (.afadd d a b h 0 x) s 2 (eff 11 false 0 x.oc x.sem x.scope))
    ∧ (on x.g = false → Issues (.afadd d a b h 0 x) s 2 id))
  ∧ (∀ (s : State) (g a b c : BitVec 5) (q : Gang), Unblocked s →
    let k := s.ctx
    let o := (readS k a).toNat
    let n := (readS k c).toNat
    let on := readP k (g.extractLsb' 0 4) != g.getLsbD 4
    let mine := s.gangs.find? (fun r => r.id == k.gang && r.xs.contains s.cur) = some q
    (on = false → Issues (.xst g a b c) s 2 id)
    ∧ (on = true → mine → q.exch = true → n < q.tasks → o < 0x40000 → o % 8 = 0 →
        (n ∉ q.live → Issues (.xst g a b c) s 2 id)
        ∧ (n ∈ q.live → Issues (.xst g a b c) s 2 (fun t =>
            sendPkt { t with gangs := updFirst (fun r => r.id = q.id) (fun r => { r with xstOut := r.xstOut + 1 }) t.gangs }
              (mkPkt 6 0 k.part (coreEp t (coreOf s.cur)) (coreEp t (coreOf (q.xs.getD n s.cur))) 0 o (leBytes 8 (readS k b).toNat)
                (.xst q.id n k.phase.toNat o)))))
    ∧ (on = true → o % 8 ≠ 0 → Traps (.xst g a b c) s 1 ⟨0x05, 0, 0, BitVec.ofNat 64 (o % 2 ^ 56)⟩)
    ∧ (on = true → o % 8 = 0 → mine → (q.exch = false ∨ q.tasks ≤ n ∨ 0x40000 ≤ o) →
        Traps (.xst g a b c) s 1 ⟨0x06, 0, 0, BitVec.ofNat 64 (o % 2 ^ 56)⟩))

/-! ## Translation, invalidation, fences -/

/-- R172, R368, R369: with the page in the translation cache, permitted and not being moved, `trans` issues and its handle is written at latency 16;
a VA above 52 bits is BOUND, a page without U is PPROT for a user; `hstat` gives the handle's status word at latency 2.  R166, R170,
R175, R179: an entry of the translation cache that covers the page, is not held by an invalidation and whose page is not being moved, serves without a
walk. -/
def Obligations.TranslateForms : Prop :=
  (∀ (s : State) (d : BitVec 4) (a r : BitVec 5) (h : BitVec 4) (m : TlbEntry), Unblocked s →
    let c := s.ctx
    let va := readS c a
    let adr := BitVec.ofNat 64 (va.toNat % 2 ^ 56)
    let hd := fun (ar : Bool) => (⟨1, ar, m.size, m.rd, m.wr, m.nc, m.fmt, m.vpn, m.pa⟩ : Handle)
    let ok := fun (ins : Instr) (ar : Bool) =>
      (va.toNat < 2 ^ 52 → Mapped s va.toNat m → (c.sup = true ∨ m.u = true) →
        Issues ins s 1 (fun t => modX (touchTlb t s.cur va.toNat) s.cur (fun k => k.addResult 16 (.handle d.toNat (hd ar)) 0 .done)))
      ∧ (2 ^ 52 ≤ va.toNat → Traps ins s 1 ⟨0x06, 0, 0, adr⟩)
      ∧ (va.toNat < 2 ^ 52 → Mapped s va.toNat m → c.sup = false → m.u = false → Traps ins s 1 ⟨0x09, 1, d.toNat, adr⟩)
      ∧ (∀ q, va.toNat < 2 ^ 52 → translate s s.cur va.toNat = .fault q → Traps ins s 1 ⟨0x08, q, d.toNat, adr⟩)
    ok (.trans d a) false ∧ ok (.transAr d a) true
    ∧ Issues (.hstat r h) s 1 (retS r 2 (handleWord (readH c h.toNat))))
  ∧ (∀ (s : State) (x va : Nat) (e : TlbEntry),
    (getC s (coreOf x)).tlb.find? (fun f => covers f (getX s x).part (va / 65536)) = some e →
    let pa := (e.pa.toNat + (va - e.vpn.toNat * 65536)) % 2 ^ 56
    (e.stop = false → moving s pa = false → translate s x va = .ok e) ∧ (e.stop = true → translate s x va = .wait 5 id)
    ∧ (e.stop = false → moving s pa = true → translate s x va = .wait 7 id))

/-- R174, R370: `inv` and `inv.all` of a supervisor issue, join C0's order and freeze their context; of a user they are PRIV; a count
of 2^24 pages or more is BOUND. -/
def Obligations.InvalidateForms : Prop := ∀ (s : State) (a b : BitVec 5), Unblocked s →
  let c := s.ctx
  let n := (readS c b).toNat
  let join := fun (vpn count : Nat) (all : Bool) (t : State) =>
    modX { t with nextId := t.nextId + 1,
                  invals := t.invals ++ [⟨t.nextId, (getX t s.cur).part, vpn, count, all, false, false, [], []⟩] } s.cur
      (fun k => { k with await := .inv t.nextId vpn count all, lastFrz := 7 })
  (c.sup = true → n < 2 ^ 24 →
      Issues (.inv a b) s 1 (join ((readS c a).toNat / 2 ^ 16 % 2 ^ 36) n false))
  ∧ (c.sup = true → Issues .invAll s 1 (join 0 0 true))
  ∧ (c.sup = false → Traps (.inv a b) s 1 ⟨0x03, 0, 0, 0⟩ ∧ Traps .invAll s 1 ⟨0x03, 0, 0, 0⟩)
  ∧ (c.sup = true → 2 ^ 24 ≤ n → Traps (.inv a b) s 1 ⟨0x06, 0, 0, BitVec.ofNat 64 (n % 2 ^ 56)⟩)

/-- R261, R262, R372: the fences issue at once, and the context freezes after the bundle, with cause 1; `fence.cm` with mask 0 does
nothing.  R371, R373: `gbar` is held while its barrier has not released the member, and issues once it has and its data cache is
clean. -/
def Obligations.FenceForms : Prop :=
  (∀ (s : State) (sc : BitVec 3) (m : BitVec 16), Unblocked s → sc.toNat ≤ 4 →
    (m ≠ 0 → Issues (.fenceCm sc m) s 1 (fun t => modX t s.cur (fun c => { c with await := .fenceCm m.toNat sc.toNat 0, lastFrz := 1 })))
    ∧ (m = 0 → Issues (.fenceCm sc m) s 1 id)
    ∧ Issues .fenceSc s 1 (fun t => modX t s.cur (fun c => { c with await := .fenceSc 0, lastFrz := 1 })))
  ∧ (∀ (s : State), Unblocked s →
    (s.ctx.released = false → Holds .gbar s 1 (arrive s.cur))
    ∧ (s.ctx.released = true → cleanDone s s.cur = true → Issues .gbar s 1 id)
    ∧ (s.ctx.released = true → cleanDone s s.cur = false → Holds .gbar s 1 id))

/-- R137, R374: `phase` issues when the new cache meets no context's region and no drain runs: the dirty bytes are written back, every
line goes, what is on its way to the cache no longer enters it, and the context freezes for 40 + 2 × d cycles; it is BOUND when a region is met, and waits for another drain.
(The TI.ADDR and EXTRA of a cause for which the rule names none are log entry 21, DESIGN CHOICE.) -/
def Obligations.PhaseForm : Prop := ∀ (s : State) (p : BitVec 3), Unblocked s → p.toNat ≤ 4 →
  let k := coreOf s.cur
  let w := 41 + 2 * ((getC s k).dc.filter (fun l => l.dirty ≠ 0)).length
  let meets := (tasksOn s k).any (fun y => splitMeets p.toNat (getX s y))
  (meets = true → Traps (.phase p) s 1 ⟨0x06, 0, 0, BitVec.ofNat 64 p.toNat⟩)
  ∧ (meets = false → s.cyc < s.core.dcDrain → Holds (.phase p) s 9 id)
  ∧ (meets = false → s.core.dcDrain ≤ s.cyc → Issues (.phase p) s 1 (fun t =>
      addTimer (modX (modC (dropAllocs (drainCache t k) k) k (fun c => { c with dcDrain := t.cyc + 41 + 2 * ((getC t k).dc.filter (fun l => l.dirty ≠ 0)).length })) s.cur
        (fun c => { c with await := .phase p.toNat (t.cyc + w), lastFrz := 9 })) w .phaseDrainEnd (EvArg.of s.cur)))

/-! ## Timelines and transaction barriers -/

/-- R200, R269, R271, R375 to R377: `tlwait` issues when the timeline has reached the value in modular order, is held while it can,
and is QDEAD when no promised increment can reach it; `tlinc` joins the increments; `tlrd` reads; the memory forms, of an aligned address that their handle serves, issue or hold
by a read at the home and signal by a maximum there, as a release. -/
def Obligations.TimelineForms : Prop := ∀ (s : State) (sc a : BitVec 3) (b d q : BitVec 5) (h : BitVec 4),
  Unblocked s → sc.toNat ≤ 4 →
  let c := s.ctx
  let hd := readH c h.toNat
  let n := readS c b
  let reached := fun (t : DWord) => (t - n).toNat < 2 ^ 63
  let acquire := fun (t : State) => if sc = 0 then t else modX t s.cur (fun k => { k with await := .waitAcq sc.toNat 0, lastFrz := 1 })
  let o := (readS c q).toNat
  (reached (readTl c a.toNat) → Issues (.tlwait sc a b) s 1 acquire)
  ∧ (¬ reached (readTl c a.toNat) → reached (promised c a.toNat 4) → Holds (.tlwait sc a b) s 1 id)
  ∧ (¬ reached (readTl c a.toNat) → ¬ reached (promised c a.toNat 4) → Traps (.tlwait sc a b) s 1 ⟨0x13, 0, 0, 0⟩)
  ∧ (n.toNat < 2 ^ 63 → Issues (.tlinc a b) s 1 (fun t => modX t t.cur (fun k => { k with incs := k.incs ++ [⟨a.toNat, n.toNat, 0, 0, k.ord, false⟩] })))
  ∧ (2 ^ 63 ≤ n.toNat → Traps (.tlinc a b) s 1 ⟨0x06, 0, 0, BitVec.ofNat 64 (n.toNat % 2 ^ 56)⟩)
  ∧ Issues (.tlrd d a) s 1 (retS d 2 (readTl c a.toNat))
  ∧ (∀ v, Serves s hd o 8 8 true false → c.poll = some v → reached v →
      Issues (.tlmwait sc q b h) s 1 acquire)
  ∧ (Serves s hd o 8 8 true false → c.poll = none → c.pollTick = none →
      Holds (.tlmwait sc q b h) s 1 (fun t => modX (addAccess s.cur .poll (hd.addrAt o) 8 0 0 0 false hd.nc [] t) s.cur
        (fun k => { k with pollTick := some s.cicada.toNat })))
  ∧ (Serves s hd o 8 8 true true →
      Issues (.tlmsig sc q b h) s 1 (addAccess s.cur (.atomic 12 true n 0 false) (hd.addrAt o) 8 0 2 sc false hd.nc []))

/-- R273, R274, R276, R378: the barrier forms issue on a word that is 16-byte aligned in the region.  `tbinit` writes the word, `tbarr`
updates it, `tbwait` issues when the phase has passed, is held while it has not, and is BOVR after an overrun; the alignment
and the operands are checked. -/
def Obligations.TransactionBarrierForms : Prop := ∀ (s : State) (sc : BitVec 3) (a b e : BitVec 5), Unblocked s → sc.toNat ≤ 4 →
  let c := s.ctx
  let x := s.cur
  let w := (readS c a).toNat
  let adr := BitVec.ofNat 64 (w % 2 ^ 56)
  let ea := (readS c b).toNat
  let es := (readS c e).toNat
  let word : BitVec 128 := BitVec.ofNat 128 (leNat (loadTs s x w 16))
  let put := fun (v : BitVec 128) (t : State) => storeTs t t.cur w (leBytes 16 v.toNat) false
  let inside := 65536 * c.tsBase.toNat ≤ w ∧ w + 16 ≤ 65536 * (c.tsBase.toNat + c.tsSize.toNat) ∧ tsOpen c s.core w 16 = true
  let acquire := fun (t : State) => if sc = 0 then t else modX t x (fun k => { k with await := .waitAcq sc.toNat 0, lastFrz := 1 })
  (w % 16 ≠ 0 → Traps (.tbinit e a b) s 1 ⟨0x05, 0, 0, adr⟩ ∧ Traps (.tbarr a b) s 1 ⟨0x05, 0, 0, adr⟩ ∧ Traps (.tbwait sc a b) s 1 ⟨0x05, 0, 0, adr⟩)
  ∧ (w % 16 = 0 → ¬ inside → Traps (.tbinit e a b) s 1 ⟨0x06, 0, 0, adr⟩ ∧ Traps (.tbarr a b) s 1 ⟨0x06, 0, 0, adr⟩
      ∧ Traps (.tbwait sc a b) s 1 ⟨0x06, 0, 0, adr⟩)
  ∧ (w % 16 = 0 → inside →
      (ea < 2 ^ 20 → es < 2 ^ 40 → Issues (.tbinit e a b) s 1 (put (tbInit ea es)))
      ∧ (2 ^ 20 ≤ ea ∨ 2 ^ 40 ≤ es → Traps (.tbinit e a b) s 1 ⟨0x06, 0, 0, adr⟩)
      ∧ Issues (.tbarr a b) s 1 (fun t => storeTs t x w (leBytes 16 (tbUpdate (BitVec.ofNat 128 (leNat (loadTs t x w 16))) ea 0).toNat) false)
      ∧ (16 ≤ ea → Traps (.tbwait sc a b) s 1 ⟨0x06, 0, 0, adr⟩)
      ∧ (ea < 16 → word.getLsbD 123 = true → Traps (.tbwait sc a b) s 1 ⟨0x0C, 0, 0, BitVec.ofNat 64 (w % 2 ^ 56 + 2 ^ 62)⟩)
      ∧ (ea < 16 → word.getLsbD 123 = false → word.toNat / 2 ^ 124 = ea → Holds (.tbwait sc a b) s 1 id)
      ∧ (ea < 16 → word.getLsbD 123 = false → word.toNat / 2 ^ 124 ≠ ea → Issues (.tbwait sc a b) s 1 acquire))

/-- R273, R274: the update of a barrier word, field by field, and the word that `tbinit` writes. -/
def Obligations.TransactionBarrierUpdate : Prop := ∀ (w : BitVec 128) (a n ea es : Nat),
  let f := fun (v : BitVec 128) (lo len : Nat) => v.toNat / 2 ^ lo % 2 ^ len
  let u := tbUpdate w a n
  let same := fun (lo len : Nat) => f u lo len = f w lo len
  let i := tbInit ea es
  (f w 123 1 = 1 ∨ f w 122 1 = 0 → u = w)
  ∧ (f w 123 1 = 0 → f w 122 1 = 1 → (f w 100 20 < a ∨ f w 40 40 < n) → f u 123 1 = 1 ∧ same 124 4 ∧ same 0 123)
  ∧ (f w 123 1 = 0 → f w 122 1 = 1 → f w 100 20 = a → f w 40 40 = n →
      f u 124 4 = (f w 124 4 + 1) % 16 ∧ f u 100 20 = f w 80 20 ∧ f u 40 40 = f w 0 40 ∧ same 120 4 ∧ same 80 20 ∧ same 0 40)
  ∧ (f w 123 1 = 0 → f w 122 1 = 1 → a ≤ f w 100 20 → n ≤ f w 40 40 → ¬ (f w 100 20 = a ∧ f w 40 40 = n) →
      f u 100 20 = f w 100 20 - a ∧ f u 40 40 = f w 40 40 - n ∧ same 120 8 ∧ same 80 20 ∧ same 0 40)
  ∧ (ea < 2 ^ 20 → es < 2 ^ 40 → f i 124 4 = 0 ∧ f i 123 1 = 0 ∧ f i 122 1 = (if ea = 0 ∧ es = 0 then 0 else 1) ∧ f i 120 2 = 0
      ∧ f i 100 20 = ea ∧ f i 80 20 = ea ∧ f i 40 40 = es ∧ f i 0 40 = es)

/-! ## Vector instructions and numbers -/

/-- R381 to R386: with the width of T the shape's, and the pipe of the slot free, each arithmetic form issues, holds the pipe for its
passes, and writes the rounded exact results of elements 0 to m − 1 at the latency of its row; with another width it is FMT; while
the pipe is held it waits.  The fused forms take both pipes. -/
def Obligations.VectorArithmeticForms : Prop := ∀ (s : State) (d a b q : BitVec 5) (r t : BitVec 3), Unblocked s →
  t.toNat ≤ 4 → r.toNat ≤ 3 →
  let c := s.ctx
  let w := 8 * shapeEsz c.vshape
  let m := shapeRows c.vshape * shapeCols c.vshape
  let n := (m * w + 1023) / 1024
  let fm := laneFmt t
  let code := fun (x : BitVec 5) (i : Nat) => (readV c x).toNat / 2 ^ (w * i) % 2 ^ w
  let v := fun (x : BitVec 5) (i : Nat) => decodeNum fm (code x i)
  let rnd := fun (i : Nat) (e : Ex) => roundNum fm (modeOf r.toNat 0 0 0 i) e
  let form := fun (ins : Instr) (words lat occ : Nat) (fused : Bool) (f : Nat → Nat) =>
    (fm.width = w → s.core.pipe0 ≤ s.cyc → (fused = true → s.core.pipe1 ≤ s.cyc) →
      Issues ins s words (fun u => retV d lat (tilePack w (tab m f)) (lowMask (m * w / 8)) (takePipe fused 2 occ u)))
    ∧ (fm.width = w → s.cyc < s.core.pipe0 → Holds ins s 1 id)
    ∧ (fm.width ≠ w → Traps ins s 2 ⟨0x0A, 0, 0, 0⟩)
  let two := fun (ins : Instr) (k : Nat) (f : Ex → Ex → Ex) => form ins 1 (k + n) n false (fun i => rnd i (f (v a i) (v b i)))
  let one := fun (ins : Instr) (f : Ex → Ex) => form ins 1 (2 + n) n false (fun i => rnd i (f (v a i)))
  let three := fun (ins : Instr) (f : Ex → Ex → Ex → Ex) => form ins 2 (8 + n) n true (fun i => rnd i (f (v a i) (v b i) (v q i)))
  let special := fun (ins : Instr) (f : Nat → Nat) => t.toNat ≤ 2 → form ins 1 (11 + 2 * n) (2 * n) false f
  two (.vadd d a b r t) 2 Ex.add ∧ two (.vsub d a b r t) 2 (fun x y => x.add y.neg) ∧ two (.vmul d a b r t) 4 Ex.mul
  ∧ two (.vmin d a b r t) 2 Ex.min ∧ two (.vmax d a b r t) 2 Ex.max
  ∧ two (.viadd d a b r t) 2 (identity Ex.add) ∧ two (.vimul d a b r t) 4 (identity Ex.mul)
  ∧ two (.vimax d a b r t) 2 (identity Ex.max) ∧ two (.vimin d a b r t) 2 (identity Ex.min)
  ∧ form (.vdiv d a b r t) 1 (11 + 2 * n) (2 * n) false
      (fun i => rnd i (if t.toNat < 3 then (v a i).div (v b i) else (v a i).divInt (v b i)))
  ∧ one (.vneg d a r t) Ex.neg ∧ one (.vmag d a r t) Ex.mag
  ∧ three (.vfma d a b r t q) (fun x y z => (x.mul y).add z) ∧ three (.vfms d a b r t q) (fun x y z => (x.mul y).add z.neg)
  ∧ three (.vfnma d a b r t q) (fun x y z => (x.mul y).neg.add z)
  ∧ special (.vexp d a r t) (fun i => specialFn 0 t (code a i)) ∧ special (.vlog d a r t) (fun i => specialFn 1 t (code a i))
  ∧ special (.vrcp d a r t) (fun i => rnd i ((Ex.fin false 1 1).div (v a i)))
  ∧ special (.vsqrt d a r t) (fun i => rnd i (sqrtEx (v a i)))
  ∧ special (.vrsqrt d a r t) (fun i => specialFn 2 t (code a i)) ∧ special (.vtanh d a r t) (fun i => specialFn 3 t (code a i))
  ∧ special (.vsigm d a r t) (fun i => specialFn 4 t (code a i)) ∧ special (.vgelu d a r t) (fun i => specialFn 5 t (code a i))

/-- R387 to R390, R397, R398: the forms on element bits.  Logic and shifts take T = i32 or i16; the compares, tests and fill any T; the
selects and moves no T.  `vbrow` beyond the rows, and `vext` and `vins` beyond the elements, are BOUND. -/
def Obligations.VectorElementForms : Prop := ∀ (s : State) (d a b g q : BitVec 5) (t : BitVec 3) (f : BitVec 6), Unblocked s →
  t.toNat ≤ 4 →
  let c := s.ctx
  let w := 8 * shapeEsz c.vshape
  let rows := shapeRows c.vshape
  let cols := shapeCols c.vshape
  let m := rows * cols
  let n := (m * w + 1023) / 1024
  let fm := laneFmt t
  let code := fun (x : BitVec 5) (i : Nat) => (readV c x).toNat / 2 ^ (w * i) % 2 ^ w
  let v := fun (x : BitVec 5) (i : Nat) => decodeNum fm (code x i)
  let guard := readP c (g.extractLsb' 0 4) != g.getLsbD 4
  let open' := s.core.pipe0 ≤ s.cyc
  let tile := fun (ins : Instr) (words k : Nat) (e : Nat → Nat) =>
    Issues ins s words (fun u => retV d (k + n) (tilePack w (tab m e)) (lowMask (m * w / 8)) (takePipe false 2 n u))
  let move := fun (ins : Instr) (words k : Nat) (e : Nat → Nat) =>
    (open' → tile ins words k e) ∧ (s.cyc < s.core.pipe0 → Holds ins s 1 id)
  let typed := fun (ins : Instr) (e : Nat → Nat) =>
    (fm.width = w → move ins 1 2 e) ∧ (fm.width ≠ w → Traps ins s 2 ⟨0x0A, 0, 0, 0⟩)
  let logic := fun (ins : Instr) (e : Nat → Nat → Nat) => 3 ≤ t.toNat → typed ins (fun i => e (code a i) (code b i))
  let truth := fun (p : Prop) [Decidable p] => if p then 1 else 0
  let cmp := fun (ins : Instr) (e : Ex → Ex → Bool) =>
    typed ins (fun i => if (v a i).noOrder = false ∧ (v b i).noOrder = false ∧ e (v a i) (v b i) = true then 1 else 0)
  let j := (readS c b).toNat
  logic (.vand d a b t) (fun x y => x &&& y) ∧ logic (.vor d a b t) (fun x y => x ||| y) ∧ logic (.vxor d a b t) (fun x y => x ^^^ y)
  ∧ logic (.vshl d a b t) (fun x y => x * 2 ^ (y % w) % 2 ^ w) ∧ logic (.vshr d a b t) (fun x y => x / 2 ^ (y % w))
  ∧ logic (.vsar d a b t) (fun x y => (toSigned w x / 2 ^ (y % w) % 2 ^ w).toNat)
  ∧ cmp (.vcmpEq d a b t) (fun x y => !x.lt y && !y.lt x) ∧ cmp (.vcmpNe d a b t) (fun x y => x.lt y || y.lt x)
  ∧ cmp (.vcmpLt d a b t) Ex.lt ∧ cmp (.vcmpLe d a b t) (fun x y => !y.lt x)
  ∧ cmp (.vcmpGt d a b t) (fun x y => y.lt x) ∧ cmp (.vcmpGe d a b t) (fun x y => !x.lt y)
  ∧ typed (.visab d a t) (fun i => truth (v a i = .absent)) ∧ typed (.vispr d a t) (fun i => truth (v a i ≠ .absent))
  ∧ typed (.vfill d a b t) (fun i => if v a i = .absent then code b i else code a i)
  ∧ move (.vsel d a b g) 1 2 (fun i => if guard then code a i else code b i)
  ∧ move (.vselm d a b q) 2 2 (fun i => if code q i = 0 then code b i else code a i)
  ∧ move (.vmov d a) 1 3 (code a) ∧ move (.vtrn d a) 1 3 (fun i => code a (i % rows * cols + i / rows))
  ∧ move (.vperm d a b) 1 3 (fun i => if code b i < m then code a (code b i) else 2 ^ w - 1)
  ∧ (f.toNat < rows → move (.vbrow d a f) 1 3 (fun i => code a (f.toNat * cols + i % cols)))
  ∧ (rows ≤ f.toNat → Traps (.vbrow d a f) s 2 ⟨0x06, 0, 0, BitVec.ofNat 64 f.toNat⟩)
  ∧ (fm.width = w → move (.vbcs d a t) 1 3 (fun _ => (readS c a).toNat % 2 ^ w))
  ∧ (fm.width = w → j < m → move (.vins d a b t) 1 3 (fun i => if i = j then (readS c a).toNat % 2 ^ w else code d i))
  ∧ (fm.width = w → j < m → open' → Issues (.vext d a b t) s 1 (fun u =>
      retS d (3 + n) (if 3 ≤ t.toNat then BitVec.ofInt 64 (toSigned w (code a j)) else BitVec.ofNat 64 (code a j)) (takePipe false 2 n u)))
  ∧ (fm.width = w → m ≤ j → Traps (.vins d a b t) s 2 ⟨0x06, 0, 0, BitVec.ofNat 64 (j % 2 ^ 56)⟩
      ∧ Traps (.vext d a b t) s 2 ⟨0x06, 0, 0, BitVec.ofNat 64 (j % 2 ^ 56)⟩)

/-- R391, R392, R399: a reduction writes one element of each row (axis 0, in its column 0) or each column (axis 1, in row 0) and leaves the other
elements; a conversion rounds from T to U; the tree mask writes 0 where the key node is the query node or one of its ancestors, and
all ones elsewhere.
(The TI.ADDR and EXTRA of a cause for which the rule names none are log entry 21, DESIGN CHOICE.) -/
def Obligations.VectorReduceConvertMaskForms : Prop := ∀ (s : State) (d a : BitVec 5) (x : BitVec 1) (t u : BitVec 3) (e : Option CvtExt),
  Unblocked s → t.toNat ≤ 4 → u.toNat ≤ 4 → s.core.pipe0 ≤ s.cyc →
  let c := s.ctx
  let w := 8 * shapeEsz c.vshape
  let rows := shapeRows c.vshape
  let cols := shapeCols c.vshape
  let m := rows * cols
  let n := (m * w + 1023) / 1024
  let code := fun (r : BitVec 5) (i : Nat) => (readV c r).toNat / 2 ^ (w * i) % 2 ^ w
  let v := fun (i : Nat) => decodeNum (laneFmt t) (code a i)
  let line := fun (k : Nat) => if x = 0 then tab cols (fun j => v (k * cols + j)) else tab rows (fun j => v (j * cols + k))
  let red := fun (ins : Instr) (f : List Ex → Ex) => (laneFmt t).width = w → m * w ≤ 16384 →
    ∃ val msk : Tile,
      Issues ins s 1 (fun z => retV d (7 + n) val msk (takePipe false 2 n z))
      ∧ ∀ i < m, (let k := if x = 0 then i / cols else i
          if (if x = 0 then i % cols = 0 else i < cols) then
            val.toNat / 2 ^ (w * i) % 2 ^ w = roundNum (laneFmt t) .rne (f (line k)) % 2 ^ w ∧ msk.toNat / 2 ^ (w * i) % 2 ^ w = 2 ^ w - 1
          else msk.toNat / 2 ^ (w * i) % 2 ^ w = 0)
  let p := fun (j : Nat) => toSigned w (code a j)
  let q0 : Int := if rows < 2 then 0 else p cols
  let ok := cols ≤ 64 ∧ (∀ j < cols, p j < (j : Int)) ∧ 0 ≤ q0 ∧ q0 + rows ≤ (cols : Int)
  red (.vredSum d a x t) sumEx ∧ red (.vredMax d a x t) (reduceEx Ex.max) ∧ red (.vredMin d a x t) (reduceEx Ex.min)
  ∧ red (.vredMean d a x t) meanEx ∧ red (.vredCount d a x t) (fun l => .fin false (countEx l) 1)
  ∧ ((laneFmt t).width = w → (laneFmt u).width = w →
      Issues (.vcvt d a u t e) s (if e.isSome then 2 else 1) (fun z =>
        let k := e.getD ⟨0, 0⟩
        retV d (5 + n) (tilePack w (tab m (fun i => roundNum (laneFmt u) (modeOf k.rnd.toNat 0 0 ((readS c k.salt).extractLsb' 0 32) i) (v i))))
          (lowMask (m * w / 8)) (takePipe false 2 n z)))
  ∧ ((laneFmt t).width ≠ w ∨ (laneFmt u).width ≠ w → Traps (.vcvt d a u t e) s 2 ⟨0x0A, 0, 0, 0⟩)
  ∧ (ok → ∃ anc : Nat → Int → Bool,
      Issues (.vtmask d a) s 1 (fun z => retV d 6 (tilePack w (tab m (fun i => if anc (i % cols) (q0 + (i / cols : Nat)) then 0 else 2 ^ w - 1)))
        (lowMask (m * w / 8)) (takePipe false 2 1 z))
      ∧ ∀ k < cols, ∀ y : Int, y < (cols : Int) →
          (y < 0 → anc k y = false) ∧ (0 ≤ y → anc k y = (decide (y = (k : Int)) || anc k (p y.toNat))))
  ∧ (64 < cols → Traps (.vtmask d a) s 2 ⟨0x06, 0, 0, BitVec.ofNat 64 cols⟩)

/-- R393 to R396: tile-store moves.  `vld` and `vst` of a 64-byte aligned offset inside their window issue, `vld` with the bytes as its
result, unless one is poisoned; `vst` writes the bytes of the register.  `vldc` and `vstc` of a formatted window, of the width of the
shape, with the elements and their scales inside and aligned to bytes and blocks, issue; `vstc` writes nothing before its latency.  Elsewhere alignment and bounds are checked. -/
def Obligations.VectorWindowForms : Prop := ∀ (s : State) (g d a b : BitVec 5) (w : BitVec 4) (x : Option (BitVec 18)) (l : VldcExt) (y : VstcExt)
    (f : NumFmt), Unblocked s → l.t.toNat ≤ 4 → y.t.toNat ≤ 4 →
  let c := s.ctx
  let k := s.cur
  let n := shapeRows c.vshape * shapeCols c.vshape * (8 * shapeEsz c.vshape) / 8
  let m := shapeRows c.vshape * shapeCols c.vshape
  let lw := 8 * shapeEsz c.vshape
  let n' := (m * lw + 1023) / 1024
  let tw := readTw c w.toNat
  let o := (readS c a + BitVec.signExtend 64 (x.getD 0)).toNat
  let at' := twBase tw + o
  let words := if x.isSome then 2 else 1
  let holds := readP c (g.extractLsb' 0 4) != g.getLsbD 4
  let inside := o % 64 = 0 ∧ 0 < twSize tw ∧ o + n ≤ twSize tw ∧ tsOpen c s.core at' n = true
  let rc := windowRecord s k w.toNat
  let e0 := (readS c a).toNat
  let v := fun (i : Nat) => decodeNum (laneFmt y.t) ((readV c b).toNat / 2 ^ (lw * i) % 2 ^ lw)
  let salt := fun (r : BitVec 5) => (readS c r).extractLsb' 0 32
  let kb := (readS c y.kb).toNat
  let fits := fun (t : BitVec 3) => (laneFmt t).width = lw ∧ (∀ r ∈ seqRanges (thrBscale rc) f.cont e0 m, InWindow s w r.1 r.2)
    ∧ (if thrBscale rc then e0 % 32 = 0 ∧ m % 32 = 0 else f.cont = 4 → e0 % 2 = 0 ∧ m % 2 = 0)
  (inside → poisonTs s k at' n = false → Issues (.vld d a w x) s words (retV d 4 (tileOf (loadTs s k at' n)) (lowMask n)))
  ∧ (inside → holds = true → Issues (.vst g a b w x) s words (fun t => storeTs t k at' (tileBytes (readV c b) n) false))
  ∧ (holds = false → Issues (.vst g a b w x) s words id ∧ Issues (.vstc g a b w y) s 2 id)
  ∧ (o % 64 ≠ 0 → Traps (.vld d a w x) s 2 ⟨0x05, 0, 0, BitVec.ofNat 64 (o % 2 ^ 56)⟩
      ∧ (holds = true → Traps (.vst g a b w x) s 2 ⟨0x05, 0, 0, BitVec.ofNat 64 (o % 2 ^ 56)⟩))
  ∧ (o % 64 = 0 → twSize tw = 0 → Traps (.vld d a w x) s 2 ⟨0x06, 0, w.toNat, BitVec.ofNat 64 (o % 2 ^ 56)⟩
      ∧ (holds = true → Traps (.vst g a b w x) s 2 ⟨0x06, 0, w.toNat, BitVec.ofNat 64 (o % 2 ^ 56)⟩))
  ∧ (thrFmt rc = some f → fits l.t → s.core.pipe0 ≤ s.cyc →
      (∀ r ∈ seqRanges (thrBscale rc) f.cont e0 m, poisonTs s k (twBase tw + r.1) r.2 = false) →
      Issues (.vldc d a w l) s 2 (fun t => retV d (5 + n')
        (tilePack lw (tab m (fun i => roundNum (laneFmt l.t) (modeOf l.rnd.toNat 0 0 (salt l.salt) i)
          (seqEx s k (twBase tw) f (thrBscale rc) (e0 + i))))) (lowMask n) (useThr (takePipe false 2 n' t))))
  ∧ (thrFmt rc = some f → fits y.t → s.core.pipe0 ≤ s.cyc →
      (thrRot rc = 0 ∨ m % (4 * 4 ^ thrRot rc) = 0 ∧ kb % (4 * 4 ^ thrRot rc) = 0) → holds = true →
      Issues (.vstc g a b w y) s 2 (fun t => modX (useThr (takePipe false 2 n' t)) k (fun q =>
        q.addResult (5 + rotLog (thrRot rc) / 2 + n' + 1)
          (.tile (encodeSeq f (thrBscale rc) (fun i => modeOf y.rnd.toNat (thrRmode rc) (thrKey rc) (salt y.salt) (e0 + i)) (twBase tw) e0
            (rotateAll (thrSeed rc) (thrRot rc) kb (tab m v)))) 0 .done)))
  ∧ (thrFmt rc = none → (laneFmt l.t).width = lw → Traps (.vldc d a w l) s 2 ⟨0x0A, 0, twThr tw, 0⟩)

/-- R296, R297, R384: exact arithmetic.  An absent operand makes the result absent but in the identity forms, which give the other operand; a NaN,
or an invalid operation, gives NaN; sums and products of finite values are exact. -/
def Obligations.ExactArithmetic : Prop := ∀ (x y : Ex) (s t : Bool) (n d m e : Nat), 0 < d → 0 < e →
  let num := fun (g : Bool) (k : Nat) => if g then -(k : Int) else k
  let p := Ex.fin s n d
  let q := Ex.fin t m e
  let ops := [Ex.add, Ex.sub, Ex.mul, Ex.div, Ex.min, Ex.max]
  (∀ f ∈ ops, f .absent y = .absent ∧ f x .absent = .absent ∧ identity f .absent y = y ∧ identity f x .absent = x)
  ∧ (x ≠ .absent → ∀ f ∈ ops, f .nan x = .nan ∧ f x .nan = .nan ∧ identity f .nan x = .nan ∧ identity f x .nan = .nan)
  ∧ (x ≠ .absent → y ≠ .absent → ∀ f ∈ ops, identity f x y = f x y)
  ∧ Ex.add (.inf s) (.inf t) = (if s = t then .inf s else .nan) ∧ Ex.add (.inf s) q = .inf s ∧ Ex.add p (.inf t) = .inf t
  ∧ Ex.mul (.inf s) (.inf t) = .inf (s != t) ∧ Ex.mul (.inf s) q = (if m = 0 then .nan else .inf (s != t))
  ∧ Ex.div (.inf s) (.inf t) = .nan ∧ Ex.div (.inf s) q = .inf (s != t)
  ∧ Ex.div p (.fin t 0 e) = (if n = 0 then .nan else .inf (s != t)) ∧ Ex.divInt p (.fin t 0 e) = .fin false 0 1
  ∧ (∃ g k z, Ex.add p q = .fin g k z ∧ 0 < z ∧ num g k * (d * e) = (num s n * e + num t m * d) * z
      ∧ (k = 0 → g = (s && t && n == 0 && m == 0)))
  ∧ Ex.mul p q = .fin (s != t) (n * m) (d * e) ∧ (m ≠ 0 → Ex.div p q = .fin (s != t) (n * e) (d * m))
  ∧ (Ex.lt p q = true ↔ num s n * e < num t m * d)
  ∧ (Ex.min p q = p ∨ Ex.min p q = q) ∧ ¬ p.lt (Ex.min p q) = true ∧ ¬ q.lt (Ex.min p q) = true
  ∧ (Ex.max p q = p ∨ Ex.max p q = q) ∧ ¬ (Ex.max p q).lt p = true ∧ ¬ (Ex.max p q).lt q = true

/-- R284: the absent codes of the formats; an absent scale makes its elements absent; raw data has no format that it could be decoded by.
R280, R281, R286, R287: in every format, a code that is no NaN rounds to itself in every mode, a NaN gives the canonical NaN, and the
absent code is absent. -/
def Obligations.ValuesRoundToThemselves : Prop :=
  (fp32.absentCode = 0xFFFFFFFF ∧ bf16.absentCode = 0xFFFF ∧ fp16.absentCode = 0xFFFF
    ∧ (∀ e m b : Nat, (NumFmt.exmy e m b).width = 1 + e + m ∧ (NumFmt.exmy e m b).absentCode = 2 ^ (e + m))
    ∧ (NumFmt.int 8).absentCode = 0x80 ∧ (NumFmt.int 4).absentCode = 0x8 ∧ (NumFmt.int 16).absentCode = 0x8000
    ∧ (NumFmt.int 32).absentCode = 0x80000000 ∧ (∀ v : Ex, applyScale 0xFF v = .absent) ∧ (∀ r : BitVec 128, r.toNat % 2 ^ 4 = 0 → thrFmt r = none))
  ∧ (∀ (f : NumFmt) (mode : Mode) (code : Nat),
    (f = fp32 ∨ f = bf16 ∨ f = fp16 ∨ (∃ w, f = .int w ∧ 2 ≤ w) ∨ (∃ e m b, f = .exmy e m b ∧ 1 ≤ e)) →
    code < 2 ^ f.width →
    (decodeNum f code = .absent ↔ code = f.absentCode)
    ∧ roundNum f mode (decodeNum f code) = (if decodeNum f code = .nan then f.nanCode else code)
    ∧ roundNum f mode (decodeNum f code) < 2 ^ f.width)

/-- R299, R301, R302: the accumulator.  A block without present products changes no entry; an absent element added on write changes none, and a
present one counts, up to 65,535; a drain of an entry with count 0 is absent but in the modes RAW and COUNT. -/
def Obligations.AccumulatorRules : Prop := ∀ (e : BitVec 64) (fs : List (Ex × Ex)) (code : Nat),
  let count := e.toNat / 2 ^ 32 % 2 ^ 16
  ((∀ p ∈ fs, p.1 = .absent ∨ p.2 = .absent) → applyBlock e (blockSum false fs) = e)
  ∧ (decodeNum fp32 code = .absent → addOnWrite e code = e)
  ∧ (decodeNum fp32 code ≠ .absent → (addOnWrite e code).toNat / 2 ^ 32 % 2 ^ 16 = min (count + 1) 65535)
  ∧ (count = 0 → drainEx 1 e = .absent ∧ drainEx 2 e = .absent)
  ∧ (count ≠ 0 → drainEx 1 e = drainEx 0 e ∧ drainEx 2 e = (drainEx 0 e).div (.fin false count 1))
  ∧ drainEx 3 e = .fin false count 1 ∧ drainEx 0 e ≠ .absent

/-! ## The matrix array -/

/-- R404 to R406, R410, R412 to R416: the matrix and scale forms.  A load of a plane that no row uses issues, and the plane is to land when its
rounds have ended; `mma` enters the entry stage when the checks pass and no other waits there; a drain writes its cells; `mclr` clears
the tile; the latch forms join the writes that land 12 array steps later.  A tile that is not allotted is BOUND, a busy one SCHED.
(The TI.ADDR and EXTRA of a cause for which the rule names none are log entry 21, DESIGN CHOICE.) -/
def Obligations.MatrixForms : Prop := ∀ (s : State) (tl : BitVec 3) (a : BitVec 5) (w : BitVec 4) (rnd : BitVec 2) (sl : Option (BitVec 5))
    (f : NumFmt) (pt : Nat), Unblocked s →
  let c := s.ctx
  let x := s.cur
  let k := coreOf x
  let tw := readTw c w.toNat
  let r := windowRecord s x w.toNat
  let sc := thrBscale r
  let e0 := (readS c a).toNat
  let kb := 2048 / f.cont
  let p := targetPlane s x
  let used := s.core.inArray.any (fun q => q.2.1 == p) || (match s.core.entry with | some q => q.plane == p | none => false)
  let start := elemBit sc f.cont e0 / 8 - (if sc then 32 else 0)
  let n := if sc then 128 * kb / 1024 * (32 + 128 * f.cont) else 128 * kb * f.cont / 8
  let aligned := if sc then e0 % 1024 = 0 else e0 * f.cont % 512 = 0
  let inWin := InWindow s w start n
  let land := fun (nMajor : Bool) (t : State) => modC (useThr t) k (fun q =>
    { q with loads := q.loads ++ [(s.cyc + 1, x, p,
        { els := planeEls s x (twBase tw) f.cont e0 sc nMajor, thr := r, owner := some x, form := nMajor, win := w, e0 := e0 })] })
  let allotted := ((List.range 8).filter (fun i => c.acm.getLsbD i))[tl.toNat]? = some pt
  let idle := (getAcc s.core pt).busy = []
  let m := shapeRows c.vshape * shapeCols c.vshape
  let idx := tab m (fun j => (readV c a).toNat / 2 ^ (16 * j) % 2 ^ 16)
  let enter := fun (u : State) => modC (useThr { u with nextId := u.nextId + 1 }) k (fun q =>
    setAcc { q with entry := some { id := u.nextId, x := x, t := pt, plane := c.front.getD 0, tw := tw, thr := r, idx := idx, step := s.core.step, entered := 0 } }
      pt { getAcc q pt with busy := (getAcc q pt).busy ++ [u.nextId] })
  let mmaOk := matFmt r = some f ∧ (∃ g, matFmt (getPlane s.core (c.front.getD 0)).thr = some g ∧ g.cont = f.cont) ∧ shapeEsz c.vshape = 2 ∧ m ≤ 128
    ∧ (∀ i ∈ idx, i ≠ 0xFFFF → InWindow s w (elemBit sc f.cont (i * kb) / 8 : Nat) 256) ∧ c.front.isSome = true
  let cells := fun (dmode : Nat) => encodeSeq f sc (fun i => modeOf rnd.toNat (thrRmode r) (thrKey r) ((readS c (sl.getD 0)).extractLsb' 0 32) i) (twBase tw) e0
    ((accEntries (getAcc s.core pt)).map (drainValue f sc dmode))
  let drain := fun (ins : Instr) (dmode : Nat) =>
    (allotted → idle → thrFmt r = some f → thrRot r = 0 → (∀ q ∈ seqRanges sc f.cont e0 16384, InWindow s w q.1 q.2) →
      (if sc then e0 % 32 = 0 else f.cont = 4 → e0 % 2 = 0) →
      Issues ins s (if sl.isSome then 2 else 1) (fun u =>
        setTs (useThr u) x (tsPutCells (getTs u x) ((cells dmode).map (fun q => (tsPhys c q.1, q.2))))))
    ∧ (allotted → ¬ idle → Traps ins s 4 ⟨0x04, 1, tl.toNat, 0⟩)
  let lp := twBase tw + e0
  let latch := fun (side : Bool) (v : Tile) (t : State) => modX t x (fun q => { q with latches := q.latches ++ [⟨(getC t k).step + 12, side, v⟩] })
  let win2k := e0 % 64 = 0 ∧ 0 < twSize tw ∧ e0 + 2048 ≤ twSize tw ∧ tsOpen c s.core lp 2048 = true ∧ poisonTs s x lp 2048 = false
  (matFmt r = some f → aligned → inWin → used = false → poisonTs s x (twBase tw + start) n = false →
      (sc = false → Issues (.mldb a w) s 1 (land false)) ∧ Issues (.mldbt a w) s 1 (land true))
  ∧ (matFmt r = some f → aligned → inWin → used = true → (sc = false → Holds (.mldb a w) s 1 id) ∧ Holds (.mldbt a w) s 1 id)
  ∧ (matFmt r = some f → ¬ aligned → sc = false → Traps (.mldb a w) s 4 ⟨0x05, 0, 0, BitVec.ofNat 64 (e0 % 2 ^ 56)⟩)
  ∧ (matFmt r = none → Traps (.mldb a w) s 4 ⟨0x0A, 0, twThr tw, 0⟩ ∧ Traps (.mldbt a w) s 4 ⟨0x0A, 0, twThr tw, 0⟩)
  ∧ (mmaOk → allotted → s.core.entry = none →
      (idle → Issues (.mma tl a w) s 1 enter)
      ∧ (idle ∨ rowsPending s.core pt ≤ 64 → Issues (.mmaC tl a w) s 1 enter)
      ∧ (¬ idle → Traps (.mma tl a w) s 4 ⟨0x04, 1, tl.toNat, 0⟩))
  ∧ (mmaOk → allotted → idle → s.core.entry.isSome = true → Holds (.mma tl a w) s 1 id ∧ Holds (.mmaC tl a w) s 1 id)
  ∧ (c.front = none → allotted → Traps (.mma tl a w) s 4 ⟨0x04, 1, 8, 0⟩ ∧ Traps (.mmaC tl a w) s 4 ⟨0x04, 1, 8, 0⟩)
  ∧ drain (.mdrnRaw tl a w rnd sl) 0 ∧ drain (.mdrnRawa tl a w rnd sl) 1 ∧ drain (.mdrnMean tl a w rnd sl) 2 ∧ drain (.mdrnCount tl a w rnd sl) 3
  ∧ (allotted → idle → Issues (.mclr tl) s 1 (fun u => modC u (coreOf u.cur) (fun q => setAcc q pt { getAcc q pt with epoch := none, ents := [] })))
  ∧ (((List.range 8).filter (fun i => c.acm.getLsbD i)).length ≤ tl.toNat → Traps (.mclr tl) s 4 ⟨0x06, 0, tl.toNat, 0⟩)
  ∧ (win2k → Issues (.sclA a w) s 1 (latch false (tileOf (loadTs s x lp 2048))) ∧ Issues (.sclB a w) s 1 (latch true (tileOf (loadTs s x lp 2048))))
  ∧ Issues .sclrA s 1 (latch false latchOne) ∧ Issues .sclrB s 1 (latch true latchOne)

/-! ## Engines -/

/-- R199, R420 to R436, R444: the commands of the copy and launch queues.  A copy whose block is well-formed, whose tile-store bytes are the context's, whose
handles are VALID and permit their ranges, whose targets are in the gang, and whose wait the promised increments can meet, issues and joins its
queue, with its increment; so do a post, a commit of rows inside the region, and a launch of a mapped record.  With the queue full a command is held,
cause 4; a block with a reserved bit or another instruction's operation is BOUND, a misaligned one ALIGN.
(The TI.ADDR and EXTRA of a cause for which the rule names none are log entry 21, DESIGN CHOICE.) -/
def Obligations.CommandForms : Prop := ∀ (s : State) (d3 : BitVec 3) (d a b : BitVec 5) (l : BitVec 3) (n : BitVec 1) (v : Option (BitVec 16))
    (m : TlbEntry) (pt : Nat), Unblocked s → wfInc n v = true →
  let c := s.ctx
  let x := s.cur
  let sa := (readS c a).toNat
  let sb := (readS c b).toNat
  let blk : BitVec 512 := BitVec.ofNat 512 (leNat (loadTs s x sa 64))
  let fld := fun (lo len : Nat) => blk.toNat / 2 ^ lo % 2 ^ len
  let words := if v.isSome then 2 else 1
  let tl := if n = 1 then some l.toNat else none
  let inc := match v with | some k => k.toNat | none => 1
  let readable := sa % 64 = 0 ∧ tsOpen c s.core sa 64 = true
  let room := c.q1.length < 16
  let op := fld 0 4
  let moves := cpTotal blk ≠ 0
  let src := cpSrcRange blk
  let dst := cpDstRange blk
  let hs := readH c (fld 16 4)
  let ht := readH c (fld 20 4)
  let fromPage := moves ∧ (op = 2 ∨ op = 3 ∨ op = 5 ∨ op = 6)
  let toPage := moves ∧ (op = 1 ∨ op = 3)
  let bound := fun (h : Handle) (r : Int × Nat) => h.st = 1 ∧ 0 ≤ r.1 ∧ 0 < r.2 ∧ r.1 + r.2 ≤ (pageSpan h.size : Int)
    ∧ (isLocal s h.pa.toNat = true → populated s ((h.pa.toNat + r.1.toNat) % 2 ^ 48) = true ∧ populated s ((h.pa.toNat + r.1.toNat + r.2 - 1) % 2 ^ 48) = true)
  let region := 65536 * (c.tsSize.toNat : Int)
  let wellFormed := fun (ops : List Nat) => op ∈ ops ∧ fld 249 7 = 0 ∧ (fld 7 1 = 1 → fld 6 1 = 1 ∧ n = 1) ∧ (fld 12 4 ≠ 0 ↔ op = 4 ∨ op = 5)
    ∧ (fld 248 1 = 1 → op = 2) ∧ (op ≤ 5 → fld 34 12 = 0) ∧ (7 ≤ op → fld 34 12 < 2048) ∧ (op = 4 ∨ op = 5 ∨ op = 8 → fld 4 2 = 2) ∧ (op = 9 → fld 4 2 = 1)
  let sides := (fromPage → bound hs src ∧ hs.rd = true) ∧ (toPage → bound ht dst ∧ ht.wr = true)
    ∧ (moves → op = 0 ∨ op = 1 ∨ op = 4 ∨ 7 ≤ op → InStore s src.1 src.2)
    ∧ (moves → op = 0 ∨ (op = 2 ∧ fld 248 1 = 0) → InStore s dst.1 dst.2)
    ∧ (moves → op = 2 → fld 248 1 = 1 → InWindow s (BitVec.ofNat 4 (fld 244 4)) dst.1 dst.2)
    ∧ (moves → op = 6 → 0 ≤ dst.1 ∧ dst.1 + dst.2 ≤ region)
  let tile := fun (t : Nat) => op = 4 ∨ op = 5 → ((List.range 8).filter (fun i => c.acm.getLsbD i))[t]? = some pt ∧ (moves → 0 ≤ dst.1 ∧ dst.1 + dst.2 ≤ 16384)
  let barrier := fld 11 1 = 1 → (op < 6 → InStore s (16 * fld 46 18 : Nat) 16) ∧ (op = 6 → (16 * fld 46 18 : Nat) + 16 ≤ region)
  let gang := op = 6 → ∃ q, s.gangs.find? (fun r => r.id == c.gang && r.xs.contains x) = some q ∧ fld 34 6 + fld 40 6 < q.tasks
  let wait := fld 6 1 = 1 →
    (promised c (fld 8 3) 1 - (BitVec.ofNat 64 (fld 64 64) + (if fld 7 1 = 1 then BitVec.ofNat 64 (fld 464 16 - 1) else 0))).toNat < 2 ^ 63
  let copy := fun (ins : Instr) (opcode : Nat) (ops : List Nat) (t : Nat) =>
    let ready := readable ∧ wellFormed ops ∧ sides ∧ tile t ∧ barrier ∧ gang ∧ wait
    (ready → room → Issues ins s words (fun u => enqueue 1 (if fld 7 1 = 1 then fld 464 16 else 1)
        { mkCmd u c ⟨words, 6⟩ opcode with blk := blk, a := t, b := if fld 248 1 = 1 then twBase (readTw c (fld 244 4)) else 0, tl := tl, inc := inc,
                                           stage := if fld 7 1 = 1 then fld 464 16 else 0, src := if fromPage then hs.pa else 0, dst := if toPage then ht.pa else 0,
                                           fmt := if fromPage then hs.fmt else 0 } u))
    ∧ (ready → ¬ room → Holds ins s 4 id)
    ∧ (readable → op ∉ ops ∨ fld 249 7 ≠ 0 → Traps ins s 6 ⟨0x06, 0, 0, BitVec.ofNat 64 (sa % 2 ^ 56)⟩)
    ∧ (sa % 64 ≠ 0 → Traps ins s 6 ⟨0x05, 0, 0, BitVec.ofNat 64 (sa % 2 ^ 56)⟩)
  let rows := (List.range 64).countP (fun i => (readS c b).getLsbD i)
  let kv := fld 0 6 = 0 ∧ fld 22 10 = 0 ∧ fld 42 6 = 0 ∧ fld 89 423 = 0 ∧ fld 32 10 ≠ 0 ∧ fld 48 16 ≠ 0 ∧ fld 87 2 ≠ 3 ∧ fld 80 7 ≤ 64
    ∧ fld 64 16 + fld 80 7 ≤ fld 48 16 ∧ tsOpen c s.core (fld 0 22) (64 * fld 32 10 * fld 48 16) = true ∧ sb < 2 ^ fld 80 7
  copy (.cpy a l n v) 0 [0, 1, 2, 3] 0 ∧ copy (.cpyaw d3 a l n v) 1 [4, 5] d3.toNat
  ∧ copy (.cpymc a l n v) 2 [6] 0 ∧ copy (.cpyrm a l n v) 3 [7, 8, 9] 0
  ∧ (readable → sb < 64 → room → Issues (.rmapost a b l n v) s words (fun t => enqueue 1 1
      { mkCmd t c ⟨words, 6⟩ 4 with blk := blk, a := sb, tl := tl, inc := inc } t))
  ∧ (readable → 64 ≤ sb → Traps (.rmapost a b l n v) s 6 ⟨0x06, 0, 0, BitVec.ofNat 64 (sb % 2 ^ 56)⟩)
  ∧ (readable → kv → room → Issues (.kvcommit d a b l n v) s words (fun t => retS d 2 (BitVec.ofNat 64 rows)
      (storeTs (enqueue 1 1 { mkCmd t c ⟨words, 6⟩ 0x18 with blk := blk, a := sb, tl := tl, inc := inc } t) x (sa + 8)
        (leBytes 4 ((fld 64 16 + rows) % 65536 + fld 87 2 * 2 ^ 23)) false)))
  ∧ (sa % 64 = 0 → sa < 2 ^ 52 → sb < 32 → Mapped s sa m → m.rd = true → (c.sup = true ∨ m.u = true) → c.q4.length < 4 →
      Issues (.launch a b) s 1 (fun t => enqueue 4 1 { mkCmd t c ⟨1, 6⟩ 0x19 with port := 2, a := sb, src := m.pa + BitVec.ofNat 56 (sa - m.vpn.toNat * 65536) }
        (touchTlb t x sa)))
  ∧ (sa % 64 = 0 → sa < 2 ^ 52 → 32 ≤ sb → Traps (.launch a b) s 6 ⟨0x06, 0, 0, BitVec.ofNat 64 (sb % 2 ^ 56)⟩)

/-- R206 to R212, R437 to R440: streams.  A push of an open producer with a free record joins the queue and gives 1, and to a port that is closed or broken
gives 0; a pop of a consumer with a record gives its address, and releases the one before, and at the end gives −1 or −2; an open
is held until the walker's answer; a port in another state is QDEAD, or the bundle waits. -/
def Obligations.StreamForms : Prop := ∀ (s : State) (d : BitVec 5) (p : BitVec 3) (b : BitVec 5), Unblocked s →
  let c := s.ctx
  let x := s.cur
  let q := readQ c p.toNat
  let sb := (readS c b).toNat
  let n := 64 * (q.desc.toNat / 2 ^ 48 % 2 ^ 6 + 1)
  let nrec := q.desc.toNat / 2 ^ 64 % 2 ^ 13
  let inside := sb % 64 = 0 ∧ tsOpen c s.core sb n = true
  let put := fun (r : Port) (v : DWord) (t : State) => retS d 2 v (modX t x (fun k => setQ k p.toNat r))
  let rel := if q.held then { q with rd := q.rd + 1, unrep := q.unrep + 1, held := false } else q
  let dead := (⟨0x13, 0, 3, 0⟩ : Cause)
  let blk : BitVec 512 := BitVec.ofNat 512 (leNat (loadTs s x sb 64))
  let openOk := sb % 64 = 0 ∧ tsOpen c s.core sb 64 = true ∧ tsOpen c s.core (sdRbase blk) (sdRec blk * sdNrec blk) = true ∧ portIdle q = true
  (inside → q.role = false → q.st = 1 → q.sent - q.rdp < nrec → c.q3.length < 8 →
      Issues (.spush d p b) s 1 (fun t => retS d 2 1
        (modX (enqueue 3 0 { mkCmd t c ⟨1, 6⟩ 9 with a := p.toNat, b := q.sent, data := loadTs s x sb n, poison := poisonTs s x sb n } t) x
          (fun k => setQ k p.toNat { readQ k p.toNat with sent := q.sent + 1 }))))
  ∧ (inside → q.role = false → q.st = 1 → q.sent - q.rdp < nrec → 8 ≤ c.q3.length → Holds (.spush d p b) s 4 id)
  ∧ (inside → q.role = false → q.st = 1 → nrec ≤ q.sent - q.rdp → Holds (.spush d p b) s 8 id)
  ∧ (inside → q.role = false → q.st = 4 ∨ q.st = 5 → Issues (.spush d p b) s 1 (retS d 2 0))
  ∧ (inside → q.st = 0 ∨ q.st = 6 ∨ q.role = true → Traps (.spush d p b) s 6 dead)
  ∧ (q.role = true → (q.st = 1 ∨ q.st = 3 ∨ q.st = 4 ∨ q.st = 5) → q.acq < q.wr →
      Issues (.spop d p) s 1 (put { rel with held := true, acq := q.acq + 1 } (BitVec.ofNat 64 (sdRbase q.desc + n * (q.acq % max 1 nrec)))))
  ∧ (q.role = true → q.wr ≤ q.acq → (q.st = 4 → Issues (.spop d p) s 1 (put rel (-1))) ∧ (q.st = 5 → Issues (.spop d p) s 1 (put rel (-2)))
      ∧ (q.st = 1 ∨ q.st = 2 → Holds (.spop d p) s 8 id))
  ∧ (q.st = 0 ∨ q.st = 6 ∨ q.role = false → Traps (.spop d p) s 6 dead)
  ∧ (q.st = 0 ∨ q.st = 6 → Traps (.sclose p) s 6 dead) ∧ (q.st = 4 ∨ q.st = 5 → Issues (.sclose p) s 1 id)
  ∧ (q.st = 1 ∨ q.st = 2 ∨ q.st = 3 → c.q3.length < 8 → Issues (.sclose p) s 1 (fun t => enqueue 3 0 { mkCmd t c ⟨1, 6⟩ 0xB with a := p.toNat } t))
  ∧ Issues (.sstat d p) s 1 (retS d 2 (portWord c q))
  ∧ (openOk → c.opened = some 0 → Issues (.sopen p b) s 1 (openStream x p.toNat blk))
  ∧ (∀ k, openOk → c.opened = some (16 + k) → k < 16 → Issues (.sopen p b) s 1 (fun t => modX t x (fun e => setQ e p.toNat
      { Port.init with st := 6, role := true, cause := BitVec.ofNat 4 k })))
  ∧ (∀ k, openOk → c.opened = some (32 + k) → Traps (.sopen p b) s 6 ⟨0x10, k, p.toNat, 0⟩)
  ∧ (openOk → c.opened = none → Holds (.sopen p b) s 1 (fun t => modPart t c.part.toNat (fun g =>
      if g.opens.any (fun o => o.1 == x) then g else { g with opens := g.opens ++ [(x, p.toNat, blk)] })))
  ∧ (sb % 64 = 0 → tsOpen c s.core sb 64 = true → tsOpen c s.core (sdRbase blk) (sdRec blk * sdNrec blk) = true → portIdle q = false →
      Traps (.sopen p b) s 6 dead)

/-- R89, R91, R441 to R443: circuits.  An open of a handle that is free joins the queue and makes it pending; a send on an open handle joins the queue;
`ckhold` sets the remaining lease of an open handle; a close joins the queue; `ckstat` reads the status word.  A handle in another state
is CKFAIL; the operands are checked.
(The TI.ADDR and EXTRA of a cause for which the rule names none are log entry 21, DESIGN CHOICE.) -/
def Obligations.CircuitForms : Prop := ∀ (s : State) (d : BitVec 5) (h : BitVec 3) (a b : BitVec 5) (l : BitVec 3) (n : BitVec 1)
    (v : Option (BitVec 16)), Unblocked s → wfInc n v = true →
  let c := s.ctx
  let x := s.cur
  let k := readK c h.toNat
  let sa := (readS c a).toNat
  let sb := (readS c b).toNat
  let words := if v.isSome then 2 else 1
  let blk : BitVec 512 := BitVec.ofNat 512 (leNat (loadTs s x sa 16))
  let fit := blk.toNat / 2 ^ 16 % 2 ^ 24 ≥ 64 ∧ blk.toNat / 2 ^ 40 % 2 ^ 24 = 0 ∧ blk.toNat / 2 ^ 64 % 2 ^ 3 = 0 ∧ blk.toNat / 2 ^ 122 % 2 ^ 6 = 0
  let readable := sa % 16 = 0 ∧ tsOpen c s.core sa 16 = true
  let room := c.q2.length < 8
  let live := k.st = 1 ∨ k.st = 2 ∨ k.st = 3
  let sendOk := sb % 32 = 0 ∧ sa % 8 = 0 ∧ sa ≤ 1048576 ∧ tsOpen c s.core sb (4 * sa) = true
  (readable → fit → ¬ live → room → Issues (.ckopen h a) s 1 (fun t => modX (enqueue 2 0 { mkCmd t c ⟨1, 6⟩ 0x10 with blk := blk, a := h.toNat } t) x
      (fun e => setK e h.toNat { CkHandle.init with st := 1, cid := t.nextId })))
  ∧ (readable → fit → ¬ live → ¬ room → Holds (.ckopen h a) s 4 id)
  ∧ (readable → ¬ fit → Traps (.ckopen h a) s 6 ⟨0x06, 0, 0, BitVec.ofNat 64 (sa % 2 ^ 56)⟩)
  ∧ (readable → fit → live → Traps (.ckopen h a) s 6 ⟨0x0D, 0, h.toNat, 0⟩)
  ∧ (64 ≤ sb → sb < 2 ^ 24 → (k.st = 2 → Issues (.ckhold h b) s 1 (fun t =>
        addTimer (modX t x (fun e => setK e h.toNat { k with leaseEnd := t.cyc + sb })) sb .leaseExpiry (EvArg.of k.cid)))
      ∧ (k.st ≠ 2 → Issues (.ckhold h b) s 1 id))
  ∧ (sb < 64 ∨ 2 ^ 24 ≤ sb → Traps (.ckhold h b) s 6 ⟨0x06, 0, 0, BitVec.ofNat 64 (sb % 2 ^ 56)⟩)
  ∧ (sendOk → k.st = 2 → room → Issues (.cksend a h b l n v) s words (fun t => enqueue 2 1
      { mkCmd t c ⟨words, 6⟩ 0x12 with a := h.toNat, b := sb, c := sa, tl := if n = 1 then some l.toNat else none,
                                       inc := match v with | some i => i.toNat | none => 1 } t))
  ∧ (sendOk → k.st ≠ 2 → Traps (.cksend a h b l n v) s 6 ⟨0x0D, 0, h.toNat, 0⟩)
  ∧ (sb % 32 ≠ 0 → Traps (.cksend a h b l n v) s 6 ⟨0x05, 0, 0, BitVec.ofNat 64 (sb % 2 ^ 56)⟩)
  ∧ (room → Issues (.ckclose h) s 1 (fun t => enqueue 2 0 { mkCmd t c ⟨1, 6⟩ 0x13 with a := h.toNat } t))
  ∧ (¬ room → Holds (.ckclose h) s 4 id)
  ∧ Issues (.ckstat d h) s 1 (retS d 2 (ckWord s.cyc k))

/-! ## Encoding, the step, reset -/

/-- R318, R320, R323 to R329: for every well-formed instruction that has an encoding, the decoder reads the encoded words as that instruction,
with every operand at every value the encoding admits. -/
def Obligations.EncodeDecode : Prop := ∀ (i : Instr) (w : Word) (x : Option (BitVec 28)), i.wf = true → encode i = some (w, x) →
  decodeInstr w x = .ok i ∧ w.getLsbD 31 = false

/-- R318, R320, R323: a head word with E clear, and its payload, that decode to an instruction are the words that encode it. -/
def Obligations.WordHasOneMeaning : Prop := ∀ (i : Instr) (w : Word) (x : Option (BitVec 28)), w.getLsbD 31 = false →
  decodeInstr w x = .ok i → encode i = some (w, x) ∧ i.wf = true

/-- R324 to R328, R345, R359, R362, R374, R384, R402, R412, R423: words written out from the spec's encodings, one or more of each class, as bundles of one slot, decode to
the instructions they stand for; an unassigned opcode is IIL and a class 7 word IEN with reason 1. -/
def Obligations.DecodeSamples : Prop :=
  let d := fun (ws : List Word) => decodeBytes (ws.flatMap wordBytes)
  d [0x840427FF#32] = .ok [(0, .addi 4 4 0x7FF none)]
  ∧ d [0x04052800#32, 0xE0000002#32] = .ok [(0, .addi 5 5 0 (some 2))]
  ∧ d [0x86032142#32] = .ok [(0, .cmpLt 3 4 5)]
  ∧ d [0x8A12FFFD#32] = .ok [(0, .br 0x12 0xFFFD none)]
  ∧ d [0x8C400007#32] = .ok [(0, .trap 7)] ∧ d [0x8C800000#32] = .ok [(0, .tend)]
  ∧ d [0x1067480C#32, 0xE0040122#32] = .ok [(1, .ldgD 7 9 3 (some ⟨2, false, 1, 2, 256⟩))]
  ∧ d [0x95200000#32] = .ok [(1, .fenceSc)] ∧ d [0x95600001#32] = .ok [(1, .phase 1)]
  ∧ d [0xA0050882#32] = .ok [(2, .vadd 5 1 2 0 2)]
  ∧ d [0x25431018#32, 0xE0000010#32] = .ok [(2, .vcvt 3 2 3 0 (some ⟨2, 0⟩))]
  ∧ d [0xB1022880#32] = .ok [(4, .mma 2 5 1)] ∧ d [0xC0202280#32] = .ok [(5, .sclA 4 5)]
  ∧ d [0xD0003814#32] = .ok [(6, .cpy 7 2 1 none)]
  ∧ d [0x8BE00000#32] = .iil 0x5F 0 [] ∧ d [0xF0000000#32] = .ien 1

/-- R185, R188, R232, R241, R242, R305: when no event is due, the next part of a core's cycle is its issue, the selector takes context x, and its bundle is
one slot, the step presents that instruction: held, it freezes the context; cancelled by a trap of its slot, it takes the trap, with no weight of its own; else,
when a bank is free for it and the limit permits, it runs; and then the core's cycle ends.  The bundle is the words at the pc, up to the first with E. -/
def Obligations.StepRunsDecoded : Prop := ∀ (s : State) (k x p : Nat) (l : List Nat) (refill : Bool) (ws : List Word) (i : Instr) (f : Slot),
  s.boot.stopped = false → s.agenda = [] → (∀ q ∈ s.timers, s.cyc < q.1) → autoEvent s = none → s.todo = (2 * k + 1) :: l →
  (getC s k).half = false → choose s k = some (x, refill) →
  let u := { settle s x with cur := x }
  let c := getX u x
  let v := latchBody (touchFetch u x ws.length) x ws
  let t := needThr [(p, i)] v
  let rows := bundleRows [(p, i)] v
  let aw := arrayWeight (getC s k)
  let wt := bundleWeight (getC u (coreOf x)) [(p, i)] + aw
  (notReady c = false → boundaryTrap u x = none → fetchBundle u x = .ok ws → examine ws = .ok [(p, i)] → slotOf i = some f →
    (wouldHold 1 [(0, f)] t = true → step s = .next (issue 1 [(0, f)] t))
    ∧ (wouldHold 1 [(0, f)] t = false → wouldTrap 1 [(0, f)] t = true → aw + windowSum (getC s k) ≤ (getC s k).eff.toNat →
        let y := modC t k (fun d => { d with want := [] })
        step s = (match exec i y with | .next z => .next (afterIssue y k refill aw z) | r => r))
    ∧ (wouldHold 1 [(0, f)] t = false → wouldTrap 1 [(0, f)] t = false → (rows = [] ∨ (serveRows 3 rows (marks t k)).2.length ≠ rows.length) →
        wt + windowSum (getC s k) ≤ (getC s k).eff.toNat →
        let y := eccSectors k x true (bundleReads [(p, i)] v) (modC t k (fun d => { d with want := rows }))
        step s = (match exec i y with | .next z => .next (afterIssue y k refill wt z) | r => r)))
  ∧ (c.curLoop = none → v = touchFetch u x ws.length)
  ∧ (∀ (m : TlbEntry) (e : ILine), c.curLoop = none → translate u x c.pc.toNat = .ok m → m.x = true → (c.sup = true ∨ m.u = true) →
      let pa := (m.pa.toNat + (c.pc.toNat - m.vpn.toNat * 65536)) % 2 ^ 56
      isLocal s pa = true → populatedRange u (paOf pa) 4 = true → icFind (getC u (coreOf x)) (pa / 64) c.part = some e →
      (memWord u (paOf pa)).getLsbD 31 = true → fetchBundle u x = .ok [memWord u (paOf pa)])

/-- R329: an instruction that has an encoding always answers a next state, and whatever it does it leaves every byte of memory, the line versions and the
poison marks at the homes as they are: only events at the homes change them. -/
def Obligations.EncodedKeepMemory : Prop := ∀ (i : Instr) (s : State), encode i ≠ none →
  ∃ t, exec i s = .next t ∧ t.mem = s.mem ∧ t.ver = s.ver ∧ t.poison = s.poison ∧ t.boot = s.boot ∧ t.cyc = s.cyc
    ∧ (∀ pa n, memBytes t.mem pa n = memBytes s.mem pa n) ∧ (memWf s.mem = true → memWf t.mem = true)

/-- R17, R22, R23, R74, R81, R112, R115, R143, R151, R171, R185, R250: what reset leaves.  (That memory lists nothing, and reads as zero, is log entry 3, DESIGN CHOICE.) -/
def Obligations.ResetState : Prop :=
  let s := State.reset
  s.cicada = 0 ∧ s.running = false ∧ s.boot.step = 0 ∧ s.boot.stopped = false ∧ s.mem = [] ∧ memWf s.mem = true ∧ s.net = [] ∧ s.circuits = []
  ∧ s.gangs = [] ∧ s.recs = []
  ∧ (∀ x, (getX s x).task = false ∧ (getX s x).ct = 0 ∧ (getX s x).await = .none ∧ (getX s x).infl = [] ∧ (getX s x).wMin = 1 ∧ (getX s x).wMax = 255
      ∧ (∀ h, readH (getX s x) h = Handle.init ∧ (readH (getX s x) h).st = 0) ∧ (∀ q, (readQ (getX s x) q).st = 0) ∧ (∀ k, (readK (getX s x) k).st = 0)
      ∧ (∀ n, readTl (getX s x) n = 0) ∧ (∀ n, readTw (getX s x) n = 0) ∧ (∀ i < 256, latchByte (getX s x).la i = 127 ∧ latchByte (getX s x).lb i = 127))
  ∧ (∀ k, (getC s k).last = 3 ∧ (getC s k).split = 0 ∧ (getC s k).limit = 4416 ∧ (getC s k).eff = 4416 ∧ (getC s k).pfrz = 0 ∧ (getC s k).nar = false
      ∧ (getC s k).tlb = [] ∧ (getC s k).dc = [])
  ∧ (∀ d p, p < 8 → mgGet s d (oPlim p) = 128 ∧ mgGet s d (oPartCfg p) = 0 ∧ mgGet s d (oPartRs p) = 0 ∧ mgGet s d (oRoot p) = 0 ∧ mgGet s d (oThr p) = 0
      ∧ mgGet s d (oHvec p) = 0 ∧ mgGet s d (oPodPart p) = 0)
  ∧ (∀ d, mgF s d oPower 0 13 = 4400 ∧ mgF s d oPower 13 51 = 0 ∧ mgGet s d oHint = 0 ∧ mgGet s d oHintMask = 1 ∧ mgGet s d oMbCmd = 0
      ∧ mgF s d oCpCtl 0 4 = 4 ∧ mgF s d oCpCtl 8 8 = 0 ∧ mgF s d oCpCtl 16 7 = 32 ∧ mgGet s d oPodId = 0 ∧ mgF s d oPodCtl 0 8 = 16 ∧ mgF s d oPodCtl 8 4 = 8
      ∧ mgF s d oPlcCtl 0 8 = 0 ∧ mgF s d oPlcCtl 8 16 = 256 ∧ mgF s d oPlcCtl 24 8 = 16 ∧ mgF s d oPlcCtl 32 8 = 64)
  ∧ (∀ d p q, p < 8 → q < 64 → mgF s d (oRma p q) 6 42 = 0 ∧ mgF s d (oRma p q) 48 4 = 4)

/-! ## Events: boot, the package, the clock -/

/-- R17, R19 to R28, R38, R149, R153: the events of boot and of the package complete when their conditions hold.  A cold boot asks for the image's header; the
host answers the request at the UCIe boundary, and the answer's bytes enter the image; T2SIZE counts, ends step 6, or is ignored; a die that
stays silent in its turn is tried once more, or given up; a warm reset keeps the cicada, the records and memory; samples set MEAS, TMAX and the
alarm; a trip sets TRIP, and C0's stops the device; a failure of C0 stops it; a write of a register that is aligned, of 8 bytes, on a healthy die that
does not update its firmware is taken, another is ignored. -/
def Obligations.BootEvents : Prop := ∀ (s : State) (p : Pkt),
  let b := s.boot
  let a := s.arg
  let v : BitVec 64 := BitVec.ofNat 64 a.a
  let die := a.a / 2 ^ 24
  let off := a.a % 2 ^ 24
  let done := fun (i : Instr) (t : State) => exec i s = .next t
  let tripped := setHint (mgSetF (bbxLogC0 s 0x0A a.a 0 0xFF 0 0) 0 oPower 30 1 1) hintTrip
  (b.badModules.contains 0 = false → ∃ t, done .coldBoot t ∧ t.boot.step = 2 ∧ t.boot.want = [(0, 256)] ∧ t.running = false ∧ t.cicada = 0 ∧ t.mem = []
      ∧ t.net.map (fun f => (f.pkt.src, f.pkt.dst, f.pkt.kind, f.pkt.addr, readLen f.pkt)) = [(securityEp 0, ucieEp, 0, 0, 64)])
  ∧ (b.badModules.contains 0 = true → ∃ t, done .coldBoot t ∧ t.boot.stopped = true)
  ∧ (rxHead s (securityEp 0) = none → rxHead s ucieEp = some p → p.src = securityEp 0 → p.kind = 0 → p.addr.toNat = a.a → readLen p = a.data.length →
      done .bootImageReadResponse (sendPkt (rxTake s ucieEp) (answer p 1 a.data .none)))
  ∧ (rxHead s (securityEp 0) = some p → p.kind = 1 → b.step = 2 → b.stopped = false →
      done .bootImageReadResponse (imagePiece p.addr.toNat p.data (rxTake s (securityEp 0))))
  ∧ (1 ≤ b.step → b.step ≤ 5 → b.stopped = false → v.toNat % 2 ^ 8 = 3 →
      done .t2size { s with boot := { b with t2size := min 4096 (v.toNat / 2 ^ 16 % 2 ^ 13) + 1 } })
  ∧ (b.step = 6 → b.stopped = false → v.toNat % 2 ^ 8 = 3 → ∃ t, done .t2size t ∧ t.running = true ∧ t.cicada = 0 ∧ t.boot.step = 8)
  ∧ (1 ≤ b.step → b.stopped = false → v.toNat % 2 ^ 8 ≠ 3 ∨ 6 < b.step → done .t2size s)
  ∧ (b.step = 6 → b.stopped = false → b.t2size = 0 → ∃ t, done .t2waitExpiry t ∧ t.running = true ∧ t.boot.step = 8 ∧ t.boot.t2size = 1)
  ∧ (b.step = 4 → b.stopped = false → 0 < a.a → a.a < 17 → isFenced s a.a = false → b.badImage.contains a.a = false → mget 0 b.authTries a.a < 2 →
      mget 0 b.auth (2 * a.a + mget 0 b.authTries a.a) = 2 →
      (∀ d, 0 < d → d < a.a → isFenced s d = true ∨ b.badImage.contains d = true ∨ 2 ≤ mget 0 b.authTries d ∨ mget 0 b.auth (2 * d + mget 0 b.authTries d) = 0) →
      done .authenticationTimeout (bootAuth (tryFailed a.a s)))
  ∧ (∀ d, (tryFailed d s).boot.authTries = mset b.authTries d (mget 0 b.authTries d + 1))
  ∧ (b.step = 8 → b.stopped = false → ∃ t, done .warmReset t ∧ t.cicada = s.cicada ∧ t.sub = s.sub ∧ t.bbx = s.bbx ∧ t.mem = s.mem ∧ t.ver = s.ver
      ∧ t.poison = s.poison ∧ t.boot = s.boot ∧ t.net = [] ∧ t.gangs = [] ∧ t.recs = [] ∧ t.circuits = [] ∧ (∀ x, getX t x = Ctx.init))
  ∧ (b.step = 8 → b.stopped = false → s.mgmt.fw = [] → ∃ t, done .powerSample t
      ∧ (let sum := (((a.pairs.map (·.1)).foldl (· + ·) 0) :: s.mgmt.means).take 10
         t.mgmt.means = sum ∧ mgF t 0 oPower 16 13 = min 8191 (sum.foldl (· + ·) 0 / sum.length) ∧ mgF t 0 oPower 0 13 = mgF s 0 oPower 0 13))
  ∧ (2 ≤ b.step → b.stopped = false → isFenced s 0 = false → a.a = 0 → ∃ t, done .thermalTrip t ∧ t.boot.stopped = true ∧ mgF t 0 oPower 30 1 = 1)
  ∧ (2 ≤ b.step → b.stopped = false → 0 < a.a → a.a < 17 → isFenced s a.a = false →
      done .thermalTrip (if b.step < 6 then tripInBoot a.a tripped else if a.a < 8 then fenceCompute a.a tripped else fenceOther a.a tripped)
      ∧ mgF tripped 0 oPower 30 1 = 1)
  ∧ (6 ≤ b.step → b.stopped = false → 8 ≤ a.a → a.a < 16 → isFenced s a.a = false → ∃ t, done .thermalTrip t ∧ isFenced t a.a = true)
  ∧ (b.step = 8 → ∃ t, done .c0ServiceFailure t ∧ t.boot.stopped = true)
  ∧ (2 ≤ b.step → s.mgmt.fw.contains 0 = false → done .pkgPowerWrite (writePower v s))
  ∧ (2 ≤ b.step → s.mgmt.fw.contains 0 = true → done .pkgPowerWrite s)
  ∧ (2 ≤ b.step → off % 8 = 0 → a.b = 8 → dieOk s die = true → s.mgmt.fw.contains die = false →
      done .registerWrite (writeRegister die off (BitVec.ofNat 64 a.c) s))
  ∧ (2 ≤ b.step → off % 8 ≠ 0 ∨ a.b ≠ 8 ∨ dieOk s die = false → done .registerWrite s)

/-- R17, R56, R85, R137, R142, R216, R226, R240, R305, R314, R408, R413: the events of the clock and of contexts complete when their conditions hold: the
cicada's tick, the drain, the sluices' decay, the sail's boundary, a result written, a trap entered at a boundary, the watchdog, a hold
released once the bundle, presented again, neither waits nor is held, a boundary moved, a sample applied, an accumulator row written, a scale latch
landed, an evaluation. -/
def Obligations.ClockAndContextEvents : Prop := ∀ (s : State) (v : Tile) (r : AccRow) (rs : List AccRow) (e : Result) (es : List Result) (d : Deferred)
    (ws : List Word) (p : Nat) (i : Instr) (f : Slot) (n w : Nat),
  let x := s.arg.a
  let c := getX s x
  let k := coreOf x
  let done := fun (i : Instr) (t : State) => exec i s = .next t
  let bound := c.task = true ∧ c.halted = false ∧ c.await = .none ∧ c.reload = none ∧ c.readyAt ≤ s.cyc ∧ notReady c = false
    ∧ (∀ q ∈ (getC s k).rounds, q.x ≠ x)
  let own := c.inh = false
  let kept := pendBit c cPREEMPT = false
  let u := { settle s x with cur := x }
  let late := c.task = true ∧ own ∧ c.halted = false ∧ wdLimit c ≠ 0 ∧ wdLimit c ≤ c.wdCount ∧ pendBit c cWDOG = false ∧ (∀ b, c.await ≠ .ending b)
  (s.running = true → 256 ≤ s.sub → ∃ t, done .cicadaTick t ∧ t.cicada = s.cicada + 1 ∧ t.sub = s.sub - 256)
  ∧ (s.running = true → s.sub = 0 → s.cicada ≠ 0 → s.cicada.toNat % 128 = 0 →
      ∃ t, done .periodicDrain t ∧ t.net.length = s.net.length ∧ t.mem = s.mem
        ∧ t.net = s.net.map (fun f => match drainLoc s (if s.net.isEmpty then [] else planeTree s) f with
            | some l => { f with loc := l, pkt := { f.pkt with disp := true }, arr := 2 * s.cyc } | none => f))
  ∧ (s.running = true → 0 < coreCyc s → coreCyc s % 4096 = 0 → s.promos = [] → done .sluiceDecay { s with sluices := s.sluices.map (fun e =>
      (e.1, { e.2 with meters := e.2.meters.map (fun m => (m.1, decayMeter s (e.1 / 1024) m.2)) })) })
  ∧ (s.running = true → 0 < coreCyc s → coreCyc s % 4096 = 0 → ∃ t, done .sluiceDecay t)
  ∧ (s.running = true → coreCyc s % 1128 = 0 → done .sailBoundary (s.promos.foldl (fun t f => sailFlow f t) s))
  ∧ (c.task = true → c.results = e :: es → e.wp ≤ c.time → (∀ g, e.stat ≠ .waiting g) → done .resultWrite (settle s x))
  ∧ (bound → own → pendBit c cPREEMPT = true → done .trapEntry (enterTrap s x 3 15 (causeAt cPREEMPT 0) c.pc c.ct))
  ∧ (bound → own → kept → firstDeferred c.deferred = some d → done .trapEntry
      (enterTrap (setX s x { c with deferred := dropFirst (fun e => e = d) c.deferred }) x 1 d.slot ⟨d.code, d.reason, d.extra, d.addr⟩ d.opc d.oct))
  ∧ (bound → own → kept → c.deferred = [] → pendBit c cSOFTERR = true → done .trapEntry (enterTrap s x 3 15 ⟨cSOFTERR, 0, 0, mget 0 c.ti 31⟩ c.pc c.ct))
  ∧ (bound → own → kept → c.deferred = [] → pendBit c cSOFTERR = false → pendBit c cWDOG = true →
      done .trapEntry (enterTrap s x 3 15 (causeAt cWDOG 0) c.pc c.ct))
  ∧ (bound → c.inh = true → c.hdeferred ≠ [] → done .trapEntry (endTask s x true))
  ∧ (late → interruptible c.await = false → ∃ t, done .wdog t ∧ pendBit (getX t x) cWDOG = true)
  ∧ (late → ∃ t, done .wdog t)
  ∧ (c.task = true → c.halted = false → c.hold = some n → ¬ (n = 2 ∧ c.fillCyc = s.cyc) → notReady (getX u x) = false → boundaryTrap u x = none →
      fetchBundle u x = .ok ws → examine ws = .ok [(p, i)] → slotOf i = some f →
      wouldHold 1 [(0, f)] { needThr [(p, i)] (latchBody (touchFetch u x ws.length) x ws) with cur := x } = false →
      done .bundleHoldRelease (modX s x (fun y => { y with hold := none })))
  ∧ (c.task = true → c.halted = false → c.hold = some n → ¬ (n = 2 ∧ c.fillCyc = s.cyc) → notReady (getX u x) = false → boundaryTrap u x ≠ none →
      done .bundleHoldRelease (modX s x (fun y => { y with hold := none })))
  ∧ (c.await = .phase n w → w ≤ s.cyc → ∃ t, done .phaseDrainEnd t ∧ (getC t k).split = BitVec.ofNat 3 n ∧ (getX t x).await = .none ∧ t.mem = s.mem)
  ∧ (s.running = true → s.sub = 0 → c.task = true → (∃ q ∈ c.qr, ∃ m ∈ q.2.samples, m.tick + sdDly q.2.desc + 1 ≤ s.cicada.toNat) →
      done .streamSampleApplication (modX s x (applySamples s.cicada.toNat)))
  ∧ ((getAcc (getC s x) s.arg.b).rows = r :: rs → coreCyc s % 4 ≠ 3 → (getC s x).limCyc ≠ s.cyc → ∃ t, done .mmaRowWrite t
      ∧ (getAcc (getC t x) s.arg.b).rows = rs ∧ (getAcc (getC t x) s.arg.b) = writeRow (getAcc (getC s x) s.arg.b) r ∧ t.mem = s.mem)
  ∧ (c.latches = [⟨w, true, v⟩] → w ≤ (getC s k).step → ∃ t, done .scaleLatchLanding t ∧ (getX t x).lb = v ∧ (getX t x).la = c.la ∧ (getX t x).latches = [])
  ∧ ((∃ l ∈ c.latches, l.step ≤ (getC s k).step) → ∃ t, done .scaleLatchLanding t)
  ∧ (s.running = true → dieOk s x = true → coreCyc s % 1048576 = 0 → ∃ t, done .placementEvaluation t)

/-! ## Events: the mailbox, fencing, health -/

/-- R154, R157 to R162, R187, R203, R42: the commands of the mailbox.  GO set, no command under way and C0's firmware not updated: a command whose status is not OK ends with
that status and no other effect; one that is OK has its effect; the ends of the long ones, repair, priority changes and the reads
of the records complete when their conditions hold. -/
def Obligations.MailboxEvents : Prop := ∀ (s : State),
  let a := s.arg
  let m := s.mgmt
  let done := fun (i : Instr) (t : State) => exec i s = .next t
  let ready := fun (n : Nat) => s.running = true ∧ mgF s 0 oMbCmd 16 1 = 1 ∧ m.heldGo = false ∧ m.cmdOpen = false ∧ m.fw.contains 0 = false ∧ mgF s 0 oMbCmd 0 8 = n
  let tgt := mgF s 0 oMbCmd 8 8
  let ends := fun (i : Instr) (n : Nat) (status : State → Nat) (eff : State → State) => ready n →
    (status s ≠ 0 → done i (endCommand (status s) s)) ∧ (status s = 0 → done i (endCommand 0 (eff s)))
  let ctxOwes := fun (u : State) (p x : Nat) => (getX u x).task = true ∧ (getX u x).part.toNat = p ∧ (getX u x).pri ≠ partPri u p (getX u x).rset
  let begun := fun (p n : Nat) (t : State) => modPart { t with mgmt := { t.mgmt with cmdOpen := true } } p (fun q => { q with swapping := n })
  (∀ st, st < 256 → mgF (endCommand st s) 0 oMbCmd 24 8 = st ∧ mgF (endCommand st s) 0 oMbCmd 16 1 = 0 ∧ (endCommand st s).mgmt.cmdOpen = false
      ∧ (mgGet (endCommand st s) 0 oHint).getLsbD 1 = true)
  ∧ ends .create 1 createStatus createPart ∧ ends .destroy 2 destroyStatus destroyPart
  ∧ ends .fence 5 fenceStatus (fenceCompute tgt)
  ∧ ends .fwupd 6 fwupdStatus (fun t => bbxLog { t with mgmt := { t.mgmt with fw := tgt :: t.mgmt.fw } } 0x0B tgt 0 0xFF 0 0)
  ∧ (∀ n, ready n → n = 0 ∨ 7 < n → done .mailboxUnlistedCommand (endCommand 1 s))
  ∧ (ready 3 → (gangsOfPart s tgt).any (fun g => g.halt != 0) = false →
      (swapOutStatus s ≠ 0 → done .swapout (endCommand (swapOutStatus s) s))
      ∧ (swapOutStatus s = 0 → done .swapout (begun tgt 1 ((gangsOfPart s tgt).foldl (stopGang 3) s))))
  ∧ (ready 4 → (swapInStatus s ≠ 0 → done .swapin (endCommand (swapInStatus s) s))
      ∧ (swapInStatus s = 0 → done .swapin (begun tgt 2 ((getPart s tgt).saved.foldl (fun u v => setX u v.1 { restoredCtx u v.2 with halted := true }) s))))
  ∧ (ready 7 → m.repairs.any (fun r => r.1 == retireCore s) = false →
      (retireStatus s ≠ 0 → done .retire (endCommand (retireStatus s) s))
      ∧ (retireStatus s = 0 → done .retire (beginRepair (retireCore s) 2 { s with mgmt := { m with cmdOpen := true } })))
  ∧ ((getPart s a.a).swapping = 1 → (∀ g ∈ gangsOfPart s a.a, g.halt = 3 → GangRests s g) → ∃ t, done .swapoutSaveEnd t)
  ∧ ((getPart s a.a).swapping = 2 → ∃ t, done .swapinRestoreEnd t)
  ∧ (m.fw.contains a.a = true → 0 < a.a → a.ok = true → ∃ t, done .fwupdEnd t ∧ t.mgmt.fw.contains a.a = false)
  ∧ ((getC s a.a).active = true → a.b = 0 → m.repairs.find? (fun r => r.1 = a.a) = none → done .coreRepair (beginRepair a.a 0 (logCoreError a.a s)))
  ∧ ((getC s a.a).active = true → a.b = 1 → m.repairs.find? (fun r => r.1 = a.a) = none → (getC s a.a).corr.1 = coreCyc s / 1048576 → 64 < (getC s a.a).corr.2 →
      done .coreRepair (beginRepair a.a 1 s))
  ∧ (∀ q : Nat × Nat, m.repairs.find? (fun r => r.1 = a.a) = some q → (∀ g ∈ gangsOnCore s a.a, g.halt = 2 ∧ GangRests s g) → (getC s a.a).wbs = [] →
      (∀ r ∈ (getC s a.a).runs, r.out = []) → done .coreRepair (finishRepair a.a q.2 s))
  ∧ (a.a < 8 → m.fw.contains 0 = false → done .partRsWrite (writeRs a.a (BitVec.ofNat 64 a.b) s))
  ∧ (a.a < 8 → m.fw.contains 0 = true → done .partRsWrite { s with mgmt := { m with heldRs := m.heldRs ++ [(a.a, BitVec.ofNat 64 a.b)] } })
  ∧ (partState s a.a = 1 → (∃ i < 4, ctxOwes s a.a (4 * a.b + i)) →
      done .priorityChange ((stalePri s a.a a.b).foldl (fun u x => modX u x (fun c => { c with pri := partPri s a.a c.rset })) s))
  ∧ (memOk s a.a = true → ∃ t, done .memoryDieFailure t ∧ t.mem = s.mem ∧ (8 + a.a) ∈ t.boot.badTest
      ∧ ∀ l, t.poison.contains l = (s.poison.contains l || (a.pairs.any (fun q => q.1 == l) && !isTier2 (64 * l) && homeMem s (64 * l) == a.a)))
  ∧ (dieOk s a.a = true → a.b < 32768 → m.fw.contains a.a = true → done .blackBoxEntryRead { s with hostOut := s.hostOut ++ [List.replicate 32 0] })
  ∧ (dieOk s a.a = true → a.b < 32768 → m.fw.contains a.a = false → (a.ok = true → s.badBbx.contains (a.a, a.b) = false →
        done .blackBoxEntryRead { s with hostOut := s.hostOut ++ [leBytes 32 (mget 0 s.bbx (a.a * 32768 + a.b)).toNat] })
      ∧ (a.ok = false → ∃ t, done .blackBoxEntryRead t ∧ t.hostOut = s.hostOut ++ [List.replicate 32 0xFF] ∧ mgF t a.a oBbx 48 1 = 1))

/-! ## Events: the packet plane, homes, answers -/

/-- R48, R51 to R54, R62, R64, R65, R104, R124, R125, R131, R148, R150: the events of packets complete when their conditions hold.  A packet that may go, and before
which none at its router that may go is after the same output, is routed; one with a header error is discarded; an access at the
head of a home's endpoint is served; a line's fill ends; an answer at the head of an endpoint leaves it and is applied; what got no
answer within its time fails; a lost SEQ is skipped; a flit that is not good is asked for again, and after eight failed replays its link retrains; a
retraining ends; the host's access leaves. -/
def Obligations.PacketEvents : Prop := ∀ (s t : State) (f : Flight) (p : Pkt) (q : BitVec 12) (eff : State → State) (x : Nat) (c : Acc) (v : Nat × Bool),
  let a := s.arg
  let e := argEp s
  let done := fun (i : Instr) (t : State) => exec i s = .next t
  let left := cancelTimer p.dst.toNat p.tag.toNat (rxTake s e)
  let l := getSlice s a.a
  let key := linkKey a.a a.b
  let line := p.addr.toNat / 64
  let h := getSlice s (epDie e - 8)
  let ways := l.lines.filter (fun g => sliceSet g.1 == sliceSet a.b)
  let link := linkKey (across a.a a.b).1 (across a.a a.b).2
  let late := ∀ g ∈ s.timers, isRequestTimer a.a a.b g.2.1 g.2.2 = true → g.1 ≤ s.cyc
  let badFlit := retraining s a.a a.b = false ∧ firstOnWire s link ≠ none ∧ a.data.length = 64 ∧ flitGood (wireOf s link) a.data (BitVec.ofNat 8 a.c) a.d = false
  (s.net.find? (fun g => g.id = a.a) = some f → (∀ g ∈ s.net, g.id = f.id → g = f) → MayGo s f →
      (∀ g ∈ s.net, g.id ≠ f.id → samePlace g.loc f.loc = true → hopOf s g.loc g.pkt = hopOf s f.loc f.pkt → ¬ MayGo s g ∨ goesBefore f g = true) →
      (a.b = 0 → done .packetRoute (routeFlight s f))
      ∧ (a.b = 2 → f.pkt.data ≠ [] → done .packetRoute (routeFlight (poisonPayload s f) { f with pkt := { f.pkt with poison := true } })))
  ∧ (s.net.find? (fun g => g.id = a.a) = some f → a.b = 1 → done .packetRoute (discard s { f with pkt := { f.pkt with bad := true } }))
  ∧ (rxHead s e = some p → serve s e p = some t →
      (p.kind = 0 → done .readRequest t) ∧ (p.kind = 2 → done .write t) ∧ (p.kind = 4 → done .atomicRequest t)
      ∧ (p.kind = 6 → 8 ≤ epDie e → epDie e ≠ 16 → done .engineData t))
  ∧ (rxHead s e = some p → (epDie e = 17 ∧ p.src ≠ securityEp 0)
        ∨ (8 ≤ epDie e ∧ epDie e < 16 ∧ ¬ (p.opc = 1 ∧ 15 < pinCount (rxTake s e) line) ∧ (h.miss.contains line = true ∨ slicePresent h line = true
            ∨ (h.miss.length < 256 ∧ (p.kind ≠ 0 ∨ setPinned (rxTake s e) h line = false)) ∨ (p.kind = 0 ∧ h.pend.contains line = false))) →
      (p.kind = 0 → ∃ t, done .readRequest t) ∧ (p.kind = 2 → ∃ t, done .write t) ∧ (p.kind = 4 → ∃ t, done .atomicRequest t)
      ∧ (p.kind = 6 → ∃ t, done .engineData t))
  ∧ (rxHead s e = some p → p.kind = 6 → epDie e < 8 → isResumeMsg p.msg = false → done .engineData (landData p (rxTake s e)))
  ∧ (∀ n, p.msg = .read n → homePerform p s = sendPkt s { (answer p 1 (homeRead s p.addr.toNat n) .none) with
        orig := p.orig, poison := rangePoison s p.addr.toNat n, opc := p.opc, ver := lineVer s (p.addr.toNat / 64) })
  ∧ (memOk s a.a = true → l.pend.contains a.b = true → done .homeSliceFill (setSlice s a.a { l with pend := l.pend.filter (· != a.b) }))
  ∧ (memOk s a.a = true → l.pend.contains a.b = false → l.miss.contains a.b = true → ways.length < 16 →
      done .homeSliceFill (performWaiting a.a a.b (stackError a.a a.b a.c a.d
        (setSlice s a.a { l with miss := l.miss.filter (· != a.b), lines := (a.b, false) :: l.lines }))))
  ∧ (memOk s a.a = true → l.pend.contains a.b = false → l.miss.contains a.b = true → v ∈ ways → pinCount s v.1 = 0 → l.pend.length < 64 →
      ∃ t, done .homeSliceFill t)
  ∧ (rxHead s e = some p → p.dst ≠ securityEp 0 → (p.kind = 1 → done .readResponse (readAnswered p left))
      ∧ (p.kind = 3 → done .writeAcknowledgement (writeAnswered p left)) ∧ (p.kind = 5 → done .atomicResponse (oldAnswered p left)))
  ∧ (lostAnswer s e a.b = some eff → late → done .requestTimeout (eff s) ∧ done .remoteAccessTimeout (eff s))
  ∧ (∀ k, epDie e ≠ 16 → epUnit e ≠ 73 → epCore s e = some k → accAt s k a.b = some (x, c) → late →
      done .requestTimeout (accFailed x c 3 s) ∧ done .remoteAccessTimeout (accFailed x c 3 s))
  ∧ (∀ n, oldestSeq (recvOf s a.flow).next (reachedSeqs s a.flow) = some q → (recvOf s a.flow).since = some n → n + 262144 ≤ s.cyc →
      done .reorderTimeout (skipTo a.flow q s))
  ∧ (∀ n, (recvOf s a.flow).early ≠ [] → (recvOf s a.flow).since = some n → n + 262144 ≤ s.cyc → ∃ t, done .reorderTimeout t)
  ∧ (a.a < 8 → a.b < 5 → badFlit → ∃ t, done .linkReplay t ∧ t.net = s.net
      ∧ ((wireOf s link).errors < 8 → (wireOf t link).errors = (wireOf s link).errors + 1 ∧ t.mgmt.retrain = s.mgmt.retrain
          ∧ mgF t a.a (oLink a.b) 0 32 = min (mgF s a.a (oLink a.b) 0 32 + 1) (2 ^ 32 - 1))
      ∧ (8 ≤ (wireOf s link).errors → (wireOf t link).errors = 0 ∧ t.mgmt.retrain.contains key = true))
  ∧ (8 ≤ a.a → a.a < 16 → 3 ≤ a.b → a.b < 5 → badFlit → ∃ t, done .linkReplay t ∧ t.net = s.net)
  ∧ (a.a = 16 → a.b < 16 → s.mgmt.retrain.contains key = false → done .linkReplay (replayPod a.b a.ok s))
  ∧ (a.a < 8 → a.b < 5 → s.mgmt.retrain.contains key = true → (a.ok = true → done .linkRetrainEnd (linkTrained a.a a.b s))
      ∧ (a.ok = false → done .linkRetrainEnd (linkDown a.a a.b (linkTrained a.a a.b s))))
  ∧ (a.a < 8 → a.b < 5 → s.mgmt.retrain.contains key = true → a.ok = true → ∃ t, done .linkRetrainEnd t
      ∧ t.mgmt.retrain.contains key = false ∧ t.net = s.net)
  ∧ (dieOk s a.a = true → 5 ≤ a.b → a.b < 7 → a.ok = false → done .linkRetrainEnd (linkDown a.a a.b s))
  ∧ (dieOk s a.a = true → 8 ≤ a.b → a.b < 296 → a.ok = false → done .linkRetrainEnd (meshDown a.a ((a.b - 8) / 4) ((a.b - 8) % 4) s))
  ∧ (a.a = 16 → s.mgmt.retrain.contains key = true → ∃ t, done .linkRetrainEnd t ∧ t.mgmt.retrain = dropFirst (· == key) s.mgmt.retrain)
  ∧ (s.running = true → 0 < a.data.length → a.b % 64 + a.data.length ≤ 64 → populated s a.b = true → a.a = 1 → ∃ t, done .hostMemoryAccess t)
  ∧ (s.running = true → 0 < a.c → a.b % 64 + a.c ≤ 64 → populated s a.b = true → a.a = 0 → ∃ t, done .hostMemoryAccess t)

/-! ## Events: circuits, the mill, promoted flows -/

/-- R60, R69, R72, R75, R78, R80, R85, R88 to R94, R441, R442, R493: the events of circuits and of the mill complete when their conditions hold: the answers of probes open a circuit or fail
it, grains are reserved and the setup request is answered, beats arrive, an expired lease collapses, the notice stops the receiver,
its report sets RESUME and, when it does not come, LOST, sends complete, a command of the circuit queue starts, grains load and land, markers are
acknowledged. -/
def Obligations.CircuitEvents : Prop := ∀ (s : State) (q : Circuit) (p : Pkt) (f : Promo) (c x n : Nat) (m : Cmd) (b : Beat) (bs : List Beat) (ps : List (BitVec 4 × Nat × Pkt))
    (d : Nat) (is : List PondItem),
  let a := s.arg
  let done := fun (i : Instr) (t : State) => exec i s = .next t
  let mine := findCircuit s a.a = some q ∧ (∀ g ∈ s.promos, g.fid ≠ a.a)
  let flow := s.promos.find? (fun g => g.fid = a.a) = some f
  let none' := findCircuit s a.a = none ∧ (∀ g ∈ s.promos, g.fid ≠ a.a) ∧ s.rx = [p]
  let se := coreEp s (coreOf q.x)
  let re := coreEp s (coreOf q.dx)
  let at' := fun (e : Ep) (g : Msg) => rxHead s e = some p ∧ p.msg = g
  let one := dieOf (coreOf q.x) = dieOf (coreOf q.dx)
  let came := fun (d : Nat) => d ≠ 0 ∧ d ≤ s.cyc
  let st := fun (t : State) => (readK (getX t q.x) q.k).st
  let rows := beatRows q b.ws s
  let to' := partner a.a (sailIndex s)
  (mine → q.stage = 0 → came q.due → (one → done .probeAcknowledgement (openNow q s))
      ∧ (¬ one → done .probeAcknowledgement (modCircuit s a.a (fun r => { r with stage := 1, due := s.cyc }))))
  ∧ (mine → q.stage = 3 → came q.due → done .probeAcknowledgement
      (sendPkt (modCircuit s a.a (fun r => { r with due := 0 })) (mkPkt 8 2 q.part (farHub q) se 0 0 [] (.probeAck a.a))))
  ∧ (mine → q.stage = 3 → ¬ came q.due → at' se (.probeAck a.a) → done .probeAcknowledgement (openNow q (rxTake s se)))
  ∧ ((readK (getX s q.x) q.k).cid = q.cid → st (openNow q s) = 2 ∧ (readK (getX (openNow q s) q.x) q.k).leaseEnd = s.cyc + q.lease)
  ∧ (flow → f.probing = true → came f.due → (f.leg = 1 → crosses f = false → done .probeAcknowledgement (promoProbed f s))
      ∧ (f.leg = 1 → crosses f = true → done .probeAcknowledgement
          (sendPkt (modPromo f.fid (fun g => { g with leg := 2, due := 0 }) s) (mkPkt 8 2 f.part f.nearHub f.farHub 0 0 [] (.setup f.fid))))
      ∧ (f.leg ≠ 1 → done .probeAcknowledgement
          (sendPkt (modPromo f.fid (fun g => { g with due := 0 }) s) (mkPkt 8 2 f.part f.farHub f.src 0 0 [] (.probeAck f.fid)))))
  ∧ (flow → f.probing = true → ¬ came f.due → at' f.src (.probeAck a.a) → done .probeAcknowledgement (promoProbed f (rxTake s f.src)))
  ∧ (mine → at' (farHub q) (.probeRefusal a.a c) → done .probeRefusal
      (sendPkt (rxTake s (farHub q)) (mkPkt 8 2 q.part (farHub q) se 0 0 [] (.probeRefusal a.a c))))
  ∧ (mine → rxHead s (farHub q) = none → at' se (.probeRefusal a.a c) → done .probeRefusal (failOpen q c (rxTake s se)))
  ∧ (flow → rxHead s f.farHub = none → f.probing = true → at' f.src (.probeRefusal a.a c) →
      done .probeRefusal (dropPromo a.a (dropLanes (promoVal a.a) (setEntry f 4 (rxTake s f.src)))))
  ∧ (mine → q.stage = 1 → (∀ r ∈ s.circuits, r.stage = 1 → dieOf (coreOf r.x) = dieOf (coreOf q.x) → r = q ∨ q.due < r.due
        ∨ (q.due = r.due ∧ se.toNat < (coreEp s (coreOf r.x)).toNat)) →
      (reserveGrains s (dieOf (coreOf q.x)) (dieOf (coreOf q.dx)) q.part.toNat q.g = none → done .grainReservation (failOpen q ckNOGRAIN s))
      ∧ (∀ r, reserveGrains s (dieOf (coreOf q.x)) (dieOf (coreOf q.dx)) q.part.toNat q.g = some r → ∃ t, done .grainReservation t ∧ t.mem = s.mem))
  ∧ (mine → q.stage = 2 → at' (farHub q) (.setup a.a) → ∃ t, done .circuitSetupRequest t ∧ t.probes.length = s.probes.length + 1)
  ∧ (flow → f.probing = true → at' f.farHub (.setup a.a) → done .circuitSetupRequest (farPromoProbe f (rxTake s f.farHub)))
  ∧ (mine → q.far = b :: bs → s.todo = [] → b.due ≤ 2 * s.cyc + 1 → q.report = none → (b.last = true ∨ ∀ r ∈ rows, (∀ g ∈ gatherRows s (coreOf q.dx), g % 32 = r % 32 → g = r)
        ∧ (∀ g ∈ marks s (coreOf q.dx), g.1 % 32 = r % 32 → g.1 = r)) → done .circuitBeat (circuitBeat q a.bits a.c s))
  ∧ (flow → f.far = (f.rseq, d, p) :: ps → s.todo = [] → d ≤ 2 * s.cyc + 1 → a.bits = 0 → a.c = 0 → f.change = none → p.seq = (recvOf s p.flow).next → ∃ t, done .circuitBeat t ∧ t.mem = s.mem)
  ∧ (∀ u, flow → f.far = (u, d, p) :: ps → s.todo = [] → d ≤ 2 * s.cyc + 1 → u ≠ f.rseq → done .circuitBeat (fallback a.a true s))
  ∧ (mine → at' re (.collapse a.a c) → done .collapseNotice (receiverStop q (rxTake s re)))
  ∧ (mine → q.collapsed ≠ some s.cyc → at' se (.resume a.a n) → done .resumePointReport
      (retireCircuit q (modHandle q (fun h => { h with st := 4, resume := BitVec.ofNat 24 n }) (rxTake s se))))
  ∧ (mine → q.collapsed = some c → c + 262144 ≤ s.cyc → done .resumeReportTimeout
      (retireCircuit q (modHandle q (fun h => { h with st := 4, cause := 7, resume := 0 }) s)))
  ∧ (mine → (readK (getX s q.x) q.k).cid = q.cid → st s = 2 → (readK (getX s q.x) q.k).leaseEnd ≤ s.cyc → done .leaseExpiry (collapse q.cid 2 false s))
  ∧ (mine → at' se (.sendAck a.a n) → ∃ t, done .sendAcknowledgement t ∧ t.mem = s.mem)
  ∧ (none' → (p.msg = .probeAck a.a → done .probeAcknowledgement (rxTake s p.dst)) ∧ (p.msg = .probeRefusal a.a c → done .probeRefusal (rxTake s p.dst))
      ∧ (p.msg = .setup a.a → done .circuitSetupRequest (rxTake s p.dst)) ∧ (p.msg = .collapse a.a c → done .collapseNotice (rxTake s p.dst))
      ∧ (p.msg = .resume a.a n → done .resumePointReport (rxTake s p.dst)) ∧ (p.msg = .sendAck a.a n → done .sendAcknowledgement (rxTake s p.dst)))
  ∧ (coreOf x = a.a → mfind (getC s a.a).starts 2 ≠ some s.cyc → Runs (getX s x) → FirstIn (getX s x).q2 m (fun e => decide (e.cyc < s.cyc) && ckEligible s x (getX s x) e) →
      NoElder s x m (·.q2) → done .circuitPortCommandStart (startCircuitCmd a.a x m s))
  ∧ (rxHead s (argEp s) = some p → p.kind = 7 → ∃ t, done .pathMarker t)
  ∧ (∀ fid fl, rxHead s (argEp s) = some p → p.msg = .markerAck fid fl → s.promos = [] → done .markerAcknowledgement (rxTake s (argEp s)))
  ∧ (∀ fid fl, rxHead s (argEp s) = some p → p.msg = .markerAck fid fl → ∃ t, done .markerAcknowledgement t)
  ∧ (s.running = true → a.a < 8 → a.b < 128 → sailOffset s = 10 + 8 * a.b → (grainTake s a.a a.b).1 ≠ [] →
      (∀ l ∈ s.grains, ¬ (l.source = a.a ∧ l.arrive = s.cyc + 23)) → ∃ t, done .grain t)
  ∧ (s.running = true → a.a < 8 → a.b < 128 → sailOffset s = 10 + 8 * a.b → dieOk s a.a = true → dieOk s to' = true → filashOk s = true →
      calEntry s a.a (sailIndex s) a.b = 0 → (getPond s a.a).relay = [] → mget [] (getPond s a.a).dep to' = .pkt n p d :: is → d ≤ 2 * s.cyc + 1 → epDie p.dst = to' →
      (∀ l ∈ s.grains, ¬ (l.source = a.a ∧ l.arrive = s.cyc + 23)) → ∃ t, done .grain t)
  ∧ (∀ l, s.grains = [l] → l.dest = a.a → l.arrive ≤ s.cyc → a.bits = 0 → done .grainDelivery (l.items.foldl (landItem a.a) { s with grains := [] }))
  ∧ (∀ l, s.grains = [l] → l.dest = a.a → l.arrive ≤ s.cyc → ∃ t, done .grainDelivery t)
  ∧ (s.rx = [p] → p.msg = .relaySpace a.a n → ∃ t, done .relaySpaceReport t)

/-! ## Events: pod links and RMA -/

/-- R98, R99, R101 to R108, R112 to R114, R160: the events of the pod links and of the RMA queues complete when their conditions hold.  The package's next packet leaves, or is refused; one that passes through goes
on; credits come back; one that arrives is taken; a SACK releases; an overdue packet is resent; a flushing read is answered; registrations, tails,
enables and ERRSTOP are written; descriptors start, wait and retire. -/
def Obligations.PodEvents : Prop := ∀ (s : State) (p : Pkt) (r : RmaRun) (rs : List RmaRun) (l : Nat),
  let a := s.arg
  let done := fun (i : Instr) (t : State) => exec i s = .next t
  let f := podFlow s (BitVec.ofNat 16 a.a) (BitVec.ofNat 8 a.b) (BitVec.ofNat 2 a.c)
  let tag : BitVec 64 := a.bits.truncate 64
  let inr := a.a < 8 ∧ a.b < 64 ∧ s.mgmt.fw.contains 0 = false
  let zero := fun (t : State) => mgSet (mgSet t 0 (oRma a.a a.b + 8) 0) 0 (oRma a.a a.b + 16) 0
  let came := filashOk s = true ∧ (cameBy s).1 < 16 ∧ podUp s (cameBy s).1 = true
  let own := a.b = 0 ∧ rxHead s filashEp = some p ∧ isRemoteRequest s p = true
  let open' := mgF s 0 oPodId 8 1 = 1 ∧ filashOk s = true ∧ podLink s p = some l ∧ mgF s 0 (oPodPart p.part.toNat) 16 1 = 1
  let g := podFlow s p.src p.pkg 0
  let desc := BitVec.ofNat 512 (leNat (homeRead s (rmaSlot s a.a a.b (rmaHead s a.a a.b)) 64))
  let op := desc.toNat % 2 ^ 4
  let more := (rmaTail s a.a a.b - rmaHead s a.a a.b).toNat
  let starts := a.a < 8 ∧ a.b < 64 ∧ rmaEn s a.a a.b = true ∧ rmaState s a.a a.b = 1 ∧ filashOk s = true ∧ 0 < more ∧ more < 2 ^ 31
    ∧ (rmaRuns s a.a a.b).length < 8 ∧ (∀ w ∈ rmaRuns s a.a a.b, w.err = 0) ∧ (rmaRuns s a.a a.b = [] ∨ (desc.getLsbD 4 = false ∧ op ≠ 3))
  let next := rmaStart a.a a.b ⟨rmaHead s a.a a.b, desc⟩ s
  let waited := rmaState s a.a a.b = 2 ∧ ∃ w ∈ rmaRuns s a.a a.b, bitsN w.desc 0 4 = 3 ∧ w.complete = false
    ∧ bitsN w.desc 192 64 ≤ (rmaComplete s a.a (bitsN w.desc 16 6)).toNat
  (own → open' → g.held.length < 256 → (g.held ≠ [] ∨ podFlows s < 4096) →
      done .podNextHop (podSendPkt 0 (mgF s 0 (oPodPart p.part.toNat) 0 16) p (rxTake s filashEp)))
  ∧ (own → mgF s 0 oPodId 8 1 = 0 ∨ filashOk s = false ∨ podLink s p = none ∨ mgF s 0 (oPodPart p.part.toNat) 16 1 = 0 →
      done .podNextHop (refuseRequest p (rxTake s filashEp)))
  ∧ (a.b = 1 → came → tagDpkg tag ≠ ownPkg s → done .podNextHop (podTransit (cameBy s).1 (cameBy s).2 tag a.pkt s))
  ∧ (a.b = 2 → filashOk s = true → a.a < 16 → (∀ e ∈ a.pairs, e.1 ≤ 18) → done .podNextHop (podReturn a.a a.pairs s))
  ∧ (came → mgF s 0 oPodId 8 1 = 1 → tagDpkg tag = ownPkg s → tagCls tag < 3 →
      done .podAccessAdmission (podTaken tag a.pkt (podFree (cameBy s).1 (podVc tag) (cameBy s).2 (flitCount a.pkt) s)))
  ∧ (came → (∃ h ∈ s.podSend, isFlow f.src f.dpkg f.cls h = true) → ∃ t, done .sack t)
  ∧ (came → (∃ h ∈ s.podSend, isFlow f.src f.dpkg f.cls h = true) → f.held = [] →
      done .sack (podFree (cameBy s).1 (12 + (a.pairs.getD 1 (0, 0)).1) (cameBy s).2 2 (podFlushAll (setPodFlow f s))))
  ∧ ((∃ h ∈ f.held, h.seq = BitVec.ofNat 16 a.d ∧ h.tick + podRto s ≤ s.cicada.toNat) → done .podResendTimeout (resend f (BitVec.ofNat 16 a.d) s))
  ∧ (∀ (tg : BitVec 64) (w : List Nat), s.flushes = [(a.a, p, tg, w)] → (∀ n ∈ w, ∀ d ∈ s.admitted, d.tag ≠ n) →
      done .flushingReadResponse (podAnswer p tg (answer p 1 [] .none) { s with flushes := [] }))
  ∧ (a.a < 8 → a.b < 256 → s.mgmt.fw.contains 0 = false →
      done .registrationStateWrite { s with mgmt := { s.mgmt with regWrites := s.mgmt.regWrites ++ [(a.a, a.b, a.c)] } })
  ∧ (a.a < 8 → a.b < 256 → s.mgmt.fw.contains 0 = true → done .registrationStateWrite s)
  ∧ (s.mgmt.regWrites = [(a.a, a.b, a.c)] → applyRegWrites s = (let u : State := { s with mgmt := { s.mgmt with regWrites := [] } }
      let st := (regOf s a.a a.b).st
      if (st = 0 ∧ a.c = 1) ∨ (st = 1 ∧ a.c = 2) ∨ (st = 3 ∧ a.c = 0) then confirmRevoke a.a a.b (mgSetF u 0 (oReg a.a a.b + 16) 0 2 a.c) else u))
  ∧ (came → a.c = 1 ∨ a.c = 2 → done .rejectedStoreReport (recordStore (BitVec.ofNat 16 a.a) (BitVec.ofNat 8 a.b) a.c
      (podFree (cameBy s).1 (12 + (a.pairs.getD 1 (0, 0)).1) (cameBy s).2 1 s)))
  ∧ (inr → done .rmaTailWrite (rmaSettle a.a a.b (mgSetF s 0 (oRma a.a a.b + 8) 0 32 a.c)))
  ∧ (inr → a.ok = true → rmaEn s a.a a.b = false → done .rmaEnableWrite (rmaSettle a.a a.b (mgSetF (zero s) 0 (oRma a.a a.b + 24) 3 1 1)))
  ∧ (inr → a.ok = false → rmaEn s a.a a.b = true → done .rmaEnableWrite (mgSet (setRma a.a a.b [] (zero s)) 0 (oRma a.a a.b + 24) 0))
  ∧ (inr → a.ok = rmaEn s a.a a.b → done .rmaEnableWrite s)
  ∧ (inr → mgF s 0 (oRma a.a a.b + 24) 2 1 = 0 → done .rmaErrstopWrite s)
  ∧ (inr → mgF s 0 (oRma a.a a.b + 24) 2 1 = 1 → rmaRuns s a.a a.b = r :: rs →
      done .rmaErrstopWrite (rmaRetire a.a a.b r (setRmaState a.a a.b 1 (mgSetF s 0 (oRma a.a a.b + 24) 2 1 0))))
  ∧ (a.a < 8 → a.b < 64 → s.mgmt.fw.contains 0 = true → done .rmaTailWrite s ∧ done .rmaEnableWrite s ∧ done .rmaErrstopWrite s)
  ∧ (starts → (op = 0 ∨ 3 < op → done .rmaNop next) ∧ (op = 1 → done .rmaPut next) ∧ (op = 2 → done .rmaGet next) ∧ (op = 3 → done .rmaWait next))
  ∧ (waited → ∃ t, done .rmaWait t ∧ (rmaRuns t a.a a.b).all (fun w => bitsN w.desc 0 4 != 3 || w.complete) = true)
  ∧ (rmaRuns s a.a a.b = r :: rs → rmaState s a.a a.b ≠ 3 → r.complete = true ∨ r.err ≠ 0 →
      (r.err = 0 → done .rmaDescriptorRetire (rmaRetire a.a a.b r s)) ∧ (r.err ≠ 0 → done .rmaDescriptorRetire (rmaStop a.a a.b r.err s)))

/-! ## Events: launch, placement, translation -/

/-- R144, R155, R156, R160, R174 to R178, R182, R192 to R203, R433: the events of the launch queues, of records and nodes, and of the walker complete
when their conditions hold.  A queue's registers are written, an entry is taken, its record checked, each in the walker's order of queues; records
start; their nodes start, one of a walker in a cycle, and finish; gangs are placed, started, restored; an invalidation starts, marks and confirms each
core. -/
def Obligations.LaunchEvents : Prop := ∀ (s : State) (r : Rec) (g h : Gang) (n : Nat) (v : Inval) (vs : List Inval),
  let a := s.arg
  let done := fun (i : Instr) (t : State) => exec i s = .next t
  let inr := a.a < 8 ∧ a.b < 32
  let Q := oQueue a.a a.b
  let b := r.nodes.getD a.b 0
  let ty := b.toNat % 2 ^ 4
  let P := r.part.toNat
  let sameWalker := fun (p q : Nat) => walkerDie s p = walkerDie s q
  let fw := s.mgmt.fw.contains 0
  let turn := mget 0 s.walks (walkerDie s P) ≤ s.cyc
    ∧ ∀ e ∈ s.recs, e.id ≠ r.id → sameWalker e.part.toNat P → recBefore s e r = true → e.started = true →
        ∀ i < e.nodes.length, nodeSt e i = 1 → ndType (e.nodes.getD i 0) = 0
  let starts := findRec s a.a = some r ∧ r.started = true ∧ a.b < r.nodes.length ∧ nodeSt r a.b = 1 ∧ ty ≠ 0
    ∧ (∀ i < a.b, nodeSt r i = 1 → ndType (r.nodes.getD i 0) = 0) ∧ turn
  let w := noteWalk r s
  let count := fun (c : Nat) (e : Rec) => { e with cnt := mset e.cnt a.b c }
  let take := qTaken s a.a a.b
  let entry := leNat (homeRead s (qBase s a.a a.b + 8 * (take % 256)) 8)
  let may := inr ∧ partState s a.a = 1 ∧ qEn s a.a a.b = true ∧ qStop s a.a a.b = false ∧ take < qTl s a.a a.b ∧ (inFlight s a.a a.b).length < 4
    ∧ mfind (getPart s a.a).fetching a.b = none
    ∧ ∀ q ∈ liveQueues s, sameWalker q.1 a.a → queueBefore s q (a.a, a.b) = true → canTake s q.1 q.2 = false
  let dies := recDies s P r.hdr
  let noneBefore := fun (p q : Nat) => ∀ d ∈ waitingQueues s, sameWalker d.1 p → queueBefore s d (p, q) = true →
    ∀ e, queueHead s d.1 d.2 = some e → (turnOf s d.1 d.2 e).acts = false
  let head := findRec s a.a = some r ∧ partState s P = 1 ∧ queueHead s P r.q = some (.node r a.b) ∧ noneBefore P r.q
  let saved := findGang s a.a = some g ∧ partState s g.part.toNat = 1 ∧ s.moves = [] ∧ queueHead s g.part.toNat g.q = some (.saved g)
    ∧ noneBefore g.part.toNat g.q
  (inr → fw = true → done .queueTlWrite s ∧ done .queueEnableWrite s ∧ done .queueStopWrite s)
  ∧ (inr → fw = false → done .queueTlWrite (releaseHost { s with mgmt := { s.mgmt with heldTl := s.mgmt.heldTl ++ [(a.a, a.b, BitVec.ofNat 64 a.c)] } }))
  ∧ (inr → fw = false → a.ok = true → qEn s a.a a.b = false → ∃ t, done .queueEnableWrite t ∧ qEn t a.a a.b = true ∧ qTl t a.a a.b = 0 ∧ qTaken t a.a a.b = 0)
  ∧ (inr → fw = false → a.ok = true → qEn s a.a a.b = true → ∃ t, done .queueEnableWrite t ∧ qEn t a.a a.b = true ∧ qTl t a.a a.b = qTl s a.a a.b ∧ qTaken t a.a a.b = take)
  ∧ (inr → fw = false → a.ok = false → ∃ t, done .queueEnableWrite t ∧ qEn t a.a a.b = false ∧ qTl t a.a a.b = qTl s a.a a.b ∧ qTaken t a.a a.b = take)
  ∧ (inr → fw = false → qStop s a.a a.b = false → done .queueStopWrite (mgSetF (mgSetF s 0 (Q + 24) 0 4 0) 0 (Q + 24) 4 1 0))
  ∧ (inr → fw = false → qStop s a.a a.b = true → done .queueStopWrite (setTaken a.a a.b (take + 1) (mgSetF (mgSetF s 0 (Q + 24) 0 4 0) 0 (Q + 24) 4 1 0)))
  ∧ (may → (entry % 64 = 0 → entry < 2 ^ 48 → populated s entry = true → done .queueEntryTake (modPart s a.a (fun u => { u with fetching := mset u.fetching a.b entry })))
      ∧ (entry % 64 ≠ 0 ∨ 2 ^ 48 ≤ entry ∨ populated s entry = false → done .queueEntryTake (stopQueue a.a a.b 1 s)))
  ∧ (mfind (getPart s a.a).fetching a.b = some n →
      (∀ q ∈ liveQueues s, sameWalker q.1 a.a → queueBefore s q (a.a, a.b) = true → mfind (getPart s q.1).fetching q.2 = none) → ∃ t, done .recordFetch t
      ∧ (let u := modPart s a.a (fun w => { w with fetching := mdel w.fetching a.b })
         let rec' := readRecord u n
         qEn s a.a a.b = true → qStop s a.a a.b = false → partState s a.a = 1 →
          recordBad u a.a (partDies u a.a) ((getPart u a.a).devs.contains (a.b, take)) rec'.1 rec'.2 = false →
          t.recs.length = s.recs.length + 1))
  ∧ (findRec s a.a = some r → r.started = false → r.parent = none → (∀ e ∈ (inFlight s P r.q).takeWhile (fun e => e.id != r.id), e.started = true) →
      (hdSerial r.hdr = true → (inFlight s P r.q).takeWhile (fun e => e.id != r.id) = []) →
      (hdWaitTl r.hdr ≠ 0 → s.sub = 0 ∧ memReached s (hdWaitTl r.hdr) (hdWaitVal r.hdr) = true) → partState s P = 1 →
      (∀ q ∈ liveQueues s, sameWalker q.1 P → queueBefore s q (P, r.q) = true → ∀ e ∈ inFlight s q.1 q.2, mayStart s e = false) →
      done .recordStart (modRec r.id startRec s))
  ∧ (starts → (ty = 1 → done .copyNode (startReplay opCopyNode (b.toNat / 2 ^ 208 % 2 ^ 3) (b.toNat / 2 ^ 211 % 2 ^ 2) r a.b w))
      ∧ (ty = 2 → done .collectiveNode (startReplay opCollective (b.toNat / 2 ^ 364 % 2 ^ 3) (b.toNat / 2 ^ 367 % 2 ^ 2) r a.b w))
      ∧ (ty = 3 → done .circuitOpenNode (modRec r.id (fun e => count 0 (setNodeSt a.b 2 e)) w))
      ∧ (ty = 4 → done .signalNode (walkerSend r a.b 1 4 (.atom 12 true (sgVal b) 0 false) (modRec r.id (setNodeSt a.b 2) w)))
      ∧ (ty = 5 → 4 ≤ r.depth → done .subgraphNode (nodeDone r.id a.b 6 w))
      ∧ (ty = 5 → ∃ t, done .subgraphNode t)
      ∧ (ty = 6 → done .joinNode (nodeDone r.id a.b 0 w))
      ∧ (ty = 7 → done .waitNode (walkerSend r a.b 2 0 (.read 8) (modRec r.id (fun e => count s.cicada.toNat (setNodeSt a.b 2 e)) w))))
  ∧ (findRec s a.a = some r → r.started = true → ty = 7 → nodeSt r a.b = 2 → s.sub = 0 → mget 0 r.cnt a.b < s.cicada.toNat →
      (∀ q ∈ s.reqs, q.use = 2 → q.a = r.id → q.b ≠ a.b) →
      done .waitNode (walkerSend r a.b 2 0 (.read 8) (modRec r.id (fun e => count s.cicada.toNat (setNodeSt a.b 2 e)) s)))
  ∧ (findRec s a.a = some r → ty = 3 → nodeSt r a.b = 2 →
      (mget 0 r.cnt a.b = 1 → nodeOpening s r.id a.b = false → done .circuitOpenNode (nodeDone r.id a.b 0 s))
      ∧ (mget 0 r.cnt a.b ≠ 1 → nodeSt r (coSnode b) = 3 ∨ nodeSt r (coDnode b) = 3 ∨ endReady s r (coSnode b) = true ∧ endReady s r (coDnode b) = true →
          done .circuitOpenNode (openFromNode r a.b b (modRec r.id (count 1) s))))
  ∧ (head → (∀ l, chooseSeats s P dies [] b = some l → done .gangNode (placeGang r a.b l s))
      ∧ (chooseSeats s P dies [] b = none → (∀ c ∈ recClusters s dies, couldHold s P c.1 c.2 b = false) → done .gangNode (nodeDone r.id a.b 3 s))
      ∧ (chooseSeats s P dies [] b = none → (∃ c ∈ recClusters s dies, couldHold s P c.1 c.2 b = true) →
          (victims s P r.q).find? (fun e => (chooseSeats s P dies (liveXs e) b).isSome) = some g → done .gangNode (haltGang 1 g s)))
  ∧ (findGang s a.a = some g → findRec s g.rcd = some r → g.st = 0 → partState s g.part.toNat = 1 → done .gangStart (startGang r g s))
  ∧ (saved → (∀ l, restoreSeats s g [] = some l → done .gangRestore (restoreGang g l s))
      ∧ (restoreSeats s g [] = none → (victims s g.part.toNat g.q).find? (fun e => (restoreSeats s g (liveXs e)).isSome) = some h →
          done .gangRestore (haltGang 1 h s)))
  ∧ (findRec s a.a = some r → r.started = true → (∀ i < r.nodes.length, nodeSt r i = 3) → done .recordRetirement (retireRec r r.code r.node s))
  ∧ (s.invals = v :: vs → v.started = false → (v.count ≠ 0 ∨ v.all = true → done .invalidationRequest (settleInval { s with invals := { v with started := true } :: vs }))
      ∧ (v.count = 0 → v.all = false → done .invalidationRequest (endInval v { s with invals := { v with started := true } :: vs })))
  ∧ (s.invals = v :: vs → v.started = true → (partCores s v.part.toNat).contains a.a = true → mfind v.marked a.a = none →
      (∀ e ∈ (getC s a.a).tlb, tlbMatches v e = true → moving s e.pa.toNat = false) →
      (∀ y ∈ partCtxs s a.a v.part, ∀ q ∈ (getX s y).hr, q.2.st ≠ 0 → handleMatches v q.2 = true → moving s q.2.pa.toNat = false) →
      ∃ t, done .invalidationMarking t ∧ (mfind ((t.invals.headD v).marked) a.a).isSome = true
        ∧ (∀ e ∈ (getC t a.a).tlb, tlbMatches v e = true → e.stop = true))
  ∧ (s.invals = v :: vs → v.started = true → mfind v.marked a.a = some n → v.confirmed.contains a.a = false →
      (∀ y ∈ partCtxs s a.a v.part, (∀ m ∈ (getX s y).accs, writePending n m = false) ∧ (∀ m ∈ (getX s y).q1, m.id < n → cmdWrites m = false)) →
      (∀ q ∈ (getC s a.a).wbs, q.2.2 ≠ v.part) →
      (∀ e ∈ (getC s a.a).runs, e.cmd.id < n → cmdWrites e.cmd = true → runPart s e = v.part → e.stopped = true) →
      ∃ t, done .invalidationConfirmation t ∧ (∀ e ∈ (getC t a.a).tlb, tlbMatches v e = false))
  ∧ ((getPlc s a.a).notices ≠ [] → ∃ t, done .walkNotice t ∧ (getPlc t a.a).notices = (getPlc s a.a).notices.tail)
  ∧ (dieOk s a.a = true → done .plcRetHeadWrite (mgSetF s a.a (oPlcRet + 8) 32 32 a.b) ∧ done .plcLostHeadWrite (mgSetF s a.a (oPlcLost + 8) 32 32 a.b))

/-! ## Events: engines, barriers, streams -/

/-- R139, R206 to R214, R220 to R222, R373, R427 to R434, R444, R493: the events of the engines, of gang barriers and of streams complete when their
conditions hold: commands take their engines in the order of their issue, stages start, commands complete; a barrier completes when every live member
has arrived, and is released eight cycles later; opens are checked; the flits of streams change the port that they are for, where it is now, and one
for a port that has gone changes no other. -/
def Obligations.EngineEvents : Prop := ∀ (s : State) (m : Cmd) (r : Run) (g : Gang) (p : Pkt) (x q part : Nat) (w : BitVec 128) (back : Bool),
  let a := s.arg
  let done := fun (i : Instr) (t : State) => exec i s = .next t
  let c := getX s x
  let runs := (getC s a.a).runs
  let free := fun (port : Nat) => ∀ e ∈ runs, e.cmd.port = port → runBusy e = false
  let elder := fun (y : Nat) (e : Cmd) => m.cyc < e.cyc ∨ m.cyc = e.cyc ∧ x < y
  let heads := free a.b ∧ coreOf x = a.a ∧ Runs c
    ∧ (∀ e ∈ runs, e.cmd.port = a.b → e.x = x → e.node = none → e.stopped = true ∨ e.cmd.stage ≤ e.step)
    ∧ FirstIn c.q1 m (fun e => e.port == a.b && !runs.any (fun f => f.cmd.id == e.id)) ∧ m.cyc < s.cyc
    ∧ (m.op ≤ 3 → cpWen m.blk = true → tlReached (readTl c (cpWtl m.blk)) (cpWval m.blk + BitVec.ofNat 64 m.c) = true)
    ∧ (∀ y e, coreOf y = a.a → y ≠ x → headFor s a.a a.b y = some e → elder y e)
  let sends := fun (d : Ctx) (e : Cmd) => decide (e.cyc < s.cyc) && (before d.q3 e).all (fun f => f.a != e.a) && !(e.op == 9 && (readQ d e.a).st == 2)
  let flit := fun (ty : Nat) => rxHead s (argEp s) = some p ∧ p.msg = .stream (part + if back then 8 else 0) w ∧ part < 8 ∧ w.toNat % 2 ^ 4 = ty
  let u := rxTake s (argEp s)
  let sid := w.toNat / 2 ^ 16 % 2 ^ 10
  let port := livePort u part sid back
  let cur := readQ (getX u x) q
  (heads → (m.op ≠ 4 → done .copyCommandStart (startCopy a.a x m s))
      ∧ (m.op = 4 → postReady s a.a a.b 4 = none → done .rmapostCommandStart (startCopy a.a x m s)))
  ∧ (free a.b → r ∈ runs → r.cmd.port = a.b → r.stopped = false → r.step < r.cmd.stage → r.done = r.step → (getX s r.x).halted = false →
      tlReached (readTl (getX s r.x) (cpWtl r.cmd.blk)) (cpWval r.cmd.blk + BitVec.ofNat 64 r.step) = true → ∃ t, done .copyStageStart t ∧ t.mem = s.mem)
  ∧ (runAt s a.a a.b = some r → r.out = [] → r.buf = [] → r.cmd.op ≠ 4 → r.cmd.op ≠ 0x19 → arrivalsDue r = false →
      r.stopped = true ∨ runGoal r ≤ r.pos ∧ (r.cmd.stage = 0 ∨ r.done < r.step) →
      (r.node = none → done .copyCommandCompletion (completeRun a.a r s))
      ∧ (∀ id n, r.node = some (id, n) → done .copyCommandCompletion (nodeDone id n (if r.stopped then 1 else 0) (dropRun a.a r.cmd.id s))))
  ∧ (∀ P, postReady s a.a a.b 4 = some r → P = (getX s r.x).part.toNat → rmaEn s P r.cmd.a = true →
      (rmaTail s P r.cmd.a - bits (rmaComplete s P r.cmd.a) 0 32).toNat < 2 ^ rmaLog s P r.cmd.a → done .rmapostCommandStart (writePost a.a r s))
  ∧ (∀ P, postReady s a.a 2 0x19 = some r → P = (getX s r.x).part.toNat → qEn s P r.cmd.a = true → qTl s P r.cmd.a - qTaken s P r.cmd.a < 256 →
      done .launchCommandStart (writeLaunch a.a r s))
  ∧ (postReady s a.a 2 0x19 = none → free 2 → coreOf x = a.a → Runs c → c.q4.head? = some m → m.cyc < s.cyc →
      (∀ y e, coreOf y = a.a → y ≠ x → Runs (getX s y) → (getX s y).q4.head? = some e → e.cyc < s.cyc → elder y e) → ∃ t, done .launchCommandStart t
      ∧ (getX t x).q4 = dropFirst (fun e => e.id = m.id) c.q4 ∧ (getC t a.a).runs = runs ++ [mkRun x none m])
  ∧ (mfind (getC s a.a).starts 3 ≠ some s.cyc → coreOf x = a.a → Runs c → FirstIn c.q3 m (sends c) →
      (∀ y e, coreOf y = a.a → y ≠ x → Runs (getX s y) → FirstIn (getX s y).q3 e (sends (getX s y)) → elder y e) →
      done .streamUnitCommandStart (startStreamCmd a.a x m s))
  ∧ (∀ d rest, (getPart (reapStreams a.a s) a.a).opens.filter (fun o => openWaits s o.1) = (x, q, d) :: rest →
      s.ctxs.any (fun e => e.2.task && e.2.part.toNat == a.a && e.2.opened == some 0) = false →
      ∃ t, done .streamOpenCheck t ∧ (getX t x).opened = some (openOutcome (reapStreams a.a s) a.a x d) ∧ (getPart t a.a).opens = rest)
  ∧ (findGang s a.a = some g → g.st = 1 → g.release = none → g.arrived ≠ [] → (∀ i ∈ g.live, i ∈ g.arrived) → g.xstOut = 0 →
      done .gangBarrierCompletion (addTimer (modGang g.id (fun e => { e with release := some (s.cyc + 8) }) s) 8 .gangBarrierRelease (EvArg.of g.id)))
  ∧ (findGang s a.a = some g → g.st = 1 → g.release = some x → x ≤ s.cyc → done .gangBarrierRelease
      ((g.live.map (fun i => g.xs.getD i 0)).foldl (fun t y => releaseMember y t) (modGang g.id (fun e => { e with arrived := [], release := none }) s)))
  ∧ (port = some (x, q) → (flit 0 → done .sampleFlit (modQ x q (fun e => if e.st = 1 then takeSample s.cicada.toNat w (takeRd w e) else takeRd w e) u))
      ∧ (flit 1 → done .creditFlit (modQ x q (takeRd w) u))
      ∧ (flit 2 → cur.role = false → ∃ t, done .detachFlit t ∧ (cur.st = 1 → (readQ (getX t x) q).st = 2))
      ∧ (flit 2 → cur.role = true → done .detachFlit (nameSent x q w (modQ x q (fun e => { e with st := if e.st = 1 then 2 else e.st, samples := [] }) u)))
      ∧ (flit 3 → ∀ e, edgeOf u cur.part sid = some e → (cur.st = 2 → cur.susp ≠ 1 → cur.susp ≠ 4 → ∃ t, done .attachFlit t ∧ (readQ (getX t x) q).st = 1)
          ∧ (cur.st ≠ 2 ∨ cur.susp = 1 ∨ cur.susp = 4 → done .attachFlit u))
      ∧ (flit 4 → cur.role = false → done .closeFlit (modQ x q (fun e => { e with st := 5, cause := 5, samples := [], susp := 0 }) u))
      ∧ (flit 4 → cur.role = true → done .closeFlit (settleClosing x q (nameSent x q w (modQ x q closingPort u))))
      ∧ (flit 5 → ∃ t, done .breakFlit t ∧ (readQ (getX t x) q).st = 5))
  ∧ (port = none → (flit 0 → done .sampleFlit u) ∧ (flit 1 → done .creditFlit u) ∧ (flit 2 → savedPort u part sid back = none → done .detachFlit u)
      ∧ (flit 3 → (savedPort u part sid back).isSome = true → done .attachFlit u)
      ∧ (flit 4 → done .closeFlit (modSaved part sid back (closeSaved u w) u)) ∧ (flit 5 → ∃ t, done .breakFlit t))
  ∧ ((getX s a.a).task = true → (readQ (getX s a.a) a.b).role = true → (readQ (getX s a.a) a.b).st = 2 ∨ (readQ (getX s a.a) a.b).st = 3 →
      (readQ (getX s a.a) a.b).due = some x → (readQ (getX s a.a) a.b).wr < x → done .streamLossTimeout (lostRecord a.a a.b s))
end

