-- ==== Sys2Proof/Laws/Arith.lean ====
section
/-!
SUPPORT. The scalar operations as arithmetic on integers (R332 to R344).
-/

namespace Sys2Proof.Machine

open Sys2Proof

/-- The shift amount is Y mod 64. -/
theorem shamt_eq (y : DWord) : shamt y = y.toNat % 64 := by simp [shamt, bitsN, BitVec.extractLsb'_toNat]

/-- Signed minimum. -/
theorem min_signed (x y : DWord) : (if x.slt y then x else y) = BitVec.ofInt 64 (min x.toInt y.toInt) := by
  by_cases h : x.toInt < y.toInt
  · simp [BitVec.slt, h, min_eq_left h.le]
  · simp [BitVec.slt, h, min_eq_right (not_lt.mp h)]

/-- Signed maximum. -/
theorem max_signed (x y : DWord) : (if x.slt y then y else x) = BitVec.ofInt 64 (max x.toInt y.toInt) := by
  by_cases h : x.toInt < y.toInt
  · simp [BitVec.slt, h, max_eq_right h.le]
  · simp [BitVec.slt, h, max_eq_left (not_lt.mp h)]

/-- Unsigned minimum. -/
theorem min_unsigned (x y : DWord) : (if x.ult y then x else y) = BitVec.ofNat 64 (min x.toNat y.toNat) := by
  by_cases h : x.toNat < y.toNat
  · simp [BitVec.ult, h, min_eq_left h.le]
  · simp [BitVec.ult, h, min_eq_right (not_lt.mp h)]

/-- Unsigned maximum. -/
theorem max_unsigned (x y : DWord) : (if x.ult y then y else x) = BitVec.ofNat 64 (max x.toNat y.toNat) := by
  by_cases h : x.toNat < y.toNat
  · simp [BitVec.ult, h, max_eq_right h.le]
  · simp [BitVec.ult, h, max_eq_left (not_lt.mp h)]

/-- The arithmetic shift is floor division. -/
theorem sar_eq (x : DWord) (n : Nat) : x.sshiftRight n = BitVec.ofInt 64 (x.toInt / 2 ^ n) := by
  apply BitVec.eq_of_toInt_eq
  rw [BitVec.toInt_sshiftRight, BitVec.toInt_ofInt, Int.shiftRight_eq_div_pow]
  have h1 := BitVec.le_toInt x
  have h2 := BitVec.toInt_lt (x := x)
  norm_num at h1 h2
  rw [Int.bmod_eq_of_le]
  · simp
  · norm_num
    have : (1:Int) ≤ 2^n := by exact_mod_cast Nat.one_le_two_pow
    refine (Int.le_ediv_iff_mul_le (by positivity)).mpr (by nlinarith)
  · norm_num
    have : (1:Int) ≤ 2^n := by exact_mod_cast Nat.one_le_two_pow
    refine Int.ediv_lt_of_lt_mul (by positivity) (by nlinarith)

/-- The high half of the signed product. -/
theorem mulhS_eq (x y : DWord) : mulhS x y = BitVec.ofInt 64 (x.toInt * y.toInt / 2 ^ 64) := by
  have h1 := BitVec.le_toInt x
  have h2 := BitVec.toInt_lt (x := x)
  have h3 := BitVec.le_toInt y
  have h4 := BitVec.toInt_lt (x := y)
  norm_num at h1 h2 h3 h4
  set p := BitVec.signExtend 128 x * BitVec.signExtend 128 y with hp
  have hpi : p.toInt = x.toInt * y.toInt := by
    rw [hp, BitVec.toInt_mul, BitVec.toInt_signExtend_of_le (by norm_num), BitVec.toInt_signExtend_of_le (by norm_num)]
    apply Int.bmod_eq_of_le <;> norm_num <;> nlinarith
  show p.extractLsb' 64 64 = _
  rw [← hpi]
  apply BitVec.eq_of_toNat_eq
  rw [BitVec.extractLsb'_toNat, BitVec.toNat_ofInt, Nat.shiftRight_eq_div_pow]
  have : p.toInt = (p.toNat : Int) ∨ p.toInt = (p.toNat : Int) - 2^128 := by
    rw [BitVec.toInt_eq_toNat_cond]; split <;> simp
  have := p.isLt
  omega

/-- The high half of the unsigned product. -/
theorem mulhU_eq (x y : DWord) : mulhU x y = BitVec.ofNat 64 (x.toNat * y.toNat / 2 ^ 64) := by
  apply BitVec.eq_of_toNat_eq
  simp only [mulhU, BitVec.extractLsb'_toNat, BitVec.toNat_mul, BitVec.toNat_ofNat, BitVec.toNat_setWidth]
  have hx := x.isLt; have hy := y.isLt
  rw [Nat.mod_eq_of_lt (a := x.toNat) (by omega), Nat.mod_eq_of_lt (a := y.toNat) (by omega), Nat.mod_eq_of_lt (a := x.toNat * y.toNat), Nat.shiftRight_eq_div_pow]
  calc x.toNat * y.toNat < 2^64 * 2^64 := by nlinarith
    _ = 2^128 := by norm_num

/-- The count of ones. -/
theorem countOnes_eq (x : DWord) (n : Nat) : countOnes x n = (List.range n).countP (fun i => x.getLsbD i) := by
  induction n with
  | zero => rfl
  | succ n ih => rw [List.range_succ, List.countP_append, ← ih]; simp [countOnes, List.countP_cons]

/-- What the count of leading zeros says. -/
theorem leadZeros_spec (x : DWord) (n : Nat) (hn : n ≤ 64) (h : x.toNat < 2^n) : leadZeros x n ≤ n ∧ x.toNat < 2^(n - leadZeros x n) ∧ (leadZeros x n < n → 2^(n - 1 - leadZeros x n) ≤ x.toNat) := by
  induction n with
  | zero => simp [leadZeros] at *; omega
  | succ n ih =>
    simp only [leadZeros]
    by_cases hb : x.getLsbD n
    · simp only [hb, if_true]
      refine ⟨by omega, h, fun _ => ?_⟩
      have : x.toNat.testBit n = true := hb
      simpa using Nat.ge_two_pow_of_testBit this
    · simp only [hb]
      have : x.toNat < 2^n := by
        by_contra hc
        apply hb
        rw [BitVec.getLsbD, Nat.testBit_eq_decide_div_mod_eq]
        have : x.toNat / 2^n = 1 := by
          apply Nat.div_eq_of_lt_le <;> omega
        simp [this]
      obtain ⟨h1,h2,h3⟩ := ih (by omega) this
      simp only [Bool.false_eq_true, if_false]
      refine ⟨by omega, by convert h2 using 2; omega, fun hh => ?_⟩
      have := h3 (by omega)
      convert this using 2; omega

/-- What the count of trailing zeros says. -/
theorem trailZeros_spec (x : DWord) (n i : Nat) (h : 2^i ∣ x.toNat) : trailZeros x n i ≤ n ∧ 2^(i + trailZeros x n i) ∣ x.toNat ∧ (trailZeros x n i < n → ¬ 2^(i + trailZeros x n i + 1) ∣ x.toNat) := by
  induction n generalizing i with
  | zero => simp [trailZeros, h]
  | succ n ih =>
    simp only [trailZeros]
    obtain ⟨q, hq⟩ := h
    have tb : x.getLsbD i = decide (q % 2 = 1) := by
      rw [BitVec.getLsbD, Nat.testBit_eq_decide_div_mod_eq, hq, Nat.mul_div_cancel_left _ (by positivity)]
    by_cases hb : q % 2 = 1
    · simp only [tb, hb, decide_true, if_true]
      refine ⟨by omega, ⟨q, by simpa using hq⟩, fun _ ⟨r, hr⟩ => ?_⟩
      rw [hq, Nat.add_zero, pow_succ, Nat.mul_assoc] at hr
      have := Nat.eq_of_mul_eq_mul_left (by positivity) hr
      omega
    · have : 2^(i+1) ∣ x.toNat := ⟨q/2, by rw [hq, pow_succ, Nat.mul_assoc]; congr 1; omega⟩
      obtain ⟨h1,h2,h3⟩ := ih (i+1) this
      simp only [tb, hb, decide_false, Bool.false_eq_true, if_false]
      refine ⟨by omega, by convert h2 using 2; omega, fun hh => ?_⟩
      have := h3 (by omega)
      convert this using 3; omega

/-- An immediate without a payload. -/
theorem immOf_none {n} (i : BitVec n) : immOf i none = BitVec.ofInt 64 i.toInt := by
  apply BitVec.eq_of_toInt_eq; simp [immOf, BitVec.signExtend]

/-- An immediate with a payload. -/
theorem immOf_some {n} (i : BitVec n) (x : BitVec 28) : immOf i (some x) = BitVec.ofInt 64 (x.toInt * 2 ^ n + i.toNat) := by
  have : (x ++ i).toInt = x.toInt * 2^n + i.toNat := by
    rw [BitVec.toInt_append]; split <;> simp_all [Int.mul_comm]
  simp [immOf, BitVec.signExtend, this]

/-- An immediate as an integer. -/
theorem immOf_eq {n} (i : BitVec n) (x : Option (BitVec 28)) : immOf i x = BitVec.ofInt 64 (match x with | none => i.toInt | some e => e.toInt * 2 ^ n + i.toNat) := by
  cases x <;> simp only [immOf_none, immOf_some]

end Sys2Proof.Machine
end

