-- ==== Sys2Proof/Laws/Bits.lean ====
section
/-!
SUPPORT. Fields of words built with ++, and the decoder of a well-formed instruction (R318, R323).
-/

namespace Sys2Proof

/-- A field that lies above the low part of an append. -/
theorem extract_append_hi {a b : Nat} (x : BitVec a) (y : BitVec b) (lo n : Nat) (h : b ≤ lo) :
    (x ++ y).extractLsb' lo n = x.extractLsb' (lo - b) n := by
  ext i hi
  simp only [BitVec.getElem_extractLsb', BitVec.getLsbD_append]
  rw [if_neg (by omega)]
  congr 1
  omega

/-- A field that lies within the low part of an append. -/
theorem extract_append_lo {a b : Nat} (x : BitVec a) (y : BitVec b) (lo n : Nat) (h : lo + n ≤ b) :
    (x ++ y).extractLsb' lo n = y.extractLsb' lo n := by
  ext i hi
  simp only [BitVec.getElem_extractLsb', BitVec.getLsbD_append]
  rw [if_pos (by omega)]

/-- The field that is a whole word. -/
theorem extract_all {b : Nat} (y : BitVec b) : y.extractLsb' 0 b = y := by simp

/-- A head whose fields are read as a well-formed instruction decodes to it. -/
theorem decodeInstr_of_head {w : BitVec 32} {x : Option (BitVec 28)} {i : Instr} (h : decodeHead w x = .ok i) (hw : i.wf = true) :
    decodeInstr w x = .ok i := by
  simp [decodeInstr, h, hw]

end Sys2Proof
end

