-- ==== Sys2Proof/Laws/Events.lean ====
section
/-!
SUPPORT. The terms of statements about events, and the tests by which the model takes them.
-/

namespace Sys2Proof.Machine

open Sys2Proof

/-- A packet that may make its next move is one that the network lets move. -/
theorem mayGo_iff_canMove (s : State) (f : Flight) : MayGo s f ↔ canMove s f = true := by
  unfold MayGo canMove
  rw [Bool.and_eq_true, Bool.or_eq_true, arrived, dueBy, Bool.and_eq_true, List.isEmpty_iff, decide_eq_true_eq, and_assoc]
  refine and_congr_right fun ht => and_congr Iff.rfl (or_congr Iff.rfl ?_)
  split
  · rename_i link h
    simp only [Bool.and_eq_true, Bool.not_eq_true', firstOnWire, h, Option.any_eq_true, beq_iff_eq]
  · split <;> simp_all [Option.isNone_iff_eq_none, mayLeave, arrived, dueBy]

/-- A packet wins arbitration when every other of its router that is after the same output either cannot move or comes later in the order of R52:
in the order of the packets, no earlier one stands in its way. -/
theorem wins_of_order {s : State} {f : Flight}
    (h : ∀ g ∈ (flightOrder s).takeWhile (fun g => g.id != f.id), sameOutput s g f = true → ¬ MayGo s g) : wins s f = true := by
  simp only [wins, List.all_eq_true, Bool.not_eq_true', Bool.and_eq_false_iff]
  intro g hg
  cases hs : sameOutput s g f with
  | false => exact Or.inl rfl
  | true =>
    refine Or.inr ?_
    have := h g hg hs
    rw [mayGo_iff_canMove] at this
    simpa using this

/-- A context of the partition on a core that owes a change of priority is one of those that change. -/
theorem mem_stalePri {s : State} {p k x : Nat} (hx : coreOf x = k) (ht : (getX s x).task = true) (hp : (getX s x).part.toNat = p)
    (h : (getX s x).pri ≠ partPri s p (getX s x).rset) : x ∈ stalePri s p k := by
  have hr : x ∈ tab 4 (fun i => 4 * k + i) := by
    have hk : x / 4 = k := hx
    have : x = 4 * k + x % 4 := by omega
    rw [this]
    have h4 : x % 4 < 4 := Nat.mod_lt _ (by omega)
    simp only [tab, List.mem_map, List.mem_range]
    exact ⟨x % 4, h4, rfl⟩
  simp [stalePri, tasksOn, hr, ht, hp, h]

end Sys2Proof.Machine
end

