-- ==== Sys2Proof/Laws/Memory.lean ====
section
/-!
SUPPORT. Memory and maps: a map read after it is set; the canonical form of memory, which every memory operation keeps (log
entry 3).
-/

namespace Sys2Proof

/-! ## Maps -/

@[simp] theorem mget_mset_same {α : Type} (d : α) (m : List (Nat × α)) (n : Nat) (v : α) : mget d (mset m n v) n = v := by
  induction m with
  | nil => simp [mset, mget]
  | cons p m ih =>
    obtain ⟨k, w⟩ := p
    simp only [mset]
    split
    · simp [mget]
    · split
      · simp [mget]
      · rename_i h _
        simp [mget, h, ih]

theorem mget_mset_ne {α : Type} (d : α) (m : List (Nat × α)) {n k : Nat} (v : α) (h : k ≠ n) : mget d (mset m n v) k = mget d m k := by
  induction m with
  | nil => simp [mset, mget, h]
  | cons p m ih =>
    obtain ⟨j, w⟩ := p
    simp only [mset]
    split
    · rename_i e
      subst e
      simp [mget, h]
    · split
      · simp [mget, h]
      · simp [mget, ih]

/-- A map read after it is set. -/
theorem mget_mset {α : Type} (d : α) (m : List (Nat × α)) (n k : Nat) (v : α) :
    mget d (mset m n v) k = if k = n then v else mget d m k := by
  by_cases h : k = n
  · simp [h]
  · simp [h, mget_mset_ne]

namespace Machine

/-! ## The canonical form of memory -/

/-- The canonical form said by pairs: addresses rise, and no entry is the default. -/
theorem memWf_iff (m : List Host.Cell) :
    memWf m = true ↔ m.Pairwise (fun c d => c.1 < d.1) ∧ ∀ c ∈ m, c.2 ≠ memDefault := by
  induction m with
  | nil => simp [memWf]
  | cons c m ih =>
    obtain ⟨a, b⟩ := c
    cases m with
    | nil => simp [memWf]
    | cons d l =>
      obtain ⟨e, f⟩ := d
      simp only [memWf, Bool.and_eq_true, decide_eq_true_eq, bne_iff_ne, ih, List.pairwise_cons, List.mem_cons]
      constructor
      · rintro ⟨⟨h1, h2⟩, ⟨h3, h4⟩, h5⟩
        refine ⟨⟨?_, h3, h4⟩, ?_⟩
        · rintro x (rfl | hx)
          · exact h1
          · exact Nat.lt_trans h1 (h3 x hx)
        · rintro x (rfl | hx)
          · exact h2
          · exact h5 x hx
      · rintro ⟨⟨h1, h3, h4⟩, h5⟩
        exact ⟨⟨h1 _ (Or.inl rfl), h5 _ (Or.inl rfl)⟩, ⟨h3, h4⟩, fun x hx => h5 x (Or.inr hx)⟩

theorem memCells_mem {a : Nat} {l : List Byte} {c : Host.Cell} (h : c ∈ memCells a l) :
    a ≤ c.1 ∧ c.1 < a + l.length ∧ c.2 ≠ memDefault := by
  induction l generalizing a with
  | nil => simp [memCells] at h
  | cons b l ih =>
    simp only [memCells] at h
    split at h
    · obtain ⟨h1, h2, h3⟩ := ih h
      refine ⟨by omega, ?_, h3⟩
      simp only [List.length_cons]
      omega
    · rename_i hb
      rcases List.mem_cons.mp h with rfl | h
      · exact ⟨Nat.le_refl _, by simp, hb⟩
      · obtain ⟨h1, h2, h3⟩ := ih h
        refine ⟨by omega, ?_, h3⟩
        simp only [List.length_cons]
        omega

theorem memCells_pairwise (a : Nat) (l : List Byte) : (memCells a l).Pairwise (fun c d => c.1 < d.1) := by
  induction l generalizing a with
  | nil => simp [memCells]
  | cons b l ih =>
    simp only [memCells]
    split
    · exact ih _
    · exact List.pairwise_cons.mpr ⟨fun c hc => Nat.lt_of_lt_of_le (Nat.lt_succ_self a) (memCells_mem hc).1, ih _⟩

/-- What the front part of memory holds lies below its bound. -/
theorem mem_takeWhile_lt {m : List Host.Cell} {n : Nat} {c : Host.Cell}
    (h : c ∈ m.takeWhile (fun c => decide (c.1 < n))) : c ∈ m ∧ c.1 < n := by
  induction m with
  | nil => simp at h
  | cons d m ih =>
    simp only [List.takeWhile_cons] at h
    split at h
    · rename_i hd
      rcases List.mem_cons.mp h with rfl | h
      · exact ⟨List.mem_cons_self, by simpa using hd⟩
      · exact ⟨List.mem_cons_of_mem _ (ih h).1, (ih h).2⟩
    · simp at h

/-- What the back part of a rising memory holds does not lie below its bound. -/
theorem mem_dropWhile_ge {m : List Host.Cell} {n : Nat} {c : Host.Cell} (hm : m.Pairwise (fun c d => c.1 < d.1))
    (h : c ∈ m.dropWhile (fun c => decide (c.1 < n))) : c ∈ m ∧ n ≤ c.1 := by
  induction m with
  | nil => simp at h
  | cons d m ih =>
    simp only [List.dropWhile_cons] at h
    have hp := List.pairwise_cons.mp hm
    split at h
    · exact ⟨List.mem_cons_of_mem _ (ih hp.2 h).1, (ih hp.2 h).2⟩
    · rename_i hd
      have hn : n ≤ d.1 := by simpa using hd
      rcases List.mem_cons.mp h with rfl | h
      · exact ⟨List.mem_cons_self, hn⟩
      · exact ⟨List.mem_cons_of_mem _ h, Nat.le_trans hn (Nat.le_of_lt (hp.1 c h))⟩

/-- A write keeps the canonical form. -/
theorem memWf_memWrite {m : List Host.Cell} (h : memWf m = true) (a : Nat) (l : List Byte) : memWf (memWrite m a l) = true := by
  rw [memWf_iff] at h ⊢
  obtain ⟨hs, hd⟩ := h
  refine ⟨?_, ?_⟩
  · simp only [memWrite, List.append_assoc]
    refine List.pairwise_append.mpr ⟨List.Pairwise.sublist (List.takeWhile_sublist _) hs, ?_, ?_⟩
    · refine List.pairwise_append.mpr ⟨memCells_pairwise a l, List.Pairwise.sublist (List.dropWhile_sublist _) hs, ?_⟩
      intro c hc d hd'
      have h1 := memCells_mem hc
      have h2 := mem_dropWhile_ge hs hd'
      omega
    · intro c hc d hd'
      have h1 := mem_takeWhile_lt hc
      rcases List.mem_append.mp hd' with hd' | hd'
      · have h2 := memCells_mem hd'
        omega
      · have h2 := mem_dropWhile_ge hs hd'
        omega
  · intro c hc
    simp only [memWrite, List.mem_append] at hc
    rcases hc with (hc | hc) | hc
    · exact hd c (mem_takeWhile_lt hc).1
    · exact (memCells_mem hc).2.2
    · exact hd c (mem_dropWhile_ge hs hc).1

theorem bumpVer_mem (s : State) (n : Nat) : (bumpVer s n).mem = s.mem := by
  unfold bumpVer
  split <;> rfl

theorem foldl_bumpVer_mem (l : List Nat) (s : State) : (l.foldl bumpVer s).mem = s.mem := by
  induction l generalizing s with
  | nil => rfl
  | cons n l ih => simp [ih, bumpVer_mem]

/-- A write at a home changes memory by `memWrite` alone. -/
theorem homeWrite_mem (s : State) (pa : Nat) (l : List Byte) (bad : Bool) : (homeWrite s pa l bad).mem = memWrite s.mem pa l := by
  simp [homeWrite, foldl_bumpVer_mem]

/-- A write at a home keeps the canonical form. -/
theorem memWf_homeWrite {s : State} (h : memWf s.mem = true) (pa : Nat) (l : List Byte) (bad : Bool) :
    memWf (homeWrite s pa l bad).mem = true := by
  rw [homeWrite_mem]
  exact memWf_memWrite h pa l

theorem reset_memWf : memWf State.reset.mem = true := rfl

end Machine
end Sys2Proof
end

