-- ==== Sys2Proof/Laws/State.lean ====
section
/-!
SUPPORT. The fields of the state after each update: what an update of one context, core, partition or register leaves alone, and
what it sets.
-/

namespace Sys2Proof.Machine

open Sys2Proof

/-! ## `setX` -/

@[simp] theorem setX_boot (s : State) (x : Nat) (c : Ctx) : (setX s x c).boot = s.boot := rfl
@[simp] theorem setX_mgmt (s : State) (x : Nat) (c : Ctx) : (setX s x c).mgmt = s.mgmt := rfl
@[simp] theorem setX_running (s : State) (x : Nat) (c : Ctx) : (setX s x c).running = s.running := rfl
@[simp] theorem setX_cicada (s : State) (x : Nat) (c : Ctx) : (setX s x c).cicada = s.cicada := rfl
@[simp] theorem setX_sub (s : State) (x : Nat) (c : Ctx) : (setX s x c).sub = s.sub := rfl
@[simp] theorem setX_cyc (s : State) (x : Nat) (c : Ctx) : (setX s x c).cyc = s.cyc := rfl
@[simp] theorem setX_agenda (s : State) (x : Nat) (c : Ctx) : (setX s x c).agenda = s.agenda := rfl
@[simp] theorem setX_arg (s : State) (x : Nat) (c : Ctx) : (setX s x c).arg = s.arg := rfl
@[simp] theorem setX_timers (s : State) (x : Nat) (c : Ctx) : (setX s x c).timers = s.timers := rfl
@[simp] theorem setX_cur (s : State) (x : Nat) (c : Ctx) : (setX s x c).cur = s.cur := rfl
@[simp] theorem setX_todo (s : State) (x : Nat) (c : Ctx) : (setX s x c).todo = s.todo := rfl
@[simp] theorem setX_free (s : State) (x : Nat) (c : Ctx) : (setX s x c).free = s.free := rfl
@[simp] theorem setX_mg (s : State) (x : Nat) (c : Ctx) : (setX s x c).mg = s.mg := rfl
@[simp] theorem setX_mem (s : State) (x : Nat) (c : Ctx) : (setX s x c).mem = s.mem := rfl
@[simp] theorem setX_ver (s : State) (x : Nat) (c : Ctx) : (setX s x c).ver = s.ver := rfl
@[simp] theorem setX_poison (s : State) (x : Nat) (c : Ctx) : (setX s x c).poison = s.poison := rfl
@[simp] theorem setX_cores (s : State) (x : Nat) (c : Ctx) : (setX s x c).cores = s.cores := rfl
@[simp] theorem setX_net (s : State) (x : Nat) (c : Ctx) : (setX s x c).net = s.net := rfl
@[simp] theorem setX_nextId (s : State) (x : Nat) (c : Ctx) : (setX s x c).nextId = s.nextId := rfl
@[simp] theorem setX_links (s : State) (x : Nat) (c : Ctx) : (setX s x c).links = s.links := rfl
@[simp] theorem setX_sendSeq (s : State) (x : Nat) (c : Ctx) : (setX s x c).sendSeq = s.sendSeq := rfl
@[simp] theorem setX_recvs (s : State) (x : Nat) (c : Ctx) : (setX s x c).recvs = s.recvs := rfl
@[simp] theorem setX_rx (s : State) (x : Nat) (c : Ctx) : (setX s x c).rx = s.rx := rfl
@[simp] theorem setX_merges (s : State) (x : Nat) (c : Ctx) : (setX s x c).merges = s.merges := rfl
@[simp] theorem setX_sluices (s : State) (x : Nat) (c : Ctx) : (setX s x c).sluices = s.sluices := rfl
@[simp] theorem setX_rdc (s : State) (x : Nat) (c : Ctx) : (setX s x c).rdc = s.rdc := rfl
@[simp] theorem setX_slices (s : State) (x : Nat) (c : Ctx) : (setX s x c).slices = s.slices := rfl
@[simp] theorem setX_lanes (s : State) (x : Nat) (c : Ctx) : (setX s x c).lanes = s.lanes := rfl
@[simp] theorem setX_calendar (s : State) (x : Nat) (c : Ctx) : (setX s x c).calendar = s.calendar := rfl
@[simp] theorem setX_ponds (s : State) (x : Nat) (c : Ctx) : (setX s x c).ponds = s.ponds := rfl
@[simp] theorem setX_grains (s : State) (x : Nat) (c : Ctx) : (setX s x c).grains = s.grains := rfl
@[simp] theorem setX_circuits (s : State) (x : Nat) (c : Ctx) : (setX s x c).circuits = s.circuits := rfl
@[simp] theorem setX_promos (s : State) (x : Nat) (c : Ctx) : (setX s x c).promos = s.promos := rfl
@[simp] theorem setX_probes (s : State) (x : Nat) (c : Ctx) : (setX s x c).probes = s.probes := rfl
@[simp] theorem setX_recs (s : State) (x : Nat) (c : Ctx) : (setX s x c).recs = s.recs := rfl
@[simp] theorem setX_walks (s : State) (x : Nat) (c : Ctx) : (setX s x c).walks = s.walks := rfl
@[simp] theorem setX_gangs (s : State) (x : Nat) (c : Ctx) : (setX s x c).gangs = s.gangs := rfl
@[simp] theorem setX_parts (s : State) (x : Nat) (c : Ctx) : (setX s x c).parts = s.parts := rfl
@[simp] theorem setX_invals (s : State) (x : Nat) (c : Ctx) : (setX s x c).invals = s.invals := rfl
@[simp] theorem setX_plcs (s : State) (x : Nat) (c : Ctx) : (setX s x c).plcs = s.plcs := rfl
@[simp] theorem setX_moves (s : State) (x : Nat) (c : Ctx) : (setX s x c).moves = s.moves := rfl
@[simp] theorem setX_ecc (s : State) (x : Nat) (c : Ctx) : (setX s x c).ecc = s.ecc := rfl
@[simp] theorem setX_rma (s : State) (x : Nat) (c : Ctx) : (setX s x c).rma = s.rma := rfl
@[simp] theorem setX_podSend (s : State) (x : Nat) (c : Ctx) : (setX s x c).podSend = s.podSend := rfl
@[simp] theorem setX_podRecv (s : State) (x : Nat) (c : Ctx) : (setX s x c).podRecv = s.podRecv := rfl
@[simp] theorem setX_podPorts (s : State) (x : Nat) (c : Ctx) : (setX s x c).podPorts = s.podPorts := rfl
@[simp] theorem setX_podOut (s : State) (x : Nat) (c : Ctx) : (setX s x c).podOut = s.podOut := rfl
@[simp] theorem setX_admitted (s : State) (x : Nat) (c : Ctx) : (setX s x c).admitted = s.admitted := rfl
@[simp] theorem setX_flushes (s : State) (x : Nat) (c : Ctx) : (setX s x c).flushes = s.flushes := rfl
@[simp] theorem setX_viol (s : State) (x : Nat) (c : Ctx) : (setX s x c).viol = s.viol := rfl
@[simp] theorem setX_reqs (s : State) (x : Nat) (c : Ctx) : (setX s x c).reqs = s.reqs := rfl
@[simp] theorem setX_bbx (s : State) (x : Nat) (c : Ctx) : (setX s x c).bbx = s.bbx := rfl
@[simp] theorem setX_badBbx (s : State) (x : Nat) (c : Ctx) : (setX s x c).badBbx = s.badBbx := rfl
@[simp] theorem setX_side (s : State) (x : Nat) (c : Ctx) : (setX s x c).side = s.side := rfl
@[simp] theorem setX_hostOut (s : State) (x : Nat) (c : Ctx) : (setX s x c).hostOut = s.hostOut := rfl

/-! ## `modX` -/

@[simp] theorem modX_boot (s : State) (x : Nat) (f : Ctx → Ctx) : (modX s x f).boot = s.boot := rfl
@[simp] theorem modX_mgmt (s : State) (x : Nat) (f : Ctx → Ctx) : (modX s x f).mgmt = s.mgmt := rfl
@[simp] theorem modX_running (s : State) (x : Nat) (f : Ctx → Ctx) : (modX s x f).running = s.running := rfl
@[simp] theorem modX_cicada (s : State) (x : Nat) (f : Ctx → Ctx) : (modX s x f).cicada = s.cicada := rfl
@[simp] theorem modX_sub (s : State) (x : Nat) (f : Ctx → Ctx) : (modX s x f).sub = s.sub := rfl
@[simp] theorem modX_cyc (s : State) (x : Nat) (f : Ctx → Ctx) : (modX s x f).cyc = s.cyc := rfl
@[simp] theorem modX_agenda (s : State) (x : Nat) (f : Ctx → Ctx) : (modX s x f).agenda = s.agenda := rfl
@[simp] theorem modX_arg (s : State) (x : Nat) (f : Ctx → Ctx) : (modX s x f).arg = s.arg := rfl
@[simp] theorem modX_timers (s : State) (x : Nat) (f : Ctx → Ctx) : (modX s x f).timers = s.timers := rfl
@[simp] theorem modX_cur (s : State) (x : Nat) (f : Ctx → Ctx) : (modX s x f).cur = s.cur := rfl
@[simp] theorem modX_todo (s : State) (x : Nat) (f : Ctx → Ctx) : (modX s x f).todo = s.todo := rfl
@[simp] theorem modX_free (s : State) (x : Nat) (f : Ctx → Ctx) : (modX s x f).free = s.free := rfl
@[simp] theorem modX_mg (s : State) (x : Nat) (f : Ctx → Ctx) : (modX s x f).mg = s.mg := rfl
@[simp] theorem modX_mem (s : State) (x : Nat) (f : Ctx → Ctx) : (modX s x f).mem = s.mem := rfl
@[simp] theorem modX_ver (s : State) (x : Nat) (f : Ctx → Ctx) : (modX s x f).ver = s.ver := rfl
@[simp] theorem modX_poison (s : State) (x : Nat) (f : Ctx → Ctx) : (modX s x f).poison = s.poison := rfl
@[simp] theorem modX_cores (s : State) (x : Nat) (f : Ctx → Ctx) : (modX s x f).cores = s.cores := rfl
@[simp] theorem modX_net (s : State) (x : Nat) (f : Ctx → Ctx) : (modX s x f).net = s.net := rfl
@[simp] theorem modX_nextId (s : State) (x : Nat) (f : Ctx → Ctx) : (modX s x f).nextId = s.nextId := rfl
@[simp] theorem modX_links (s : State) (x : Nat) (f : Ctx → Ctx) : (modX s x f).links = s.links := rfl
@[simp] theorem modX_sendSeq (s : State) (x : Nat) (f : Ctx → Ctx) : (modX s x f).sendSeq = s.sendSeq := rfl
@[simp] theorem modX_recvs (s : State) (x : Nat) (f : Ctx → Ctx) : (modX s x f).recvs = s.recvs := rfl
@[simp] theorem modX_rx (s : State) (x : Nat) (f : Ctx → Ctx) : (modX s x f).rx = s.rx := rfl
@[simp] theorem modX_merges (s : State) (x : Nat) (f : Ctx → Ctx) : (modX s x f).merges = s.merges := rfl
@[simp] theorem modX_sluices (s : State) (x : Nat) (f : Ctx → Ctx) : (modX s x f).sluices = s.sluices := rfl
@[simp] theorem modX_rdc (s : State) (x : Nat) (f : Ctx → Ctx) : (modX s x f).rdc = s.rdc := rfl
@[simp] theorem modX_slices (s : State) (x : Nat) (f : Ctx → Ctx) : (modX s x f).slices = s.slices := rfl
@[simp] theorem modX_lanes (s : State) (x : Nat) (f : Ctx → Ctx) : (modX s x f).lanes = s.lanes := rfl
@[simp] theorem modX_calendar (s : State) (x : Nat) (f : Ctx → Ctx) : (modX s x f).calendar = s.calendar := rfl
@[simp] theorem modX_ponds (s : State) (x : Nat) (f : Ctx → Ctx) : (modX s x f).ponds = s.ponds := rfl
@[simp] theorem modX_grains (s : State) (x : Nat) (f : Ctx → Ctx) : (modX s x f).grains = s.grains := rfl
@[simp] theorem modX_circuits (s : State) (x : Nat) (f : Ctx → Ctx) : (modX s x f).circuits = s.circuits := rfl
@[simp] theorem modX_promos (s : State) (x : Nat) (f : Ctx → Ctx) : (modX s x f).promos = s.promos := rfl
@[simp] theorem modX_probes (s : State) (x : Nat) (f : Ctx → Ctx) : (modX s x f).probes = s.probes := rfl
@[simp] theorem modX_recs (s : State) (x : Nat) (f : Ctx → Ctx) : (modX s x f).recs = s.recs := rfl
@[simp] theorem modX_walks (s : State) (x : Nat) (f : Ctx → Ctx) : (modX s x f).walks = s.walks := rfl
@[simp] theorem modX_gangs (s : State) (x : Nat) (f : Ctx → Ctx) : (modX s x f).gangs = s.gangs := rfl
@[simp] theorem modX_parts (s : State) (x : Nat) (f : Ctx → Ctx) : (modX s x f).parts = s.parts := rfl
@[simp] theorem modX_invals (s : State) (x : Nat) (f : Ctx → Ctx) : (modX s x f).invals = s.invals := rfl
@[simp] theorem modX_plcs (s : State) (x : Nat) (f : Ctx → Ctx) : (modX s x f).plcs = s.plcs := rfl
@[simp] theorem modX_moves (s : State) (x : Nat) (f : Ctx → Ctx) : (modX s x f).moves = s.moves := rfl
@[simp] theorem modX_ecc (s : State) (x : Nat) (f : Ctx → Ctx) : (modX s x f).ecc = s.ecc := rfl
@[simp] theorem modX_rma (s : State) (x : Nat) (f : Ctx → Ctx) : (modX s x f).rma = s.rma := rfl
@[simp] theorem modX_podSend (s : State) (x : Nat) (f : Ctx → Ctx) : (modX s x f).podSend = s.podSend := rfl
@[simp] theorem modX_podRecv (s : State) (x : Nat) (f : Ctx → Ctx) : (modX s x f).podRecv = s.podRecv := rfl
@[simp] theorem modX_podPorts (s : State) (x : Nat) (f : Ctx → Ctx) : (modX s x f).podPorts = s.podPorts := rfl
@[simp] theorem modX_podOut (s : State) (x : Nat) (f : Ctx → Ctx) : (modX s x f).podOut = s.podOut := rfl
@[simp] theorem modX_admitted (s : State) (x : Nat) (f : Ctx → Ctx) : (modX s x f).admitted = s.admitted := rfl
@[simp] theorem modX_flushes (s : State) (x : Nat) (f : Ctx → Ctx) : (modX s x f).flushes = s.flushes := rfl
@[simp] theorem modX_viol (s : State) (x : Nat) (f : Ctx → Ctx) : (modX s x f).viol = s.viol := rfl
@[simp] theorem modX_reqs (s : State) (x : Nat) (f : Ctx → Ctx) : (modX s x f).reqs = s.reqs := rfl
@[simp] theorem modX_bbx (s : State) (x : Nat) (f : Ctx → Ctx) : (modX s x f).bbx = s.bbx := rfl
@[simp] theorem modX_badBbx (s : State) (x : Nat) (f : Ctx → Ctx) : (modX s x f).badBbx = s.badBbx := rfl
@[simp] theorem modX_side (s : State) (x : Nat) (f : Ctx → Ctx) : (modX s x f).side = s.side := rfl
@[simp] theorem modX_hostOut (s : State) (x : Nat) (f : Ctx → Ctx) : (modX s x f).hostOut = s.hostOut := rfl

/-! ## `setC` -/

@[simp] theorem setC_boot (s : State) (k : Nat) (c : Core) : (setC s k c).boot = s.boot := rfl
@[simp] theorem setC_mgmt (s : State) (k : Nat) (c : Core) : (setC s k c).mgmt = s.mgmt := rfl
@[simp] theorem setC_running (s : State) (k : Nat) (c : Core) : (setC s k c).running = s.running := rfl
@[simp] theorem setC_cicada (s : State) (k : Nat) (c : Core) : (setC s k c).cicada = s.cicada := rfl
@[simp] theorem setC_sub (s : State) (k : Nat) (c : Core) : (setC s k c).sub = s.sub := rfl
@[simp] theorem setC_cyc (s : State) (k : Nat) (c : Core) : (setC s k c).cyc = s.cyc := rfl
@[simp] theorem setC_agenda (s : State) (k : Nat) (c : Core) : (setC s k c).agenda = s.agenda := rfl
@[simp] theorem setC_arg (s : State) (k : Nat) (c : Core) : (setC s k c).arg = s.arg := rfl
@[simp] theorem setC_timers (s : State) (k : Nat) (c : Core) : (setC s k c).timers = s.timers := rfl
@[simp] theorem setC_cur (s : State) (k : Nat) (c : Core) : (setC s k c).cur = s.cur := rfl
@[simp] theorem setC_todo (s : State) (k : Nat) (c : Core) : (setC s k c).todo = s.todo := rfl
@[simp] theorem setC_free (s : State) (k : Nat) (c : Core) : (setC s k c).free = s.free := rfl
@[simp] theorem setC_mg (s : State) (k : Nat) (c : Core) : (setC s k c).mg = s.mg := rfl
@[simp] theorem setC_mem (s : State) (k : Nat) (c : Core) : (setC s k c).mem = s.mem := rfl
@[simp] theorem setC_ver (s : State) (k : Nat) (c : Core) : (setC s k c).ver = s.ver := rfl
@[simp] theorem setC_poison (s : State) (k : Nat) (c : Core) : (setC s k c).poison = s.poison := rfl
@[simp] theorem setC_ctxs (s : State) (k : Nat) (c : Core) : (setC s k c).ctxs = s.ctxs := rfl
@[simp] theorem setC_net (s : State) (k : Nat) (c : Core) : (setC s k c).net = s.net := rfl
@[simp] theorem setC_nextId (s : State) (k : Nat) (c : Core) : (setC s k c).nextId = s.nextId := rfl
@[simp] theorem setC_links (s : State) (k : Nat) (c : Core) : (setC s k c).links = s.links := rfl
@[simp] theorem setC_sendSeq (s : State) (k : Nat) (c : Core) : (setC s k c).sendSeq = s.sendSeq := rfl
@[simp] theorem setC_recvs (s : State) (k : Nat) (c : Core) : (setC s k c).recvs = s.recvs := rfl
@[simp] theorem setC_rx (s : State) (k : Nat) (c : Core) : (setC s k c).rx = s.rx := rfl
@[simp] theorem setC_merges (s : State) (k : Nat) (c : Core) : (setC s k c).merges = s.merges := rfl
@[simp] theorem setC_sluices (s : State) (k : Nat) (c : Core) : (setC s k c).sluices = s.sluices := rfl
@[simp] theorem setC_rdc (s : State) (k : Nat) (c : Core) : (setC s k c).rdc = s.rdc := rfl
@[simp] theorem setC_slices (s : State) (k : Nat) (c : Core) : (setC s k c).slices = s.slices := rfl
@[simp] theorem setC_lanes (s : State) (k : Nat) (c : Core) : (setC s k c).lanes = s.lanes := rfl
@[simp] theorem setC_calendar (s : State) (k : Nat) (c : Core) : (setC s k c).calendar = s.calendar := rfl
@[simp] theorem setC_ponds (s : State) (k : Nat) (c : Core) : (setC s k c).ponds = s.ponds := rfl
@[simp] theorem setC_grains (s : State) (k : Nat) (c : Core) : (setC s k c).grains = s.grains := rfl
@[simp] theorem setC_circuits (s : State) (k : Nat) (c : Core) : (setC s k c).circuits = s.circuits := rfl
@[simp] theorem setC_promos (s : State) (k : Nat) (c : Core) : (setC s k c).promos = s.promos := rfl
@[simp] theorem setC_probes (s : State) (k : Nat) (c : Core) : (setC s k c).probes = s.probes := rfl
@[simp] theorem setC_recs (s : State) (k : Nat) (c : Core) : (setC s k c).recs = s.recs := rfl
@[simp] theorem setC_walks (s : State) (k : Nat) (c : Core) : (setC s k c).walks = s.walks := rfl
@[simp] theorem setC_gangs (s : State) (k : Nat) (c : Core) : (setC s k c).gangs = s.gangs := rfl
@[simp] theorem setC_parts (s : State) (k : Nat) (c : Core) : (setC s k c).parts = s.parts := rfl
@[simp] theorem setC_invals (s : State) (k : Nat) (c : Core) : (setC s k c).invals = s.invals := rfl
@[simp] theorem setC_plcs (s : State) (k : Nat) (c : Core) : (setC s k c).plcs = s.plcs := rfl
@[simp] theorem setC_moves (s : State) (k : Nat) (c : Core) : (setC s k c).moves = s.moves := rfl
@[simp] theorem setC_ecc (s : State) (k : Nat) (c : Core) : (setC s k c).ecc = s.ecc := rfl
@[simp] theorem setC_rma (s : State) (k : Nat) (c : Core) : (setC s k c).rma = s.rma := rfl
@[simp] theorem setC_podSend (s : State) (k : Nat) (c : Core) : (setC s k c).podSend = s.podSend := rfl
@[simp] theorem setC_podRecv (s : State) (k : Nat) (c : Core) : (setC s k c).podRecv = s.podRecv := rfl
@[simp] theorem setC_podPorts (s : State) (k : Nat) (c : Core) : (setC s k c).podPorts = s.podPorts := rfl
@[simp] theorem setC_podOut (s : State) (k : Nat) (c : Core) : (setC s k c).podOut = s.podOut := rfl
@[simp] theorem setC_admitted (s : State) (k : Nat) (c : Core) : (setC s k c).admitted = s.admitted := rfl
@[simp] theorem setC_flushes (s : State) (k : Nat) (c : Core) : (setC s k c).flushes = s.flushes := rfl
@[simp] theorem setC_viol (s : State) (k : Nat) (c : Core) : (setC s k c).viol = s.viol := rfl
@[simp] theorem setC_reqs (s : State) (k : Nat) (c : Core) : (setC s k c).reqs = s.reqs := rfl
@[simp] theorem setC_bbx (s : State) (k : Nat) (c : Core) : (setC s k c).bbx = s.bbx := rfl
@[simp] theorem setC_badBbx (s : State) (k : Nat) (c : Core) : (setC s k c).badBbx = s.badBbx := rfl
@[simp] theorem setC_side (s : State) (k : Nat) (c : Core) : (setC s k c).side = s.side := rfl
@[simp] theorem setC_hostOut (s : State) (k : Nat) (c : Core) : (setC s k c).hostOut = s.hostOut := rfl

/-! ## `modC` -/

@[simp] theorem modC_boot (s : State) (k : Nat) (f : Core → Core) : (modC s k f).boot = s.boot := rfl
@[simp] theorem modC_mgmt (s : State) (k : Nat) (f : Core → Core) : (modC s k f).mgmt = s.mgmt := rfl
@[simp] theorem modC_running (s : State) (k : Nat) (f : Core → Core) : (modC s k f).running = s.running := rfl
@[simp] theorem modC_cicada (s : State) (k : Nat) (f : Core → Core) : (modC s k f).cicada = s.cicada := rfl
@[simp] theorem modC_sub (s : State) (k : Nat) (f : Core → Core) : (modC s k f).sub = s.sub := rfl
@[simp] theorem modC_cyc (s : State) (k : Nat) (f : Core → Core) : (modC s k f).cyc = s.cyc := rfl
@[simp] theorem modC_agenda (s : State) (k : Nat) (f : Core → Core) : (modC s k f).agenda = s.agenda := rfl
@[simp] theorem modC_arg (s : State) (k : Nat) (f : Core → Core) : (modC s k f).arg = s.arg := rfl
@[simp] theorem modC_timers (s : State) (k : Nat) (f : Core → Core) : (modC s k f).timers = s.timers := rfl
@[simp] theorem modC_cur (s : State) (k : Nat) (f : Core → Core) : (modC s k f).cur = s.cur := rfl
@[simp] theorem modC_todo (s : State) (k : Nat) (f : Core → Core) : (modC s k f).todo = s.todo := rfl
@[simp] theorem modC_free (s : State) (k : Nat) (f : Core → Core) : (modC s k f).free = s.free := rfl
@[simp] theorem modC_mg (s : State) (k : Nat) (f : Core → Core) : (modC s k f).mg = s.mg := rfl
@[simp] theorem modC_mem (s : State) (k : Nat) (f : Core → Core) : (modC s k f).mem = s.mem := rfl
@[simp] theorem modC_ver (s : State) (k : Nat) (f : Core → Core) : (modC s k f).ver = s.ver := rfl
@[simp] theorem modC_poison (s : State) (k : Nat) (f : Core → Core) : (modC s k f).poison = s.poison := rfl
@[simp] theorem modC_ctxs (s : State) (k : Nat) (f : Core → Core) : (modC s k f).ctxs = s.ctxs := rfl
@[simp] theorem modC_net (s : State) (k : Nat) (f : Core → Core) : (modC s k f).net = s.net := rfl
@[simp] theorem modC_nextId (s : State) (k : Nat) (f : Core → Core) : (modC s k f).nextId = s.nextId := rfl
@[simp] theorem modC_links (s : State) (k : Nat) (f : Core → Core) : (modC s k f).links = s.links := rfl
@[simp] theorem modC_sendSeq (s : State) (k : Nat) (f : Core → Core) : (modC s k f).sendSeq = s.sendSeq := rfl
@[simp] theorem modC_recvs (s : State) (k : Nat) (f : Core → Core) : (modC s k f).recvs = s.recvs := rfl
@[simp] theorem modC_rx (s : State) (k : Nat) (f : Core → Core) : (modC s k f).rx = s.rx := rfl
@[simp] theorem modC_merges (s : State) (k : Nat) (f : Core → Core) : (modC s k f).merges = s.merges := rfl
@[simp] theorem modC_sluices (s : State) (k : Nat) (f : Core → Core) : (modC s k f).sluices = s.sluices := rfl
@[simp] theorem modC_rdc (s : State) (k : Nat) (f : Core → Core) : (modC s k f).rdc = s.rdc := rfl
@[simp] theorem modC_slices (s : State) (k : Nat) (f : Core → Core) : (modC s k f).slices = s.slices := rfl
@[simp] theorem modC_lanes (s : State) (k : Nat) (f : Core → Core) : (modC s k f).lanes = s.lanes := rfl
@[simp] theorem modC_calendar (s : State) (k : Nat) (f : Core → Core) : (modC s k f).calendar = s.calendar := rfl
@[simp] theorem modC_ponds (s : State) (k : Nat) (f : Core → Core) : (modC s k f).ponds = s.ponds := rfl
@[simp] theorem modC_grains (s : State) (k : Nat) (f : Core → Core) : (modC s k f).grains = s.grains := rfl
@[simp] theorem modC_circuits (s : State) (k : Nat) (f : Core → Core) : (modC s k f).circuits = s.circuits := rfl
@[simp] theorem modC_promos (s : State) (k : Nat) (f : Core → Core) : (modC s k f).promos = s.promos := rfl
@[simp] theorem modC_probes (s : State) (k : Nat) (f : Core → Core) : (modC s k f).probes = s.probes := rfl
@[simp] theorem modC_recs (s : State) (k : Nat) (f : Core → Core) : (modC s k f).recs = s.recs := rfl
@[simp] theorem modC_walks (s : State) (k : Nat) (f : Core → Core) : (modC s k f).walks = s.walks := rfl
@[simp] theorem modC_gangs (s : State) (k : Nat) (f : Core → Core) : (modC s k f).gangs = s.gangs := rfl
@[simp] theorem modC_parts (s : State) (k : Nat) (f : Core → Core) : (modC s k f).parts = s.parts := rfl
@[simp] theorem modC_invals (s : State) (k : Nat) (f : Core → Core) : (modC s k f).invals = s.invals := rfl
@[simp] theorem modC_plcs (s : State) (k : Nat) (f : Core → Core) : (modC s k f).plcs = s.plcs := rfl
@[simp] theorem modC_moves (s : State) (k : Nat) (f : Core → Core) : (modC s k f).moves = s.moves := rfl
@[simp] theorem modC_ecc (s : State) (k : Nat) (f : Core → Core) : (modC s k f).ecc = s.ecc := rfl
@[simp] theorem modC_rma (s : State) (k : Nat) (f : Core → Core) : (modC s k f).rma = s.rma := rfl
@[simp] theorem modC_podSend (s : State) (k : Nat) (f : Core → Core) : (modC s k f).podSend = s.podSend := rfl
@[simp] theorem modC_podRecv (s : State) (k : Nat) (f : Core → Core) : (modC s k f).podRecv = s.podRecv := rfl
@[simp] theorem modC_podPorts (s : State) (k : Nat) (f : Core → Core) : (modC s k f).podPorts = s.podPorts := rfl
@[simp] theorem modC_podOut (s : State) (k : Nat) (f : Core → Core) : (modC s k f).podOut = s.podOut := rfl
@[simp] theorem modC_admitted (s : State) (k : Nat) (f : Core → Core) : (modC s k f).admitted = s.admitted := rfl
@[simp] theorem modC_flushes (s : State) (k : Nat) (f : Core → Core) : (modC s k f).flushes = s.flushes := rfl
@[simp] theorem modC_viol (s : State) (k : Nat) (f : Core → Core) : (modC s k f).viol = s.viol := rfl
@[simp] theorem modC_reqs (s : State) (k : Nat) (f : Core → Core) : (modC s k f).reqs = s.reqs := rfl
@[simp] theorem modC_bbx (s : State) (k : Nat) (f : Core → Core) : (modC s k f).bbx = s.bbx := rfl
@[simp] theorem modC_badBbx (s : State) (k : Nat) (f : Core → Core) : (modC s k f).badBbx = s.badBbx := rfl
@[simp] theorem modC_side (s : State) (k : Nat) (f : Core → Core) : (modC s k f).side = s.side := rfl
@[simp] theorem modC_hostOut (s : State) (k : Nat) (f : Core → Core) : (modC s k f).hostOut = s.hostOut := rfl

/-! ## `setTs` -/

@[simp] theorem setTs_boot (s : State) (x : Nat) (t : TileStore) : (setTs s x t).boot = s.boot := rfl
@[simp] theorem setTs_mgmt (s : State) (x : Nat) (t : TileStore) : (setTs s x t).mgmt = s.mgmt := rfl
@[simp] theorem setTs_running (s : State) (x : Nat) (t : TileStore) : (setTs s x t).running = s.running := rfl
@[simp] theorem setTs_cicada (s : State) (x : Nat) (t : TileStore) : (setTs s x t).cicada = s.cicada := rfl
@[simp] theorem setTs_sub (s : State) (x : Nat) (t : TileStore) : (setTs s x t).sub = s.sub := rfl
@[simp] theorem setTs_cyc (s : State) (x : Nat) (t : TileStore) : (setTs s x t).cyc = s.cyc := rfl
@[simp] theorem setTs_agenda (s : State) (x : Nat) (t : TileStore) : (setTs s x t).agenda = s.agenda := rfl
@[simp] theorem setTs_arg (s : State) (x : Nat) (t : TileStore) : (setTs s x t).arg = s.arg := rfl
@[simp] theorem setTs_timers (s : State) (x : Nat) (t : TileStore) : (setTs s x t).timers = s.timers := rfl
@[simp] theorem setTs_cur (s : State) (x : Nat) (t : TileStore) : (setTs s x t).cur = s.cur := rfl
@[simp] theorem setTs_todo (s : State) (x : Nat) (t : TileStore) : (setTs s x t).todo = s.todo := rfl
@[simp] theorem setTs_free (s : State) (x : Nat) (t : TileStore) : (setTs s x t).free = s.free := rfl
@[simp] theorem setTs_mg (s : State) (x : Nat) (t : TileStore) : (setTs s x t).mg = s.mg := rfl
@[simp] theorem setTs_mem (s : State) (x : Nat) (t : TileStore) : (setTs s x t).mem = s.mem := rfl
@[simp] theorem setTs_ver (s : State) (x : Nat) (t : TileStore) : (setTs s x t).ver = s.ver := rfl
@[simp] theorem setTs_poison (s : State) (x : Nat) (t : TileStore) : (setTs s x t).poison = s.poison := rfl
@[simp] theorem setTs_ctxs (s : State) (x : Nat) (t : TileStore) : (setTs s x t).ctxs = s.ctxs := rfl
@[simp] theorem setTs_net (s : State) (x : Nat) (t : TileStore) : (setTs s x t).net = s.net := rfl
@[simp] theorem setTs_nextId (s : State) (x : Nat) (t : TileStore) : (setTs s x t).nextId = s.nextId := rfl
@[simp] theorem setTs_links (s : State) (x : Nat) (t : TileStore) : (setTs s x t).links = s.links := rfl
@[simp] theorem setTs_sendSeq (s : State) (x : Nat) (t : TileStore) : (setTs s x t).sendSeq = s.sendSeq := rfl
@[simp] theorem setTs_recvs (s : State) (x : Nat) (t : TileStore) : (setTs s x t).recvs = s.recvs := rfl
@[simp] theorem setTs_rx (s : State) (x : Nat) (t : TileStore) : (setTs s x t).rx = s.rx := rfl
@[simp] theorem setTs_merges (s : State) (x : Nat) (t : TileStore) : (setTs s x t).merges = s.merges := rfl
@[simp] theorem setTs_sluices (s : State) (x : Nat) (t : TileStore) : (setTs s x t).sluices = s.sluices := rfl
@[simp] theorem setTs_rdc (s : State) (x : Nat) (t : TileStore) : (setTs s x t).rdc = s.rdc := rfl
@[simp] theorem setTs_slices (s : State) (x : Nat) (t : TileStore) : (setTs s x t).slices = s.slices := rfl
@[simp] theorem setTs_lanes (s : State) (x : Nat) (t : TileStore) : (setTs s x t).lanes = s.lanes := rfl
@[simp] theorem setTs_calendar (s : State) (x : Nat) (t : TileStore) : (setTs s x t).calendar = s.calendar := rfl
@[simp] theorem setTs_ponds (s : State) (x : Nat) (t : TileStore) : (setTs s x t).ponds = s.ponds := rfl
@[simp] theorem setTs_grains (s : State) (x : Nat) (t : TileStore) : (setTs s x t).grains = s.grains := rfl
@[simp] theorem setTs_circuits (s : State) (x : Nat) (t : TileStore) : (setTs s x t).circuits = s.circuits := rfl
@[simp] theorem setTs_promos (s : State) (x : Nat) (t : TileStore) : (setTs s x t).promos = s.promos := rfl
@[simp] theorem setTs_probes (s : State) (x : Nat) (t : TileStore) : (setTs s x t).probes = s.probes := rfl
@[simp] theorem setTs_recs (s : State) (x : Nat) (t : TileStore) : (setTs s x t).recs = s.recs := rfl
@[simp] theorem setTs_walks (s : State) (x : Nat) (t : TileStore) : (setTs s x t).walks = s.walks := rfl
@[simp] theorem setTs_gangs (s : State) (x : Nat) (t : TileStore) : (setTs s x t).gangs = s.gangs := rfl
@[simp] theorem setTs_parts (s : State) (x : Nat) (t : TileStore) : (setTs s x t).parts = s.parts := rfl
@[simp] theorem setTs_invals (s : State) (x : Nat) (t : TileStore) : (setTs s x t).invals = s.invals := rfl
@[simp] theorem setTs_plcs (s : State) (x : Nat) (t : TileStore) : (setTs s x t).plcs = s.plcs := rfl
@[simp] theorem setTs_moves (s : State) (x : Nat) (t : TileStore) : (setTs s x t).moves = s.moves := rfl
@[simp] theorem setTs_ecc (s : State) (x : Nat) (t : TileStore) : (setTs s x t).ecc = s.ecc := rfl
@[simp] theorem setTs_rma (s : State) (x : Nat) (t : TileStore) : (setTs s x t).rma = s.rma := rfl
@[simp] theorem setTs_podSend (s : State) (x : Nat) (t : TileStore) : (setTs s x t).podSend = s.podSend := rfl
@[simp] theorem setTs_podRecv (s : State) (x : Nat) (t : TileStore) : (setTs s x t).podRecv = s.podRecv := rfl
@[simp] theorem setTs_podPorts (s : State) (x : Nat) (t : TileStore) : (setTs s x t).podPorts = s.podPorts := rfl
@[simp] theorem setTs_podOut (s : State) (x : Nat) (t : TileStore) : (setTs s x t).podOut = s.podOut := rfl
@[simp] theorem setTs_admitted (s : State) (x : Nat) (t : TileStore) : (setTs s x t).admitted = s.admitted := rfl
@[simp] theorem setTs_flushes (s : State) (x : Nat) (t : TileStore) : (setTs s x t).flushes = s.flushes := rfl
@[simp] theorem setTs_viol (s : State) (x : Nat) (t : TileStore) : (setTs s x t).viol = s.viol := rfl
@[simp] theorem setTs_reqs (s : State) (x : Nat) (t : TileStore) : (setTs s x t).reqs = s.reqs := rfl
@[simp] theorem setTs_bbx (s : State) (x : Nat) (t : TileStore) : (setTs s x t).bbx = s.bbx := rfl
@[simp] theorem setTs_badBbx (s : State) (x : Nat) (t : TileStore) : (setTs s x t).badBbx = s.badBbx := rfl
@[simp] theorem setTs_side (s : State) (x : Nat) (t : TileStore) : (setTs s x t).side = s.side := rfl
@[simp] theorem setTs_hostOut (s : State) (x : Nat) (t : TileStore) : (setTs s x t).hostOut = s.hostOut := rfl

/-! ## `modPart` -/

@[simp] theorem modPart_boot (s : State) (p : Nat) (f : Part → Part) : (modPart s p f).boot = s.boot := rfl
@[simp] theorem modPart_mgmt (s : State) (p : Nat) (f : Part → Part) : (modPart s p f).mgmt = s.mgmt := rfl
@[simp] theorem modPart_running (s : State) (p : Nat) (f : Part → Part) : (modPart s p f).running = s.running := rfl
@[simp] theorem modPart_cicada (s : State) (p : Nat) (f : Part → Part) : (modPart s p f).cicada = s.cicada := rfl
@[simp] theorem modPart_sub (s : State) (p : Nat) (f : Part → Part) : (modPart s p f).sub = s.sub := rfl
@[simp] theorem modPart_cyc (s : State) (p : Nat) (f : Part → Part) : (modPart s p f).cyc = s.cyc := rfl
@[simp] theorem modPart_agenda (s : State) (p : Nat) (f : Part → Part) : (modPart s p f).agenda = s.agenda := rfl
@[simp] theorem modPart_arg (s : State) (p : Nat) (f : Part → Part) : (modPart s p f).arg = s.arg := rfl
@[simp] theorem modPart_timers (s : State) (p : Nat) (f : Part → Part) : (modPart s p f).timers = s.timers := rfl
@[simp] theorem modPart_cur (s : State) (p : Nat) (f : Part → Part) : (modPart s p f).cur = s.cur := rfl
@[simp] theorem modPart_todo (s : State) (p : Nat) (f : Part → Part) : (modPart s p f).todo = s.todo := rfl
@[simp] theorem modPart_free (s : State) (p : Nat) (f : Part → Part) : (modPart s p f).free = s.free := rfl
@[simp] theorem modPart_mg (s : State) (p : Nat) (f : Part → Part) : (modPart s p f).mg = s.mg := rfl
@[simp] theorem modPart_mem (s : State) (p : Nat) (f : Part → Part) : (modPart s p f).mem = s.mem := rfl
@[simp] theorem modPart_ver (s : State) (p : Nat) (f : Part → Part) : (modPart s p f).ver = s.ver := rfl
@[simp] theorem modPart_poison (s : State) (p : Nat) (f : Part → Part) : (modPart s p f).poison = s.poison := rfl
@[simp] theorem modPart_ctxs (s : State) (p : Nat) (f : Part → Part) : (modPart s p f).ctxs = s.ctxs := rfl
@[simp] theorem modPart_cores (s : State) (p : Nat) (f : Part → Part) : (modPart s p f).cores = s.cores := rfl
@[simp] theorem modPart_net (s : State) (p : Nat) (f : Part → Part) : (modPart s p f).net = s.net := rfl
@[simp] theorem modPart_nextId (s : State) (p : Nat) (f : Part → Part) : (modPart s p f).nextId = s.nextId := rfl
@[simp] theorem modPart_links (s : State) (p : Nat) (f : Part → Part) : (modPart s p f).links = s.links := rfl
@[simp] theorem modPart_sendSeq (s : State) (p : Nat) (f : Part → Part) : (modPart s p f).sendSeq = s.sendSeq := rfl
@[simp] theorem modPart_recvs (s : State) (p : Nat) (f : Part → Part) : (modPart s p f).recvs = s.recvs := rfl
@[simp] theorem modPart_rx (s : State) (p : Nat) (f : Part → Part) : (modPart s p f).rx = s.rx := rfl
@[simp] theorem modPart_merges (s : State) (p : Nat) (f : Part → Part) : (modPart s p f).merges = s.merges := rfl
@[simp] theorem modPart_sluices (s : State) (p : Nat) (f : Part → Part) : (modPart s p f).sluices = s.sluices := rfl
@[simp] theorem modPart_rdc (s : State) (p : Nat) (f : Part → Part) : (modPart s p f).rdc = s.rdc := rfl
@[simp] theorem modPart_slices (s : State) (p : Nat) (f : Part → Part) : (modPart s p f).slices = s.slices := rfl
@[simp] theorem modPart_lanes (s : State) (p : Nat) (f : Part → Part) : (modPart s p f).lanes = s.lanes := rfl
@[simp] theorem modPart_calendar (s : State) (p : Nat) (f : Part → Part) : (modPart s p f).calendar = s.calendar := rfl
@[simp] theorem modPart_ponds (s : State) (p : Nat) (f : Part → Part) : (modPart s p f).ponds = s.ponds := rfl
@[simp] theorem modPart_grains (s : State) (p : Nat) (f : Part → Part) : (modPart s p f).grains = s.grains := rfl
@[simp] theorem modPart_circuits (s : State) (p : Nat) (f : Part → Part) : (modPart s p f).circuits = s.circuits := rfl
@[simp] theorem modPart_promos (s : State) (p : Nat) (f : Part → Part) : (modPart s p f).promos = s.promos := rfl
@[simp] theorem modPart_probes (s : State) (p : Nat) (f : Part → Part) : (modPart s p f).probes = s.probes := rfl
@[simp] theorem modPart_recs (s : State) (p : Nat) (f : Part → Part) : (modPart s p f).recs = s.recs := rfl
@[simp] theorem modPart_walks (s : State) (p : Nat) (f : Part → Part) : (modPart s p f).walks = s.walks := rfl
@[simp] theorem modPart_gangs (s : State) (p : Nat) (f : Part → Part) : (modPart s p f).gangs = s.gangs := rfl
@[simp] theorem modPart_invals (s : State) (p : Nat) (f : Part → Part) : (modPart s p f).invals = s.invals := rfl
@[simp] theorem modPart_plcs (s : State) (p : Nat) (f : Part → Part) : (modPart s p f).plcs = s.plcs := rfl
@[simp] theorem modPart_moves (s : State) (p : Nat) (f : Part → Part) : (modPart s p f).moves = s.moves := rfl
@[simp] theorem modPart_ecc (s : State) (p : Nat) (f : Part → Part) : (modPart s p f).ecc = s.ecc := rfl
@[simp] theorem modPart_rma (s : State) (p : Nat) (f : Part → Part) : (modPart s p f).rma = s.rma := rfl
@[simp] theorem modPart_podSend (s : State) (p : Nat) (f : Part → Part) : (modPart s p f).podSend = s.podSend := rfl
@[simp] theorem modPart_podRecv (s : State) (p : Nat) (f : Part → Part) : (modPart s p f).podRecv = s.podRecv := rfl
@[simp] theorem modPart_podPorts (s : State) (p : Nat) (f : Part → Part) : (modPart s p f).podPorts = s.podPorts := rfl
@[simp] theorem modPart_podOut (s : State) (p : Nat) (f : Part → Part) : (modPart s p f).podOut = s.podOut := rfl
@[simp] theorem modPart_admitted (s : State) (p : Nat) (f : Part → Part) : (modPart s p f).admitted = s.admitted := rfl
@[simp] theorem modPart_flushes (s : State) (p : Nat) (f : Part → Part) : (modPart s p f).flushes = s.flushes := rfl
@[simp] theorem modPart_viol (s : State) (p : Nat) (f : Part → Part) : (modPart s p f).viol = s.viol := rfl
@[simp] theorem modPart_reqs (s : State) (p : Nat) (f : Part → Part) : (modPart s p f).reqs = s.reqs := rfl
@[simp] theorem modPart_bbx (s : State) (p : Nat) (f : Part → Part) : (modPart s p f).bbx = s.bbx := rfl
@[simp] theorem modPart_badBbx (s : State) (p : Nat) (f : Part → Part) : (modPart s p f).badBbx = s.badBbx := rfl
@[simp] theorem modPart_side (s : State) (p : Nat) (f : Part → Part) : (modPart s p f).side = s.side := rfl
@[simp] theorem modPart_hostOut (s : State) (p : Nat) (f : Part → Part) : (modPart s p f).hostOut = s.hostOut := rfl

/-! ## `mgSet` -/

@[simp] theorem mgSet_boot (s : State) (d o : Nat) (v : DWord) : (mgSet s d o v).boot = s.boot := rfl
@[simp] theorem mgSet_mgmt (s : State) (d o : Nat) (v : DWord) : (mgSet s d o v).mgmt = s.mgmt := rfl
@[simp] theorem mgSet_running (s : State) (d o : Nat) (v : DWord) : (mgSet s d o v).running = s.running := rfl
@[simp] theorem mgSet_cicada (s : State) (d o : Nat) (v : DWord) : (mgSet s d o v).cicada = s.cicada := rfl
@[simp] theorem mgSet_sub (s : State) (d o : Nat) (v : DWord) : (mgSet s d o v).sub = s.sub := rfl
@[simp] theorem mgSet_cyc (s : State) (d o : Nat) (v : DWord) : (mgSet s d o v).cyc = s.cyc := rfl
@[simp] theorem mgSet_agenda (s : State) (d o : Nat) (v : DWord) : (mgSet s d o v).agenda = s.agenda := rfl
@[simp] theorem mgSet_arg (s : State) (d o : Nat) (v : DWord) : (mgSet s d o v).arg = s.arg := rfl
@[simp] theorem mgSet_timers (s : State) (d o : Nat) (v : DWord) : (mgSet s d o v).timers = s.timers := rfl
@[simp] theorem mgSet_cur (s : State) (d o : Nat) (v : DWord) : (mgSet s d o v).cur = s.cur := rfl
@[simp] theorem mgSet_todo (s : State) (d o : Nat) (v : DWord) : (mgSet s d o v).todo = s.todo := rfl
@[simp] theorem mgSet_free (s : State) (d o : Nat) (v : DWord) : (mgSet s d o v).free = s.free := rfl
@[simp] theorem mgSet_mem (s : State) (d o : Nat) (v : DWord) : (mgSet s d o v).mem = s.mem := rfl
@[simp] theorem mgSet_ver (s : State) (d o : Nat) (v : DWord) : (mgSet s d o v).ver = s.ver := rfl
@[simp] theorem mgSet_poison (s : State) (d o : Nat) (v : DWord) : (mgSet s d o v).poison = s.poison := rfl
@[simp] theorem mgSet_ctxs (s : State) (d o : Nat) (v : DWord) : (mgSet s d o v).ctxs = s.ctxs := rfl
@[simp] theorem mgSet_cores (s : State) (d o : Nat) (v : DWord) : (mgSet s d o v).cores = s.cores := rfl
@[simp] theorem mgSet_net (s : State) (d o : Nat) (v : DWord) : (mgSet s d o v).net = s.net := rfl
@[simp] theorem mgSet_nextId (s : State) (d o : Nat) (v : DWord) : (mgSet s d o v).nextId = s.nextId := rfl
@[simp] theorem mgSet_links (s : State) (d o : Nat) (v : DWord) : (mgSet s d o v).links = s.links := rfl
@[simp] theorem mgSet_sendSeq (s : State) (d o : Nat) (v : DWord) : (mgSet s d o v).sendSeq = s.sendSeq := rfl
@[simp] theorem mgSet_recvs (s : State) (d o : Nat) (v : DWord) : (mgSet s d o v).recvs = s.recvs := rfl
@[simp] theorem mgSet_rx (s : State) (d o : Nat) (v : DWord) : (mgSet s d o v).rx = s.rx := rfl
@[simp] theorem mgSet_merges (s : State) (d o : Nat) (v : DWord) : (mgSet s d o v).merges = s.merges := rfl
@[simp] theorem mgSet_sluices (s : State) (d o : Nat) (v : DWord) : (mgSet s d o v).sluices = s.sluices := rfl
@[simp] theorem mgSet_rdc (s : State) (d o : Nat) (v : DWord) : (mgSet s d o v).rdc = s.rdc := rfl
@[simp] theorem mgSet_slices (s : State) (d o : Nat) (v : DWord) : (mgSet s d o v).slices = s.slices := rfl
@[simp] theorem mgSet_lanes (s : State) (d o : Nat) (v : DWord) : (mgSet s d o v).lanes = s.lanes := rfl
@[simp] theorem mgSet_calendar (s : State) (d o : Nat) (v : DWord) : (mgSet s d o v).calendar = s.calendar := rfl
@[simp] theorem mgSet_ponds (s : State) (d o : Nat) (v : DWord) : (mgSet s d o v).ponds = s.ponds := rfl
@[simp] theorem mgSet_grains (s : State) (d o : Nat) (v : DWord) : (mgSet s d o v).grains = s.grains := rfl
@[simp] theorem mgSet_circuits (s : State) (d o : Nat) (v : DWord) : (mgSet s d o v).circuits = s.circuits := rfl
@[simp] theorem mgSet_promos (s : State) (d o : Nat) (v : DWord) : (mgSet s d o v).promos = s.promos := rfl
@[simp] theorem mgSet_probes (s : State) (d o : Nat) (v : DWord) : (mgSet s d o v).probes = s.probes := rfl
@[simp] theorem mgSet_recs (s : State) (d o : Nat) (v : DWord) : (mgSet s d o v).recs = s.recs := rfl
@[simp] theorem mgSet_walks (s : State) (d o : Nat) (v : DWord) : (mgSet s d o v).walks = s.walks := rfl
@[simp] theorem mgSet_gangs (s : State) (d o : Nat) (v : DWord) : (mgSet s d o v).gangs = s.gangs := rfl
@[simp] theorem mgSet_parts (s : State) (d o : Nat) (v : DWord) : (mgSet s d o v).parts = s.parts := rfl
@[simp] theorem mgSet_invals (s : State) (d o : Nat) (v : DWord) : (mgSet s d o v).invals = s.invals := rfl
@[simp] theorem mgSet_plcs (s : State) (d o : Nat) (v : DWord) : (mgSet s d o v).plcs = s.plcs := rfl
@[simp] theorem mgSet_moves (s : State) (d o : Nat) (v : DWord) : (mgSet s d o v).moves = s.moves := rfl
@[simp] theorem mgSet_ecc (s : State) (d o : Nat) (v : DWord) : (mgSet s d o v).ecc = s.ecc := rfl
@[simp] theorem mgSet_rma (s : State) (d o : Nat) (v : DWord) : (mgSet s d o v).rma = s.rma := rfl
@[simp] theorem mgSet_podSend (s : State) (d o : Nat) (v : DWord) : (mgSet s d o v).podSend = s.podSend := rfl
@[simp] theorem mgSet_podRecv (s : State) (d o : Nat) (v : DWord) : (mgSet s d o v).podRecv = s.podRecv := rfl
@[simp] theorem mgSet_podPorts (s : State) (d o : Nat) (v : DWord) : (mgSet s d o v).podPorts = s.podPorts := rfl
@[simp] theorem mgSet_podOut (s : State) (d o : Nat) (v : DWord) : (mgSet s d o v).podOut = s.podOut := rfl
@[simp] theorem mgSet_admitted (s : State) (d o : Nat) (v : DWord) : (mgSet s d o v).admitted = s.admitted := rfl
@[simp] theorem mgSet_flushes (s : State) (d o : Nat) (v : DWord) : (mgSet s d o v).flushes = s.flushes := rfl
@[simp] theorem mgSet_viol (s : State) (d o : Nat) (v : DWord) : (mgSet s d o v).viol = s.viol := rfl
@[simp] theorem mgSet_reqs (s : State) (d o : Nat) (v : DWord) : (mgSet s d o v).reqs = s.reqs := rfl
@[simp] theorem mgSet_bbx (s : State) (d o : Nat) (v : DWord) : (mgSet s d o v).bbx = s.bbx := rfl
@[simp] theorem mgSet_badBbx (s : State) (d o : Nat) (v : DWord) : (mgSet s d o v).badBbx = s.badBbx := rfl
@[simp] theorem mgSet_side (s : State) (d o : Nat) (v : DWord) : (mgSet s d o v).side = s.side := rfl
@[simp] theorem mgSet_hostOut (s : State) (d o : Nat) (v : DWord) : (mgSet s d o v).hostOut = s.hostOut := rfl

/-! ## Reading back -/

@[simp] theorem getX_setX (s : State) (x y : Nat) (c : Ctx) : getX (setX s x c) y = if y = x then c else getX s y := mget_mset ..
@[simp] theorem getC_setX (s : State) (x k : Nat) (c : Ctx) : getC (setX s x c) k = getC s k := rfl
@[simp] theorem getPart_setX (s : State) (x p : Nat) (c : Ctx) : getPart (setX s x c) p = getPart s p := rfl
@[simp] theorem getX_modX (s : State) (x y : Nat) (f : Ctx → Ctx) : getX (modX s x f) y = if y = x then f (getX s x) else getX s y := mget_mset ..
@[simp] theorem getC_modX (s : State) (x k : Nat) (f : Ctx → Ctx) : getC (modX s x f) k = getC s k := rfl
@[simp] theorem getC_setC (s : State) (k j : Nat) (c : Core) : getC (setC s k c) j = if j = k then c else getC s j := mget_mset ..
@[simp] theorem getX_setC (s : State) (k x : Nat) (c : Core) : getX (setC s k c) x = getX s x := rfl
@[simp] theorem getC_modC (s : State) (k j : Nat) (f : Core → Core) : getC (modC s k f) j = if j = k then f (getC s k) else getC s j := mget_mset ..
@[simp] theorem getX_modC (s : State) (k x : Nat) (f : Core → Core) : getX (modC s k f) x = getX s x := rfl
@[simp] theorem getX_setTs (s : State) (x y : Nat) (t : TileStore) : getX (setTs s x t) y = getX s y := rfl
@[simp] theorem getTs_setTs (s : State) (x : Nat) (t : TileStore) : getTs (setTs s x t) x = t := by simp [getTs, setTs]
@[simp] theorem getTs_setX (s : State) (x y : Nat) (c : Ctx) : getTs (setX s x c) y = getTs s y := rfl
@[simp] theorem getTs_modX (s : State) (x y : Nat) (f : Ctx → Ctx) : getTs (modX s x f) y = getTs s y := rfl
@[simp] theorem getPart_modPart (s : State) (p q : Nat) (f : Part → Part) :
    getPart (modPart s p f) q = if q = p then f (getPart s p) else getPart s q := mget_mset ..
@[simp] theorem getX_modPart (s : State) (p x : Nat) (f : Part → Part) : getX (modPart s p f) x = getX s x := rfl
@[simp] theorem getC_modPart (s : State) (p k : Nat) (f : Part → Part) : getC (modPart s p f) k = getC s k := rfl

/-- A context set twice holds what was set last. -/
@[simp] theorem mset_mset {α : Type} (m : List (Nat × α)) (n : Nat) (v w : α) : mset (mset m n v) n w = mset m n w := by
  induction m with
  | nil => simp [mset]
  | cons p m ih =>
    obtain ⟨k, u⟩ := p
    simp only [mset]
    split
    · simp [mset]
    · split
      · simp [mset]
      · rename_i h1 h2
        simp [mset, h1, h2, ih]

@[simp] theorem setX_setX (s : State) (x : Nat) (c d : Ctx) : setX (setX s x c) x d = setX s x d := by simp [setX]

/-! ## Results of a context -/

@[simp] theorem setResults_inh (c : Ctx) (l : List Result) : (c.setResults l).inh = c.inh := by unfold Ctx.setResults; split <;> rfl
@[simp] theorem setResults_results (c : Ctx) (l : List Result) : (c.setResults l).results = l := by
  cases h : c.inh <;> simp [Ctx.setResults, Ctx.results, h]
@[simp] theorem setResults_time (c : Ctx) (l : List Result) : (c.setResults l).time = c.time := by
  cases h : c.inh <;> simp [Ctx.setResults, Ctx.time, h]

@[simp] theorem setResults_task (c : Ctx) (l : List Result) : (c.setResults l).task = c.task := by unfold Ctx.setResults; split <;> rfl
@[simp] theorem setResults_halted (c : Ctx) (l : List Result) : (c.setResults l).halted = c.halted := by unfold Ctx.setResults; split <;> rfl
@[simp] theorem setResults_part (c : Ctx) (l : List Result) : (c.setResults l).part = c.part := by unfold Ctx.setResults; split <;> rfl
@[simp] theorem setResults_rset (c : Ctx) (l : List Result) : (c.setResults l).rset = c.rset := by unfold Ctx.setResults; split <;> rfl
@[simp] theorem setResults_sup (c : Ctx) (l : List Result) : (c.setResults l).sup = c.sup := by unfold Ctx.setResults; split <;> rfl
@[simp] theorem setResults_stage (c : Ctx) (l : List Result) : (c.setResults l).stage = c.stage := by unfold Ctx.setResults; split <;> rfl
@[simp] theorem setResults_taskIx (c : Ctx) (l : List Result) : (c.setResults l).taskIx = c.taskIx := by unfold Ctx.setResults; split <;> rfl
@[simp] theorem setResults_gang (c : Ctx) (l : List Result) : (c.setResults l).gang = c.gang := by unfold Ctx.setResults; split <;> rfl
@[simp] theorem setResults_exch (c : Ctx) (l : List Result) : (c.setResults l).exch = c.exch := by unfold Ctx.setResults; split <;> rfl
@[simp] theorem setResults_pri (c : Ctx) (l : List Result) : (c.setResults l).pri = c.pri := by unfold Ctx.setResults; split <;> rfl
@[simp] theorem setResults_dfc (c : Ctx) (l : List Result) : (c.setResults l).dfc = c.dfc := by unfold Ctx.setResults; split <;> rfl
@[simp] theorem setResults_age (c : Ctx) (l : List Result) : (c.setResults l).age = c.age := by unfold Ctx.setResults; split <;> rfl
@[simp] theorem setResults_ct (c : Ctx) (l : List Result) : (c.setResults l).ct = c.ct := by unfold Ctx.setResults; split <;> rfl
@[simp] theorem setResults_hct (c : Ctx) (l : List Result) : (c.setResults l).hct = c.hct := by unfold Ctx.setResults; split <;> rfl
@[simp] theorem setResults_pc (c : Ctx) (l : List Result) : (c.setResults l).pc = c.pc := by unfold Ctx.setResults; split <;> rfl
@[simp] theorem setResults_npc (c : Ctx) (l : List Result) : (c.setResults l).npc = c.npc := by unfold Ctx.setResults; split <;> rfl
@[simp] theorem setResults_sr (c : Ctx) (l : List Result) : (c.setResults l).sr = c.sr := by unfold Ctx.setResults; split <;> rfl
@[simp] theorem setResults_pr (c : Ctx) (l : List Result) : (c.setResults l).pr = c.pr := by unfold Ctx.setResults; split <;> rfl
@[simp] theorem setResults_vr (c : Ctx) (l : List Result) : (c.setResults l).vr = c.vr := by unfold Ctx.setResults; split <;> rfl
@[simp] theorem setResults_hr (c : Ctx) (l : List Result) : (c.setResults l).hr = c.hr := by unfold Ctx.setResults; split <;> rfl
@[simp] theorem setResults_kr (c : Ctx) (l : List Result) : (c.setResults l).kr = c.kr := by unfold Ctx.setResults; split <;> rfl
@[simp] theorem setResults_qr (c : Ctx) (l : List Result) : (c.setResults l).qr = c.qr := by unfold Ctx.setResults; split <;> rfl
@[simp] theorem setResults_tlr (c : Ctx) (l : List Result) : (c.setResults l).tlr = c.tlr := by unfold Ctx.setResults; split <;> rfl
@[simp] theorem setResults_vshape (c : Ctx) (l : List Result) : (c.setResults l).vshape = c.vshape := by unfold Ctx.setResults; split <;> rfl
@[simp] theorem setResults_tw (c : Ctx) (l : List Result) : (c.setResults l).tw = c.tw := by unfold Ctx.setResults; split <;> rfl
@[simp] theorem setResults_wBase (c : Ctx) (l : List Result) : (c.setResults l).wBase = c.wBase := by unfold Ctx.setResults; split <;> rfl
@[simp] theorem setResults_wMin (c : Ctx) (l : List Result) : (c.setResults l).wMin = c.wMin := by unfold Ctx.setResults; split <;> rfl
@[simp] theorem setResults_wMax (c : Ctx) (l : List Result) : (c.setResults l).wMax = c.wMax := by unfold Ctx.setResults; split <;> rfl
@[simp] theorem setResults_wCur (c : Ctx) (l : List Result) : (c.setResults l).wCur = c.wCur := by unfold Ctx.setResults; split <;> rfl
@[simp] theorem setResults_tsBase (c : Ctx) (l : List Result) : (c.setResults l).tsBase = c.tsBase := by unfold Ctx.setResults; split <;> rfl
@[simp] theorem setResults_tsSize (c : Ctx) (l : List Result) : (c.setResults l).tsSize = c.tsSize := by unfold Ctx.setResults; split <;> rfl
@[simp] theorem setResults_acm (c : Ctx) (l : List Result) : (c.setResults l).acm = c.acm := by unfold Ctx.setResults; split <;> rfl
@[simp] theorem setResults_phase (c : Ctx) (l : List Result) : (c.setResults l).phase = c.phase := by unfold Ctx.setResults; split <;> rfl
@[simp] theorem setResults_rrb (c : Ctx) (l : List Result) : (c.setResults l).rrb = c.rrb := by unfold Ctx.setResults; split <;> rfl
@[simp] theorem setResults_lastFrz (c : Ctx) (l : List Result) : (c.setResults l).lastFrz = c.lastFrz := by unfold Ctx.setResults; split <;> rfl
@[simp] theorem setResults_nest (c : Ctx) (l : List Result) : (c.setResults l).nest = c.nest := by unfold Ctx.setResults; split <;> rfl
@[simp] theorem setResults_loop (c : Ctx) (l : List Result) : (c.setResults l).loop = c.loop := by unfold Ctx.setResults; split <;> rfl
@[simp] theorem setResults_hnest (c : Ctx) (l : List Result) : (c.setResults l).hnest = c.hnest := by unfold Ctx.setResults; split <;> rfl
@[simp] theorem setResults_hloop (c : Ctx) (l : List Result) : (c.setResults l).hloop = c.hloop := by unfold Ctx.setResults; split <;> rfl
@[simp] theorem setResults_readyAt (c : Ctx) (l : List Result) : (c.setResults l).readyAt = c.readyAt := by unfold Ctx.setResults; split <;> rfl
@[simp] theorem setResults_fillCyc (c : Ctx) (l : List Result) : (c.setResults l).fillCyc = c.fillCyc := by unfold Ctx.setResults; split <;> rfl
@[simp] theorem setResults_hold (c : Ctx) (l : List Result) : (c.setResults l).hold = c.hold := by unfold Ctx.setResults; split <;> rfl
@[simp] theorem setResults_await (c : Ctx) (l : List Result) : (c.setResults l).await = c.await := by unfold Ctx.setResults; split <;> rfl
@[simp] theorem setResults_sawait (c : Ctx) (l : List Result) : (c.setResults l).sawait = c.sawait := by unfold Ctx.setResults; split <;> rfl
@[simp] theorem setResults_released (c : Ctx) (l : List Result) : (c.setResults l).released = c.released := by unfold Ctx.setResults; split <;> rfl
@[simp] theorem setResults_walkRetry (c : Ctx) (l : List Result) : (c.setResults l).walkRetry = c.walkRetry := by unfold Ctx.setResults; split <;> rfl
@[simp] theorem setResults_walked (c : Ctx) (l : List Result) : (c.setResults l).walked = c.walked := by unfold Ctx.setResults; split <;> rfl
@[simp] theorem setResults_poll (c : Ctx) (l : List Result) : (c.setResults l).poll = c.poll := by unfold Ctx.setResults; split <;> rfl
@[simp] theorem setResults_pollTick (c : Ctx) (l : List Result) : (c.setResults l).pollTick = c.pollTick := by unfold Ctx.setResults; split <;> rfl
@[simp] theorem setResults_opened (c : Ctx) (l : List Result) : (c.setResults l).opened = c.opened := by unfold Ctx.setResults; split <;> rfl
@[simp] theorem setResults_psup (c : Ctx) (l : List Result) : (c.setResults l).psup = c.psup := by unfold Ctx.setResults; split <;> rfl
@[simp] theorem setResults_secnt (c : Ctx) (l : List Result) : (c.setResults l).secnt = c.secnt := by unfold Ctx.setResults; split <;> rfl
@[simp] theorem setResults_ti (c : Ctx) (l : List Result) : (c.setResults l).ti = c.ti := by unfold Ctx.setResults; split <;> rfl
@[simp] theorem setResults_deferred (c : Ctx) (l : List Result) : (c.setResults l).deferred = c.deferred := by unfold Ctx.setResults; split <;> rfl
@[simp] theorem setResults_hdeferred (c : Ctx) (l : List Result) : (c.setResults l).hdeferred = c.hdeferred := by unfold Ctx.setResults; split <;> rfl
@[simp] theorem setResults_trapi (c : Ctx) (l : List Result) : (c.setResults l).trapi = c.trapi := by unfold Ctx.setResults; split <;> rfl
@[simp] theorem setResults_wdCount (c : Ctx) (l : List Result) : (c.setResults l).wdCount = c.wdCount := by unfold Ctx.setResults; split <;> rfl
@[simp] theorem setResults_pcWritten (c : Ctx) (l : List Result) : (c.setResults l).pcWritten = c.pcWritten := by unfold Ctx.setResults; split <;> rfl
@[simp] theorem setResults_la (c : Ctx) (l : List Result) : (c.setResults l).la = c.la := by unfold Ctx.setResults; split <;> rfl
@[simp] theorem setResults_lb (c : Ctx) (l : List Result) : (c.setResults l).lb = c.lb := by unfold Ctx.setResults; split <;> rfl
@[simp] theorem setResults_front (c : Ctx) (l : List Result) : (c.setResults l).front = c.front := by unfold Ctx.setResults; split <;> rfl
@[simp] theorem setResults_latches (c : Ctx) (l : List Result) : (c.setResults l).latches = c.latches := by unfold Ctx.setResults; split <;> rfl
@[simp] theorem setResults_floor (c : Ctx) (l : List Result) : (c.setResults l).floor = c.floor := by unfold Ctx.setResults; split <;> rfl
@[simp] theorem setResults_remote (c : Ctx) (l : List Result) : (c.setResults l).remote = c.remote := by unfold Ctx.setResults; split <;> rfl
@[simp] theorem setResults_accs (c : Ctx) (l : List Result) : (c.setResults l).accs = c.accs := by unfold Ctx.setResults; split <;> rfl
@[simp] theorem setResults_ord (c : Ctx) (l : List Result) : (c.setResults l).ord = c.ord := by unfold Ctx.setResults; split <;> rfl
@[simp] theorem setResults_q1 (c : Ctx) (l : List Result) : (c.setResults l).q1 = c.q1 := by unfold Ctx.setResults; split <;> rfl
@[simp] theorem setResults_q2 (c : Ctx) (l : List Result) : (c.setResults l).q2 = c.q2 := by unfold Ctx.setResults; split <;> rfl
@[simp] theorem setResults_q3 (c : Ctx) (l : List Result) : (c.setResults l).q3 = c.q3 := by unfold Ctx.setResults; split <;> rfl
@[simp] theorem setResults_q4 (c : Ctx) (l : List Result) : (c.setResults l).q4 = c.q4 := by unfold Ctx.setResults; split <;> rfl
@[simp] theorem setResults_incs (c : Ctx) (l : List Result) : (c.setResults l).incs = c.incs := by unfold Ctx.setResults; split <;> rfl
@[simp] theorem setResults_reload (c : Ctx) (l : List Result) : (c.setResults l).reload = c.reload := by unfold Ctx.setResults; split <;> rfl
@[simp] theorem setResults_epoch (c : Ctx) (l : List Result) : (c.setResults l).epoch = c.epoch := by unfold Ctx.setResults; split <;> rfl

end Sys2Proof.Machine
end

