-- ==== Sys2Proof/Laws/Trap.lean ====
section
/-!
SUPPORT. Taking a trap, returning from one, and the end of a bundle, each as one equation (R225, R226, R308, R310, R311).
-/

namespace Sys2Proof.Machine

open Sys2Proof

/-- In handler mode every trap is a double trap (R311). -/
theorem enterTrap_inh {s : State} {x : Nat} (kind slot : Nat) (q : Cause) (opc : Va) (oct : Nat) (h : (getX s x).inh = true) :
    enterTrap s x kind slot q opc oct = endTask s x true := by
  simp [enterTrap, h]

/-- Outside handler mode, with a handler, a trap changes its context alone (R308). -/
theorem enterTrap_eq {s : State} {x : Nat} (kind slot : Nat) (q : Cause) (opc : Va) (oct : Nat) (h : (getX s x).inh = false)
    (hv : mget 0 (getX s x).ti 7 ≠ 0) :
    enterTrap s x kind slot q opc oct = setX s x (trapCtx s.cyc (getX s x) kind slot q opc oct) := by
  simp only [enterTrap, h, Bool.false_eq_true, if_false]
  rw [if_neg (by simpa using hv)]

/-- An image register that a trap writes, or leaves. -/
theorem trapImage_get (c : Ctx) (kind slot : Nat) (q : Cause) (opc : Va) (oct j : Nat) :
    mget 0 (trapImage c kind slot q opc oct) j =
      if j = 0 then tiCause q.code kind slot q.reason q.extra else if j = 1 then BitVec.zeroExtend 64 c.pc
      else if j = 2 then BitVec.ofNat 64 c.ct else if j = 3 then q.addr else if j = 4 then BitVec.zeroExtend 64 opc
      else if j = 5 then BitVec.ofNat 64 oct else if j = 9 then setBits (mget 0 c.ti 9) q.code 1 0 else mget 0 c.ti j := by
  simp only [trapImage, setPend, mget_mset]
  by_cases h0 : j = 0 <;> by_cases h1 : j = 1 <;> by_cases h2 : j = 2 <;> by_cases h3 : j = 3 <;> by_cases h4 : j = 4 <;>
    by_cases h5 : j = 5 <;> by_cases h9 : j = 9 <;> simp_all

/-- The time of a context after its bundle. -/
@[simp] theorem tick_time (c : Ctx) : c.tick.time = c.time + 1 := by cases h : c.inh <;> simp [Ctx.tick, Ctx.time, h]
@[simp] theorem tick_results (c : Ctx) : c.tick.results = c.results := by cases h : c.inh <;> simp [Ctx.tick, Ctx.results, h]
@[simp] theorem fresh_results (c : Ctx) : c.fresh.results = c.results := rfl
@[simp] theorem fresh_time (c : Ctx) : c.fresh.time = c.time := rfl

/-- With no result in flight nothing is written. -/
theorem settle_nil {s : State} {x : Nat} (h : (getX s x).results = []) : settle s x = setX s x ((getX s x).setResults []) := by
  simp [settle, h, settleList, tileDue]

/-- A register has one name in a mode (R229, R230, R309). -/
theorem physS_inj (c : Ctx) (a b : BitVec 5) (h : physS c a.toNat = physS c b.toNat) : a = b := by
  apply BitVec.eq_of_toNat_eq
  have := a.isLt
  have := b.isLt
  have := c.rrb.isLt
  cases hi : c.inh <;> simp only [physS, hi, if_true, Bool.false_eq_true, if_false] at h <;> split_ifs at h <;> omega

/-- Only the name s0 stands for physical register 0. -/
theorem physS_zero (c : Ctx) (a : BitVec 5) : physS c a.toNat = 0 ↔ a = 0 := by
  have h0 : physS c (0 : BitVec 5).toNat = 0 := by simp [physS]
  exact ⟨fun h => physS_inj c a 0 (h.trans h0.symm), fun h => by subst h; exact h0⟩

/-- A predicate has one name in a mode. -/
theorem physP_inj (c : Ctx) (a b : BitVec 4) (h : physP c a.toNat = physP c b.toNat) : a = b := by
  apply BitVec.eq_of_toNat_eq
  have := a.isLt
  have := b.isLt
  have := c.rrb.isLt
  cases hi : c.inh <;> simp only [physP, hi, if_true, Bool.false_eq_true, if_false] at h <;> split_ifs at h <;> omega

end Sys2Proof.Machine
end

