-- ==== Sys2Proof/Laws/Finish.lean ====
section
/-!
SUPPORT. The end of a bundle whose effects leave nothing under way in the context, as one equation (R225, R226).
-/

namespace Sys2Proof.Machine

open Sys2Proof

/-- A context after a bundle of w words that leaves nothing under way. -/
theorem sequence_quiet {c : Ctx} (w : Nat) (hn : c.npc = none) (hl : c.curLoop = none) :
    sequence w c = { c with pc := c.pc + BitVec.ofNat 52 (4 * w) } := by
  simp [sequence, hn, hl]

/-- The end of a bundle in a quiet context changes that context alone. -/
theorem finish_quiet {s : State} {x : Nat} (w : Nat) (h : (getX s x).Quiet) :
    finish w s x = setX s x
      ({ (getX s x).fresh.tick with readyAt := (getX s x).readyAt, released := false,
                                    pc := (getX s x).pc + BitVec.ofNat 52 (4 * w) }.setResults []) := by
  obtain ⟨hr, hn, hl, ha, ht⟩ := h
  generalize hc : getX s x = c at *
  cases hi : c.inh <;>
    simp_all [finish, sequence, branchGap, Ctx.tick, Ctx.fresh, Ctx.curLoop, Ctx.results, Ctx.setResults, settle, settleList, tileDue, Ctx.time]

end Sys2Proof.Machine
end

