-- ==== Sys2Proof/Laws/Issue.lean ====
section
/-!
SUPPORT. A bundle of one instruction: what `issue` does when its slot goes on, traps, or holds (R304, R305, R492).
-/

namespace Sys2Proof.Machine

open Sys2Proof

/-- The one slot of a bundle is examined on the state before it. -/
theorem examineSlots_one (w p : Nat) (sl : Slot) (s : State) (hp : p ≠ 7) : examineSlots w [(p, sl)] s = [(p, sl ⟨w, p⟩ s)] := by
  simp [examineSlots, hp]

/-- A bundle of one slot that goes on issues. -/
theorem issue_go {w p : Nat} {sl : Slot} {s : State} {f : State → State} (h : notReady (getX s s.cur) = false) (hp : p ≠ 7)
    (hg : sl ⟨w, p⟩ s = .go f) : issue w [(p, sl)] s = finish w (f s) s.cur := by
  simp [issue, h, examineSlots_one w p sl s hp, hg, firstTrap, holdsOf, effects]

/-- A bundle of one slot that finds causes is cancelled by the lowest of them. -/
theorem issue_trap {w p : Nat} {sl : Slot} {s : State} {l : List Cause} {q : Cause} (h : notReady (getX s s.cur) = false) (hp : p ≠ 7)
    (hg : sl ⟨w, p⟩ s = .trap l) (hq : lowestCause l = some q) : issue w [(p, sl)] s = issueTrap s s.cur p q := by
  simp [issue, h, examineSlots_one w p sl s hp, hg, firstTrap, hq]

/-- A bundle of one slot that holds freezes its context. -/
theorem issue_hold {w p : Nat} {sl : Slot} {s : State} {n : Nat} {f : State → State} (h : notReady (getX s s.cur) = false) (hp : p ≠ 7)
    (hg : sl ⟨w, p⟩ s = .hold n f) : issue w [(p, sl)] s = freeze (f s) s.cur n := by
  simp only [issue, h, examineSlots_one w p sl s hp, hg, firstTrap, holdsOf, beginHold, List.find?_cons, List.find?_nil]
  cases hn : (decide (n = 5) || decide (n = 6) || decide (n = 7)) <;> simp

/-- An instruction that is well formed and goes on issues. -/
theorem single_go {op w p : Nat} {sl : Slot} {s : State} {f : State → State} (h : notReady (getX s s.cur) = false) (hp : p ≠ 7)
    (hg : sl ⟨w, p⟩ s = .go f) : single true op w p sl s = .next (finish w (f s) s.cur) := by
  simp only [single, if_true, issue_go h hp hg]

/-- An instruction that is well formed and finds causes traps. -/
theorem single_trap {op w p : Nat} {sl : Slot} {s : State} {l : List Cause} {q : Cause} (h : notReady (getX s s.cur) = false) (hp : p ≠ 7)
    (hg : sl ⟨w, p⟩ s = .trap l) (hq : lowestCause l = some q) : single true op w p sl s = .next (issueTrap s s.cur p q) := by
  simp only [single, if_true, issue_trap h hp hg hq]

/-- An instruction that is well formed and must wait is held. -/
theorem single_hold {op w p : Nat} {sl : Slot} {s : State} {n : Nat} {f : State → State} (h : notReady (getX s s.cur) = false) (hp : p ≠ 7)
    (hg : sl ⟨w, p⟩ s = .hold n f) : single true op w p sl s = .next (freeze (f s) s.cur n) := by
  simp only [single, if_true, issue_hold h hp hg]

/-- An ill-formed instruction is IIL with its opcode (R329). -/
theorem single_ill {op w p : Nat} {sl : Slot} {s : State} (h : notReady (getX s s.cur) = false) (hp : p ≠ 7) :
    single false op w p sl s = .next (issueTrap s s.cur p ⟨cIIL, 0, op, 0⟩) := by
  simp only [single, Bool.false_eq_true, if_false]
  rw [issue_trap h hp rfl rfl]

/-- A slot whose checks find nothing goes on. -/
@[simp] theorem check_nil (k : SlotOut) : check [] k = k := rfl

/-- A slot whose checks find a cause traps. -/
theorem check_cons (q : Cause) (l : List Cause) (k : SlotOut) : check (q :: l) k = .trap (q :: l) := rfl

/-- A guarded slot whose guard holds is the slot. -/
theorem guarded_on {g : BitVec 5} {f : Slot} {e : Env} {s : State} (h : guardOn (getX s s.cur) g = true) : guarded g f e s = f e s := by
  simp [guarded, h]

/-- A guarded slot whose guard does not hold has no effect. -/
theorem guarded_off {g : BitVec 5} {f : Slot} {e : Env} {s : State} (h : guardOn (getX s s.cur) g = false) : guarded g f e s = .go id := by
  simp [guarded, h]

/-- The meaning of an event where it arises. -/
theorem gate_on {on : Bool} {name : String} {eff : State → State} {s : State} (h : on = true) : gate on name eff s = .next (eff s) := by
  simp [gate, h]

end Sys2Proof.Machine
end

