-- ==== Sys2Proof/Laws/PerInstr.lean ====
section
/-!
SUPPORT. One law for every constructor: an instruction has an encoding, an event has none (R336; spec/opcode_table.json).
-/

namespace Sys2Proof.Laws

open Sys2Proof

/-- The constructor is one of the 125 events, which have no words. -/
def isEvent : Instr → Bool
  | .coldBoot => true
  | .warmReset => true
  | .bootImageReadResponse => true
  | .t2size => true
  | .t2waitExpiry => true
  | .authenticationTimeout => true
  | .powerSample => true
  | .thermalTrip => true
  | .pkgPowerWrite => true
  | .registerWrite => true
  | .cicadaTick => true
  | .periodicDrain => true
  | .sluiceDecay => true
  | .packetRoute => true
  | .readRequest => true
  | .readResponse => true
  | .write => true
  | .writeAcknowledgement => true
  | .atomicRequest => true
  | .atomicResponse => true
  | .engineData => true
  | .pathMarker => true
  | .markerAcknowledgement => true
  | .reorderTimeout => true
  | .requestTimeout => true
  | .linkReplay => true
  | .linkRetrainEnd => true
  | .homeSliceFill => true
  | .probeAcknowledgement => true
  | .probeRefusal => true
  | .circuitBeat => true
  | .collapseNotice => true
  | .resumePointReport => true
  | .resumeReportTimeout => true
  | .leaseExpiry => true
  | .sendAcknowledgement => true
  | .grainReservation => true
  | .circuitSetupRequest => true
  | .sailBoundary => true
  | .grain => true
  | .grainDelivery => true
  | .relaySpaceReport => true
  | .podNextHop => true
  | .podAccessAdmission => true
  | .sack => true
  | .podResendTimeout => true
  | .remoteAccessTimeout => true
  | .flushingReadResponse => true
  | .registrationStateWrite => true
  | .rmaTailWrite => true
  | .rmaEnableWrite => true
  | .rmaErrstopWrite => true
  | .rmaNop => true
  | .rmaPut => true
  | .rmaGet => true
  | .rmaWait => true
  | .rmaDescriptorRetire => true
  | .hostMemoryAccess => true
  | .queueTlWrite => true
  | .queueEnableWrite => true
  | .queueStopWrite => true
  | .queueEntryTake => true
  | .recordFetch => true
  | .recordStart => true
  | .gangNode => true
  | .gangStart => true
  | .gangRestore => true
  | .copyNode => true
  | .collectiveNode => true
  | .circuitOpenNode => true
  | .signalNode => true
  | .subgraphNode => true
  | .joinNode => true
  | .waitNode => true
  | .recordRetirement => true
  | .create => true
  | .destroy => true
  | .swapout => true
  | .swapin => true
  | .fence => true
  | .fwupd => true
  | .retire => true
  | .mailboxUnlistedCommand => true
  | .swapoutSaveEnd => true
  | .swapinRestoreEnd => true
  | .fwupdEnd => true
  | .coreRepair => true
  | .memoryDieFailure => true
  | .partRsWrite => true
  | .priorityChange => true
  | .invalidationRequest => true
  | .invalidationMarking => true
  | .invalidationConfirmation => true
  | .walkNotice => true
  | .placementEvaluation => true
  | .plcRetHeadWrite => true
  | .plcLostHeadWrite => true
  | .resultWrite => true
  | .trapEntry => true
  | .wdog => true
  | .bundleHoldRelease => true
  | .phaseDrainEnd => true
  | .mmaRowWrite => true
  | .scaleLatchLanding => true
  | .copyCommandStart => true
  | .copyStageStart => true
  | .copyCommandCompletion => true
  | .circuitPortCommandStart => true
  | .streamUnitCommandStart => true
  | .rmapostCommandStart => true
  | .launchCommandStart => true
  | .streamOpenCheck => true
  | .sampleFlit => true
  | .streamSampleApplication => true
  | .creditFlit => true
  | .detachFlit => true
  | .attachFlit => true
  | .closeFlit => true
  | .breakFlit => true
  | .streamLossTimeout => true
  | .gangBarrierCompletion => true
  | .gangBarrierRelease => true
  | .rejectedStoreReport => true
  | .blackBoxEntryRead => true
  | .c0ServiceFailure => true
  | _ => false

/-- An instruction has a head word and an event has none. -/
def Encodes.Statement (i : Instr) : Prop := (encode i).isNone = isEvent i

theorem Encodes.nop : Encodes.Statement (.nop) := rfl
theorem Encodes.add (d : BitVec 5) (a : BitVec 5) (b : BitVec 5) : Encodes.Statement (.add d a b) := rfl
theorem Encodes.sub (d : BitVec 5) (a : BitVec 5) (b : BitVec 5) : Encodes.Statement (.sub d a b) := rfl
theorem Encodes.mul (d : BitVec 5) (a : BitVec 5) (b : BitVec 5) : Encodes.Statement (.mul d a b) := rfl
theorem Encodes.mulh (d : BitVec 5) (a : BitVec 5) (b : BitVec 5) : Encodes.Statement (.mulh d a b) := rfl
theorem Encodes.mulhz (d : BitVec 5) (a : BitVec 5) (b : BitVec 5) : Encodes.Statement (.mulhz d a b) := rfl
theorem Encodes.div (d : BitVec 5) (a : BitVec 5) (b : BitVec 5) : Encodes.Statement (.div d a b) := rfl
theorem Encodes.divz (d : BitVec 5) (a : BitVec 5) (b : BitVec 5) : Encodes.Statement (.divz d a b) := rfl
theorem Encodes.rem (d : BitVec 5) (a : BitVec 5) (b : BitVec 5) : Encodes.Statement (.rem d a b) := rfl
theorem Encodes.remz (d : BitVec 5) (a : BitVec 5) (b : BitVec 5) : Encodes.Statement (.remz d a b) := rfl
theorem Encodes.and (d : BitVec 5) (a : BitVec 5) (b : BitVec 5) : Encodes.Statement (.and d a b) := rfl
theorem Encodes.or (d : BitVec 5) (a : BitVec 5) (b : BitVec 5) : Encodes.Statement (.or d a b) := rfl
theorem Encodes.xor (d : BitVec 5) (a : BitVec 5) (b : BitVec 5) : Encodes.Statement (.xor d a b) := rfl
theorem Encodes.andn (d : BitVec 5) (a : BitVec 5) (b : BitVec 5) : Encodes.Statement (.andn d a b) := rfl
theorem Encodes.shl (d : BitVec 5) (a : BitVec 5) (b : BitVec 5) : Encodes.Statement (.shl d a b) := rfl
theorem Encodes.shr (d : BitVec 5) (a : BitVec 5) (b : BitVec 5) : Encodes.Statement (.shr d a b) := rfl
theorem Encodes.sar (d : BitVec 5) (a : BitVec 5) (b : BitVec 5) : Encodes.Statement (.sar d a b) := rfl
theorem Encodes.rol (d : BitVec 5) (a : BitVec 5) (b : BitVec 5) : Encodes.Statement (.rol d a b) := rfl
theorem Encodes.min (d : BitVec 5) (a : BitVec 5) (b : BitVec 5) : Encodes.Statement (.min d a b) := rfl
theorem Encodes.max (d : BitVec 5) (a : BitVec 5) (b : BitVec 5) : Encodes.Statement (.max d a b) := rfl
theorem Encodes.minz (d : BitVec 5) (a : BitVec 5) (b : BitVec 5) : Encodes.Statement (.minz d a b) := rfl
theorem Encodes.maxz (d : BitVec 5) (a : BitVec 5) (b : BitVec 5) : Encodes.Statement (.maxz d a b) := rfl
theorem Encodes.clz (d : BitVec 5) (a : BitVec 5) : Encodes.Statement (.clz d a) := rfl
theorem Encodes.ctz (d : BitVec 5) (a : BitVec 5) : Encodes.Statement (.ctz d a) := rfl
theorem Encodes.popc (d : BitVec 5) (a : BitVec 5) : Encodes.Statement (.popc d a) := rfl
theorem Encodes.extB (d : BitVec 5) (a : BitVec 5) : Encodes.Statement (.extB d a) := rfl
theorem Encodes.extH (d : BitVec 5) (a : BitVec 5) : Encodes.Statement (.extH d a) := rfl
theorem Encodes.extW (d : BitVec 5) (a : BitVec 5) : Encodes.Statement (.extW d a) := rfl
theorem Encodes.extzB (d : BitVec 5) (a : BitVec 5) : Encodes.Statement (.extzB d a) := rfl
theorem Encodes.extzH (d : BitVec 5) (a : BitVec 5) : Encodes.Statement (.extzH d a) := rfl
theorem Encodes.extzW (d : BitVec 5) (a : BitVec 5) : Encodes.Statement (.extzW d a) := rfl
theorem Encodes.mov (d : BitVec 5) (a : BitVec 5) : Encodes.Statement (.mov d a) := rfl
theorem Encodes.addi (d : BitVec 5) (a : BitVec 5) (i : BitVec 11) (x : Option (BitVec 28)) : Encodes.Statement (.addi d a i x) := rfl
theorem Encodes.muli (d : BitVec 5) (a : BitVec 5) (i : BitVec 11) (x : Option (BitVec 28)) : Encodes.Statement (.muli d a i x) := rfl
theorem Encodes.andi (d : BitVec 5) (a : BitVec 5) (i : BitVec 11) (x : Option (BitVec 28)) : Encodes.Statement (.andi d a i x) := rfl
theorem Encodes.ori (d : BitVec 5) (a : BitVec 5) (i : BitVec 11) (x : Option (BitVec 28)) : Encodes.Statement (.ori d a i x) := rfl
theorem Encodes.xori (d : BitVec 5) (a : BitVec 5) (i : BitVec 11) (x : Option (BitVec 28)) : Encodes.Statement (.xori d a i x) := rfl
theorem Encodes.shli (d : BitVec 5) (a : BitVec 5) (i : BitVec 6) : Encodes.Statement (.shli d a i) := rfl
theorem Encodes.shri (d : BitVec 5) (a : BitVec 5) (i : BitVec 6) : Encodes.Statement (.shri d a i) := rfl
theorem Encodes.sari (d : BitVec 5) (a : BitVec 5) (i : BitVec 6) : Encodes.Statement (.sari d a i) := rfl
theorem Encodes.movi (d : BitVec 5) (i : BitVec 16) (x : Option (BitVec 28)) : Encodes.Statement (.movi d i x) := rfl
theorem Encodes.movh (d : BitVec 5) (i : BitVec 16) : Encodes.Statement (.movh d i) := rfl
theorem Encodes.cmpEq (d : BitVec 4) (a : BitVec 5) (b : BitVec 5) : Encodes.Statement (.cmpEq d a b) := rfl
theorem Encodes.cmpNe (d : BitVec 4) (a : BitVec 5) (b : BitVec 5) : Encodes.Statement (.cmpNe d a b) := rfl
theorem Encodes.cmpLt (d : BitVec 4) (a : BitVec 5) (b : BitVec 5) : Encodes.Statement (.cmpLt d a b) := rfl
theorem Encodes.cmpLe (d : BitVec 4) (a : BitVec 5) (b : BitVec 5) : Encodes.Statement (.cmpLe d a b) := rfl
theorem Encodes.cmpLo (d : BitVec 4) (a : BitVec 5) (b : BitVec 5) : Encodes.Statement (.cmpLo d a b) := rfl
theorem Encodes.cmpLs (d : BitVec 4) (a : BitVec 5) (b : BitVec 5) : Encodes.Statement (.cmpLs d a b) := rfl
theorem Encodes.cmpiEq (d : BitVec 4) (a : BitVec 5) (i : BitVec 11) (x : Option (BitVec 28)) : Encodes.Statement (.cmpiEq d a i x) := rfl
theorem Encodes.cmpiNe (d : BitVec 4) (a : BitVec 5) (i : BitVec 11) (x : Option (BitVec 28)) : Encodes.Statement (.cmpiNe d a i x) := rfl
theorem Encodes.cmpiLt (d : BitVec 4) (a : BitVec 5) (i : BitVec 11) (x : Option (BitVec 28)) : Encodes.Statement (.cmpiLt d a i x) := rfl
theorem Encodes.cmpiLe (d : BitVec 4) (a : BitVec 5) (i : BitVec 11) (x : Option (BitVec 28)) : Encodes.Statement (.cmpiLe d a i x) := rfl
theorem Encodes.cmpiLo (d : BitVec 4) (a : BitVec 5) (i : BitVec 11) (x : Option (BitVec 28)) : Encodes.Statement (.cmpiLo d a i x) := rfl
theorem Encodes.cmpiLs (d : BitVec 4) (a : BitVec 5) (i : BitVec 11) (x : Option (BitVec 28)) : Encodes.Statement (.cmpiLs d a i x) := rfl
theorem Encodes.pand (d : BitVec 4) (a : BitVec 4) (b : BitVec 4) : Encodes.Statement (.pand d a b) := rfl
theorem Encodes.por (d : BitVec 4) (a : BitVec 4) (b : BitVec 4) : Encodes.Statement (.por d a b) := rfl
theorem Encodes.pxor (d : BitVec 4) (a : BitVec 4) (b : BitVec 4) : Encodes.Statement (.pxor d a b) := rfl
theorem Encodes.pandn (d : BitVec 4) (a : BitVec 4) (b : BitVec 4) : Encodes.Statement (.pandn d a b) := rfl
theorem Encodes.pnot (d : BitVec 4) (a : BitVec 4) : Encodes.Statement (.pnot d a) := rfl
theorem Encodes.sel (d : BitVec 5) (a : BitVec 5) (b : BitVec 5) (g : BitVec 5) : Encodes.Statement (.sel d a b g) := rfl
theorem Encodes.ldB (d : BitVec 5) (a : BitVec 5) (i : BitVec 6) (x : Option (BitVec 28)) : Encodes.Statement (.ldB d a i x) := rfl
theorem Encodes.ldH (d : BitVec 5) (a : BitVec 5) (i : BitVec 6) (x : Option (BitVec 28)) : Encodes.Statement (.ldH d a i x) := rfl
theorem Encodes.ldW (d : BitVec 5) (a : BitVec 5) (i : BitVec 6) (x : Option (BitVec 28)) : Encodes.Statement (.ldW d a i x) := rfl
theorem Encodes.ldD (d : BitVec 5) (a : BitVec 5) (i : BitVec 6) (x : Option (BitVec 28)) : Encodes.Statement (.ldD d a i x) := rfl
theorem Encodes.ldzB (d : BitVec 5) (a : BitVec 5) (i : BitVec 6) (x : Option (BitVec 28)) : Encodes.Statement (.ldzB d a i x) := rfl
theorem Encodes.ldzH (d : BitVec 5) (a : BitVec 5) (i : BitVec 6) (x : Option (BitVec 28)) : Encodes.Statement (.ldzH d a i x) := rfl
theorem Encodes.ldzW (d : BitVec 5) (a : BitVec 5) (i : BitVec 6) (x : Option (BitVec 28)) : Encodes.Statement (.ldzW d a i x) := rfl
theorem Encodes.stB (g : BitVec 5) (a : BitVec 5) (b : BitVec 5) (i : BitVec 6) (x : Option (BitVec 28)) : Encodes.Statement (.stB g a b i x) := rfl
theorem Encodes.stH (g : BitVec 5) (a : BitVec 5) (b : BitVec 5) (i : BitVec 6) (x : Option (BitVec 28)) : Encodes.Statement (.stH g a b i x) := rfl
theorem Encodes.stW (g : BitVec 5) (a : BitVec 5) (b : BitVec 5) (i : BitVec 6) (x : Option (BitVec 28)) : Encodes.Statement (.stW g a b i x) := rfl
theorem Encodes.stD (g : BitVec 5) (a : BitVec 5) (b : BitVec 5) (i : BitVec 6) (x : Option (BitVec 28)) : Encodes.Statement (.stD g a b i x) := rfl
theorem Encodes.br (g : BitVec 5) (i : BitVec 16) (x : Option (BitVec 28)) : Encodes.Statement (.br g i x) := rfl
theorem Encodes.call (d : BitVec 5) (i : BitVec 16) (x : Option (BitVec 28)) : Encodes.Statement (.call d i x) := rfl
theorem Encodes.jmp (g : BitVec 5) (a : BitVec 5) : Encodes.Statement (.jmp g a) := rfl
theorem Encodes.jcall (d : BitVec 5) (a : BitVec 5) : Encodes.Statement (.jcall d a) := rfl
theorem Encodes.lvl (d : BitVec 5) (a : BitVec 5) (b : BitVec 5) (f : BitVec 6) : Encodes.Statement (.lvl d a b f) := rfl
theorem Encodes.loop (n : BitVec 6) : Encodes.Statement (.loop n) := rfl
theorem Encodes.loopSp (s : BitVec 4) (n : BitVec 6) : Encodes.Statement (.loopSp s n) := rfl
theorem Encodes.crr (d : BitVec 5) (c : BitVec 12) : Encodes.Statement (.crr d c) := rfl
theorem Encodes.crw (d : BitVec 5) (c : BitVec 12) : Encodes.Statement (.crw d c) := rfl
theorem Encodes.trap (i : BitVec 8) : Encodes.Statement (.trap i) := rfl
theorem Encodes.tret : Encodes.Statement (.tret) := rfl
theorem Encodes.tend : Encodes.Statement (.tend) := rfl
theorem Encodes.ldgB (d : BitVec 5) (a : BitVec 5) (h : BitVec 4) (x : Option WgLd) : Encodes.Statement (.ldgB d a h x) := rfl
theorem Encodes.ldgH (d : BitVec 5) (a : BitVec 5) (h : BitVec 4) (x : Option WgLd) : Encodes.Statement (.ldgH d a h x) := rfl
theorem Encodes.ldgW (d : BitVec 5) (a : BitVec 5) (h : BitVec 4) (x : Option WgLd) : Encodes.Statement (.ldgW d a h x) := rfl
theorem Encodes.ldgD (d : BitVec 5) (a : BitVec 5) (h : BitVec 4) (x : Option WgLd) : Encodes.Statement (.ldgD d a h x) := rfl
theorem Encodes.ldgzB (d : BitVec 5) (a : BitVec 5) (h : BitVec 4) (x : Option WgLd) : Encodes.Statement (.ldgzB d a h x) := rfl
theorem Encodes.ldgzH (d : BitVec 5) (a : BitVec 5) (h : BitVec 4) (x : Option WgLd) : Encodes.Statement (.ldgzH d a h x) := rfl
theorem Encodes.ldgzW (d : BitVec 5) (a : BitVec 5) (h : BitVec 4) (x : Option WgLd) : Encodes.Statement (.ldgzW d a h x) := rfl
theorem Encodes.stgB (g : BitVec 5) (a : BitVec 5) (b : BitVec 5) (h : BitVec 4) (x : Option WgSt) : Encodes.Statement (.stgB g a b h x) := rfl
theorem Encodes.stgH (g : BitVec 5) (a : BitVec 5) (b : BitVec 5) (h : BitVec 4) (x : Option WgSt) : Encodes.Statement (.stgH g a b h x) := rfl
theorem Encodes.stgW (g : BitVec 5) (a : BitVec 5) (b : BitVec 5) (h : BitVec 4) (x : Option WgSt) : Encodes.Statement (.stgW g a b h x) := rfl
theorem Encodes.stgD (g : BitVec 5) (a : BitVec 5) (b : BitVec 5) (h : BitVec 4) (x : Option WgSt) : Encodes.Statement (.stgD g a b h x) := rfl
theorem Encodes.ldgV (d : BitVec 5) (a : BitVec 5) (h : BitVec 4) (x : Option WgLd) : Encodes.Statement (.ldgV d a h x) := rfl
theorem Encodes.stgV (g : BitVec 5) (a : BitVec 5) (b : BitVec 5) (h : BitVec 4) (x : Option WgSt) : Encodes.Statement (.stgV g a b h x) := rfl
theorem Encodes.xst (g : BitVec 5) (a : BitVec 5) (b : BitVec 5) (c : BitVec 5) : Encodes.Statement (.xst g a b c) := rfl
theorem Encodes.aadd (d : BitVec 5) (a : BitVec 5) (b : BitVec 5) (h : BitVec 4) (z : BitVec 1) (x : AtExt) : Encodes.Statement (.aadd d a b h z x) := rfl
theorem Encodes.asub (d : BitVec 5) (a : BitVec 5) (b : BitVec 5) (h : BitVec 4) (z : BitVec 1) (x : AtExt) : Encodes.Statement (.asub d a b h z x) := rfl
theorem Encodes.aand (d : BitVec 5) (a : BitVec 5) (b : BitVec 5) (h : BitVec 4) (z : BitVec 1) (x : AtExt) : Encodes.Statement (.aand d a b h z x) := rfl
theorem Encodes.aor (d : BitVec 5) (a : BitVec 5) (b : BitVec 5) (h : BitVec 4) (z : BitVec 1) (x : AtExt) : Encodes.Statement (.aor d a b h z x) := rfl
theorem Encodes.axor (d : BitVec 5) (a : BitVec 5) (b : BitVec 5) (h : BitVec 4) (z : BitVec 1) (x : AtExt) : Encodes.Statement (.axor d a b h z x) := rfl
theorem Encodes.amin (d : BitVec 5) (a : BitVec 5) (b : BitVec 5) (h : BitVec 4) (z : BitVec 1) (x : AtExt) : Encodes.Statement (.amin d a b h z x) := rfl
theorem Encodes.amax (d : BitVec 5) (a : BitVec 5) (b : BitVec 5) (h : BitVec 4) (z : BitVec 1) (x : AtExt) : Encodes.Statement (.amax d a b h z x) := rfl
theorem Encodes.aminz (d : BitVec 5) (a : BitVec 5) (b : BitVec 5) (h : BitVec 4) (z : BitVec 1) (x : AtExt) : Encodes.Statement (.aminz d a b h z x) := rfl
theorem Encodes.amaxz (d : BitVec 5) (a : BitVec 5) (b : BitVec 5) (h : BitVec 4) (z : BitVec 1) (x : AtExt) : Encodes.Statement (.amaxz d a b h z x) := rfl
theorem Encodes.aswp (d : BitVec 5) (a : BitVec 5) (b : BitVec 5) (h : BitVec 4) (z : BitVec 1) (x : AtExt) : Encodes.Statement (.aswp d a b h z x) := rfl
theorem Encodes.acas (d : BitVec 5) (a : BitVec 5) (b : BitVec 5) (h : BitVec 4) (z : BitVec 1) (x : CasExt) : Encodes.Statement (.acas d a b h z x) := rfl
theorem Encodes.afadd (d : BitVec 5) (a : BitVec 5) (b : BitVec 5) (h : BitVec 4) (z : BitVec 1) (x : AtExt) : Encodes.Statement (.afadd d a b h z x) := rfl
theorem Encodes.trans (d : BitVec 4) (a : BitVec 5) : Encodes.Statement (.trans d a) := rfl
theorem Encodes.transAr (d : BitVec 4) (a : BitVec 5) : Encodes.Statement (.transAr d a) := rfl
theorem Encodes.hstat (d : BitVec 5) (a : BitVec 4) : Encodes.Statement (.hstat d a) := rfl
theorem Encodes.inv (a : BitVec 5) (b : BitVec 5) : Encodes.Statement (.inv a b) := rfl
theorem Encodes.invAll : Encodes.Statement (.invAll) := rfl
theorem Encodes.fenceCm (s : BitVec 3) (m : BitVec 16) : Encodes.Statement (.fenceCm s m) := rfl
theorem Encodes.fenceSc : Encodes.Statement (.fenceSc) := rfl
theorem Encodes.gbar : Encodes.Statement (.gbar) := rfl
theorem Encodes.phase (p : BitVec 3) : Encodes.Statement (.phase p) := rfl
theorem Encodes.tlwait (s : BitVec 3) (a : BitVec 3) (b : BitVec 5) : Encodes.Statement (.tlwait s a b) := rfl
theorem Encodes.tlinc (a : BitVec 3) (b : BitVec 5) : Encodes.Statement (.tlinc a b) := rfl
theorem Encodes.tlrd (d : BitVec 5) (a : BitVec 3) : Encodes.Statement (.tlrd d a) := rfl
theorem Encodes.tlmwait (s : BitVec 3) (a : BitVec 5) (b : BitVec 5) (h : BitVec 4) : Encodes.Statement (.tlmwait s a b h) := rfl
theorem Encodes.tlmsig (s : BitVec 3) (a : BitVec 5) (b : BitVec 5) (h : BitVec 4) : Encodes.Statement (.tlmsig s a b h) := rfl
theorem Encodes.tbinit (c : BitVec 5) (a : BitVec 5) (b : BitVec 5) : Encodes.Statement (.tbinit c a b) := rfl
theorem Encodes.tbarr (a : BitVec 5) (b : BitVec 5) : Encodes.Statement (.tbarr a b) := rfl
theorem Encodes.tbwait (s : BitVec 3) (a : BitVec 5) (b : BitVec 5) : Encodes.Statement (.tbwait s a b) := rfl
theorem Encodes.vadd (d : BitVec 5) (a : BitVec 5) (b : BitVec 5) (r : BitVec 3) (t : BitVec 3) : Encodes.Statement (.vadd d a b r t) := rfl
theorem Encodes.vsub (d : BitVec 5) (a : BitVec 5) (b : BitVec 5) (r : BitVec 3) (t : BitVec 3) : Encodes.Statement (.vsub d a b r t) := rfl
theorem Encodes.vmul (d : BitVec 5) (a : BitVec 5) (b : BitVec 5) (r : BitVec 3) (t : BitVec 3) : Encodes.Statement (.vmul d a b r t) := rfl
theorem Encodes.vdiv (d : BitVec 5) (a : BitVec 5) (b : BitVec 5) (r : BitVec 3) (t : BitVec 3) : Encodes.Statement (.vdiv d a b r t) := rfl
theorem Encodes.vmin (d : BitVec 5) (a : BitVec 5) (b : BitVec 5) (r : BitVec 3) (t : BitVec 3) : Encodes.Statement (.vmin d a b r t) := rfl
theorem Encodes.vmax (d : BitVec 5) (a : BitVec 5) (b : BitVec 5) (r : BitVec 3) (t : BitVec 3) : Encodes.Statement (.vmax d a b r t) := rfl
theorem Encodes.viadd (d : BitVec 5) (a : BitVec 5) (b : BitVec 5) (r : BitVec 3) (t : BitVec 3) : Encodes.Statement (.viadd d a b r t) := rfl
theorem Encodes.vimul (d : BitVec 5) (a : BitVec 5) (b : BitVec 5) (r : BitVec 3) (t : BitVec 3) : Encodes.Statement (.vimul d a b r t) := rfl
theorem Encodes.vimax (d : BitVec 5) (a : BitVec 5) (b : BitVec 5) (r : BitVec 3) (t : BitVec 3) : Encodes.Statement (.vimax d a b r t) := rfl
theorem Encodes.vimin (d : BitVec 5) (a : BitVec 5) (b : BitVec 5) (r : BitVec 3) (t : BitVec 3) : Encodes.Statement (.vimin d a b r t) := rfl
theorem Encodes.vand (d : BitVec 5) (a : BitVec 5) (b : BitVec 5) (t : BitVec 3) : Encodes.Statement (.vand d a b t) := rfl
theorem Encodes.vor (d : BitVec 5) (a : BitVec 5) (b : BitVec 5) (t : BitVec 3) : Encodes.Statement (.vor d a b t) := rfl
theorem Encodes.vxor (d : BitVec 5) (a : BitVec 5) (b : BitVec 5) (t : BitVec 3) : Encodes.Statement (.vxor d a b t) := rfl
theorem Encodes.vshl (d : BitVec 5) (a : BitVec 5) (b : BitVec 5) (t : BitVec 3) : Encodes.Statement (.vshl d a b t) := rfl
theorem Encodes.vshr (d : BitVec 5) (a : BitVec 5) (b : BitVec 5) (t : BitVec 3) : Encodes.Statement (.vshr d a b t) := rfl
theorem Encodes.vsar (d : BitVec 5) (a : BitVec 5) (b : BitVec 5) (t : BitVec 3) : Encodes.Statement (.vsar d a b t) := rfl
theorem Encodes.vcmpEq (d : BitVec 5) (a : BitVec 5) (b : BitVec 5) (t : BitVec 3) : Encodes.Statement (.vcmpEq d a b t) := rfl
theorem Encodes.vcmpNe (d : BitVec 5) (a : BitVec 5) (b : BitVec 5) (t : BitVec 3) : Encodes.Statement (.vcmpNe d a b t) := rfl
theorem Encodes.vcmpLt (d : BitVec 5) (a : BitVec 5) (b : BitVec 5) (t : BitVec 3) : Encodes.Statement (.vcmpLt d a b t) := rfl
theorem Encodes.vcmpLe (d : BitVec 5) (a : BitVec 5) (b : BitVec 5) (t : BitVec 3) : Encodes.Statement (.vcmpLe d a b t) := rfl
theorem Encodes.vcmpGt (d : BitVec 5) (a : BitVec 5) (b : BitVec 5) (t : BitVec 3) : Encodes.Statement (.vcmpGt d a b t) := rfl
theorem Encodes.vcmpGe (d : BitVec 5) (a : BitVec 5) (b : BitVec 5) (t : BitVec 3) : Encodes.Statement (.vcmpGe d a b t) := rfl
theorem Encodes.vsel (d : BitVec 5) (a : BitVec 5) (b : BitVec 5) (g : BitVec 5) : Encodes.Statement (.vsel d a b g) := rfl
theorem Encodes.vselm (d : BitVec 5) (a : BitVec 5) (b : BitVec 5) (c : BitVec 5) : Encodes.Statement (.vselm d a b c) := rfl
theorem Encodes.visab (d : BitVec 5) (a : BitVec 5) (t : BitVec 3) : Encodes.Statement (.visab d a t) := rfl
theorem Encodes.vispr (d : BitVec 5) (a : BitVec 5) (t : BitVec 3) : Encodes.Statement (.vispr d a t) := rfl
theorem Encodes.vfill (d : BitVec 5) (a : BitVec 5) (b : BitVec 5) (t : BitVec 3) : Encodes.Statement (.vfill d a b t) := rfl
theorem Encodes.vneg (d : BitVec 5) (a : BitVec 5) (r : BitVec 3) (t : BitVec 3) : Encodes.Statement (.vneg d a r t) := rfl
theorem Encodes.vmag (d : BitVec 5) (a : BitVec 5) (r : BitVec 3) (t : BitVec 3) : Encodes.Statement (.vmag d a r t) := rfl
theorem Encodes.vexp (d : BitVec 5) (a : BitVec 5) (r : BitVec 3) (t : BitVec 3) : Encodes.Statement (.vexp d a r t) := rfl
theorem Encodes.vlog (d : BitVec 5) (a : BitVec 5) (r : BitVec 3) (t : BitVec 3) : Encodes.Statement (.vlog d a r t) := rfl
theorem Encodes.vrcp (d : BitVec 5) (a : BitVec 5) (r : BitVec 3) (t : BitVec 3) : Encodes.Statement (.vrcp d a r t) := rfl
theorem Encodes.vsqrt (d : BitVec 5) (a : BitVec 5) (r : BitVec 3) (t : BitVec 3) : Encodes.Statement (.vsqrt d a r t) := rfl
theorem Encodes.vrsqrt (d : BitVec 5) (a : BitVec 5) (r : BitVec 3) (t : BitVec 3) : Encodes.Statement (.vrsqrt d a r t) := rfl
theorem Encodes.vtanh (d : BitVec 5) (a : BitVec 5) (r : BitVec 3) (t : BitVec 3) : Encodes.Statement (.vtanh d a r t) := rfl
theorem Encodes.vsigm (d : BitVec 5) (a : BitVec 5) (r : BitVec 3) (t : BitVec 3) : Encodes.Statement (.vsigm d a r t) := rfl
theorem Encodes.vgelu (d : BitVec 5) (a : BitVec 5) (r : BitVec 3) (t : BitVec 3) : Encodes.Statement (.vgelu d a r t) := rfl
theorem Encodes.vfma (d : BitVec 5) (a : BitVec 5) (b : BitVec 5) (r : BitVec 3) (t : BitVec 3) (c : BitVec 5) : Encodes.Statement (.vfma d a b r t c) := rfl
theorem Encodes.vfms (d : BitVec 5) (a : BitVec 5) (b : BitVec 5) (r : BitVec 3) (t : BitVec 3) (c : BitVec 5) : Encodes.Statement (.vfms d a b r t c) := rfl
theorem Encodes.vfnma (d : BitVec 5) (a : BitVec 5) (b : BitVec 5) (r : BitVec 3) (t : BitVec 3) (c : BitVec 5) : Encodes.Statement (.vfnma d a b r t c) := rfl
theorem Encodes.vredSum (d : BitVec 5) (a : BitVec 5) (x : BitVec 1) (t : BitVec 3) : Encodes.Statement (.vredSum d a x t) := rfl
theorem Encodes.vredMax (d : BitVec 5) (a : BitVec 5) (x : BitVec 1) (t : BitVec 3) : Encodes.Statement (.vredMax d a x t) := rfl
theorem Encodes.vredMin (d : BitVec 5) (a : BitVec 5) (x : BitVec 1) (t : BitVec 3) : Encodes.Statement (.vredMin d a x t) := rfl
theorem Encodes.vredMean (d : BitVec 5) (a : BitVec 5) (x : BitVec 1) (t : BitVec 3) : Encodes.Statement (.vredMean d a x t) := rfl
theorem Encodes.vredCount (d : BitVec 5) (a : BitVec 5) (x : BitVec 1) (t : BitVec 3) : Encodes.Statement (.vredCount d a x t) := rfl
theorem Encodes.vcvt (d : BitVec 5) (a : BitVec 5) (u : BitVec 3) (t : BitVec 3) (x : Option CvtExt) : Encodes.Statement (.vcvt d a u t x) := rfl
theorem Encodes.vtrn (d : BitVec 5) (a : BitVec 5) : Encodes.Statement (.vtrn d a) := rfl
theorem Encodes.vperm (d : BitVec 5) (a : BitVec 5) (b : BitVec 5) : Encodes.Statement (.vperm d a b) := rfl
theorem Encodes.vbrow (d : BitVec 5) (a : BitVec 5) (f : BitVec 6) : Encodes.Statement (.vbrow d a f) := rfl
theorem Encodes.vbcs (d : BitVec 5) (a : BitVec 5) (t : BitVec 3) : Encodes.Statement (.vbcs d a t) := rfl
theorem Encodes.vmov (d : BitVec 5) (a : BitVec 5) : Encodes.Statement (.vmov d a) := rfl
theorem Encodes.vext (d : BitVec 5) (a : BitVec 5) (b : BitVec 5) (t : BitVec 3) : Encodes.Statement (.vext d a b t) := rfl
theorem Encodes.vins (d : BitVec 5) (a : BitVec 5) (b : BitVec 5) (t : BitVec 3) : Encodes.Statement (.vins d a b t) := rfl
theorem Encodes.vtmask (d : BitVec 5) (a : BitVec 5) : Encodes.Statement (.vtmask d a) := rfl
theorem Encodes.vld (d : BitVec 5) (a : BitVec 5) (w : BitVec 4) (x : Option (BitVec 18)) : Encodes.Statement (.vld d a w x) := rfl
theorem Encodes.vst (g : BitVec 5) (a : BitVec 5) (b : BitVec 5) (w : BitVec 4) (x : Option (BitVec 18)) : Encodes.Statement (.vst g a b w x) := rfl
theorem Encodes.vldc (d : BitVec 5) (a : BitVec 5) (w : BitVec 4) (x : VldcExt) : Encodes.Statement (.vldc d a w x) := rfl
theorem Encodes.vstc (g : BitVec 5) (a : BitVec 5) (b : BitVec 5) (w : BitVec 4) (x : VstcExt) : Encodes.Statement (.vstc g a b w x) := rfl
theorem Encodes.mldb (a : BitVec 5) (w : BitVec 4) : Encodes.Statement (.mldb a w) := rfl
theorem Encodes.mldbt (a : BitVec 5) (w : BitVec 4) : Encodes.Statement (.mldbt a w) := rfl
theorem Encodes.mma (t : BitVec 3) (a : BitVec 5) (w : BitVec 4) : Encodes.Statement (.mma t a w) := rfl
theorem Encodes.mmaC (t : BitVec 3) (a : BitVec 5) (w : BitVec 4) : Encodes.Statement (.mmaC t a w) := rfl
theorem Encodes.mdrnRaw (t : BitVec 3) (a : BitVec 5) (w : BitVec 4) (r : BitVec 2) (x : Option (BitVec 5)) : Encodes.Statement (.mdrnRaw t a w r x) := rfl
theorem Encodes.mdrnRawa (t : BitVec 3) (a : BitVec 5) (w : BitVec 4) (r : BitVec 2) (x : Option (BitVec 5)) : Encodes.Statement (.mdrnRawa t a w r x) := rfl
theorem Encodes.mdrnMean (t : BitVec 3) (a : BitVec 5) (w : BitVec 4) (r : BitVec 2) (x : Option (BitVec 5)) : Encodes.Statement (.mdrnMean t a w r x) := rfl
theorem Encodes.mdrnCount (t : BitVec 3) (a : BitVec 5) (w : BitVec 4) (r : BitVec 2) (x : Option (BitVec 5)) : Encodes.Statement (.mdrnCount t a w r x) := rfl
theorem Encodes.mclr (t : BitVec 3) : Encodes.Statement (.mclr t) := rfl
theorem Encodes.sclA (a : BitVec 5) (w : BitVec 4) : Encodes.Statement (.sclA a w) := rfl
theorem Encodes.sclB (a : BitVec 5) (w : BitVec 4) : Encodes.Statement (.sclB a w) := rfl
theorem Encodes.sclrA : Encodes.Statement (.sclrA) := rfl
theorem Encodes.sclrB : Encodes.Statement (.sclrB) := rfl
theorem Encodes.cpy (a : BitVec 5) (l : BitVec 3) (n : BitVec 1) (x : Option (BitVec 16)) : Encodes.Statement (.cpy a l n x) := rfl
theorem Encodes.cpyaw (d : BitVec 3) (a : BitVec 5) (l : BitVec 3) (n : BitVec 1) (x : Option (BitVec 16)) : Encodes.Statement (.cpyaw d a l n x) := rfl
theorem Encodes.cpymc (a : BitVec 5) (l : BitVec 3) (n : BitVec 1) (x : Option (BitVec 16)) : Encodes.Statement (.cpymc a l n x) := rfl
theorem Encodes.cpyrm (a : BitVec 5) (l : BitVec 3) (n : BitVec 1) (x : Option (BitVec 16)) : Encodes.Statement (.cpyrm a l n x) := rfl
theorem Encodes.rmapost (a : BitVec 5) (b : BitVec 5) (l : BitVec 3) (n : BitVec 1) (x : Option (BitVec 16)) : Encodes.Statement (.rmapost a b l n x) := rfl
theorem Encodes.sopen (d : BitVec 3) (a : BitVec 5) : Encodes.Statement (.sopen d a) := rfl
theorem Encodes.spush (d : BitVec 5) (a : BitVec 3) (b : BitVec 5) : Encodes.Statement (.spush d a b) := rfl
theorem Encodes.spop (d : BitVec 5) (a : BitVec 3) : Encodes.Statement (.spop d a) := rfl
theorem Encodes.sclose (a : BitVec 3) : Encodes.Statement (.sclose a) := rfl
theorem Encodes.sstat (d : BitVec 5) (a : BitVec 3) : Encodes.Statement (.sstat d a) := rfl
theorem Encodes.ckopen (d : BitVec 3) (a : BitVec 5) : Encodes.Statement (.ckopen d a) := rfl
theorem Encodes.ckhold (a : BitVec 3) (b : BitVec 5) : Encodes.Statement (.ckhold a b) := rfl
theorem Encodes.cksend (c : BitVec 5) (a : BitVec 3) (b : BitVec 5) (l : BitVec 3) (n : BitVec 1) (x : Option (BitVec 16)) : Encodes.Statement (.cksend c a b l n x) := rfl
theorem Encodes.ckclose (a : BitVec 3) : Encodes.Statement (.ckclose a) := rfl
theorem Encodes.ckstat (d : BitVec 5) (a : BitVec 3) : Encodes.Statement (.ckstat d a) := rfl
theorem Encodes.kvcommit (d : BitVec 5) (a : BitVec 5) (b : BitVec 5) (l : BitVec 3) (n : BitVec 1) (x : Option (BitVec 16)) : Encodes.Statement (.kvcommit d a b l n x) := rfl
theorem Encodes.launch (a : BitVec 5) (b : BitVec 5) : Encodes.Statement (.launch a b) := rfl
theorem Encodes.coldBoot : Encodes.Statement .coldBoot := rfl
theorem Encodes.warmReset : Encodes.Statement .warmReset := rfl
theorem Encodes.bootImageReadResponse : Encodes.Statement .bootImageReadResponse := rfl
theorem Encodes.t2size : Encodes.Statement .t2size := rfl
theorem Encodes.t2waitExpiry : Encodes.Statement .t2waitExpiry := rfl
theorem Encodes.authenticationTimeout : Encodes.Statement .authenticationTimeout := rfl
theorem Encodes.powerSample : Encodes.Statement .powerSample := rfl
theorem Encodes.thermalTrip : Encodes.Statement .thermalTrip := rfl
theorem Encodes.pkgPowerWrite : Encodes.Statement .pkgPowerWrite := rfl
theorem Encodes.registerWrite : Encodes.Statement .registerWrite := rfl
theorem Encodes.cicadaTick : Encodes.Statement .cicadaTick := rfl
theorem Encodes.periodicDrain : Encodes.Statement .periodicDrain := rfl
theorem Encodes.sluiceDecay : Encodes.Statement .sluiceDecay := rfl
theorem Encodes.packetRoute : Encodes.Statement .packetRoute := rfl
theorem Encodes.readRequest : Encodes.Statement .readRequest := rfl
theorem Encodes.readResponse : Encodes.Statement .readResponse := rfl
theorem Encodes.write : Encodes.Statement .write := rfl
theorem Encodes.writeAcknowledgement : Encodes.Statement .writeAcknowledgement := rfl
theorem Encodes.atomicRequest : Encodes.Statement .atomicRequest := rfl
theorem Encodes.atomicResponse : Encodes.Statement .atomicResponse := rfl
theorem Encodes.engineData : Encodes.Statement .engineData := rfl
theorem Encodes.pathMarker : Encodes.Statement .pathMarker := rfl
theorem Encodes.markerAcknowledgement : Encodes.Statement .markerAcknowledgement := rfl
theorem Encodes.reorderTimeout : Encodes.Statement .reorderTimeout := rfl
theorem Encodes.requestTimeout : Encodes.Statement .requestTimeout := rfl
theorem Encodes.linkReplay : Encodes.Statement .linkReplay := rfl
theorem Encodes.linkRetrainEnd : Encodes.Statement .linkRetrainEnd := rfl
theorem Encodes.homeSliceFill : Encodes.Statement .homeSliceFill := rfl
theorem Encodes.probeAcknowledgement : Encodes.Statement .probeAcknowledgement := rfl
theorem Encodes.probeRefusal : Encodes.Statement .probeRefusal := rfl
theorem Encodes.circuitBeat : Encodes.Statement .circuitBeat := rfl
theorem Encodes.collapseNotice : Encodes.Statement .collapseNotice := rfl
theorem Encodes.resumePointReport : Encodes.Statement .resumePointReport := rfl
theorem Encodes.resumeReportTimeout : Encodes.Statement .resumeReportTimeout := rfl
theorem Encodes.leaseExpiry : Encodes.Statement .leaseExpiry := rfl
theorem Encodes.sendAcknowledgement : Encodes.Statement .sendAcknowledgement := rfl
theorem Encodes.grainReservation : Encodes.Statement .grainReservation := rfl
theorem Encodes.circuitSetupRequest : Encodes.Statement .circuitSetupRequest := rfl
theorem Encodes.sailBoundary : Encodes.Statement .sailBoundary := rfl
theorem Encodes.grain : Encodes.Statement .grain := rfl
theorem Encodes.grainDelivery : Encodes.Statement .grainDelivery := rfl
theorem Encodes.relaySpaceReport : Encodes.Statement .relaySpaceReport := rfl
theorem Encodes.podNextHop : Encodes.Statement .podNextHop := rfl
theorem Encodes.podAccessAdmission : Encodes.Statement .podAccessAdmission := rfl
theorem Encodes.sack : Encodes.Statement .sack := rfl
theorem Encodes.podResendTimeout : Encodes.Statement .podResendTimeout := rfl
theorem Encodes.remoteAccessTimeout : Encodes.Statement .remoteAccessTimeout := rfl
theorem Encodes.flushingReadResponse : Encodes.Statement .flushingReadResponse := rfl
theorem Encodes.registrationStateWrite : Encodes.Statement .registrationStateWrite := rfl
theorem Encodes.rmaTailWrite : Encodes.Statement .rmaTailWrite := rfl
theorem Encodes.rmaEnableWrite : Encodes.Statement .rmaEnableWrite := rfl
theorem Encodes.rmaErrstopWrite : Encodes.Statement .rmaErrstopWrite := rfl
theorem Encodes.rmaNop : Encodes.Statement .rmaNop := rfl
theorem Encodes.rmaPut : Encodes.Statement .rmaPut := rfl
theorem Encodes.rmaGet : Encodes.Statement .rmaGet := rfl
theorem Encodes.rmaWait : Encodes.Statement .rmaWait := rfl
theorem Encodes.rmaDescriptorRetire : Encodes.Statement .rmaDescriptorRetire := rfl
theorem Encodes.hostMemoryAccess : Encodes.Statement .hostMemoryAccess := rfl
theorem Encodes.queueTlWrite : Encodes.Statement .queueTlWrite := rfl
theorem Encodes.queueEnableWrite : Encodes.Statement .queueEnableWrite := rfl
theorem Encodes.queueStopWrite : Encodes.Statement .queueStopWrite := rfl
theorem Encodes.queueEntryTake : Encodes.Statement .queueEntryTake := rfl
theorem Encodes.recordFetch : Encodes.Statement .recordFetch := rfl
theorem Encodes.recordStart : Encodes.Statement .recordStart := rfl
theorem Encodes.gangNode : Encodes.Statement .gangNode := rfl
theorem Encodes.gangStart : Encodes.Statement .gangStart := rfl
theorem Encodes.gangRestore : Encodes.Statement .gangRestore := rfl
theorem Encodes.copyNode : Encodes.Statement .copyNode := rfl
theorem Encodes.collectiveNode : Encodes.Statement .collectiveNode := rfl
theorem Encodes.circuitOpenNode : Encodes.Statement .circuitOpenNode := rfl
theorem Encodes.signalNode : Encodes.Statement .signalNode := rfl
theorem Encodes.subgraphNode : Encodes.Statement .subgraphNode := rfl
theorem Encodes.joinNode : Encodes.Statement .joinNode := rfl
theorem Encodes.waitNode : Encodes.Statement .waitNode := rfl
theorem Encodes.recordRetirement : Encodes.Statement .recordRetirement := rfl
theorem Encodes.create : Encodes.Statement .create := rfl
theorem Encodes.destroy : Encodes.Statement .destroy := rfl
theorem Encodes.swapout : Encodes.Statement .swapout := rfl
theorem Encodes.swapin : Encodes.Statement .swapin := rfl
theorem Encodes.fence : Encodes.Statement .fence := rfl
theorem Encodes.fwupd : Encodes.Statement .fwupd := rfl
theorem Encodes.retire : Encodes.Statement .retire := rfl
theorem Encodes.mailboxUnlistedCommand : Encodes.Statement .mailboxUnlistedCommand := rfl
theorem Encodes.swapoutSaveEnd : Encodes.Statement .swapoutSaveEnd := rfl
theorem Encodes.swapinRestoreEnd : Encodes.Statement .swapinRestoreEnd := rfl
theorem Encodes.fwupdEnd : Encodes.Statement .fwupdEnd := rfl
theorem Encodes.coreRepair : Encodes.Statement .coreRepair := rfl
theorem Encodes.memoryDieFailure : Encodes.Statement .memoryDieFailure := rfl
theorem Encodes.partRsWrite : Encodes.Statement .partRsWrite := rfl
theorem Encodes.priorityChange : Encodes.Statement .priorityChange := rfl
theorem Encodes.invalidationRequest : Encodes.Statement .invalidationRequest := rfl
theorem Encodes.invalidationMarking : Encodes.Statement .invalidationMarking := rfl
theorem Encodes.invalidationConfirmation : Encodes.Statement .invalidationConfirmation := rfl
theorem Encodes.walkNotice : Encodes.Statement .walkNotice := rfl
theorem Encodes.placementEvaluation : Encodes.Statement .placementEvaluation := rfl
theorem Encodes.plcRetHeadWrite : Encodes.Statement .plcRetHeadWrite := rfl
theorem Encodes.plcLostHeadWrite : Encodes.Statement .plcLostHeadWrite := rfl
theorem Encodes.resultWrite : Encodes.Statement .resultWrite := rfl
theorem Encodes.trapEntry : Encodes.Statement .trapEntry := rfl
theorem Encodes.wdog : Encodes.Statement .wdog := rfl
theorem Encodes.bundleHoldRelease : Encodes.Statement .bundleHoldRelease := rfl
theorem Encodes.phaseDrainEnd : Encodes.Statement .phaseDrainEnd := rfl
theorem Encodes.mmaRowWrite : Encodes.Statement .mmaRowWrite := rfl
theorem Encodes.scaleLatchLanding : Encodes.Statement .scaleLatchLanding := rfl
theorem Encodes.copyCommandStart : Encodes.Statement .copyCommandStart := rfl
theorem Encodes.copyStageStart : Encodes.Statement .copyStageStart := rfl
theorem Encodes.copyCommandCompletion : Encodes.Statement .copyCommandCompletion := rfl
theorem Encodes.circuitPortCommandStart : Encodes.Statement .circuitPortCommandStart := rfl
theorem Encodes.streamUnitCommandStart : Encodes.Statement .streamUnitCommandStart := rfl
theorem Encodes.rmapostCommandStart : Encodes.Statement .rmapostCommandStart := rfl
theorem Encodes.launchCommandStart : Encodes.Statement .launchCommandStart := rfl
theorem Encodes.streamOpenCheck : Encodes.Statement .streamOpenCheck := rfl
theorem Encodes.sampleFlit : Encodes.Statement .sampleFlit := rfl
theorem Encodes.streamSampleApplication : Encodes.Statement .streamSampleApplication := rfl
theorem Encodes.creditFlit : Encodes.Statement .creditFlit := rfl
theorem Encodes.detachFlit : Encodes.Statement .detachFlit := rfl
theorem Encodes.attachFlit : Encodes.Statement .attachFlit := rfl
theorem Encodes.closeFlit : Encodes.Statement .closeFlit := rfl
theorem Encodes.breakFlit : Encodes.Statement .breakFlit := rfl
theorem Encodes.streamLossTimeout : Encodes.Statement .streamLossTimeout := rfl
theorem Encodes.gangBarrierCompletion : Encodes.Statement .gangBarrierCompletion := rfl
theorem Encodes.gangBarrierRelease : Encodes.Statement .gangBarrierRelease := rfl
theorem Encodes.rejectedStoreReport : Encodes.Statement .rejectedStoreReport := rfl
theorem Encodes.blackBoxEntryRead : Encodes.Statement .blackBoxEntryRead := rfl
theorem Encodes.c0ServiceFailure : Encodes.Statement .c0ServiceFailure := rfl

end Sys2Proof.Laws
end

