-- ==== Sys2Proof/Tests/Slice0.lean ====
section
/-!
SUPPORT. Tests: ill-formed terms that the check refuses, words written out from the encoding, single steps with results worked out
from the rules, and, for every statement, states and operands that meet its hypotheses.
-/

set_option Elab.async false

namespace Sys2Proof.Tests

open Sys2Proof Sys2Proof.Machine

/-! ## Ill-formed terms are refused (R329) -/

/-- One ill-formed term for each check of an enumerated field, and a well-formed neighbour of each. -/
theorem test_wf_refuses :
    (Instr.vadd 1 2 3 0 5).wf = false ∧ (Instr.vadd 1 2 3 0 4).wf = true
    ∧ (Instr.vadd 1 2 3 4 0).wf = false ∧ (Instr.vadd 1 2 3 3 0).wf = true
    ∧ (Instr.vexp 1 2 0 3).wf = false ∧ (Instr.vexp 1 2 0 2).wf = true
    ∧ (Instr.vand 1 2 3 2).wf = false ∧ (Instr.vand 1 2 3 3).wf = true ∧ (Instr.vand 1 2 3 5).wf = false
    ∧ (Instr.vcvt 1 2 5 0 none).wf = false ∧ (Instr.vcvt 1 2 4 0 none).wf = true
    ∧ (Instr.vldc 1 2 3 ⟨5, 0, 0⟩).wf = false ∧ (Instr.vstc 0 1 2 3 ⟨5, 0, 0, 0⟩).wf = false := by decide

theorem test_wf_refuses_order :
    (Instr.fenceCm 5 1).wf = false ∧ (Instr.fenceCm 4 1).wf = true ∧ (Instr.tlwait 5 0 0).wf = false
    ∧ (Instr.ldgD 1 2 3 (some ⟨0, false, 2, 0, 0⟩)).wf = false ∧ (Instr.ldgD 1 2 3 (some ⟨0, false, 0, 1, 0⟩)).wf = false
    ∧ (Instr.ldgD 1 2 3 (some ⟨0, false, 1, 1, 0⟩)).wf = true
    ∧ (Instr.stgD 0 1 2 3 (some ⟨0, 1, 0, 0⟩)).wf = false ∧ (Instr.stgD 0 1 2 3 (some ⟨0, 2, 0, 0⟩)).wf = true
    ∧ (Instr.aadd 1 2 3 0 0 ⟨0, 0, 1, 0⟩).wf = false ∧ (Instr.afadd 1 2 3 0 1 ⟨0, 0, 0, 0⟩).wf = false
    ∧ (Instr.phase 5).wf = false ∧ (Instr.phase 4).wf = true ∧ (Instr.lvl 1 2 3 6).wf = false ∧ (Instr.lvl 1 2 3 5).wf = true
    ∧ (Instr.cpy 1 0 0 (some 1)).wf = false ∧ (Instr.cpy 1 0 1 (some 0)).wf = false ∧ (Instr.cpy 1 0 1 (some 1)).wf = true := by decide

/-! ## Words written out from R318 to R328: E, CLASS, OPCODE and the format's fields, from bit 31 down -/

/-- The bundle of some words. -/
def dec (ws : List Word) : BundleFate := decodeBytes (ws.flatMap wordBytes)

/-- Class S: `addi s4, s4, -1`; `addi s5, s5, 4096` with a payload; `cmp.lt p3, s4, s5`; `(p3) sel s6, s7, s8`; `(!p2) br -3`. -/
theorem test_decode_scalar :
    dec [1#1 ++ 0#3 ++ 0x20#7 ++ 4#5 ++ 4#5 ++ 0x7FF#11] = .ok [(0, .addi 4 4 (-1) none)]
    ∧ dec [0#1 ++ 0#3 ++ 0x20#7 ++ 5#5 ++ 5#5 ++ 0#11, 1#1 ++ 6#3 ++ 2#28] = .ok [(0, .addi 5 5 0 (some 2))]
    ∧ dec [1#1 ++ 0#3 ++ 0x30#7 ++ 3#5 ++ 4#5 ++ 5#5 ++ 2#6] = .ok [(0, .cmpLt 3 4 5)]
    ∧ dec [1#1 ++ 0#3 ++ 0x3D#7 ++ 6#5 ++ 7#5 ++ 8#5 ++ 3#6] = .ok [(0, .sel 6 7 8 3)]
    ∧ dec [1#1 ++ 0#3 ++ 0x50#7 ++ 0b10010#5 ++ 0xFFFD#16] = .ok [(0, .br 0x12 (-3) none)] := by decide +kernel

/-- Class S: `ld.w s5, [s10 + 8]`, whose offset is I × 4; `lvl`; `loop.sp` of 3 bundles and
3 stages; `crr s2, 1`; `trap 7`; `tend`. -/
theorem test_decode_control :
    dec [1#1 ++ 0#3 ++ 0x42#7 ++ 5#5 ++ 10#5 ++ 0#5 ++ 2#6] = .ok [(0, .ldW 5 10 2 none)]
    ∧ dec [1#1 ++ 0#3 ++ 0x58#7 ++ 10#5 ++ 12#5 ++ 13#5 ++ 0#6] = .ok [(0, .lvl 10 12 13 0)]
    ∧ dec [1#1 ++ 0#3 ++ 0x5A#7 ++ 0#5 ++ 0#4 ++ 2#4 ++ 0#2 ++ 2#6] = .ok [(0, .loopSp 2 2)]
    ∧ dec [1#1 ++ 0#3 ++ 0x60#7 ++ 2#5 ++ 0#4 ++ 1#12] = .ok [(0, .crr 2 1)]
    ∧ dec [1#1 ++ 0#3 ++ 0x62#7 ++ 0#5 ++ 7#16] = .ok [(0, .trap 7)] ∧ dec [1#1 ++ 0#3 ++ 0x64#7 ++ 0#21] = .ok [(0, .tend)] := by decide +kernel

/-- Class W: `ldg.d` with class, `.acq.die` and an offset; `acas.w`; `fence.cm.die 6`; `phase 1`; `tlwait`; `tbinit`; `tbwait`. -/
theorem test_decode_wait :
    dec [0#1 ++ 1#3 ++ 0x03#7 ++ 7#5 ++ 9#5 ++ 0#5 ++ 3#4 ++ 0#2, 0xE0040122#32] = .ok [(1, .ldgD 7 9 3 (some ⟨2, false, 1, 2, 256⟩))]
    ∧ dec [0#1 ++ 1#3 ++ 0x1A#7 ++ 4#5 ++ 6#5 ++ 8#5 ++ 1#4 ++ 0#2, 0xE0012400#32] = .ok [(1, .acas 4 6 8 1 0 ⟨0, 0, 0, 9, 2⟩)]
    ∧ dec [1#1 ++ 1#3 ++ 0x28#7 ++ 0#2 ++ 3#3 ++ 6#16] = .ok [(1, .fenceCm 3 6)]
    ∧ dec [1#1 ++ 1#3 ++ 0x2B#7 ++ 0#18 ++ 1#3] = .ok [(1, .phase 1)]
    ∧ dec [1#1 ++ 1#3 ++ 0x30#7 ++ 2#3 ++ 0#2 ++ 2#5 ++ 9#5 ++ 0#6] = .ok [(1, .tlwait 2 2 9)]
    ∧ dec [1#1 ++ 1#3 ++ 0x38#7 ++ 4#5 ++ 2#5 ++ 3#5 ++ 0#6] = .ok [(1, .tbinit 4 2 3)]
    ∧ dec [1#1 ++ 1#3 ++ 0x3A#7 ++ 2#3 ++ 0#2 ++ 2#5 ++ 5#5 ++ 0#6] = .ok [(1, .tbwait 2 2 5)] := by decide +kernel

/-- Class V: `vadd` of T = 2, RND 0; `vcvt` from T = 0 to T = 3; `vstc`. -/
theorem test_decode_vector :
    dec [1#1 ++ 2#3 ++ 0x00#7 ++ 5#5 ++ 1#5 ++ 2#5 ++ 0#3 ++ 2#3] = .ok [(2, .vadd 5 1 2 0 2)]
    ∧ dec [0#1 ++ 2#3 ++ 0x2A#7 ++ 3#5 ++ 2#5 ++ 0#5 ++ 3#3 ++ 0#3, 0xE0000010#32] = .ok [(2, .vcvt 3 2 3 0 (some ⟨2, 0⟩))]
    ∧ dec [0#1 ++ 2#3 ++ 0x3F#7 ++ 0#5 ++ 7#5 ++ 5#5 ++ 2#4 ++ 0#2, 0xE0002500#32] = .ok [(2, .vstc 0 7 5 2 ⟨0, 0, 8, 9⟩)] := by decide +kernel

/-- Classes M and K: `mldbt tw3[s6]`; `mma a2, tw1, v5`; `mdrn.mean tw4[s9], a2`; `scl.a tw5[s4]`; `sclr.b`. -/
theorem test_decode_matrix :
    dec [1#1 ++ 3#3 ++ 0x02#7 ++ 0#5 ++ 6#5 ++ 3#4 ++ 0#1 ++ 0#6] = .ok [(4, .mldbt 6 3)]
    ∧ dec [1#1 ++ 3#3 ++ 0x08#7 ++ 0#2 ++ 2#3 ++ 5#5 ++ 1#4 ++ 0#1 ++ 0#6] = .ok [(4, .mma 2 5 1)]
    ∧ dec [1#1 ++ 3#3 ++ 0x10#7 ++ 0#2 ++ 2#3 ++ 9#5 ++ 4#4 ++ 2#3 ++ 0#2 ++ 0#2] = .ok [(4, .mdrnMean 2 9 4 0 none)]
    ∧ dec [1#1 ++ 4#3 ++ 0x01#7 ++ 0#5 ++ 4#5 ++ 5#4 ++ 0#1 ++ 0#6] = .ok [(5, .sclA 4 5)]
    ∧ dec [1#1 ++ 4#3 ++ 0x02#7 ++ 0#5 ++ 0#5 ++ 0#4 ++ 1#1 ++ 0#6] = .ok [(5, .sclrB)] := by decide +kernel

/-- Class C: `cpy s7, tl2`; `cksend`; `kvcommit`; two slots of the class in one bundle, which may not name one
handle (R330). -/
theorem test_decode_engine :
    dec [1#1 ++ 5#3 ++ 0x00#7 ++ 0#5 ++ 7#5 ++ 0#5 ++ 2#3 ++ 1#1 ++ 0#2] = .ok [(6, .cpy 7 2 1 none)]
    ∧ dec [1#1 ++ 5#3 ++ 0x12#7 ++ 5#5 ++ 1#5 ++ 4#5 ++ 0#3 ++ 1#1 ++ 0#2] = .ok [(6, .cksend 5 1 4 0 1 none)]
    ∧ dec [1#1 ++ 5#3 ++ 0x18#7 ++ 4#5 ++ 2#5 ++ 3#5 ++ 1#3 ++ 1#1 ++ 0#2] = .ok [(6, .kvcommit 4 2 3 1 1 none)]
    ∧ dec [0#1 ++ 5#3 ++ 0x14#7 ++ 1#5 ++ 0#5 ++ 0#11, 1#1 ++ 5#3 ++ 0x13#7 ++ 0#5 ++ 1#5 ++ 0#11] = .ok [(6, .ckstat 1 0), (7, .ckclose 1)]
    ∧ dec [0#1 ++ 5#3 ++ 0x14#7 ++ 1#5 ++ 0#5 ++ 0#11, 1#1 ++ 5#3 ++ 0x13#7 ++ 0#5 ++ 0#5 ++ 0#11] = .ien 6 := by decide +kernel

/-- R321, R329: an unassigned opcode is IIL with it; a class 7 head is IEN with reason 1. -/
theorem test_decode_refuses :
    dec [1#1 ++ 0#3 ++ 0x5F#7 ++ 0#21] = .iil 0x5F 0 [] ∧ dec [1#1 ++ 7#3 ++ 0#28] = .ien 1 := by decide +kernel

/-! ## Small states -/

/-- The reset state with a context 0. -/
def sc (c : Ctx) : State := setX State.reset 0 c

/-- The reset state with a context 0 and a core 0. -/
def sk (c : Ctx) (k : Core) : State := setX { State.reset with cores := [(0, k)] } 0 c

/-- A context with scalar registers s1 and s2. -/
def rc (a b : DWord) : Ctx := { Ctx.init with sr := [(1, a), (2, b)] }

/-- A context whose region is the whole tile store. -/
def tc (a b : DWord) : Ctx := { rc a b with tsSize := 64 }

/-- A translation of the page at VA 0 to PA 0. -/
def page0 : TlbEntry :=
  { part := 0, vpn := 0, size := 0, pa := 0, rd := true, wr := true, x := true, u := true, nc := false, fmt := 0, stop := false }

/-- A fetchable state: the page at VA 0 is mapped and populated, and the words at 0 and 4 end their bundles. -/
def sfetch (c : Ctx) : State := mgSetF { sk c { Core.init with tlb := [page0], ic := [⟨0, 0, 0⟩] } with mem := [(3, 0x80), (7, 0x80)] } 0 oMem 8 24 1

/-! ## Hypotheses that are met: scalar and control -/

theorem wit_scalar_statements : notReady State.reset.ctx = false ∧ notReady (sc (rc 1 2)).ctx = false := by decide

theorem wit_DivideForms :
    State.reset.core.div ≤ State.reset.cyc ∧ readS State.reset.ctx 2 = 0
    ∧ readS (sc (rc 5 1)).ctx 2 ≠ 0 ∧ readS (sc (rc 5 1)).ctx 1 = 5
    ∧ (readS (sc (rc (2 ^ 63) (-1))).ctx 1).toInt = -2 ^ 63 ∧ (readS (sc (rc (2 ^ 63) (-1))).ctx 2).toInt = -1
    ∧ (sk Ctx.init { Core.init with div := 1 }).cyc < (sk Ctx.init { Core.init with div := 1 }).core.div := by decide +kernel

theorem wit_BranchForms :
    (readP State.reset.ctx 0 != false) = true ∧ (readP State.reset.ctx 0 != true) = false
    ∧ (readS (sc (rc (2 ^ 64 - 4) 0)).ctx 1).toNat % 4 = 0 ∧ (readS (sc (rc 1 0)).ctx 1).toNat % 4 ≠ 0
    ∧ notReady (sc (rc 1 0)).ctx = false := by decide +kernel

theorem wit_LoopLevels :
    let ok := sc (rc (2 ^ 32 - 1) 1)
    let wide := sc (rc (2 ^ 32) 1)
    let other := sc { rc 3 1 with nest := [(5, ⟨true, 2, []⟩)] }
    let full := sc { rc 2 1 with nest := [(5, ⟨true, 2, [(1, 1), (2, 1), (3, 1), (4, 1)]⟩)] }
    let three := sc { rc 2 1 with nest := [(5, ⟨true, 2, [(1, 1), (2, 1), (3, 1)]⟩)] }
    notReady ok.ctx = false ∧ (5 : BitVec 6).toNat ≤ 5
    ∧ (readS ok.ctx 1).toNat < 2 ^ 32 ∧ (mget Level.init ok.ctx.curNest 5).armed = false
    ∧ 2 ^ 32 ≤ (readS wide.ctx 1).toNat
    ∧ (mget Level.init other.ctx.curNest 5).armed = true ∧ (mget Level.init other.ctx.curNest 5).count ≠ (readS other.ctx 1).extractLsb' 0 32
    ∧ (mget Level.init full.ctx.curNest 5).count = (readS full.ctx 1).extractLsb' 0 32 ∧ 4 ≤ (mget Level.init full.ctx.curNest 5).pairs.length
    ∧ (mget Level.init three.ctx.curNest 5).count = (readS three.ctx 1).extractLsb' 0 32 ∧ ¬ 4 ≤ (mget Level.init three.ctx.curNest 5).pairs.length := by
  decide +kernel

/-- The number of passes of a pending nest. -/
def passesOf (s : State) : Nat := ((nestLevels s.ctx.curNest).map (fun l => l.count.toNat)).foldl (fun p k => p * k) 1

theorem wit_LoopForms :
    let one := sc { Ctx.init with nest := [(0, ⟨true, 1, []⟩)] }
    let zero := sfetch { Ctx.init with nest := [(0, ⟨true, 0, []⟩)] }
    let huge := sc { Ctx.init with nest := [(0, ⟨true, 2 ^ 31, []⟩), (1, ⟨true, 2 ^ 31, []⟩), (2, ⟨true, 4, []⟩)] }
    let run := sc { Ctx.init with loop := some ⟨[], 0, 1, 0, 1, 1, 0, 0, []⟩ }
    nestLevels State.reset.ctx.curNest = [] ∧ run.ctx.curLoop.isSome = true ∧ (sc { Ctx.init with inh := true }).ctx.inh = true
    ∧ 2 ^ 64 ≤ passesOf huge
    ∧ nestLevels one.ctx.curNest ≠ [] ∧ one.ctx.curLoop = none ∧ one.ctx.inh = false ∧ passesOf one = 1 ∧ passesOf one + 16 - 1 < 2 ^ 64
    ∧ nestLevels zero.ctx.curNest ≠ [] ∧ passesOf zero = 0
    ∧ (match bodyEnd zero zero.cur 1 (zero.ctx.pc + 4).toNat with | .inl e => e = 8 | _ => false) = true := by decide +kernel

theorem wit_LoopDigits : ([1] : List Nat) ≠ [] ∧ (∀ c ∈ [1], 0 < c) ∧ ([3, 1, 2] : List Nat) ≠ [] ∧ (∀ c ∈ [3, 1, 2], 0 < c) := by decide

/-- Boundaries of the mapped registers, and shapes on both sides of 2,048 bytes: 64 rows of 16 and of 17 two-byte elements. -/
theorem wit_ControlRegisterForms :
    let mapped := fun (k : Nat) => decide (k ≤ 8 ∨ (0x10 ≤ k ∧ k ≤ 0x1F) ∨ (0x20 ≤ k ∧ k ≤ 0x22) ∨ (0x30 ≤ k ∧ k ≤ 0x33) ∨ (0x40 ≤ k ∧ k ≤ 0x5F))
    let shape := fun (v : DWord) => (v.toNat % 64 + 1) * (v.toNat / 2 ^ 8 % 128 + 1) * (if v.getLsbD 15 then 4 else 2)
    [0, 8, 0x10, 0x1F, 0x20, 0x22, 0x30, 0x33, 0x40, 0x5F].all mapped = true ∧ [9, 0xF, 0x23, 0x2F, 0x34, 0x3F, 0x60, 0xFFF].any mapped = false
    ∧ State.reset.ctx.sup = false ∧ (sc { Ctx.init with sup := true }).ctx.sup = true
    ∧ shape 0xF3F = 2048 ∧ 2048 < shape 0x103F := by decide +kernel

theorem wit_EnterAndLeaveForms : (sc { Ctx.init with inh := true }).ctx.inh = true ∧ State.reset.ctx.inh = false := by decide

/-- A quiet context in each mode; a latency at its least. -/
theorem wit_Quiet : State.reset.ctx.Quiet ∧ (sc { Ctx.init with inh := true, sup := true }).ctx.Quiet ∧ 1 ≤ 1 := by
  refine ⟨⟨?_, ?_, ?_, ?_, ?_⟩, ⟨?_, ?_, ?_, ?_, ?_⟩, ?_⟩ <;> decide

/-- A context with a trap handler. -/
def hc : Ctx := { Ctx.init with ti := [(7, 0x1000)] }

theorem wit_trap_statements :
    (getX (sc hc) 0).inh = false ∧ mget 0 (getX (sc hc) 0).ti 7 ≠ 0 ∧ 3 < 4 ∧ 15 < 16 ∧ 63 < 64 ∧ 255 < 256
    ∧ (getX (sc { hc with inh := true }) 0).inh = true ∧ (sc hc).ctx.results = [] ∧ (sc hc).ctx.await = .none ∧ (sc hc).ctx.trapi = none := by
  decide +kernel

theorem wit_ReturnByAct :
    let act := fun (n : Nat) => (tiRead (getX (sc { hc with inh := true, ti := [(0, BitVec.ofNat 64 n), (7, 0x1000)] }) 0) 0).toNat / 2 ^ 14 % 4
    let kind := fun (n : Nat) => (tiRead (getX (sc { hc with inh := true, ti := [(0, BitVec.ofNat 64 n), (7, 0x1000)] }) 0) 0).toNat / 2 ^ 8 % 4
    hc.hdeferred = [] ∧ hc.loop = none ∧ hc.infl = [] ∧ act 0 = 0 ∧ act 0x4000 = 1 ∧ kind 0x4000 = 0 ∧ act 0x4100 = 1 ∧ kind 0x4100 = 1
    ∧ act 0x8000 = 2 ∧ act 0xC000 = 3 := by decide +kernel

theorem wit_TrapPriorities :
    firstDeferred [⟨9, 0, 0, 0, 0, 0, 5⟩, ⟨8, 0, 0, 0, 0, 0, 5⟩, ⟨1, 0, 0, 0, 0, 0, 6⟩] = some ⟨8, 0, 0, 0, 0, 0, 5⟩
    ∧ lowestCause [⟨6, 0, 0, 0⟩, ⟨5, 0, 0, 0⟩] = some ⟨5, 0, 0, 0⟩ ∧ ([⟨6, 0, 0, 0⟩] : List Cause) ≠ [] := by decide +kernel

theorem wit_IllFormedIsIil : (Instr.vadd 1 2 3 0 5).wf = false ∧ notReady State.reset.ctx = false := by decide

theorem wit_InstructionIsItsSlot : (slotOf .nop).isSome = true ∧ Instr.nop.wf = true ∧ (slotOf (.mma 0 0 0)).isSome = true := by
  exact ⟨rfl, rfl, rfl⟩

/-! ## Hypotheses that are met: memory -/

theorem wit_TileLoadForms :
    let s := sc (tc (2 ^ 22 - 8) 0)
    let e := fun (v : DWord) => (readS (sc (tc v 0)).ctx 1).toNat
    let out := sc (tc (2 ^ 22) 0)
    let bad := sk (tc 64 0) { Core.init with ts := ⟨[], [], [2]⟩ }
    e (2 ^ 22 - 8) % 8 = 0 ∧ tsOpen s.ctx s.core (e (2 ^ 22 - 8)) 8 = true ∧ poisonTs s s.cur (e (2 ^ 22 - 8)) 8 = false
    ∧ tsOpen bad.ctx bad.core 64 8 = true ∧ poisonTs bad bad.cur 64 8 = true
    ∧ e (2 ^ 22 - 1) % 2 ≠ 0 ∧ e (2 ^ 22) % 8 = 0 ∧ tsOpen out.ctx out.core (e (2 ^ 22)) 8 = false ∧ notReady s.ctx = false
    ∧ (readP s.ctx 0 != false) = true ∧ (readP s.ctx 0 != true) = false := by decide +kernel

/-- The five cases of a byte and of a sector: inside and outside the bytes written, poisoned, cleaned whole, kept in part. -/
theorem wit_TileStoreReadAfterWrite :
    (64 ≤ 71 ∧ 71 < 64 + ([1, 2, 3, 4, 5, 6, 7, 8] : List Byte).length) ∧ ¬ (72 < 64 + ([1, 2, 3, 4, 5, 6, 7, 8] : List Byte).length)
    ∧ 2 ∈ (tsWrite ⟨[], [], []⟩ 64 [1] true).poison ∧ 2 ∉ (tsWrite ⟨[], [], [2]⟩ 64 (List.replicate 32 0) false).poison
    ∧ 2 ∈ (tsWrite ⟨[], [], [2]⟩ 64 (List.replicate 31 0) false).poison := by decide +kernel

theorem wit_MemoryReadAfterWrite : memWf [] = true ∧ memWf [(0, 1), (5, 2), (2 ^ 48 - 1, 3)] = true := by decide

theorem wit_HomeWriteVersionAndPoison :
    ([1] : List Byte) ≠ [] ∧ 63 % 64 + ([1] : List Byte).length ≤ 64 ∧ 0 % 64 + (List.replicate 64 (0 : Byte)).length ≤ 64
    ∧ isTier2 (64 * 1) = false ∧ isTier2 0x100000000000 = true := by decide +kernel

/-- A valid handle of the 64 KiB page at PA 0. -/
def hd0 : Handle := { st := 1, aret := false, size := 0, rd := true, wr := true, nc := false, fmt := 0, vpn := 0, pa := 0 }

/-- A state whose first 64 KiB are populated, with a handle h3. -/
def sh (h : Handle) (c : Ctx) : State := mgSetF (sc { c with hr := [(3, h)] }) 0 oMem 8 24 1

/-- A page at PA 0 that is being moved. -/
def page0Move : Move := { die := 0, entry := ⟨0, false, 0, none, false, [], 0, 0⟩, frames := [1], leaves := [], mark := 0, pos := 0, fault := 0, at_ := 0 }

theorem wit_ValidHandleServes :
    let s := sh hd0 Ctx.init
    (readH (getX s 0) 3).st = 1
    ∧ (0 + 65528) % 8 = 0 ∧ 65528 + 8 ≤ 65536 ∧ isLocal s 65528 = true ∧ populatedRange s 65528 8 = true ∧ hd0.rd = true ∧ hd0.wr = true
    ∧ moving s 65528 = false ∧ moving { s with moves := [page0Move] } 65528 = true
    ∧ ¬ (0 + 65529) % 8 = 0 ∧ (0 + 65536) % 8 = 0 ∧ 65536 < 65536 + 8 ∧ { hd0 with wr := false }.wr = false
    ∧ Handle.init.st = 0 ∧ Handle.init.aret = false ∧ { hd0 with st := 2 }.st = 2 := by decide +kernel

/-- A global operand is served. -/
def served (g : GlobOut) (h : Handle) (pa va : Nat) : Bool :=
  match g with
  | .ok h' p v => h' == h && p == pa && v == va
  | _ => false

theorem eq_of_served {g : GlobOut} {h : Handle} {pa va : Nat} (e : served g h pa va = true) : g = .ok h pa va := by
  cases g <;> simp_all [served]

/-- A translation is a mapping, or a fault. -/
def mapped (t : TransOut) (m : TlbEntry) : Bool :=
  match t with
  | .ok e => e == m
  | _ => false

theorem eq_of_mapped {t : TransOut} {m : TlbEntry} (e : mapped t m = true) : t = .ok m := by
  cases t <;> simp_all [mapped]

def faults (t : TransOut) : Bool :=
  match t with
  | .fault _ => true
  | _ => false

/-- A handle serves 8 bytes at the end of the page and a tile's at its start. -/
theorem wit_GlobalLoadAndStoreForms :
    let s := sh hd0 (rc 65528 0)
    Serves s hd0 65528 8 8 true false ∧ Serves s hd0 65528 8 8 false true ∧ Serves s hd0 0 2 64 true false ∧ Serves s hd0 0 2 64 false true
    ∧ readH s.ctx 3 = hd0 ∧ shapeBytes s.ctx.vshape = 2 ∧ s.core.dcDrain ≤ s.cyc ∧ isLocal s (hd0.addrAt 65528) = true
    ∧ wfLd none = true ∧ wfSt none = true ∧ wfLd (some ⟨0, false, 1, 4, 0⟩) = true ∧ wfSt (some ⟨0, 2, 4, 0⟩) = true ∧ wfSemScope 3 4 = true
    ∧ (readP s.ctx 0 != false) = true ∧ (readP s.ctx 0 != true) = false ∧ notReady s.ctx = false := by unfold Serves; decide +kernel

/-- A handle of another package's page; a store there finds room; an atomic is served. -/
theorem wit_GlobalLoadAndStoreForms_far :
    let h := { hd0 with pa := 2 ^ 48 }
    let s := sh h (rc 65528 0)
    isLocal s (h.addrAt 65528) = false ∧ (remoteSet s s.ctx).length < 8 ∧ Serves s h 65528 8 8 true true := by unfold Serves; decide +kernel

/-- A gang of two members on contexts 0 and 1 with exchange storage; member 1 has ended or not. -/
def gang2 (live : List Nat) (exch : Bool) : Gang :=
  { id := 1, part := 0, rcd := 1, node := 0, q := 0, prio := 0, st := 1, tasks := 2, xs := [0, 1], live := live, exch := exch, pre := false,
    acm := 0, ts := 0, save := 0, arrived := [], release := none, saved := [], xstOut := 0, halt := 0, fault := false }

theorem wit_ExchangeStoreForm :
    let s := fun (live : List Nat) (exch : Bool) (a b : DWord) => { sc { rc a b with task := true, gang := 1 } with gangs := [gang2 live exch] }
    gangOf (s [0, 1] true 0x3FFF8 1) 0 = some (gang2 [0, 1] true) ∧ (gang2 [0, 1] true).exch = true ∧ 1 < 2 ∧ 0x3FFF8 < 0x40000 ∧ 0x3FFF8 % 8 = 0
    ∧ (1 : Nat) ∉ (gang2 [0] true).live ∧ 1 ∈ (gang2 [0, 1] true).live ∧ (gang2 [0, 1] false).exch = false ∧ 2 ≤ 2 ∧ 0x40000 % 8 = 0
    ∧ gangOf (s [0, 1] false 0 0) 0 = some (gang2 [0, 1] false) ∧ notReady (s [0] true 0 0).ctx = false := by decide +kernel

theorem wit_TranslateForms :
    let s := sk (rc (2 ^ 16 - 1) 0) { Core.init with tlb := [page0] }
    let su := sk (rc 0 0) { Core.init with tlb := [{ page0 with u := false }] }
    let st := sk (rc 0 0) { Core.init with tlb := [{ page0 with stop := true }] }
    Mapped s (2 ^ 16 - 1) page0 ∧ page0.u = true ∧ 2 ^ 16 - 1 < 2 ^ 52 ∧ (readS (sc (rc (2 ^ 52) 0)).ctx 1).toNat = 2 ^ 52
    ∧ Mapped su 0 { page0 with u := false } ∧ su.ctx.sup = false
    ∧ faults (translate (sk (rc 0 0) { Core.init with roots := [(0, 0, 0)] }) 0 (2 ^ 30)) = true
    ∧ (getC s 0).tlb.find? (fun f => covers f (getX s 0).part (65535 / 65536)) = some page0
    ∧ moving s ((page0.pa.toNat + (65535 - page0.vpn.toNat * 65536)) % 2 ^ 56) = false
    ∧ moving { s with moves := [page0Move] } ((page0.pa.toNat + (65535 - page0.vpn.toNat * 65536)) % 2 ^ 56) = true
    ∧ (getC st 0).tlb.find? (fun f => covers f (getX st 0).part 0) = some { page0 with stop := true } := by unfold Mapped; decide +kernel

theorem wit_InvalidateForms :
    (sc { rc 0 (2 ^ 24 - 1) with sup := true }).ctx.sup = true ∧ (readS (sc (rc 0 (2 ^ 24 - 1))).ctx 2).toNat < 2 ^ 24
    ∧ 2 ^ 24 ≤ (readS (sc (rc 0 (2 ^ 24))).ctx 2).toNat ∧ (sc (rc 0 0)).ctx.sup = false := by decide +kernel

theorem wit_FenceForms :
    (4 : BitVec 3).toNat ≤ 4 ∧ (1 : BitVec 16) ≠ 0 ∧ State.reset.ctx.released = false
    ∧ (sc { Ctx.init with released := true }).ctx.released = true ∧ cleanDone (sc { Ctx.init with released := true }) 0 = true
    ∧ (let s := sk { Ctx.init with released := true } { Core.init with wbs := [(0, 0, 0)] }
       s.ctx.released = true ∧ cleanDone s 0 = false) := by decide +kernel

theorem wit_PhaseForm :
    let t := sk { tc 0 0 with task := true, tsSize := 1 } Core.init
    let m := sk { tc 0 0 with task := true } Core.init
    let w := sk { tc 0 0 with task := true, tsSize := 1 } { Core.init with dcDrain := 1 }
    (4 : BitVec 3).toNat ≤ 4 ∧ (tasksOn t 0).any (fun y => splitMeets 4 (getX t y)) = false ∧ t.core.dcDrain ≤ t.cyc
    ∧ (tasksOn m 0).any (fun y => splitMeets 4 (getX m y)) = true
    ∧ (tasksOn w 0).any (fun y => splitMeets 4 (getX w y)) = false ∧ w.cyc < w.core.dcDrain := by decide +kernel

/-- Values at the edge of the modular order, and a promised increment. -/
theorem wit_TimelineForms :
    let reached := fun (t n : DWord) => decide ((t - n).toNat < 2 ^ 63)
    let p := sc { rc 0 0 with incs := [⟨2, 1, 0, 0, 0, false⟩] }
    let s := sh hd0 (rc 65528 0)
    reached 5 5 = true ∧ reached (2 ^ 63 - 1) 0 = true ∧ reached (2 ^ 63) 0 = false ∧ reached 0 1 = false
    ∧ reached (readTl p.ctx 2) 1 = false ∧ reached (promised p.ctx 2 4) 1 = true ∧ reached (promised State.reset.ctx 2 4) 1 = false
    ∧ (readS (sc (rc (2 ^ 63 - 1) 0)).ctx 1).toNat < 2 ^ 63 ∧ 2 ^ 63 ≤ (readS (sc (rc (2 ^ 63) 0)).ctx 1).toNat
    ∧ Serves s hd0 65528 8 8 true true ∧ Serves s hd0 65528 8 8 true false ∧ { s.ctx with poll := some 1 }.poll = some 1 ∧ reached 1 (readS s.ctx 2) = true
    ∧ s.ctx.poll = none ∧ s.ctx.pollTick = none := by unfold Serves; decide +kernel

theorem wit_TransactionBarrierForms :
    let s := sc (tc (2 ^ 22 - 16) 15)
    let w := (readS s.ctx 1).toNat
    let overrun := sk (tc 0 0) { Core.init with ts := tsWrite ⟨[], [], []⟩ 0 (List.replicate 15 0 ++ [0x08]) false }
    let idle := sk (tc 0 0) { Core.init with ts := tsWrite ⟨[], [], []⟩ 0 (List.replicate 16 0) false }
    w % 16 = 0 ∧ 65536 * s.ctx.tsBase.toNat ≤ w ∧ w + 16 ≤ 65536 * (s.ctx.tsBase.toNat + s.ctx.tsSize.toNat) ∧ tsOpen s.ctx s.core w 16 = true
    ∧ (readS (sc (tc 8 0)).ctx 1).toNat % 16 ≠ 0 ∧ ¬ (2 ^ 22 + 16 ≤ 65536 * 64) ∧ 2 ^ 20 - 1 < 2 ^ 20 ∧ 2 ^ 40 - 1 < 2 ^ 40
    ∧ (readS s.ctx 2).toNat < 16 ∧ 16 ≤ (readS (sc (tc 0 16)).ctx 2).toNat
    ∧ (BitVec.ofNat 128 (leNat (loadTs overrun 0 0 16))).getLsbD 123 = true
    ∧ (BitVec.ofNat 128 (leNat (loadTs idle 0 0 16))).getLsbD 123 = false ∧ leNat (loadTs idle 0 0 16) / 2 ^ 124 = 0 := by decide +kernel

/-- A barrier word for each clause: not armed; an overrun; the last arrival; one of several. -/
theorem wit_TransactionBarrierUpdate :
    let f := fun (v : BitVec 128) (lo len : Nat) => v.toNat / 2 ^ lo % 2 ^ len
    f 0 122 1 = 0 ∧ (let w := tbInit 2 3
      f w 123 1 = 0 ∧ f w 122 1 = 1 ∧ f w 100 20 < 3 ∧ f w 40 40 < 4 ∧ f w 100 20 = 2 ∧ f w 40 40 = 3 ∧ 1 ≤ f w 100 20) := by decide +kernel

/-! ## Hypotheses that are met: vector, matrix, engines -/

/-- A shape of rows and columns of two-byte elements. -/
def shapeOf (rows cols : Nat) : DWord := BitVec.ofNat 64 (rows - 1 + (cols - 1) * 2 ^ 8)

/-- bf16 has the width of a two-byte shape, f32 does not; the pipes are free, or held. -/
theorem wit_vector_statements :
    let s := State.reset
    let b := sk Ctx.init { Core.init with pipe0 := 1 }
    let c := { Ctx.init with vshape := shapeOf 2 3 }
    let v := sk { c with sr := [(1, 5), (2, 6)] } Core.init
    (laneFmt 1).width = 8 * shapeEsz s.ctx.vshape ∧ (laneFmt 0).width ≠ 8 * shapeEsz s.ctx.vshape ∧ (laneFmt 4).width = 8 * shapeEsz s.ctx.vshape
    ∧ (4 : BitVec 3).toNat ≤ 4 ∧ (3 : BitVec 3).toNat ≤ 3 ∧ (2 : BitVec 3).toNat ≤ 2 ∧ s.core.pipe0 ≤ s.cyc ∧ s.core.pipe1 ≤ s.cyc ∧ b.cyc < b.core.pipe0
    ∧ (1 : BitVec 6).toNat < shapeRows v.ctx.vshape ∧ shapeRows v.ctx.vshape ≤ (2 : BitVec 6).toNat
    ∧ (readS v.ctx 1).toNat < shapeRows v.ctx.vshape * shapeCols v.ctx.vshape ∧ shapeRows v.ctx.vshape * shapeCols v.ctx.vshape ≤ (readS v.ctx 2).toNat
    ∧ shapeRows v.ctx.vshape * shapeCols v.ctx.vshape * 16 ≤ 16384 ∧ notReady v.ctx = false := by decide +kernel

/-- A tree of three keys, each the child of the one before, and one query row; 64 and 65 columns. -/
theorem wit_VectorReduceConvertMaskForms :
    let c := { Ctx.init with vshape := shapeOf 1 3, vr := [(1, 0x00010000FFFF)] }
    let p := fun (j : Nat) => toSigned 16 ((readV (sc c).ctx 1).toNat / 2 ^ (16 * j) % 2 ^ 16)
    shapeCols c.vshape ≤ 64 ∧ (∀ j < 3, p j < (j : Int)) ∧ p 2 = 1 ∧ (0 : Int) + 1 ≤ 3
    ∧ shapeCols (shapeOf 1 64) ≤ 64 ∧ 64 < shapeCols (shapeOf 1 65) ∧ (laneFmt 1).width = 16 ∧ (laneFmt 3).width ≠ 16 := by decide +kernel

/-- A tile store with 64 zero bytes at 0, and windows over all of it: tw0 raw, tw1 of bf16, tw2 of int8, tw3 of size 0. -/
def wk : Core := { Core.init with ts := tsWrite ⟨[], [], []⟩ 0 (List.replicate 64 0) false, thr := [(0, [(1, 2), (2, 4)])] }
def wc (a b : DWord) : Ctx :=
  { tc a b with tw := [(0, 0x100000000), (1, 0x300000000), (2, 0x500000000), (3, 0)], vshape := shapeOf 4 8, acm := 1 }

theorem wit_VectorWindowForms :
    let s := sk (wc (2 ^ 22 - 64) 1) wk
    let n := 64
    (readS s.ctx 1).toNat % 64 = 0 ∧ 0 < twSize (readTw s.ctx 0) ∧ 2 ^ 22 - 64 + n ≤ twSize (readTw s.ctx 0)
    ∧ tsOpen s.ctx s.core (twBase (readTw s.ctx 0) + (2 ^ 22 - 64)) n = true ∧ poisonTs s 0 (2 ^ 22 - 64) n = false
    ∧ (readS s.ctx 2).toNat % 64 ≠ 0 ∧ twSize (readTw s.ctx 3) = 0
    ∧ thrFmt (windowRecord s 0 1) = some bf16 ∧ thrFmt (windowRecord s 0 0) = none ∧ thrRot (windowRecord s 0 1) = 0
    ∧ (laneFmt 1).width = 8 * shapeEsz s.ctx.vshape ∧ seqCheck s 0 1 bf16 (thrBscale (windowRecord s 0 1)) true 0 32 = []
    ∧ (∀ r ∈ seqRanges false 16 0 32, poisonTs s 0 r.1 r.2 = false) ∧ (readP s.ctx 0 != false) = true ∧ (readP s.ctx 0 != true) = false := by
  decide +kernel

theorem wit_ExactArithmetic : 0 < 1 ∧ 0 < 3 ∧ Ex.nan ≠ .absent ∧ Ex.fin false 0 1 ≠ .absent ∧ 1 ≠ 0 := by decide

theorem wit_ValuesRoundToThemselves :
    0x7FC0 < 2 ^ bf16.width ∧ 2 ^ 32 - 1 < 2 ^ fp32.width ∧ 2 ^ 16 - 1 < 2 ^ fp16.width ∧ 2 ≤ 2 ∧ 3 < 2 ^ (NumFmt.int 2).width ∧ 1 ≤ 1
    ∧ 0 < 2 ^ (NumFmt.exmy 1 1 0).width := by decide +kernel

theorem wit_AccumulatorRules :
    (∀ p ∈ [((Ex.absent, Ex.nan) : Ex × Ex)], p.1 = .absent ∨ p.2 = .absent) ∧ decodeNum fp32 fp32.absentCode = .absent
    ∧ decodeNum fp32 0 ≠ .absent ∧ (0 : BitVec 64).toNat / 2 ^ 32 % 2 ^ 16 = 0 ∧ (0x100000000 : BitVec 64).toNat / 2 ^ 32 % 2 ^ 16 ≠ 0 := by decide +kernel

/-- Plane 0 is the front, of int8; window tw2 is of int8. -/
def mk1 : Core := { wk with planes := [(0, { Plane.init with thr := 4 })] }
def mc : Ctx := { wc 0 1 with front := some 0 }

theorem wit_MatrixForms :
    let s := sk mc mk1
    let u := sk mc { mk1 with inArray := [(0, 1, ⟨1, 0, false, 0, []⟩)], acc := [(0, { AccTile.init with busy := [1] })] }
    let e := sk mc { mk1 with entry := some ⟨1, 0, 0, 0, 0, 4, [], 0, 0⟩ }
    let n := sk (wc 0 1) mk1
    let r := windowRecord s 0 2
    matFmt r = some (.int 8) ∧ matFmt (windowRecord s 0 0) = none ∧ targetPlane s 0 = 1
    ∧ (readS s.ctx 1).toNat * 8 % 512 = 0 ∧ (readS s.ctx 2).toNat * 8 % 512 ≠ 0 ∧ thrBscale r = false
    ∧ 0 < twSize (readTw s.ctx 2) ∧ windowBad s 0 2 0 32768 = none ∧ poisonTs s 0 0 32768 = false
    ∧ s.core.inArray.any (fun q => q.2.1 == 1) = false ∧ u.core.inArray.any (fun q => q.2.1 == 1) = true
    ∧ ((List.range 8).filter (fun i => s.ctx.acm.getLsbD i))[(0 : BitVec 3).toNat]? = some 0
    ∧ ((List.range 8).filter (fun i => s.ctx.acm.getLsbD i)).length ≤ (1 : BitVec 3).toNat
    ∧ (getAcc s.core 0).busy = [] ∧ (getAcc u.core 0).busy ≠ [] ∧ rowsPending u.core 0 ≤ 64
    ∧ matFmt (getPlane s.core (s.ctx.front.getD 0)).thr = some (.int 8) ∧ shapeEsz s.ctx.vshape = 2 ∧ shapeRows s.ctx.vshape * shapeCols s.ctx.vshape ≤ 128
    ∧ rowsBad s 0 2 false 8 (tab 32 (fun j => (readV s.ctx 1).toNat / 2 ^ (16 * j) % 2 ^ 16)) = [] ∧ s.ctx.front.isSome = true
    ∧ s.core.entry = none ∧ e.core.entry.isSome = true ∧ n.ctx.front = none
    ∧ seqCheck s 0 2 (.int 8) false false 0 16384 = [] ∧ thrRot r = 0 ∧ thrFmt r = some (.int 8)
    ∧ 0 + 2048 ≤ twSize (readTw s.ctx 0) ∧ tsOpen s.ctx s.core 0 2048 = true ∧ poisonTs s 0 0 2048 = false := by decide +kernel

/-- The block that a tile store holds at 0. -/
def bk (b : Nat) : Core := { Core.init with ts := tsWrite ⟨[], [], []⟩ 0 (leBytes 64 b) false, tlb := [page0] }
def blkOf (s : State) : BitVec 512 := BitVec.ofNat 512 (leNat (loadTs s 0 0 64))
def cmd0 : Cmd :=
  { id := 1, op := 0, port := 0, cyc := 0, opc := 0, oct := 0, blk := 0, a := 0, b := 0, c := 0, src := 0, dst := 0, fmt := 0, tl := none, inc := 0,
    stage := 0, ord := 0, data := [], poison := false }

/-- Blocks with no element of `cpy`, `cpyaw`, `cpymc` and `cpyrm`; an unlisted operation; a full queue; a KV descriptor of one row of
64 bytes; a queue number of `launch`. -/
theorem wit_CommandForms :
    let s := sk (tc 0 31) (bk 0)
    let fine := fun (b : Nat) (ops : List Nat) => cpMalformed (blkOf (sk (tc 0 0) (bk b))) ops false = false
      ∧ cpCauses (sk (wc 0 0) (bk b)) 0 (blkOf (sk (tc 0 0) (bk b))) 0 = [] ∧ cpTotal (blkOf (sk (tc 0 0) (bk b))) = 0
    let kv := sk (tc 0 1) (bk (2 ^ 32 + 2 ^ 48 + 2 ^ 80))
    wfInc 1 none = true ∧ wfInc 0 none = true ∧ wfInc 1 (some 2) = true
    ∧ (readS s.ctx 1).toNat % 64 = 0 ∧ tsOpen s.ctx s.core 0 64 = true ∧ (readS (sc (rc 32 0)).ctx 1).toNat % 64 ≠ 0
    ∧ fine 0 [0, 1, 2, 3] ∧ fine 0x1024 [4, 5] ∧ fine 6 [6] ∧ fine 7 [7, 8, 9] ∧ cpMalformed 15 [0, 1, 2, 3] false = true
    ∧ s.ctx.q1.length < 16 ∧ ¬ (List.replicate 16 cmd0).length < 16
    ∧ 63 < 64 ∧ kvCheck kv 0 0 (blkOf kv) 1 = []
    ∧ (readS s.ctx 2).toNat < 32 ∧ mapped (translate s 0 0) page0 = true ∧ page0.rd = true ∧ page0.u = true ∧ s.ctx.q4.length < 4
    ∧ 32 ≤ (readS (sc (rc 0 32)).ctx 2).toNat := by decide +kernel

/-- Ports in each state, with a ring of 4 records of 64 bytes at 0. -/
def port1 (st : BitVec 3) (role : Bool) : Port := { Port.init with st := st, role := role, desc := 0x40000000000000000 }
def qs (p : Port) (opened : Option Nat) : State := sk { tc 0 0 with qr := [(1, p)], opened := opened } (bk 0x40000000000000000)

theorem wit_StreamForms :
    let q := fun (p : Port) => readQ (qs p none).ctx 1
    let nrec := fun (p : Port) => (q p).desc.toNat / 2 ^ 64 % 2 ^ 13
    let s := qs (port1 1 false) none
    tsOpen s.ctx s.core 0 64 = true ∧ (q (port1 1 false)).role = false ∧ (q (port1 1 false)).st = 1 ∧ nrec (port1 1 false) = 4
    ∧ (q { port1 1 false with sent := 3 }).sent - 0 < 4 ∧ 4 ≤ (q { port1 1 false with sent := 4 }).sent - 0
    ∧ s.ctx.q3.length < 8 ∧ 8 ≤ (List.replicate 8 cmd0).length
    ∧ (q (port1 4 false)).st = 4 ∧ (q (port1 5 false)).st = 5 ∧ (q (port1 0 false)).st = 0 ∧ (q (port1 6 false)).st = 6
    ∧ (q { port1 1 true with wr := 1 }).role = true ∧ (q { port1 1 true with wr := 1 }).acq < (q { port1 1 true with wr := 1 }).wr
    ∧ (q (port1 4 true)).wr ≤ (q (port1 4 true)).acq ∧ (q (port1 2 true)).st = 2 ∧ (q (port1 3 false)).st = 3
    ∧ (let o := qs (port1 0 false) (some 0)
       tsOpen o.ctx o.core (sdRbase (blkOf o)) (sdRec (blkOf o) * sdNrec (blkOf o)) = true ∧ portIdle (readQ o.ctx 1) = true ∧ o.ctx.opened = some 0)
    ∧ (qs (port1 0 false) (some (16 + 15))).ctx.opened = some (16 + 15) ∧ (qs (port1 0 false) (some (32 + 1))).ctx.opened = some (32 + 1)
    ∧ (qs (port1 0 false) none).ctx.opened = none ∧ portIdle (q (port1 1 false)) = false := by decide +kernel

theorem wit_CircuitForms :
    let fit := fun (b : Nat) => decide ((BitVec.ofNat 512 b : BitVec 512).toNat / 2 ^ 16 % 2 ^ 24 ≥ 64 ∧ (BitVec.ofNat 512 b : BitVec 512).toNat / 2 ^ 40 % 2 ^ 24 = 0
      ∧ (BitVec.ofNat 512 b : BitVec 512).toNat / 2 ^ 64 % 2 ^ 3 = 0 ∧ (BitVec.ofNat 512 b : BitVec 512).toNat / 2 ^ 122 % 2 ^ 6 = 0)
    let s := sk (tc 0 0) (bk (64 * 2 ^ 16))
    let k := fun (st : BitVec 3) => (readK (sc { Ctx.init with kr := [(1, { CkHandle.init with st := st })] }).ctx 1).st
    leNat (loadTs s 0 0 16) = 64 * 2 ^ 16 ∧ fit (64 * 2 ^ 16) = true ∧ fit (63 * 2 ^ 16) = false ∧ tsOpen s.ctx s.core 0 16 = true
    ∧ k 0 = 0 ∧ k 1 = 1 ∧ k 2 = 2 ∧ k 3 = 3 ∧ k 4 = 4 ∧ s.ctx.q2.length < 8 ∧ ¬ (List.replicate 8 cmd0).length < 8
    ∧ 64 ≤ 64 ∧ 2 ^ 24 - 1 < 2 ^ 24
    ∧ (let sa := 1048576
       sa % 8 = 0 ∧ sa ≤ 1048576 ∧ tsOpen s.ctx s.core 0 (4 * sa) = true) ∧ 31 % 32 ≠ 0 := by decide +kernel

/-! ## Hypotheses that are met: boot, the clock, the mailbox -/

/-- The package at a boot step; in service; with an event's argument. -/
def bs (n : Nat) : State := { State.reset with boot := { Boot.init with step := n } }
def on : State := { bs 8 with running := true }
def arg (s : State) (e : EvArg) : State := { s with arg := e }

/-- A packet of a kind, for an endpoint, with a message; a state in which it is the next of that endpoint. -/
def pk (kind : BitVec 4) (dst : Ep) (m : Msg) : Pkt := { Pkt.zero with kind := kind, dst := dst, msg := m }
def got (s : State) (p : Pkt) : State := { s with rx := [p] }

/-- C0 waits for die 3's answer after dies 1 and 2 have answered well. -/
def authS : State := { bs 4 with boot := { Boot.init with step := 4, auth := [(6, 2)] } }

theorem wit_BootEvents :
    let req := { pk 0 ucieEp (.read 64) with src := securityEp 0, addr := 256 }
    let upd := { on with mgmt := { Mgmt.init with fw := [0] } }
    State.reset.boot.badModules.contains 0 = false ∧ (({ Boot.init with badModules := [0] } : Boot).badModules.contains 0) = true
    ∧ (let s := arg (got (bs 2) req) { EvArg.of 256 with data := List.replicate 64 0 }
       rxHead s (securityEp 0) = none ∧ rxHead s ucieEp = some req ∧ req.src = securityEp 0 ∧ req.kind = 0 ∧ req.addr.toNat = s.arg.a ∧ readLen req = s.arg.data.length)
    ∧ (let s := got (bs 2) (pk 1 (securityEp 0) .none)
       rxHead s (securityEp 0) = some (pk 1 (securityEp 0) .none) ∧ (pk 1 (securityEp 0) .none).kind = 1 ∧ s.boot.step = 2 ∧ s.boot.stopped = false)
    ∧ 1 ≤ (bs 1).boot.step ∧ (bs 5).boot.step ≤ 5 ∧ (3 : BitVec 64).toNat % 2 ^ 8 = 3 ∧ (4 : BitVec 64).toNat % 2 ^ 8 ≠ 3 ∧ (bs 6).boot.step = 6
    ∧ (bs 6).boot.t2size = 0 ∧ 6 < (bs 8).boot.step
    ∧ authS.boot.step = 4 ∧ isFenced authS 3 = false ∧ authS.boot.badImage.contains 3 = false ∧ mget 0 authS.boot.authTries 3 < 2
    ∧ mget 0 authS.boot.auth (2 * 3 + mget 0 authS.boot.authTries 3) = 2 ∧ (∀ d < 3, 0 < d → mget 0 authS.boot.auth (2 * d + mget 0 authS.boot.authTries d) = 0)
    ∧ on.boot.step = 8 ∧ on.boot.stopped = false ∧ on.mgmt.fw = [] ∧ isFenced on 0 = false ∧ isFenced on 15 = false ∧ isFenced (bs 2) 16 = false
    ∧ on.mgmt.fw.contains 0 = false ∧ upd.mgmt.fw.contains 0 = true ∧ dieOk on 0 = true ∧ dieOk on 8 = false ∧ 0x48 % 8 = 0 ∧ 0x44 % 8 ≠ 0 := by decide +kernel

/-- A result of context 0 that is due, and one that waits. -/
def due (st : RStat) : Ctx := { Ctx.init with task := true, infl := [⟨0, .sreg 1 7, 0, st⟩] }

/-- A state in which context 0 is held: its next bundle, `addi s1, s0, 5`, waits for nothing. -/
def heldS : State :=
  let s := sfetch { Ctx.init with task := true, hold := some 1 }
  { s with running := true, mem := memWrite s.mem 0 (wordBytes 0x84010005#32) }

theorem wit_ClockAndContextEvents :
    let run := { on with cicada := 128, sub := 0 }
    let wd := sc { Ctx.init with task := true, ti := [(8, 0x10000)], wdCount := 1 }
    let b := { hc with task := true }
    let d : Deferred := ⟨8, 0, 0, 0, 0, 0, 5⟩
    let row := sk Ctx.init { Core.init with acc := [(0, { AccTile.init with epoch := none, rows := [⟨1, 0, true, 0, []⟩] })], limCyc := 7 }
    let samp := { (sc { Ctx.init with task := true, qr := [(0, { Port.init with st := 1, samples := [⟨1, 3⟩] })] }) with running := true, cicada := 2 }
    on.running = true ∧ 256 ≤ { on with sub := 256 }.sub ∧ run.sub = 0 ∧ run.cicada ≠ 0 ∧ run.cicada.toNat % 128 = 0
    ∧ (let d := { on with cicada := 16 }
       0 < coreCyc d ∧ coreCyc d % 4096 = 0 ∧ d.promos = []) ∧ coreCyc on % 1128 = 0 ∧ coreCyc { on with cicada := 4096 } % 1048576 = 0 ∧ dieOk on 7 = true
    ∧ (getX (sc (due .done)) 0).task = true ∧ (getX (sc (due .done)) 0).results = [⟨0, .sreg 1 7, 0, .done⟩] ∧ 0 ≤ (getX (sc (due .done)) 0).time
    ∧ b.task = true ∧ b.halted = false ∧ b.await = .none ∧ b.reload = none ∧ b.readyAt ≤ State.reset.cyc ∧ notReady b = false
    ∧ (getC (sc b) 0).rounds = [] ∧ b.inh = false ∧ pendBit b cPREEMPT = false ∧ pendBit (setPend b cPREEMPT true) cPREEMPT = true
    ∧ firstDeferred [d] = some d ∧ b.deferred = [] ∧ pendBit (setPend b cSOFTERR true) cSOFTERR = true ∧ pendBit b cSOFTERR = false
    ∧ pendBit (setPend b cWDOG true) cWDOG = true ∧ { b with inh := true, hdeferred := [d] }.hdeferred ≠ []
    ∧ wdLimit (getX wd 0) ≠ 0 ∧ wdLimit (getX wd 0) ≤ (getX wd 0).wdCount ∧ pendBit (getX wd 0) cWDOG = false ∧ interruptible (getX wd 0).await = false
    ∧ (getX wd 0).await = .none ∧ (getX wd 0).halted = false
    ∧ (getX (sc { Ctx.init with await := .phase 1 0 }) 0).await = .phase 1 0 ∧ 0 ≤ State.reset.cyc
    ∧ (getX samp 0).task = true ∧ (∃ q ∈ (getX samp 0).qr, ∃ m ∈ q.2.samples, m.tick + sdDly q.2.desc + 1 ≤ samp.cicada.toNat)
    ∧ (getAcc (getC row 0) 0).rows = [⟨1, 0, true, 0, []⟩] ∧ coreCyc row % 4 ≠ 3 ∧ (getC row 0).limCyc ≠ row.cyc
    ∧ (getX (sc { Ctx.init with latches := [⟨0, true, latchOne⟩] }) 0).latches = [⟨0, true, latchOne⟩] := by decide +kernel

theorem wit_ClockAndContextEvents_hold :
    let c := getX heldS 0
    let u := { settle heldS 0 with cur := 0 }
    c.task = true ∧ c.halted = false ∧ c.hold = some 1 ∧ notReady (getX u 0) = false ∧ (boundaryTrap u 0).isNone = true
    ∧ (match fetchBundle u 0 with | .ok ws => ws == [0x84010005#32] | _ => false) = true ∧ examine [0x84010005#32] = .ok [(0, .addi 1 0 5 none)]
    ∧ (slotOf (.addi 1 0 5 none)).isSome = true
    ∧ (slotOf (.addi 1 0 5 none)).all (fun f =>
        !wouldHold 1 [(0, f)] { needThr [(0, .addi 1 0 5 none)] (latchBody (touchFetch u 0 1) 0 [0x84010005#32]) with cur := 0 }) = true
    ∧ (boundaryTrap { settle (sc (setPend { hc with task := true, hold := some 1 } cSOFTERR true)) 0 with cur := 0 } 0).isSome = true := by decide +kernel

/-- A mailbox command with GO set: command, target, ARG0. -/
def mb (n t : Nat) (a : DWord) : State :=
  mgSet (mgSet { on with mgmt := { Mgmt.init with homes := [0, 1], modules := [0] }, cores := [(0, { Core.init with active := true })] } 0 oMbCmd
    (BitVec.ofNat 64 (n + 256 * t + 65536))) 0 oMbArg0 a

/-- FWUPD of die 1 with an image of 256 bytes at 0. -/
def mbImage : State := mgSetF (mgSet (mb 6 1 0) 0 oMbArg1 256) 0 oMem 8 24 1

/-- Partition p in a state: 1 ACTIVE, 2 SWAPPED. -/
def withPart (p st : Nat) (s : State) : State := mgSetF s 0 (oPartCfg p) 19 2 st

theorem wit_MailboxEvents_ready :
    let ready := fun (s : State) (n : Nat) => s.running = true ∧ mgF s 0 oMbCmd 16 1 = 1 ∧ s.mgmt.heldGo = false ∧ s.mgmt.cmdOpen = false
      ∧ s.mgmt.fw.contains 0 = false ∧ mgF s 0 oMbCmd 0 8 = n
    ready (mb 1 7 0x101) 1 ∧ createStatus (mb 1 7 0x101) = 0 ∧ createStatus (mb 1 8 0x101) = 1
    ∧ destroyStatus (withPart 0 1 (mb 2 0 0)) = 0 ∧ destroyStatus (mb 2 0 1) = 1
    ∧ fenceStatus (mb 5 7 0) = 0 ∧ fenceStatus (mb 5 0 0) = 1 ∧ fwupdStatus (mb 6 8 0) = 1
    ∧ ready (mb 0 0 0) 0 ∧ ready (mb 8 0 0) 8
    ∧ (gangsOfPart (withPart 0 1 (mb 3 0 0)) 0).any (fun g => g.halt != 0) = false ∧ swapOutStatus (withPart 0 1 (mb 3 0 0)) = 0 ∧ swapOutStatus (mb 3 0 0) = 3
    ∧ swapInStatus (withPart 0 2 (mb 4 0 0)) = 0 ∧ swapInStatus (mb 4 0 0) = 3
    ∧ retireStatus (mb 7 0 0) = 0 ∧ retireStatus (mb 7 1 0) = 1 ∧ (mb 7 0 0).mgmt.repairs.any (fun r => r.1 == 0) = false := by decide +kernel

/-- An update whose image is read as good is taken: whether the key in it is the die's is a free value (log entry 8, DESIGN CHOICE). -/
theorem wit_MailboxEvents_fwupd (h : updateOk (mbImage) 1 = true) : fwupdStatus mbImage = 0 := by
  have e : mbTgt mbImage = 1 := by decide +kernel
  have f : fenceStatus.dieBusy mbImage 1 = 0 := by decide +kernel
  have g : dieOk mbImage 1 = true := by decide +kernel
  have a : updateArgs mbImage = true := by decide +kernel
  generalize mbImage = s at *
  simp [fwupdStatus, e, f, g, h, a]

theorem wit_MailboxEvents :
    let swap := fun (n : Nat) => { on with parts := [(0, { Part.init with swapping := n })] }
    let rep := { mb 7 0 0 with mgmt := { Mgmt.init with repairs := [(0, 2)] } }
    let many := { on with cores := [(0, { Core.init with active := true, corr := (0, 65) })] }
    let pri := setX (withPart 0 1 on) 0 { Ctx.init with task := true, pri := 1 }
    (getPart (swap 1) 0).swapping = 1 ∧ gangsOfPart (swap 1) 0 = []
    ∧ (getPart (swap 2) 0).swapping = 2 ∧ ({ Mgmt.init with fw := [1] } : Mgmt).fw.contains 1 = true
    ∧ (getC (mb 7 0 0) 0).active = true ∧ (mb 7 0 0).mgmt.repairs.find? (fun r => r.1 = 0) = none
    ∧ (getC many 0).active = true ∧ (getC many 0).corr.1 = coreCyc many / 1048576 ∧ 64 < (getC many 0).corr.2
    ∧ rep.mgmt.repairs.find? (fun r => r.1 = 0) = some (0, 2) ∧ gangsOnCore rep 0 = [] ∧ (getC rep 0).wbs = [] ∧ (getC rep 0).runs = []
    ∧ 7 < 8 ∧ on.mgmt.fw.contains 0 = false ∧ ({ Mgmt.init with fw := [0] } : Mgmt).fw.contains 0 = true
    ∧ partState pri 0 = 1 ∧ (getX pri (4 * 0 + 0)).task = true ∧ (getX pri 0).part.toNat = 0 ∧ (getX pri 0).pri ≠ partPri pri 0 (getX pri 0).rset
    ∧ memOk on 7 = true ∧ dieOk on 7 = true ∧ 32767 < 32768 ∧ on.badBbx.contains (7, 32767) = false := by
  decide +kernel

/-- A gang whose one context has nothing under way rests. -/
theorem wit_MailboxEvents_rests : GangRests (sk { Ctx.init with task := true } Core.init) { gang2 [0] false with halt := 3 } := by
  refine ⟨rfl, rfl, ?_⟩
  intro i hi
  have e : i = 0 := by simpa [gang2] using hi
  subst e
  unfold Rests
  refine And.intro (by decide) (And.intro (fun n w h => nomatch (show Await.none = .phase n w from h)) (And.intro (fun f h => nomatch (show Await.none = .ending f from h)) ?_))
  refine ⟨?_, ?_, rfl, rfl, ?_, ?_, ?_, ?_, ?_, ?_, ?_, ?_⟩ <;> decide

/-! ## Hypotheses that are met: packets, circuits -/

/-- In service, with two healthy memory dies, core 0 active, 64 KiB populated. -/
def svc : State :=
  mgSetF { on with mgmt := { Mgmt.init with homes := [0, 1], modules := [0] }, cores := [(0, { Core.init with active := true })] } 0 oMem 8 24 1

/-- An access of context 0 under way with tag 9. -/
def acc9 : Acc :=
  { tag := 9, ord := 0, grp := 9, kind := .load, pa := 0, n := 8, cls := 0, sem := 0, scope := 0, mmh := false, nc := false, data := [], stat := .sent 0,
    alloc := true, off := 0, opc := 0, oct := 0, inh := false, again := false }

/-- A packet in the router of die 0's unit 0, and one on its ring link. -/
def flight (loc : Loc) : Flight := { id := 1, loc := loc, pkt := pk 0 (epId 0 8) (.read 8), arr := 0 }
def netS (f : Flight) : State := { svc with net := [f] }

theorem wit_PacketEvents_route :
    MayGo (netS (flight (.router 0 0 0 4))) (flight (.router 0 0 0 4)) ∧ MayGo (netS (flight (.wire 0))) (flight (.wire 0))
    ∧ (netS (flight (.wire 0))).net.find? (fun g => g.id = 1) = some (flight (.wire 0)) ∧ (∀ g ∈ (netS (flight (.wire 0))).net, g.id = 1 → g = flight (.wire 0))
    ∧ ({ pk 6 0 .none with data := [1] } : Pkt).data ≠ [] := by
  simp only [mayGo_iff_canMove]
  decide +kernel

/-- The flow of a held answer, and a state in which a later packet has waited for its time. -/
def flow0 : Flow := ⟨0, 0, 0, 0, 0⟩
def roS : State := { svc with recvs := [(flow0, ⟨0, [{ Pkt.zero with seq := 1 }], some 0, []⟩)], cyc := 262144 }

theorem wit_PacketEvents :
    let m := epId 8 0
    let c := epId 0 0
    let sl := fun (l : Slice) => { svc with slices := [(0, l)] }
    let lost := setX svc 0 { Ctx.init with task := true, accs := [acc9] }
    rxHead (got svc (pk 0 m (.read 8))) m = some (pk 0 m (.read 8)) ∧ (serve (got svc (pk 0 m (.read 8))) m (pk 0 m (.read 8))).isSome = true
    ∧ (serve (got svc (pk 2 m .none)) m (pk 2 m .none)).isSome = true
    ∧ (serve (got svc (pk 4 m (.atom 0 true 1 0 true))) m (pk 4 m (.atom 0 true 1 0 true))).isSome = true
    ∧ (serve (got svc (pk 6 m (.engWrite 1))) m (pk 6 m (.engWrite 1))).isSome = true ∧ 8 ≤ epDie m ∧ epDie m ≠ 16 ∧ epDie m < 16 ∧ epDie c < 8
    ∧ isResumeMsg .none = false ∧ epDie ucieEp = 17 ∧ (pk 0 ucieEp (.read 8)).src ≠ securityEp 0
    ∧ (getSlice svc 0).miss.length < 256 ∧ setPinned (got svc (pk 0 m (.read 8))) (getSlice svc 0) 0 = false ∧ (pk 0 m (.read 8)).opc ≠ 1
    ∧ memOk svc 0 = true ∧ (getSlice (sl { Slice.init with pend := [5] }) 0).pend.contains 5 = true
    ∧ (getSlice (sl { Slice.init with miss := [5] }) 0).miss.contains 5 = true ∧ (getSlice (sl { Slice.init with miss := [5] }) 0).pend.contains 5 = false
    ∧ ((getSlice (sl { Slice.init with miss := [5] }) 0).lines.filter (fun g => sliceSet g.1 == sliceSet 5)).length < 16
    ∧ ((getSlice (sl { Slice.init with miss := [5], lines := [(5, false)] }) 0).lines.filter (fun g => sliceSet g.1 == sliceSet 5)) = [(5, false)] ∧ pinCount svc 5 = 0
    ∧ rxHead (got svc (pk 1 c .none)) c = some (pk 1 c .none) ∧ rxHead (got svc (pk 3 c .none)) c = some (pk 3 c .none)
    ∧ rxHead (got svc (pk 5 c .none)) c = some (pk 5 c .none) ∧ (pk 5 c .none).dst ≠ securityEp 0
    ∧ (lostAnswer lost c 9).isSome = true ∧ lost.timers = [] ∧ epUnit c ≠ 73 ∧ epCore lost c = some 0 ∧ accAt lost 0 9 = some (0, acc9)
    ∧ oldestSeq (recvOf roS flow0).next (reachedSeqs roS flow0) = some 1 ∧ (recvOf roS flow0).since = some 0 ∧ 0 + 262144 ≤ roS.cyc
    ∧ (recvOf roS flow0).early ≠ []
    ∧ svc.running = true ∧ 0 % 64 + 64 ≤ 64 ∧ populated svc 0 = true ∧ 63 % 64 + 1 ≤ 64 := by decide +kernel

/-- Gateway 0 of die 1 hears on its link a flit whose CRC is not that of its bytes; port 3 of memory die 0 too; a link that retrains. -/
theorem wit_PacketEvents_links :
    let heard := fun (d n : Nat) => netS (flight (.wire (linkKey (across d n).1 (across d n).2)))
    let bad := List.replicate 64 (0 : Byte)
    let re := { svc with mgmt := { svc.mgmt with retrain := [linkKey 7 4, linkKey 16 3] } }
    let eight := setLink (heard 1 0) (linkKey (across 1 0).1 (across 1 0).2) { wireOf (heard 1 0) 0 with errors := 8 }
    retraining (heard 1 0) 1 0 = false ∧ (firstOnWire (heard 1 0) (linkKey (across 1 0).1 (across 1 0).2)).isSome = true
    ∧ (firstOnWire (heard 8 3) (linkKey (across 8 3).1 (across 8 3).2)).isSome = true ∧ bad.length = 64 ∧ flitGood (wireOf svc 0) bad 0 0 = false
    ∧ (wireOf svc 0).errors < 8 ∧ (wireOf eight (linkKey (across 1 0).1 (across 1 0).2)).errors = 8 ∧ svc.mgmt.retrain.contains (linkKey 16 3) = false
    ∧ re.mgmt.retrain.contains (linkKey 7 4) = true ∧ re.mgmt.retrain.contains (linkKey 16 3) = true ∧ dieOk svc 7 = true := by decide +kernel

/-- A circuit from context 0 to a context, at a stage. -/
def ck (stage dx : Nat) : Circuit :=
  { cid := 1, x := 0, k := 1, dx := dx, part := 0, base := 0, limit := 0x10000, bar := none, g := 1, lease := 1000, stage := stage, lanes := [], grains := [],
    far := [], due := 0, sseq := 0, rseq := 0, sentW := 0, recvW := 0, ackW := 0, clean := false, cause := 0, collapsed := none, report := none, sends := [], node := none, usable := 0 }

/-- A state that holds a circuit, whose handle is k1 of context 0; all dies healthy. -/
def cks (q : Circuit) : State :=
  setX { (mgSetF svc 0 oConfig 16 1 1) with circuits := [q] } 0
    { Ctx.init with task := true, kr := [(1, { CkHandle.init with st := 2, cid := 1 })] }

/-- A promoted flow that probes. -/
def pm : Promo :=
  { fid := 1, src := 0, dst := 0x4000, label := 0, part := 0, sluice := 0, entry := 0, lanes := [1], live := false, probing := true, relay := none,
    change := none, backlog := [], relayed := 1, leg := 1, due := 1, prog := 0, sseq := 0, rseq := 0, lane := [], far := [], heldNew := [] }

theorem wit_CircuitEvents :
    let mine := fun (q : Circuit) => findCircuit (cks q) 1 = some q ∧ (cks q).promos = []
    let se := epId 0 0
    let s := fun (q : Circuit) (e : Ep) (m : Msg) => got (cks q) (pk 7 e m)
    let p := fun (f : Promo) => { svc with promos := [f], cyc := 1 }
    let near := { pm with dst := pm.src }
    mine (ck 0 4) ∧ { ck 0 4 with due := 1 }.due ≠ 0 ∧ 1 ≤ { cks { ck 0 4 with due := 1 } with cyc := 1 }.cyc ∧ (ck 3 256).due = 0
    ∧ dieOf (coreOf 0) = dieOf (coreOf 4) ∧ dieOf (coreOf 0) ≠ dieOf (coreOf 256) ∧ coreEp (cks (ck 3 256)) (coreOf 0) = se
    ∧ (s (ck 3 256) se (.probeAck 1)).rx.head?.map (·.msg) = some (.probeAck 1) ∧ (readK (getX (cks (ck 3 256)) 0) 1).cid = 1
    ∧ (p pm).promos.find? (fun g => g.fid = 1) = some pm ∧ pm.probing = true ∧ pm.due ≠ 0 ∧ pm.due ≤ (p pm).cyc ∧ pm.leg = 1 ∧ crosses pm = true ∧ crosses near = false
    ∧ { pm with leg := 2 }.leg ≠ 1 ∧ { pm with due := 0 }.due = 0
    ∧ rxHead (s (ck 3 256) (farHub (ck 3 256)) (.probeRefusal 1 3)) (farHub (ck 3 256)) = some (pk 7 (farHub (ck 3 256)) (.probeRefusal 1 3))
    ∧ rxHead (s (ck 3 256) se (.probeRefusal 1 3)) (farHub (ck 3 256)) = none ∧ rxHead (s (ck 3 256) se (.probeRefusal 1 3)) se = some (pk 7 se (.probeRefusal 1 3))
    ∧ rxHead (got (p pm) (pk 7 pm.src (.probeRefusal 1 3))) pm.farHub = none
    ∧ (cks (ck 1 256)).circuits = [ck 1 256] ∧ reserveGrains (cks { ck 1 256 with g := 128 }) 0 1 0 128 = none
    ∧ (reserveGrains (cks (ck 1 256)) 0 1 0 1).isSome = true
    ∧ rxHead (s (ck 2 256) (farHub (ck 2 256)) (.setup 1)) (farHub (ck 2 256)) = some (pk 7 (farHub (ck 2 256)) (.setup 1))
    ∧ rxHead (got (p pm) (pk 7 pm.farHub (.setup 1))) pm.farHub = some (pk 7 pm.farHub (.setup 1))
    ∧ (ck 4 4).report = none ∧ gatherRows (cks (ck 4 4)) 1 = [] ∧ (⟨[1], true, 0, 0, 0⟩ : Beat).last = true ∧ (⟨[1], true, 0, 0, 0⟩ : Beat).due ≤ 2 * (cks (ck 4 4)).cyc + 1 ∧ (cks (ck 4 4)).todo = [] ∧ (p pm).todo = []
    ∧ { pm with far := [(0, 1, Pkt.zero)] }.far = (pm.rseq, 1, Pkt.zero) :: [] ∧ 1 ≤ 2 * (p pm).cyc + 1 ∧ Pkt.zero.seq = (recvOf (p pm) Pkt.zero.flow).next ∧ (1 : BitVec 4) ≠ pm.rseq
    ∧ rxHead (s (ck 4 4) (coreEp (cks (ck 4 4)) 1) (.collapse 1 2)) (coreEp (cks (ck 4 4)) 1) = some (pk 7 (coreEp (cks (ck 4 4)) 1) (.collapse 1 2))
    ∧ (ck 5 4).collapsed ≠ some (cks (ck 5 4)).cyc ∧ rxHead (s (ck 5 4) se (.resume 1 8)) se = some (pk 7 se (.resume 1 8))
    ∧ 0 + 262144 ≤ { cks { ck 5 4 with collapsed := some 0 } with cyc := 262144 }.cyc
    ∧ (readK (getX (cks (ck 4 4)) 0) 1).st = 2 ∧ (readK (getX (cks (ck 4 4)) 0) 1).leaseEnd ≤ (cks (ck 4 4)).cyc
    ∧ rxHead (s (ck 4 4) se (.sendAck 1 8)) se = some (pk 7 se (.sendAck 1 8)) ∧ findCircuit svc 1 = none ∧ svc.promos = []
    ∧ rxHead (got svc (pk 7 se .none)) se = some (pk 7 se .none) ∧ rxHead (got svc (pk 7 se (.markerAck 1 0))) se = some (pk 7 se (.markerAck 1 0)) := by decide +kernel

theorem wit_CircuitEvents_start :
    let s := { setX svc 0 { Ctx.init with task := true, q2 := [{ cmd0 with op := 0x13 }] } with cyc := 1 }
    coreOf 0 = 0 ∧ mfind (getC s 0).starts 2 ≠ some s.cyc ∧ Runs (getX s 0)
    ∧ FirstIn (getX s 0).q2 { cmd0 with op := 0x13 } (fun e => decide (e.cyc < s.cyc) && ckEligible s 0 (getX s 0) e)
    ∧ (∀ y < 4, y ≠ 0 → (getX s y).task = false) := by unfold Runs FirstIn; decide +kernel

theorem wit_CircuitEvents_grain :
    let p := { pk 6 (epId (partner 0 0) 0) .none with data := [1] }
    let fil := mgSetF svc 0 oConfig 16 1 1
    let s := { fil with sub := 10, ponds := [(0, { Pond.init with dep := [(partner 0 0, [.pkt 1 p 1])] })], promos := [{ pm with live := true, probing := false }] }
    let g : GrainLoad := { source := 0, dest := 7, arrive := 0, items := [], crc := 0 }
    let r := got svc (pk 6 0 (.relaySpace 1 64))
    s.running = true ∧ sailOffset s = 10 + 8 * 0 ∧ (grainTake s 0 0).1 ≠ [] ∧ (∀ l ∈ s.grains, ¬ (l.source = 0 ∧ l.arrive = s.cyc + 23))
    ∧ dieOk s 0 = true ∧ dieOk s (partner 0 (sailIndex s)) = true ∧ filashOk s = true ∧ calEntry s 0 (sailIndex s) 0 = 0 ∧ (getPond s 0).relay = []
    ∧ mget [] (getPond s 0).dep (partner 0 (sailIndex s)) = [.pkt 1 p 1] ∧ 1 ≤ 2 * s.cyc + 1 ∧ epDie p.dst = partner 0 (sailIndex s)
    ∧ { svc with grains := [g] }.grains = [g] ∧ g.arrive ≤ svc.cyc ∧ r.rx = [pk 6 0 (.relaySpace 1 64)] ∧ (pk 6 0 (.relaySpace 1 64)).msg = .relaySpace 1 64 := by
  decide +kernel

/-! ## Hypotheses that are met: pod, launch, engines -/

/-- A package of a pod: own number 0, partition 0 enabled, link 0 up and the route to package 1. -/
def podS : State :=
  let s := mgSetF (mgSetF (mgSetF (mgSetF svc 0 oConfig 16 1 1) 0 oPodId 8 1 1) 0 (oPodPart 0) 16 1 1) 0 (oPodLink 0) 0 1 1
  mgSet s 0 (oPodRoute 1) 0x10

/-- Queue 0 of partition 0 with an enable, a state, a tail and 16 descriptors. -/
def rmaS (en st tail : Nat) : State :=
  mgSetF (mgSetF (mgSetF podS 0 (oRma 0 0 + 24) 3 1 en) 0 (oRma 0 0 + 24) 0 2 st) 0 (oRma 0 0 + 8) 0 32 tail

def run1 : RmaRun := { n := 0, desc := 0, out := [], moved := 0, complete := true, err := 0, owner := none, bad := false }

theorem wit_PodEvents :
    let p := { pk 0 0 (.read 8) with dst := filashEp, pkg := 1 }
    let q := { p with part := 1 }
    let open' := fun (s : State) (r : Pkt) (l : Option Nat) => rxHead s filashEp = some r ∧ isRemoteRequest s r = true ∧ podLink s r = l
    let asked := fun (s : State) => s.arg.a = 0 ∧ s.arg.b = 0 ∧ s.mgmt.fw.contains 0 = false
    let dead := mgSetF podS 0 (oPodLink 0) 0 1 0
    asked podS ∧ open' (got podS p) p (some 0) ∧ open' (got podS q) q (some 0) ∧ open' (got dead p) p none
    ∧ podFlow (got podS p) p.src p.pkg 0 = ⟨0, 1, 0, 0, [], []⟩ ∧ podFlows podS = 0 ∧ mgF podS 0 oPodId 8 1 = 1 ∧ mgF podS 0 (oPodPart p.part.toNat) 16 1 = 1
    ∧ mgF podS 0 (oPodPart q.part.toNat) 16 1 = 0 ∧ mgF svc 0 oPodId 8 1 = 0 ∧ filashOk svc = false ∧ filashOk podS = true ∧ (cameBy podS).1 = 0
    ∧ podUp podS 0 = true ∧ tagDpkg (podTag 2 1 0 0 0 0) ≠ ownPkg podS := by decide +kernel

theorem wit_PodEvents_flows :
    let p := { pk 0 0 (.read 8) with dst := filashEp, pkg := 1 }
    let tag := podTag 0 1 0 0 0 0
    let f : PodSend := ⟨0, 1, 0, 1, [⟨0, p, 0, 0, 0⟩], []⟩
    let free : PodSend := ⟨0, 1, 0, 1, [], []⟩
    let sends := fun (g : PodSend) => { podS with podSend := [g], cicada := 16 }
    let reg := fun (st c : Nat) => { mgSetF podS 0 (oReg 0 0 + 16) 0 2 st with mgmt := { (mgSetF podS 0 (oReg 0 0 + 16) 0 2 st).mgmt with regWrites := [(0, 0, c)] } }
    tagDpkg tag = ownPkg podS ∧ tagCls tag < 3 ∧ (cameBy (arg podS { EvArg.of 0 with pairs := [(0, 1), (18, 2)] })).2 = 1 ∧ (∀ e ∈ [(0, 1), (18, 2)], e.1 ≤ 18)
    ∧ (∃ h ∈ (sends free).podSend, isFlow 0 1 0 h = true) ∧ podFlow (sends free) 0 1 0 = free ∧ podFlow (sends f) 0 1 0 = f
    ∧ (∃ h ∈ f.held, h.seq = 0 ∧ h.tick + podRto (sends f) ≤ (sends f).cicada.toNat) ∧ { podS with flushes := [(0, p, tag, [5])] }.flushes = [(0, p, tag, [5])]
    ∧ (∀ n ∈ [5], ∀ d ∈ podS.admitted, d.tag ≠ n) ∧ (reg 0 1).mgmt.regWrites = [(0, 0, 1)] ∧ (regOf (reg 0 1) 0 0).st = 0 ∧ (regOf (reg 1 2) 0 0).st = 1
    ∧ (regOf (reg 3 0) 0 0).st = 3 ∧ (regOf (reg 1 1) 0 0).st = 1 ∧ { podS with mgmt := { podS.mgmt with fw := [0] } }.mgmt.fw.contains 0 = true := by decide +kernel

theorem wit_PodEvents_rma :
    let wait := { run1 with desc := 3, complete := false }
    let ws := { rmaS 1 2 0 with rma := [(rmaKey 0 0, [wait])] }
    let ran := fun (r : RmaRun) => { rmaS 1 1 0 with rma := [(rmaKey 0 0, [r])] }
    let at' := fun (s : State) (op : Nat) => { s with mem := [(0, BitVec.ofNat 8 op)] }
    let starts := fun (s : State) (op : Nat) => rmaEn s 0 0 = true ∧ rmaState s 0 0 = 1 ∧ filashOk s = true ∧ (rmaTail s 0 0 - rmaHead s 0 0).toNat = 1
      ∧ rmaRuns s 0 0 = [] ∧ (BitVec.ofNat 512 (leNat (homeRead s (rmaSlot s 0 0 (rmaHead s 0 0)) 64))).toNat % 2 ^ 4 = op
    rmaEn (rmaS 0 0 0) 0 0 = false ∧ rmaEn (rmaS 1 1 0) 0 0 = true ∧ mgF podS 0 (oRma 0 0 + 24) 2 1 = 0
    ∧ mgF (mgSetF (ran run1) 0 (oRma 0 0 + 24) 2 1 1) 0 (oRma 0 0 + 24) 2 1 = 1 ∧ [0, 1, 2, 3].all (fun op => decide (starts (at' (rmaS 1 1 1) op) op)) = true
    ∧ rmaState ws 0 0 = 2 ∧ (∃ w ∈ rmaRuns ws 0 0, bitsN w.desc 0 4 = 3 ∧ w.complete = false ∧ bitsN w.desc 192 64 ≤ (rmaComplete ws 0 0).toNat)
    ∧ rmaRuns (ran run1) 0 0 = [run1] ∧ rmaState (ran run1) 0 0 ≠ 3 ∧ run1.complete = true ∧ run1.err = 0 ∧ { run1 with err := 4 }.err ≠ 0 := by decide +kernel

/-- Partition 0 ACTIVE on die 0. -/
def act : State := mgSetF (withPart 0 1 svc) 0 (oPartCfg 0) 0 8 1

/-- A record of one node, which is eligible. -/
def rec1 (node : BitVec 512) : Rec :=
  { id := 1, part := 0, q := 0, pa := 0, hdr := 1, nodes := [node], depth := 0, parent := none, dev := false, started := true, cnt := [], st := [(0, 1)],
    code := 0, node := 0, failCyc := 0 }
def recs (r : Rec) : State := { act with recs := [r], nextId := 2 }

/-- Queue 0 of partition 0 enabled, with one entry to take. -/
def que : State := mgSet (mgSetF act 0 (oQueue 0 0) 52 1 1) 0 (oQueue 0 0 + 8) 1

theorem wit_LaunchEvents :
    let fetching := { que with parts := [(0, { Part.init with fetching := [(0, 0)] })] }
    let fresh := { rec1 0 with started := false }
    qEn act 0 0 = false ∧ qStop act 0 0 = false ∧ qStop (mgSetF act 0 (oQueue 0 0 + 24) 4 1 1) 0 0 = true ∧ act.mgmt.fw.contains 0 = false ∧ partState que 0 = 1
    ∧ qEn que 0 0 = true ∧ qStop que 0 0 = false ∧ qTaken que 0 0 < qTl que 0 0 ∧ (inFlight que 0 0).length < 4 ∧ mfind (getPart que 0).fetching 0 = none
    ∧ leNat (homeRead que (qBase que 0 0 + 8 * (qTaken que 0 0 % 256)) 8) = 0 ∧ populated que 0 = true
    ∧ (∀ q ∈ liveQueues que, walkerDie que q.1 = walkerDie que 0 → queueBefore que q (0, 0) = true → canTake que q.1 q.2 = false)
    ∧ leNat (homeRead { que with mem := [(0, 8)] } (qBase que 0 0) 8) % 64 ≠ 0 ∧ mfind (getPart fetching 0).fetching 0 = some 0
    ∧ (∀ q ∈ liveQueues fetching, walkerDie fetching q.1 = walkerDie fetching 0 → queueBefore fetching q (0, 0) = true → mfind (getPart fetching q.1).fetching q.2 = none)
    ∧ findRec (recs fresh) 1 = some fresh ∧ fresh.parent = none := by decide +kernel

theorem wit_LaunchEvents_start :
    let ty := fun (n : Nat) => (BitVec.ofNat 512 n : BitVec 512).toNat % 2 ^ 4 = n ∧ nodeSt (rec1 (BitVec.ofNat 512 n)) 0 = 1
      ∧ (recs (rec1 (BitVec.ofNat 512 n))).recs = [rec1 (BitVec.ofNat 512 n)]
    let fresh := { rec1 0 with started := false }
    (inFlight (recs fresh) 0 0).takeWhile (fun e => e.id != fresh.id) = [] ∧ hdWaitTl fresh.hdr = 0 ∧ partState (recs fresh) 0 = 1
    ∧ (∀ q ∈ liveQueues (recs fresh), walkerDie (recs fresh) q.1 = walkerDie (recs fresh) 0 → queueBefore (recs fresh) q (0, 0) = true
      → ∀ e ∈ inFlight (recs fresh) q.1 q.2, mayStart (recs fresh) e = false)
    ∧ ty 1 ∧ ty 2 ∧ ty 3 ∧ ty 4 ∧ ty 5 := by decide +kernel

theorem wit_LaunchEvents_nodes :
    let ty := fun (n : Nat) => (BitVec.ofNat 512 n : BitVec 512).toNat % 2 ^ 4 = n ∧ nodeSt (rec1 (BitVec.ofNat 512 n)) 0 = 1
      ∧ (recs (rec1 (BitVec.ofNat 512 n))).recs = [rec1 (BitVec.ofNat 512 n)]
    let co := fun (st : Nat) => { rec1 3 with st := [(0, st)] }
    let g0 := { gang2 [0, 1] false with st := 0 }
    let wait := { rec1 7 with st := [(0, 2)] }
    ty 6 ∧ ty 7 ∧ findRec (recs (rec1 1)) 1 = some (rec1 1) ∧ (rec1 1).started = true
    ∧ mget 0 (recs (rec1 1)).walks (walkerDie (recs (rec1 1)) 0) ≤ (recs (rec1 1)).cyc ∧ 4 ≤ { rec1 5 with depth := 4 }.depth
    ∧ findRec (recs wait) 1 = some wait ∧ nodeSt wait 0 = 2 ∧ (recs wait).sub = 0 ∧ mget 0 wait.cnt 0 < { recs wait with cicada := 1 }.cicada.toNat
    ∧ (recs wait).reqs = [] ∧ nodeSt (co 2) 0 = 2 ∧ nodeOpening (recs (co 2)) 1 0 = false ∧ mget 0 { co 2 with cnt := [(0, 1)] }.cnt 0 = 1
    ∧ mget 0 (co 2).cnt 0 ≠ 1 ∧ nodeSt { rec1 (2 ^ 128 + 3) with nodes := [2 ^ 128 + 3, 0], st := [(0, 2), (1, 3)] } (coSnode (2 ^ 128 + 3)) = 3
    ∧ findGang { recs (rec1 0) with gangs := [g0] } 1 = some g0 ∧ g0.st = 0 ∧ g0.rcd = 1
    ∧ (∀ i < { rec1 1 with st := [(0, 3)] }.nodes.length, nodeSt { rec1 1 with st := [(0, 3)] } i = 3) := by decide +kernel

/-- An invalidation of one page under way, and a core that has marked. -/
def inv1 (started : Bool) (count : Nat) (marked : Map Nat) : Inval :=
  { id := 1, part := 0, vpn := 0, count := count, all := false, host := true, started := started, marked := marked, confirmed := [] }

theorem wit_LaunchEvents_invalidation :
    let s := fun (v : Inval) => { act with invals := [v] }
    let v := inv1 true 1 []
    let m := inv1 true 1 [(0, 2)]
    (s (inv1 false 1 [])).invals = [inv1 false 1 []] ∧ (inv1 false 1 []).count ≠ 0 ∧ (inv1 false 0 []).count = 0 ∧ (inv1 false 0 []).all = false
    ∧ (partCores (s v) 0).contains 0 = true ∧ mfind v.marked 0 = none
    ∧ (∀ e ∈ (getC (s v) 0).tlb, tlbMatches v e = true → moving (s v) e.pa.toNat = false)
    ∧ (∀ y ∈ partCtxs (s v) 0 v.part, ∀ q ∈ (getX (s v) y).hr, q.2.st ≠ 0 → handleMatches v q.2 = true → moving (s v) q.2.pa.toNat = false)
    ∧ mfind m.marked 0 = some 2 ∧ m.confirmed.contains 0 = false ∧ (∀ q ∈ (getC (s m) 0).wbs, q.2.2 ≠ m.part)
    ∧ (∀ y ∈ partCtxs (s m) 0 m.part, (∀ e ∈ (getX (s m) y).accs, writePending 2 e = false) ∧ (∀ e ∈ (getX (s m) y).q1, e.id < 2 → cmdWrites e = false))
    ∧ (∀ e ∈ (getC (s m) 0).runs, e.cmd.id < 2 → cmdWrites e.cmd = true → runPart (s m) e = m.part → e.stopped = true)
    ∧ (getPlc { act with plcs := [(0, { Plc.init with notices := [(0, false, 0, 0)] })] } 0).notices ≠ [] ∧ dieOk act 0 = true := by decide +kernel

/-- A gang node of one task that can be placed, one that never can, and the seats. -/
def turnKind (t : Turn) : Nat :=
  match t with
  | .place _ => 1
  | .never => 2
  | .preempt _ => 3
  | .restore _ => 4
  | .wait => 5

/-- A queue of a core with a command of an operation, and one that runs. -/
def cq (op : Nat) : Cmd := { cmd0 with op := op }
def queued (c : Ctx) : State := { setX svc 0 { c with task := true } with cyc := 1 }
def running (r : Run) : State := { svc with cores := [(0, { Core.init with active := true, runs := [r] })] }
def ran (op step : Nat) : Run := { mkRun 0 none (cq op) with step := step }

theorem wit_EngineEvents :
    let copy := queued { Ctx.init with q1 := [cq 0] }
    let post := queued { Ctx.init with q1 := [cq 4] }
    let free := fun (s : State) (n : Nat) => ∀ e ∈ (getC s 0).runs, e.cmd.port = n → runBusy e = false
    let heads := fun (s : State) (m : Cmd) => free s 0 ∧ coreOf 0 = 0 ∧ Runs (getX s 0)
      ∧ (∀ e ∈ (getC s 0).runs, e.cmd.port = 0 → e.x = 0 → e.node = none → e.stopped = true ∨ e.cmd.stage ≤ e.step)
      ∧ FirstIn (getX s 0).q1 m (fun e => e.port == 0 && !(getC s 0).runs.any (fun f => f.cmd.id == e.id)) ∧ m.cyc < s.cyc ∧ cpWen m.blk = false
      ∧ (∀ y < 4, y ≠ 0 → headFor s 0 0 y = none)
    heads copy (cq 0) ∧ heads post (cq 4) ∧ (cq 0).op ≠ 4 ∧ postReady post 0 0 4 = none := by unfold Runs FirstIn; decide +kernel

theorem wit_EngineEvents_stages :
    let staged := { mkRun 0 none { cq 0 with stage := 2 } with step := 0 }
    let free := fun (s : State) (n : Nat) => ∀ e ∈ (getC s 0).runs, e.cmd.port = n → runBusy e = false
    free (running staged) 0 ∧ (running staged).cores = [(0, { Core.init with active := true, runs := [staged] })] ∧ staged.stopped = false
    ∧ staged.step < staged.cmd.stage ∧ staged.done = staged.step ∧ (getX (running staged) 0).halted = false
    ∧ tlReached (readTl (getX (running staged) 0) (cpWtl staged.cmd.blk)) (cpWval staged.cmd.blk + BitVec.ofNat 64 staged.step) = true := by decide +kernel

theorem wit_EngineEvents_done :
    let ended := { mkRun 0 none (cq 0) with pos := 0 }
    let node := { ended with node := some (1, 0), stopped := true }
    let wp := running (ran 4 2)
    let rq := { mgSetF podS 0 (oRma 0 0 + 24) 3 1 1 with cores := wp.cores }
    runAt (running ended) 0 1 = some ended ∧ ended.out = [] ∧ ended.buf = [] ∧ arrivalsDue ended = false ∧ runGoal ended ≤ ended.pos ∧ ended.cmd.stage = 0
    ∧ ended.node = none ∧ runAt (running node) 0 1 = some node ∧ arrivalsDue node = false ∧ node.stopped = true ∧ postReady rq 0 0 4 = some (ran 4 2) := by decide +kernel

theorem wit_EngineEvents_post :
    let wp := running (ran 4 2)
    let rq := { mgSetF podS 0 (oRma 0 0 + 24) 3 1 1 with cores := wp.cores }
    let rec' := { ran 0x19 2 with cmd := { cq 0x19 with port := 2 } }
    let lq := { mgSetF svc 0 (oQueue 0 0) 52 1 1 with cores := (running rec').cores }
    let lc := queued { Ctx.init with q4 := [{ cq 0x19 with port := 2 }] }
    let su := queued { Ctx.init with q3 := [cq 0xB] }
    let free := fun (s : State) (n : Nat) => ∀ e ∈ (getC s 0).runs, e.cmd.port = n → runBusy e = false
    rmaEn rq 0 0 = true ∧ (rmaTail rq 0 0 - bits (rmaComplete rq 0 0) 0 32).toNat < 2 ^ rmaLog rq 0 0 ∧ postReady lq 0 2 0x19 = some rec' ∧ qEn lq 0 0 = true
    ∧ qTl lq 0 0 - qTaken lq 0 0 < 256 ∧ postReady lc 0 2 0x19 = none ∧ free lc 2 ∧ Runs (getX lc 0) ∧ (getX lc 0).q4.head? = some { cq 0x19 with port := 2 }
    ∧ (∀ y < 4, y ≠ 0 → (getX lc y).task = false) ∧ mfind (getC su 0).starts 3 ≠ some su.cyc ∧ Runs (getX su 0)
    ∧ FirstIn (getX su 0).q3 (cq 0xB) (fun e => decide (e.cyc < su.cyc) && (before (getX su 0).q3 e).all (fun f => f.a != e.a) && !(e.op == 9 && (readQ (getX su 0) e.a).st == 2))
    ∧ (∀ y < 4, y ≠ 0 → (getX su y).task = false) := by unfold Runs FirstIn; decide +kernel

theorem wit_EngineEvents_open :
    let open' := { setX svc 0 { Ctx.init with task := true, hold := some 1 } with parts := [(0, { Part.init with opens := [(0, 1, 0)] })] }
    (getPart (reapStreams 0 open') 0).opens.filter (fun o => openWaits open' o.1) = [(0, 1, 0)]
    ∧ open'.ctxs.any (fun e => e.2.task && e.2.part.toNat == 0 && e.2.opened == some 0) = false
    ∧ (let g := { gang2 [0, 1] false with arrived := [0, 1] }
       g.st = 1 ∧ g.release = none ∧ g.arrived ≠ [] ∧ (∀ i ∈ g.live, i ∈ g.arrived) ∧ g.xstOut = 0)
    ∧ { gang2 [0, 1] false with release := some 8 }.release = some 8 := by decide +kernel

/-- A flit of a type for port q1 of context 0, whose stream is 5. -/
def flitOf (ty : Nat) : Pkt := pk 6 0 (.stream 0 (BitVec.ofNat 128 (ty + 5 * 2 ^ 16)))
def ports (role : Bool) (st : BitVec 3) (p : Pkt) : State :=
  { got (setX svc 0 { Ctx.init with task := true, qr := [(1, { Port.init with st := st, role := role, sid := 5, part := 0 })] }) p with
    parts := [(0, { Part.init with streams := [(5, (0, 1, 4, 2, 0))] })] }

/-- Each flit for a port of a running task, for a port that nobody has, and for a saved one. -/
theorem wit_EngineEvents_flits :
    let port := fun (s : State) (role : Bool) => livePort (rxTake s 0) 0 5 role
    let flit := fun (n : Nat) => (match (flitOf n).msg with | .stream part w => part == 0 && w.toNat % 2 ^ 4 == n && w.toNat / 2 ^ 16 % 2 ^ 10 == 5 | _ => false)
    let saved := { got svc (flitOf 3) with parts := [(0, { Part.init with saved := [(0, { Ctx.init with qr := [(1, { Port.init with st := 2, role := false, sid := 5, part := 0 })] })] })] }
    [0, 1, 2, 3, 4, 5].all flit = true ∧ argEp svc = 0 ∧ rxHead (ports false 1 (flitOf 2)) 0 = some (flitOf 2)
    ∧ port (ports false 1 (flitOf 2)) false = some (0, 1) ∧ port (ports true 2 (flitOf 3)) true = some (0, 1)
    ∧ (readQ (getX (ports false 1 (flitOf 2)) 0) 1).role = false ∧ (readQ (getX (ports true 2 (flitOf 3)) 0) 1).role = true
    ∧ (edgeOf (rxTake (ports false 2 (flitOf 3)) 0) 0 5).isSome = true ∧ (readQ (getX (ports false 2 (flitOf 3)) 0) 1).st = 2
    ∧ (readQ (getX (ports false 2 (flitOf 3)) 0) 1).susp = 0 ∧ (readQ (getX (ports false 1 (flitOf 3)) 0) 1).st ≠ 2
    ∧ port (got svc (flitOf 0)) false = none ∧ (savedPort (got svc (flitOf 2)) 0 5 false).isNone = true
    ∧ port saved false = none ∧ (savedPort saved 0 5 false).isSome = true
    ∧ (let s := setX svc 0 { Ctx.init with task := true, qr := [(1, { Port.init with st := 3, role := true, due := some 1 })] }
       (getX s 0).task = true ∧ (readQ (getX s 0) 1).role = true ∧ (readQ (getX s 0) 1).st = 3 ∧ (readQ (getX s 0) 1).due = some 1
       ∧ (readQ (getX s 0) 1).wr < 1) := by decide +kernel

/-- Partition 0 with its four contexts of die 0, and a record whose gang node has a number of tasks. -/
def gq (tasks : Nat) : State := mgSetF (recs (rec1 (BitVec.ofNat 512 (tasks * 2 ^ 192)))) 0 (oPartCfg 0) 8 9 4

/-- A gang that fills core 0 and may be pre-empted by queue 1, of a higher priority. -/
def full : Gang := { gang2 [0, 1, 2, 3] false with id := 9, tasks := 4, xs := [0, 1, 2, 3], pre := true, acm := 0 }
def gp : State :=
  let s := { gq 1 with recs := [{ rec1 (BitVec.ofNat 512 (2 ^ 192)) with q := 1 }], gangs := [full] }
  (List.range 4).foldl (fun t x => setX t x { Ctx.init with task := true, gang := 9 }) (mgSetF s 0 (oQueue 0 1) 48 4 1)
def gr : State := { gq 1 with recs := [{ rec1 (BitVec.ofNat 512 (2 ^ 192)) with st := [(0, 2)] }], gangs := [{ full with st := 2, saved := [(0, Ctx.init, [], ⟨[], [], []⟩)] }] }

/-- Gang 8 of queue 1, saved while gang 9 fills its core. -/
def saved8 : Gang := { full with id := 8, st := 2, q := 1, saved := [(0, Ctx.init, [], ⟨[], [], []⟩)] }
def gh : State := { gp with gangs := [full, saved8] }

/-- A gang node of one task that is placed, one of 64 tasks on a core, which no core ever holds, one for which gang 9 is pre-empted, and gang 9
saved, which is restored, or pre-empts for its place; each the head of its queue, and no queue before it. -/
theorem wit_LaunchEvents_gangs :
    let dies := fun (s : State) => recDies s 0 1
    let b := fun (n : Nat) => BitVec.ofNat 512 (n * 2 ^ 192)
    let noneBefore := fun (s : State) (q : Nat) => ∀ d ∈ waitingQueues s, walkerDie s d.1 = walkerDie s 0 → queueBefore s d (0, q) = false
    let node := fun (s : State) (q : Nat) => match queueHead s 0 q with | some (.node r n) => r.id == 1 && n == 0 && r.part == 0 && r.q == q && r.hdr == 1 | _ => false
    partState (gq 1) 0 = 1 ∧ partState gp 0 = 1 ∧ partState gr 0 = 1 ∧ noneBefore (gq 1) 0 ∧ noneBefore gp 1 ∧ noneBefore gr 0
    ∧ node (gq 1) 0 = true ∧ node (gq 64) 0 = true ∧ node gp 1 = true ∧ (match queueHead gr 0 0 with | some (.saved g) => g.id == 9 | _ => false) = true
    ∧ (chooseSeats (gq 1) 0 (dies (gq 1)) [] (b 1)).isSome = true
    ∧ chooseSeats (gq 64) 0 (dies (gq 64)) [] (b 64) = none ∧ (∀ c ∈ recClusters (gq 64) (dies (gq 64)), couldHold (gq 64) 0 c.1 c.2 (b 64) = false)
    ∧ chooseSeats gp 0 (dies gp) [] (b 1) = none ∧ (∃ c ∈ recClusters gp (dies gp), couldHold gp 0 c.1 c.2 (b 1) = true)
    ∧ (victims gp 0 1).find? (fun e => (chooseSeats gp 0 (dies gp) (liveXs e) (b 1)).isSome) = some full
    ∧ gr.moves = [] ∧ findGang gr 9 = gr.gangs.head? ∧ (restoreSeats gr { full with st := 2, saved := [(0, Ctx.init, [], ⟨[], [], []⟩)] } []).isSome = true
    ∧ noneBefore gh 1 ∧ gh.moves = [] ∧ findGang gh 8 = some saved8 ∧ partState gh 0 = 1 ∧ (match queueHead gh 0 1 with | some (.saved g) => g.id == 8 | _ => false) = true
    ∧ restoreSeats gh saved8 [] = none ∧ (victims gh 0 1).find? (fun e => (restoreSeats gh saved8 (liveXs e)).isSome) = some full := by decide +kernel

/-! ## Hypotheses that are met: a step -/

/-- The state in which the next step fetches and runs `addi s1, s0, 5` (0x04010005). -/
def fetch5 : State := State.reset.withFetchWord 32 0x04010005

/-- The next step presents an instruction: held, trapping or running, with rows of the tile store or with none. -/
def presents (s : State) (i : Instr) (w : Word) (held traps : Bool) : Bool :=
  let u := { settle s 0 with cur := 0 }
  let v := latchBody (touchFetch u 0 1) 0 [w]
  let t := needThr [(0, i)] v
  !s.boot.stopped && s.agenda.isEmpty && s.timers.isEmpty && (autoEvent s).isNone && s.todo == [2 * 0 + 1] && !(getC s 0).half
  && (choose s 0).map (·.1) == some 0 && !notReady (getX u 0) && (boundaryTrap u 0).isNone
  && (match fetchBundle u 0 with | .ok ws => ws == [w] | _ => false) && examine [w] == .ok [(0, i)]
  && (slotOf i).any (fun f => wouldHold 1 [(0, f)] t == held && wouldTrap 1 [(0, f)] t == traps)
  && (bundleRows [(0, i)] v).isEmpty
  && decide (bundleWeight (getC u 0) [(0, i)] + arrayWeight (getC s 0) + windowSum (getC s 0) ≤ (getC s 0).eff.toNat)

/-- The divider busy: a division is held; `tret` traps outside a handler; `addi` runs. -/
theorem wit_StepRunsDecoded :
    presents fetch5 (.addi 1 0 5 none) 0x84010005 false false = true
    ∧ presents (State.reset.withFetchWord 32 207618048) .tret (0x80000000 ||| 207618048) false true = true
    ∧ presents (modC (State.reset.withFetchWord 32 12781696) 0 (fun c => { c with div := 5 })) (.div 3 1 2) (0x80000000 ||| 12781696) true false = true := by decide +kernel

theorem wit_StepRunsDecoded_fetch :
    let u := { settle fetch5 0 with cur := 0 }
    (match translate u 0 (getX u 0).pc.toNat with | .ok m => m.x && ((getX u 0).sup || m.u) && m.pa.toNat == 0 && m.vpn == 0 | _ => false) = true
    ∧ (getX u 0).pc = 0 ∧ (getX u 0).curLoop = none ∧ isLocal fetch5 0 = true ∧ populatedRange u (paOf 0) 4 = true
    ∧ (icFind (getC u 0) 0 (getX u 0).part).isSome = true ∧ (memWord u (paOf 0)).getLsbD 31 = true := by decide +kernel

/-- R188, R340: that step leaves 5 in s1 and the pc at 4. -/
theorem test_step_addi :
    (match step fetch5 with | .next t => readS (getX t 0) 1 == 5 && (getX t 0).pc == 4 && (getX t 0).ct == 1 | _ => false) = true := by decide +kernel

theorem wit_encode : (Instr.addi 1 0 5 none).wf = true ∧ encode (.addi 1 0 5 none) = some (0x04010005#32, none)
    ∧ (match decodeInstr 0x04010005#32 none with | .ok i => i == .addi 1 0 5 none | _ => false) = true ∧ (0x04010005#32).getLsbD 31 = false := by decide +kernel

/-! ## Single steps, with results worked out from the rules -/

/-- The scalar register r after an instruction. -/
def regAfter (i : Instr) (c : Ctx) (r : BitVec 5) : Option DWord :=
  match exec i (sc c) with
  | .next t => some (readS t.ctx r)
  | _ => none

/-- The predicate p after an instruction. -/
def predAfter (i : Instr) (c : Ctx) (p : BitVec 4) : Option Bool :=
  match exec i (sc c) with
  | .next t => some (readP t.ctx p)
  | _ => none

/-- The results in flight after an instruction. -/
def flying (i : Instr) (s : State) : Option (List (Nat × RegWrite)) :=
  match exec i s with
  | .next t => some (t.ctx.results.map (fun r => (r.wp, r.eff)))
  | _ => none

/-- R338: subtraction wraps; shifts take the amount mod 64; `sar` fills with the sign; the compares of `min` and `minz` differ in sign. -/
theorem test_scalar :
    regAfter (.sub 3 1 2) (rc 1 2) 3 = some 0xFFFFFFFFFFFFFFFF ∧ regAfter (.shl 3 1 2) (rc 1 65) 3 = some 2
    ∧ regAfter (.sar 3 1 2) (rc (2 ^ 63) 63) 3 = some 0xFFFFFFFFFFFFFFFF ∧ regAfter (.rol 3 1 2) (rc (2 ^ 63) 1) 3 = some 1
    ∧ regAfter (.min 3 1 2) (rc (-1) 1) 3 = some (-1) ∧ regAfter (.minz 3 1 2) (rc (-1) 1) 3 = some 1
    ∧ regAfter (.clz 3 1) (rc 1 0) 3 = some 63 ∧ regAfter (.ctz 3 2) (rc 1 0) 3 = some 64 ∧ regAfter (.popc 3 1) (rc 7 0) 3 = some 3
    ∧ regAfter (.andn 3 1 2) (rc 7 2) 3 = some 5 := by decide +kernel

/-- R338, R340, R341: extensions; `movh` keeps the low 48 bits; an immediate is signed, with a payload of 39 bits; s0 stays 0. -/
theorem test_moves :
    regAfter (.extB 3 1) (rc 0x180 0) 3 = some (-128) ∧ regAfter (.extzB 3 1) (rc 0x180 0) 3 = some 0x80
    ∧ regAfter (.movh 1 0x8000) (rc 5 0) 1 = some 0x8000000000000005 ∧ regAfter (.addi 3 1 0x7FF none) (rc 0 0) 3 = some (-1)
    ∧ regAfter (.addi 3 1 0x7FF (some 0)) (rc 0 0) 3 = some 0x7FF ∧ regAfter (.addi 0 1 1 none) (rc 0 0) 0 = some 0
    ∧ regAfter (.sel 3 1 2 0) (rc 8 9) 3 = some 8 ∧ regAfter (.sel 3 1 2 0x10) (rc 8 9) 3 = some 9 := by decide +kernel

/-- R342: signed and unsigned compares; p0 stays true. -/
theorem test_compares :
    predAfter (.cmpLt 3 1 2) (rc (-1) 1) 3 = some true ∧ predAfter (.cmpLo 3 1 2) (rc (-1) 1) 3 = some false
    ∧ predAfter (.cmpEq 0 1 2) (rc 1 2) 0 = some true ∧ predAfter (.pnot 3 0) Ctx.init 3 = some false := by decide +kernel

/-- R338, R339: a product is written at CT + 3; a quotient truncates at CT + 18, and −2^63 / −1 is −2^63. -/
theorem test_multiply_divide :
    flying (.mulhz 3 1 2) (sc (rc (-1) (-1))) = some [(3, .sreg 3 (-2))] ∧ flying (.mulh 3 1 2) (sc (rc (-1) (-1))) = some [(3, .sreg 3 0)]
    ∧ flying (.div 3 1 2) (sc (rc (-7) 2)) = some [(18, .sreg 3 (-3))] ∧ flying (.rem 3 1 2) (sc (rc (-7) 2)) = some [(18, .sreg 3 (-1))]
    ∧ flying (.div 3 1 2) (sc (rc (2 ^ 63) (-1))) = some [(18, .sreg 3 (2 ^ 63))] ∧ flying (.rem 3 1 2) (sc (rc 7 0)) = some [(18, .sreg 3 7)] := by
  decide +kernel

/-- The image's cause code, the resume address and the pc after an instruction in a context with a handler. -/
def trapAfter (i : Instr) (c : Ctx) : Option (Nat × DWord × Va) :=
  match exec i (sc { c with ti := [(7, 0x1000)] }) with
  | .next t => some ((tiRead t.ctx 0).toNat % 256, tiRead t.ctx 1, t.ctx.pc)
  | _ => none

/-- R304, R308, R355, R356: `trap` names the next bundle; `tret` outside a handler, an ill-formed field and an unmapped control register
are cancelled, and name their own. -/
theorem test_traps :
    trapAfter (.trap 7) { Ctx.init with pc := 0x40 } = some (0x11, 0x44, 0x1000) ∧ trapAfter .tret { Ctx.init with pc := 0x40 } = some (0x03, 0x40, 0x1000)
    ∧ trapAfter (.vadd 1 2 3 0 5) { Ctx.init with pc := 0x40 } = some (0x02, 0x40, 0x1000)
    ∧ trapAfter (.crr 1 9) { Ctx.init with pc := 0x40 } = some (0x02, 0x40, 0x1000)
    ∧ trapAfter (.inv 1 2) { Ctx.init with pc := 0x40 } = some (0x03, 0x40, 0x1000) := by decide +kernel

/-- The pc and s1 after an instruction. -/
def goesTo (i : Instr) (c : Ctx) : Option (Va × DWord) :=
  match exec i (sc c) with
  | .next t => some (t.ctx.pc, readS t.ctx 1)
  | _ => none

/-- R345 to R347: a displacement is counted in words; a call keeps the address after it; an indirect jump drops the bits above 52. -/
theorem test_branches :
    goesTo (.br 0 (-3) none) { Ctx.init with pc := 0x40 } = some (0x34, 0) ∧ goesTo (.br 0x10 (-3) none) { Ctx.init with pc := 0x40 } = some (0x44, 0)
    ∧ goesTo (.call 1 2 none) { Ctx.init with pc := 0x40 } = some (0x48, 0x44)
    ∧ goesTo (.jmp 0 1) { rc (2 ^ 52 + 8) 0 with pc := 0x40 } = some (8, 0x10000000000008) := by decide +kernel

/-- A tile store with two bytes at 0. -/
def tk : Core := { Core.init with ts := tsWrite ⟨[], [], []⟩ 0 [0x80, 0x01] false }

/-- R358, R361: a load extends its value, an offset is counted in accesses; R10: the lower byte is the lower address. -/
theorem test_tile_loads :
    flying (.ldB 3 1 0 none) (sk (tc 0 0) tk) = some [(4, .sreg 3 (-128))] ∧ flying (.ldzB 3 1 0 none) (sk (tc 0 0) tk) = some [(4, .sreg 3 0x80)]
    ∧ flying (.ldzH 3 1 0 none) (sk (tc 0 0) tk) = some [(4, .sreg 3 0x180)]
    ∧ (match exec (.stH 0 1 2 2 none) (sk (tc 0 0x1234) tk) with | .next t => loadTs t 0 4 2 == [0x34, 0x12] | _ => false) = true := by decide +kernel

/-- R384, R287: bf16 1 + 1 is 2; 16-bit integers saturate at 2^15 − 1, and an absent operand is kept by the identity forms alone. -/
theorem test_vector_add :
    let c := { Ctx.init with vr := [(1, 0x3F80), (2, 0x3F80), (3, 0x7FFF), (4, 1), (5, 0x8000)] }
    (flying (.vadd 6 1 2 0 1) (sc c)).map (·.map (fun r => match r.2 with | .vreg _ v m => v.toNat % 2 ^ 16 + (m.toNat % 2 ^ 2) * 0 | _ => 0)) = some [0x4000]
    ∧ (flying (.vadd 6 3 4 0 4) (sc c)).map (·.map (fun r => match r.2 with | .vreg _ v _ => v.toNat | _ => 0)) = some [0x7FFF]
    ∧ (flying (.vadd 6 5 4 0 4) (sc c)).map (·.map (fun r => match r.2 with | .vreg _ v _ => v.toNat | _ => 0)) = some [0x8000]
    ∧ (flying (.viadd 6 5 4 0 4) (sc c)).map (·.map (fun r => match r.2 with | .vreg _ v _ => v.toNat | _ => 0)) = some [1] := by decide +kernel

/-- R269, R375, R377: a timeline that has reached a value lets `tlwait` pass; `tlrd` reads it at latency 2. -/
theorem test_timelines :
    goesTo (.tlwait 0 2 1) { rc 5 0 with tlr := [(2, 5)], pc := 0x40 } = some (0x44, 5)
    ∧ flying (.tlrd 3 2) (sc { Ctx.init with tlr := [(2, 5)] }) = some [(2, .sreg 3 5)]
    ∧ trapAfter (.tlwait 0 2 1) { rc 6 0 with tlr := [(2, 5)] } = some (0x13, 0, 0x1000) := by decide +kernel

/-- R6, R306: memory and its homes: a write of a line steps its version; reset lists nothing. -/
theorem test_home_write :
    lineVer (homeWrite State.reset 64 [1] false) 1 = 1 ∧ lineVer (homeWrite State.reset 64 [1] false) 0 = 0
    ∧ memByte (homeWrite State.reset 64 [1] false).mem 64 = 1 ∧ memByte State.reset.mem 64 = 0 := by decide +kernel

end Sys2Proof.Tests
end

section
/-!
SUPPORT AND CERTIFICATE. A code of a floating format as its sign, exponent field and fraction, the exact value of such a code, and the
rounding of that value back to the code (R280-R282, R284, R286, R287).
-/

namespace Sys2Proof.Machine

open Sys2Proof

/-! ## Powers of two -/

/-- A fraction n × 2^z keeps its numerator's zero. -/
@[simp] theorem pow2Frac_fst_eq_zero {n : Nat} {z : Int} : (pow2Frac n z).1 = 0 ↔ n = 0 := by
  cases z <;> simp [pow2Frac]

/-- The denominator is positive. -/
theorem pow2Frac_snd_pos (n : Nat) (z : Int) : 0 < (pow2Frac n z).2 := by
  cases z <;> simp [pow2Frac]

/-- n × 2^z counted in steps of 2^z is n, cross-multiplied as `roundMag` divides. -/
theorem pow2Frac_cross (n : Nat) (z : Int) :
    (pow2Frac n z).1 * (pow2Frac 1 z).2 = n * ((pow2Frac n z).2 * (pow2Frac 1 z).1) := by
  cases z <;> simp [pow2Frac]

/-- Against a power of two the comparison in `floorLog2` always succeeds. -/
theorem floorLog2_two_pow {n : Nat} (hn : n ≠ 0) (k : Nat) : floorLog2 n (2 ^ k) = n.log2 - k := by
  have hlog : 2 ^ n.log2 ≤ n := Nat.log2_self_le hn
  simp only [floorLog2, Nat.log2_two_pow]
  cases he : (n.log2 : Int) - k with
  | ofNat j =>
    have hj : n.log2 = k + j := by rw [Int.ofNat_eq_natCast] at he; omega
    simp [← pow_add, ← hj, hlog]
  | negSucc j =>
    have hj : k = n.log2 + (j + 1) := by omega
    simp [hj, pow_add _ n.log2, Nat.mul_le_mul_right _ hlog]

theorem log2_mul_two_pow {n : Nat} (hn : n ≠ 0) (k : Nat) : (n * 2 ^ k).log2 = n.log2 + k := by
  obtain ⟨hle, hlt⟩ := (Nat.log2_eq_iff hn).1 rfl
  rw [Nat.log2_eq_iff (by simp [hn]), add_right_comm, pow_add, pow_add _ (_ + 1)]
  exact ⟨Nat.mul_le_mul_right _ hle, Nat.mul_lt_mul_of_pos_right hlt (Nat.two_pow_pos k)⟩

theorem floorLog2_pow2Frac {n : Nat} (hn : n ≠ 0) (z : Int) :
    floorLog2 (pow2Frac n z).1 (pow2Frac n z).2 = n.log2 + z := by
  cases z with
  | ofNat k =>
    show floorLog2 (n * 2 ^ k) (2 ^ 0) = n.log2 + (k : Int)
    rw [floorLog2_two_pow (by simp [hn]), log2_mul_two_pow hn]
    omega
  | negSucc k => rw [pow2Frac, floorLog2_two_pow hn]; omega

/-- A magnitude that is a whole number of grid steps is rounded to itself, exactly, in every mode. -/
theorem roundMag_of_stepExp {f : NumFmt} (mode : Mode) {n : Nat} {z : Int}
    (hz : stepExp f (pow2Frac n z).1 (pow2Frac n z).2 = z) :
    roundMag f mode (pow2Frac n z).1 (pow2Frac n z).2 = ⟨n, z, false⟩ := by
  have hpos : 0 < (pow2Frac n z).2 * (pow2Frac 1 z).1 :=
    Nat.mul_pos (pow2Frac_snd_pos n z) (Nat.pos_of_ne_zero (by simp))
  simp [roundMag, hz, pow2Frac_cross, Nat.mul_div_cancel _ hpos]

/-! ## The codes of the floating formats by their fields -/

/-- The code with sign `neg`, exponent field `ef` and fraction `fr` (R280, R282). -/
def floatCode (e m : Nat) (neg : Bool) (ef fr : Nat) : Nat := (if neg then 2 ^ (e + m) else 0) + (ef * 2 ^ m + fr)

/-- The significand of such a code as a whole number: without the leading one where the exponent field is 0. -/
def significand (m ef fr : Nat) : Nat := if ef = 0 then fr else 2 ^ m + fr

/-- The exponent of the last place of such a code. -/
def placeExp (bias : Int) (m ef : Nat) : Int := max ef 1 - bias - m

/-- The magnitude of such a code. -/
def floatMag (bias : Int) (m ef fr : Nat) : Nat × Nat := pow2Frac (significand m ef fr) (placeExp bias m ef)

section
variable {e m ef fr : Nat}

theorem exists_floatCode {code : Nat} (h : code < 2 ^ (1 + e + m)) :
    ∃ neg ef fr, ef < 2 ^ e ∧ fr < 2 ^ m ∧ code = floatCode e m neg ef fr := by
  have hm : 0 < 2 ^ m := Nat.two_pow_pos m
  have h2 : 2 ^ (1 + e + m) = 2 * 2 ^ (e + m) := by ring
  have hem : 2 ^ (e + m) = 2 ^ e * 2 ^ m := pow_add 2 e m
  have key : ∀ r < 2 ^ (e + m), r / 2 ^ m < 2 ^ e ∧ r % 2 ^ m < 2 ^ m ∧ r / 2 ^ m * 2 ^ m + r % 2 ^ m = r := fun r hr =>
    ⟨Nat.div_lt_of_lt_mul (by rw [mul_comm, ← hem]; exact hr), Nat.mod_lt _ hm, Nat.div_add_mod' r (2 ^ m)⟩
  by_cases hneg : code < 2 ^ (e + m)
  · obtain ⟨hef, hfr, heq⟩ := key code hneg
    exact ⟨false, _, _, hef, hfr, by simp [floatCode, heq]⟩
  · obtain ⟨hef, hfr, heq⟩ := key (code - 2 ^ (e + m)) (by omega)
    exact ⟨true, _, _, hef, hfr, by simp [floatCode, heq]; omega⟩

/-- The exponent field and the fraction together, below the sign. -/
theorem fields_lt (hef : ef < 2 ^ e) (hfr : fr < 2 ^ m) : ef * 2 ^ m + fr < 2 ^ (e + m) := by
  rw [pow_add]; nlinarith

theorem floatCode_lt (neg : Bool) (hef : ef < 2 ^ e) (hfr : fr < 2 ^ m) : floatCode e m neg ef fr < 2 ^ (1 + e + m) := by
  have h2 : 2 ^ (1 + e + m) = 2 * 2 ^ (e + m) := by ring
  have := fields_lt hef hfr
  cases neg <;> simp [floatCode] <;> omega

theorem floatCode_mod (neg : Bool) (hfr : fr < 2 ^ m) : floatCode e m neg ef fr % 2 ^ m = fr := by
  cases neg <;> simp [floatCode, pow_add, Nat.add_mod, Nat.mod_eq_of_lt hfr]

theorem floatCode_expField (neg : Bool) (hef : ef < 2 ^ e) (hfr : fr < 2 ^ m) :
    floatCode e m neg ef fr / 2 ^ m % 2 ^ e = ef := by
  have hdiv : (ef * 2 ^ m + fr) / 2 ^ m = ef := by
    rw [Nat.mul_comm, Nat.mul_add_div (Nat.two_pow_pos m), Nat.div_eq_of_lt hfr, add_zero]
  cases neg with
  | false => simp [floatCode, hdiv, Nat.mod_eq_of_lt hef]
  | true =>
    rw [floatCode, if_pos rfl, pow_add, Nat.mul_comm (2 ^ e), Nat.mul_add_div (Nat.two_pow_pos m), hdiv, Nat.add_mod_left,
      Nat.mod_eq_of_lt hef]

theorem floatCode_sign (neg : Bool) (hef : ef < 2 ^ e) (hfr : fr < 2 ^ m) :
    decide (floatCode e m neg ef fr / 2 ^ (e + m) = 1) = neg := by
  have hdiv := Nat.div_eq_of_lt (fields_lt hef hfr)
  cases neg <;> simp [floatCode, hdiv, Nat.add_div_left]

/-- The two branches of `decodeNum` are one: the exponent field 0 has the last place of the field 1 and no leading one. -/
theorem floatMag_eq_ite (bias : Int) (m ef fr : Nat) :
    (if ef = 0 then pow2Frac fr (1 - bias - m) else pow2Frac (2 ^ m + fr) (ef - bias - m)) = floatMag bias m ef fr := by
  by_cases h : ef = 0
  · simp [floatMag, significand, placeExp, h]
  · have hmax : max (ef : Int) 1 = ef := by omega
    simp [floatMag, significand, placeExp, h, hmax]

/-- With an exponent field, the significand has its leading one in place m. -/
theorem log2_significand (hef : ef ≠ 0) (hfr : fr < 2 ^ m) : (significand m ef fr).log2 = m := by
  have hpos := Nat.two_pow_pos m
  rw [significand, if_neg hef, Nat.log2_eq_iff (by omega), pow_succ]
  omega

theorem log2_significand_zero_lt (hfr : fr < 2 ^ m) (h0 : significand m 0 fr ≠ 0) : (significand m 0 fr).log2 < m := by
  rw [Nat.log2_lt h0]
  simpa [significand] using hfr

theorem floatMag_fst_eq_zero {bias : Int} : (floatMag bias m ef fr).1 = 0 ↔ significand m ef fr = 0 := pow2Frac_fst_eq_zero

/-- The grid step at the magnitude of a code is its last place (R287). -/
theorem gridStep_floatMag (bias : Int) (hfr : fr < 2 ^ m) :
    (if (floatMag bias m ef fr).1 = 0 then 1 - bias
      else max (floorLog2 (floatMag bias m ef fr).1 (floatMag bias m ef fr).2) (1 - bias)) - m = placeExp bias m ef := by
  by_cases h0 : significand m ef fr = 0
  · have hef : ef = 0 := by
      by_contra hne
      have hpos := Nat.two_pow_pos m
      simp [significand, hne] at h0
    rw [if_pos (floatMag_fst_eq_zero.2 h0), placeExp, hef]
    rfl
  · rw [if_neg (mt floatMag_fst_eq_zero.1 h0), floatMag, floorLog2_pow2Frac h0, placeExp]
    by_cases hef : ef = 0
    · subst hef
      have hlt := log2_significand_zero_lt hfr h0
      omega
    · have hlog := log2_significand hef hfr
      omega

end

/-! ## The floating formats -/

section
variable {e m ef fr : Nat} {neg : Bool}

theorem decodeNum_ieee (hef : ef < 2 ^ e) (hfr : fr < 2 ^ m) (hab : floatCode e m neg ef fr ≠ (NumFmt.ieee e m).absentCode) :
    decodeNum (.ieee e m) (floatCode e m neg ef fr) =
      if ef = 2 ^ e - 1 then (if fr = 0 then .inf neg else .nan)
      else .fin neg (floatMag (NumFmt.ieee e m).bias m ef fr).1 (floatMag (NumFmt.ieee e m).bias m ef fr).2 := by
  simp only [decodeNum, NumFmt.width, Nat.mod_eq_of_lt (floatCode_lt neg hef hfr), if_neg hab, floatCode_mod neg hfr,
    floatCode_expField neg hef hfr, floatCode_sign neg hef hfr, floatMag_eq_ite]

theorem decodeNum_exmy {b : Nat} (hef : ef < 2 ^ e) (hfr : fr < 2 ^ m)
    (hab : floatCode e m neg ef fr ≠ (NumFmt.exmy e m b).absentCode) :
    decodeNum (.exmy e m b) (floatCode e m neg ef fr) =
      .fin neg (floatMag (NumFmt.exmy e m b).bias m ef fr).1 (floatMag (NumFmt.exmy e m b).bias m ef fr).2 := by
  simp only [decodeNum, NumFmt.width, Nat.mod_eq_of_lt (floatCode_lt neg hef hfr), if_neg hab, floatCode_mod neg hfr,
    floatCode_expField neg hef hfr, floatCode_sign neg hef hfr, floatMag_eq_ite]

theorem stepExp_ieee (hfr : fr < 2 ^ m) :
    stepExp (.ieee e m) (floatMag (NumFmt.ieee e m).bias m ef fr).1 (floatMag (NumFmt.ieee e m).bias m ef fr).2
      = placeExp (NumFmt.ieee e m).bias m ef := gridStep_floatMag _ hfr

theorem stepExp_exmy {b : Nat} (hfr : fr < 2 ^ m) :
    stepExp (.exmy e m b) (floatMag (NumFmt.exmy e m b).bias m ef fr).1 (floatMag (NumFmt.exmy e m b).bias m ef fr).2
      = placeExp (NumFmt.exmy e m b).bias m ef := gridStep_floatMag _ hfr

theorem significand_lt_iff : significand m ef fr < 2 ^ m ↔ ef = 0 ∧ fr < 2 ^ m := by
  unfold significand; split <;> simp_all

theorem significand_ne_two_pow_succ (hfr : fr < 2 ^ m) : significand m ef fr ≠ 2 ^ (m + 1) := by
  unfold significand; split <;> omega

theorem significand_sub (hef : ef ≠ 0) : significand m ef fr - 2 ^ m = fr := by
  simp [significand, hef]

/-- The exponent field that `encodeMag` computes from the last place is the code's own. -/
theorem toNat_placeExp (bias : Int) (hef : ef ≠ 0) : (placeExp bias m ef + m + bias).toNat = ef := by
  unfold placeExp; omega

theorem encodeMag_ieee (mode : Mode) (hef : ef < 2 ^ e - 1) (hfr : fr < 2 ^ m) :
    encodeMag (.ieee e m) mode ⟨significand m ef fr, placeExp (NumFmt.ieee e m).bias m ef, false⟩ = (ef * 2 ^ m + fr, false) := by
  by_cases h0 : ef = 0
  · simp [encodeMag, significand, h0, hfr]
  · simp only [encodeMag, significand_lt_iff, h0, false_and, if_false, significand_ne_two_pow_succ hfr, toNat_placeExp _ h0,
      significand_sub h0, if_neg hef.not_ge]

theorem encodeMag_exmy {b : Nat} (mode : Mode) (hef : ef < 2 ^ e) (hfr : fr < 2 ^ m) :
    encodeMag (.exmy e m b) mode ⟨significand m ef fr, placeExp (NumFmt.exmy e m b).bias m ef, false⟩ = (ef * 2 ^ m + fr, false) := by
  by_cases h0 : ef = 0
  · simp [encodeMag, significand, h0, hfr]
  · simp only [encodeMag, significand_lt_iff, h0, false_and, if_false, significand_ne_two_pow_succ hfr, toNat_placeExp _ h0,
      significand_sub h0, if_neg hef.not_ge]

theorem withSign_ieee (e m : Nat) (neg : Bool) (ef fr : Nat) :
    withSign (.ieee e m) neg (ef * 2 ^ m + fr) = floatCode e m neg ef fr := by
  cases neg <;> simp [withSign, floatCode, add_comm]

/-- An ExMy zero loses its sign, but a code other than the absent one has no zero with a sign. -/
theorem withSign_exmy {b : Nat} (hab : floatCode e m neg ef fr ≠ (NumFmt.exmy e m b).absentCode) :
    withSign (.exmy e m b) neg (ef * 2 ^ m + fr) = floatCode e m neg ef fr := by
  cases neg with
  | false => simp [withSign, floatCode]
  | true =>
    have h0 : ef * 2 ^ m + fr ≠ 0 := by simpa [floatCode, NumFmt.absentCode] using hab
    simp only [withSign, floatCode, Bool.not_true, Bool.false_eq_true, if_false, if_neg h0, if_true, add_comm (2 ^ (e + m))]

theorem roundNum_ieee_floatMag (mode : Mode) (hef : ef < 2 ^ e - 1) (hfr : fr < 2 ^ m) :
    roundNum (.ieee e m) mode (.fin neg (floatMag (NumFmt.ieee e m).bias m ef fr).1 (floatMag (NumFmt.ieee e m).bias m ef fr).2)
      = floatCode e m neg ef fr := by
  rw [roundNum, floatMag, roundMag_of_stepExp mode (stepExp_ieee hfr), encodeMag_ieee mode hef hfr, withSign_ieee]

theorem roundNum_exmy_floatMag {b : Nat} (mode : Mode) (hef : ef < 2 ^ e) (hfr : fr < 2 ^ m)
    (hab : floatCode e m neg ef fr ≠ (NumFmt.exmy e m b).absentCode) :
    roundNum (.exmy e m b) mode
        (.fin neg (floatMag (NumFmt.exmy e m b).bias m ef fr).1 (floatMag (NumFmt.exmy e m b).bias m ef fr).2)
      = floatCode e m neg ef fr := by
  rw [roundNum, floatMag, roundMag_of_stepExp mode (stepExp_exmy hfr), encodeMag_exmy mode hef hfr, withSign_exmy hab]

theorem infCode_ieee (e m : Nat) (neg : Bool) : infCode (.ieee e m) neg = floatCode e m neg (2 ^ e - 1) 0 :=
  withSign_ieee e m neg (2 ^ e - 1) 0

end

/-! ## The integer formats -/

/-- A magnitude within the range of an integer format keeps its magnitude and takes its sign. -/
theorem roundNum_int {w n : Nat} (mode : Mode) (neg : Bool) (hn : n ≤ 2 ^ (w - 1) - 1) :
    roundNum (.int w) mode (.fin neg n 1) = withSign (.int w) neg n := by
  have hmag : roundMag (.int w) mode n 1 = ⟨n, 0, false⟩ := by
    simpa [pow2Frac] using roundMag_of_stepExp (f := .int w) (n := n) (z := 0) mode rfl
  rw [roundNum, hmag, encodeMag, if_neg hn.not_gt]

/-- The codes below the absent code stand for themselves, those above it for code − 2^w (R281). -/
theorem decodeNum_int {w code : Nat} (hc : code < 2 ^ w) (hab : code ≠ 2 ^ (w - 1)) :
    decodeNum (.int w) code = if code < 2 ^ (w - 1) then .fin false code 1 else .fin true (2 ^ w - code) 1 := by
  simp only [decodeNum, NumFmt.width, NumFmt.absentCode, Nat.mod_eq_of_lt hc, if_neg hab, toSigned]
  split
  · simp
  · have hlt : (code : Int) < 2 ^ w := by exact_mod_cast hc
    have hneg : (code : Int) - 2 ^ w < 0 := by omega
    have habs : ((code : Int) - 2 ^ w).natAbs = 2 ^ w - code := by
      rw [← Int.natAbs_neg, neg_sub, ← Nat.cast_ofNat, ← Nat.cast_pow, ← Nat.cast_sub hc.le, Int.natAbs_natCast]
    simp [hneg, habs]

/-! ## Every format -/

/-- Only the absent code is absent. -/
theorem decodeNum_eq_absent_iff {f : NumFmt} {code : Nat} (hc : code < 2 ^ f.width) :
    decodeNum f code = .absent ↔ code = f.absentCode := by
  unfold decodeNum
  rw [Nat.mod_eq_of_lt hc]
  by_cases hab : code = f.absentCode
  · simp [hab]
  · cases f with
    | ieee e m => simp only [hab, if_false]; split_ifs <;> simp
    | exmy e m b => simp [hab]
    | int w => simp [hab]

theorem nanCode_lt {f : NumFmt} (hw : 0 < f.width) : f.nanCode < 2 ^ f.width := by
  cases f with
  | ieee e m =>
    have hfr : 2 ^ (m - 1) ≤ 2 ^ m := Nat.pow_le_pow_right (by omega) (by omega)
    have he := Nat.two_pow_pos e
    calc (2 ^ e - 1) * 2 ^ m + 2 ^ (m - 1) ≤ (2 ^ e - 1) * 2 ^ m + 2 ^ m := Nat.add_le_add_left hfr _
      _ = 2 ^ (e + m) := by rw [← Nat.succ_mul, Nat.succ_eq_add_one, Nat.sub_add_cancel he, pow_add]
      _ < 2 ^ (1 + e + m) := Nat.pow_lt_pow_right one_lt_two (by omega)
  | exmy e m b => exact Nat.pow_lt_pow_right one_lt_two (show e + m < 1 + e + m by omega)
  | int w => exact Nat.pow_lt_pow_right one_lt_two (Nat.sub_lt hw one_pos)

/-- A code is the rounding of its own value, or a NaN. -/
def RoundsBack (f : NumFmt) (mode : Mode) (code : Nat) : Prop :=
  roundNum f mode (decodeNum f code) = if decodeNum f code = .nan then f.nanCode else code

theorem roundsBack_of_ne_nan {f : NumFmt} {mode : Mode} {code : Nat} {x : Ex} (hx : decodeNum f code = x) (hnan : x ≠ .nan)
    (hr : roundNum f mode x = code) : RoundsBack f mode code := by
  rw [RoundsBack, hx, if_neg hnan, hr]

theorem roundsBack_absentCode {f : NumFmt} (mode : Mode) (hc : f.absentCode < 2 ^ f.width) : RoundsBack f mode f.absentCode :=
  roundsBack_of_ne_nan ((decodeNum_eq_absent_iff hc).2 rfl) (by simp) rfl

theorem roundsBack_ieee {e m code : Nat} (mode : Mode) (hc : code < 2 ^ (1 + e + m)) (hab : code ≠ (NumFmt.ieee e m).absentCode) :
    RoundsBack (.ieee e m) mode code := by
  obtain ⟨neg, ef, fr, hef, hfr, rfl⟩ := exists_floatCode hc
  have hdec := decodeNum_ieee hef hfr hab
  by_cases htop : ef = 2 ^ e - 1
  · rw [if_pos htop] at hdec
    by_cases hzero : fr = 0
    · rw [if_pos hzero] at hdec
      refine roundsBack_of_ne_nan hdec (by simp) ?_
      rw [roundNum, infCode_ieee, htop, hzero]
    · rw [if_neg hzero] at hdec
      simp [RoundsBack, hdec, roundNum]
  · rw [if_neg htop] at hdec
    exact roundsBack_of_ne_nan hdec (by simp) (roundNum_ieee_floatMag mode (by omega) hfr)

theorem roundsBack_exmy {e m b code : Nat} (mode : Mode) (hc : code < 2 ^ (1 + e + m))
    (hab : code ≠ (NumFmt.exmy e m b).absentCode) : RoundsBack (.exmy e m b) mode code := by
  obtain ⟨neg, ef, fr, hef, hfr, rfl⟩ := exists_floatCode hc
  exact roundsBack_of_ne_nan (decodeNum_exmy hef hfr hab) (by simp) (roundNum_exmy_floatMag mode hef hfr hab)

theorem roundsBack_int {w code : Nat} (mode : Mode) (hw : 1 ≤ w) (hc : code < 2 ^ w) (hab : code ≠ (NumFmt.int w).absentCode) :
    RoundsBack (.int w) mode code := by
  have hdec := decodeNum_int hc hab
  have hhalf : 2 ^ w = 2 * 2 ^ (w - 1) := by rw [← pow_succ', Nat.sub_add_cancel hw]
  simp only [NumFmt.absentCode] at hab
  by_cases hlow : code < 2 ^ (w - 1)
  · rw [if_pos hlow] at hdec
    exact roundsBack_of_ne_nan hdec (by simp) (by rw [roundNum_int mode _ (by omega)]; rfl)
  · rw [if_neg hlow] at hdec
    refine roundsBack_of_ne_nan hdec (by simp) ?_
    rw [roundNum_int mode _ (by omega)]
    show (2 ^ w - (2 ^ w - code)) % 2 ^ w = code
    rw [Nat.sub_sub_self hc.le, Nat.mod_eq_of_lt hc]

theorem roundsBack {f : NumFmt} (mode : Mode) {code : Nat} (hw : 0 < f.width) (hc : code < 2 ^ f.width) : RoundsBack f mode code := by
  by_cases hab : code = f.absentCode
  · subst hab
    exact roundsBack_absentCode mode hc
  · cases f with
    | ieee e m => exact roundsBack_ieee mode hc hab
    | exmy e m b => exact roundsBack_exmy mode hc hab
    | int w => exact roundsBack_int mode hw hc hab

theorem roundNum_decodeNum_lt {f : NumFmt} (mode : Mode) {code : Nat} (hw : 0 < f.width) (hc : code < 2 ^ f.width) :
    roundNum f mode (decodeNum f code) < 2 ^ f.width := by
  rw [roundsBack mode hw hc]
  split
  · exact nanCode_lt hw
  · exact hc

/-! ## Absence -/

/-- An absent scale makes every element absent (R291). -/
theorem applyScale_absent (v : Ex) : applyScale 0xFF v = .absent := by
  cases v <;> rfl

/-- A record of TYPE 0, raw, names no format of elements (R284). -/
theorem thrFmt_raw {r : BitVec 128} (h : r.toNat % 2 ^ 4 = 0) : thrFmt r = none := by
  have htype : thrType r = 0 := by simpa [thrType, bitsN, BitVec.extractLsb'_toNat] using h
  simp [thrFmt, htype]

/-- Settles O41: a code is its sign, exponent field and fraction, its value is a whole number of grid steps, and so every mode rounds
it back to those fields. -/
theorem valuesRoundToThemselves : Obligations.ValuesRoundToThemselves := by
  unfold Obligations.ValuesRoundToThemselves
  refine ⟨⟨rfl, rfl, rfl, fun _ _ _ => ⟨rfl, rfl⟩, rfl, rfl, rfl, rfl, applyScale_absent, fun _ => thrFmt_raw⟩,
    fun f mode code hf hc => ?_⟩
  have hw : 0 < f.width := by
    rcases hf with rfl | rfl | rfl | ⟨w, rfl, hw⟩ | ⟨e, m, b, rfl, -⟩
    · decide
    · decide
    · decide
    · exact Nat.lt_of_lt_of_le Nat.zero_lt_two hw
    · exact Nat.add_pos_left (Nat.add_pos_left one_pos e) m
  exact ⟨decodeNum_eq_absent_iff hc, roundsBack mode hw hc, roundNum_decodeNum_lt mode hw hc⟩

end Sys2Proof.Machine
end

section
/-!
SUPPORT AND CERTIFICATE. The divide family: the quotients and remainders of R339 as those of the library, and the divider's hold (R235).
-/

namespace Sys2Proof.Machine

open Sys2Proof

/-! ## Quotients and remainders (R339) -/

/-- R339's quotient by zero is the library's. -/
theorem divS_eq_sdiv (x y : DWord) : divS x y = x.sdiv y := by
  unfold divS
  split
  · next hy => simp [hy]
  · exact BitVec.eq_of_toInt_eq (by rw [BitVec.toInt_ofInt, BitVec.toInt_sdiv])

/-- R339's remainder by zero, the dividend, is the library's. -/
theorem remS_eq_srem (x y : DWord) : remS x y = x.srem y := by
  unfold remS
  split
  · next hy => simp [hy]
  · have htmod : x.toInt - x.toInt.tdiv y.toInt * y.toInt = x.toInt.tmod y.toInt := by rw [Int.tmod_def, mul_comm]
    rw [htmod, ← BitVec.toInt_srem, BitVec.ofInt_toInt]

theorem divU_eq_udiv (x y : DWord) : divU x y = x / y := by
  unfold divU
  split
  · next hy => simp [hy]
  · exact BitVec.eq_of_toNat_eq (by
      rw [BitVec.toNat_ofNat, BitVec.toNat_udiv, Nat.mod_eq_of_lt ((Nat.div_le_self _ _).trans_lt x.isLt)])

theorem remU_eq_umod (x y : DWord) : remU x y = x % y := by
  unfold remU
  split
  · next hy => simp [hy]
  · exact BitVec.eq_of_toNat_eq (by
      rw [BitVec.toNat_ofNat, BitVec.toNat_umod, Nat.mod_eq_of_lt ((Nat.mod_le _ _).trans_lt x.isLt)])

/-- a = q × b + r for the signed forms, where −2^63 / −1 wraps too. -/
theorem divS_mul_add_remS (x y : DWord) : divS x y * y + remS x y = x := by
  rw [divS_eq_sdiv, remS_eq_srem]
  apply BitVec.eq_of_toInt_eq
  rw [BitVec.toInt_add, BitVec.toInt_mul, BitVec.toInt_sdiv, BitVec.toInt_srem]
  simp [Int.tdiv_mul_add_tmod, BitVec.toInt_bmod_cancel x]

theorem divU_mul_add_remU (x y : DWord) : divU x y * y + remU x y = x := by
  rw [divU_eq_udiv, remU_eq_umod]
  apply BitVec.eq_of_toNat_eq
  rw [BitVec.toNat_add, BitVec.toNat_mul, BitVec.toNat_udiv, BitVec.toNat_umod, Nat.mod_add_mod, Nat.div_add_mod',
    Nat.mod_eq_of_lt x.isLt]

theorem divS_zero (x : DWord) : divS x 0 = 0 := if_pos rfl

theorem divU_zero (x : DWord) : divU x 0 = 0 := if_pos rfl

/-- The one quotient that 64 bits do not hold is −2^63 / −1. -/
theorem divS_toInt {x y : DWord} (h : ¬ (x.toInt = -2 ^ 63 ∧ y.toInt = -1)) : (divS x y).toInt = x.toInt.tdiv y.toInt := by
  rw [divS_eq_sdiv]
  apply BitVec.toInt_sdiv_of_ne_or_ne
  contrapose! h
  obtain ⟨rfl, rfl⟩ := h
  decide

/-- −2^63 / −1 is −2^63. -/
theorem divS_toInt_overflow {x y : DWord} (hx : x.toInt = -2 ^ 63) (hy : y.toInt = -1) : (divS x y).toInt = -2 ^ 63 := by
  rw [divS_eq_sdiv, BitVec.toInt_sdiv, hx, hy]
  decide

/-! ## The divider (R235) -/

section

variable {s : State} {d a b : BitVec 5} {f : DWord → DWord → DWord}

/-- With the divider free a division goes on, and holds it for 18 cycles. -/
theorem slotDivider_free (e : Env) (hfree : s.core.div ≤ s.cyc) :
    slotDivider d a b f e s = .go (fun t => retS d 18 (f (readS s.ctx a) (readS s.ctx b))
      (modC t (coreOf s.cur) (fun c => { c with div := s.cyc + 18 }))) :=
  if_neg hfree.not_gt

/-- While the divider is held a division waits. -/
theorem slotDivider_busy (e : Env) (hbusy : s.cyc < s.core.div) : slotDivider d a b f e s = .hold 1 id := if_pos hbusy

variable {i : Instr} {op : Nat} (hexec : exec i s = single true op 1 0 (slotDivider d a b f) s) (hready : Unblocked s)
include hexec hready

theorem issues_of_divider_free (hfree : s.core.div ≤ s.cyc) :
    Issues i s 1 (fun t => retS d 18 (f (readS s.ctx a) (readS s.ctx b))
      (modC t (coreOf s.cur) (fun c => { c with div := s.cyc + 18 }))) :=
  hexec.trans (single_go hready (by decide) (slotDivider_free _ hfree))

theorem holds_of_divider_busy (hbusy : s.cyc < s.core.div) : Holds i s 1 id :=
  hexec.trans (single_hold hready (by decide) (slotDivider_busy _ hbusy))

end

theorem exec_div (d a b : BitVec 5) (s : State) : exec (.div d a b) s = single true 0x06 1 0 (slotDivider d a b divS) s := rfl

theorem exec_divz (d a b : BitVec 5) (s : State) : exec (.divz d a b) s = single true 0x07 1 0 (slotDivider d a b divU) s := rfl

theorem exec_rem (d a b : BitVec 5) (s : State) : exec (.rem d a b) s = single true 0x08 1 0 (slotDivider d a b remS) s := rfl

theorem exec_remz (d a b : BitVec 5) (s : State) : exec (.remz d a b) s = single true 0x09 1 0 (slotDivider d a b remU) s := rfl

/-- Settles O2: the four forms are one slot with four operations, and those operations are the library's signed and unsigned division. -/
theorem divideForms : Obligations.DivideForms := by
  unfold Obligations.DivideForms
  intro s d a b hready x y k busy
  refine ⟨fun hfree => ⟨divS x y, remS x y, divU x y, remU x y,
      issues_of_divider_free (exec_div d a b s) hready hfree, issues_of_divider_free (exec_rem d a b s) hready hfree,
      issues_of_divider_free (exec_divz d a b s) hready hfree, issues_of_divider_free (exec_remz d a b s) hready hfree,
      (divS_mul_add_remS x y).symm, (divU_mul_add_remU x y).symm, fun hy => ?_, fun _ => ?_, fun _ hfits => divS_toInt hfits,
      fun hover => divS_toInt_overflow hover.1 hover.2⟩,
    fun hbusy => ⟨holds_of_divider_busy (exec_div d a b s) hready hbusy, holds_of_divider_busy (exec_rem d a b s) hready hbusy,
      holds_of_divider_busy (exec_divz d a b s) hready hbusy, holds_of_divider_busy (exec_remz d a b s) hready hbusy⟩⟩
  · rw [hy]
    exact ⟨divS_zero x, divU_zero x⟩
  · rw [remS_eq_srem, divU_eq_udiv, remU_eq_umod]
    exact ⟨BitVec.toInt_srem x y, BitVec.toNat_udiv, BitVec.toNat_umod⟩

end Sys2Proof.Machine
end

section
/-!
SUPPORT AND CERTIFICATE. `trap`: its one encoding (R320, R355), and the end of a bundle that asks for a trap (R304, R308, R311).
-/

namespace Sys2Proof

/-! ## What a head that decodes has passed (R320, R323, R329) -/

@[simp] theorem chk_eq_ok {c : Bool} {r : Dec} {i : Instr} : chk c r = .ok i ↔ c = true ∧ r = .ok i := by
  cases c <;> simp [chk]

@[simp] theorem noX_eq_ok {x : Option (BitVec 28)} {r : Dec} {i : Instr} : noX x r = .ok i ↔ x = none ∧ r = .ok i := by
  cases x <;> simp [noX]

@[simp] theorem optX_eq_ok {α : Type} {x : Option (BitVec 28)} {f : BitVec 28 → Option α} {k : Option α → Dec} {i : Instr} :
    optX x f k = .ok i ↔ (x = none ∧ k none = .ok i) ∨ ∃ p a, x = some p ∧ f p = some a ∧ k (some a) = .ok i := by
  cases x with
  | none => simp [optX]
  | some p => cases h : f p <;> simp [optX, h]

@[simp] theorem reqX_eq_ok {α : Type} {x : Option (BitVec 28)} {f : BitVec 28 → Option α} {k : α → Dec} {i : Instr} :
    reqX x f k = .ok i ↔ ∃ p a, x = some p ∧ f p = some a ∧ k a = .ok i := by
  cases x with
  | none => simp [reqX]
  | some p => cases h : f p <;> simp [reqX, h]

theorem decodeHead_of_decodeInstr {w : BitVec 32} {x : Option (BitVec 28)} {i : Instr} (h : decodeInstr w x = .ok i) :
    decodeHead w x = .ok i := by
  unfold decodeInstr at h
  split at h
  · next j hj =>
    split at h
    · rw [hj, h]
    · cases h
  · cases h

/-! ## Only opcode 0x62 of class S is `trap` (R324, R355) -/

section

variable {op : Nat} {w : BitVec 32} {x : Option (BitVec 28)} {i : BitVec 8}

/-- Outside class S no row of an opcode answers `trap`, whichever variant it chooses. -/
theorem otherClass_ne_trap {dec : Nat → BitVec 32 → Option (BitVec 28) → Dec}
    (hdec : dec ∈ [decodeW, decodeV, decodeM, decodeK, decodeC]) : dec op w x ≠ .ok (.trap i) := by
  simp only [List.mem_cons, List.not_mem_nil, or_false] at hdec
  rcases hdec with rfl | rfl | rfl | rfl | rfl
  all_goals
    simp only [decodeW, decodeV, decodeM, decodeK, decodeC]
    split
    all_goals simp -- a row that answers one instruction
    all_goals intros; split <;> simp -- a row whose fields choose a variant

/-- In class S no other opcode's row answers `trap`. -/
theorem decodeS_ne_trap (hop : op ≠ 0x62) : decodeS op w x ≠ .ok (.trap i) := by
  unfold decodeS
  split
  all_goals simp at hop ⊢
  all_goals intros; split <;> simp

theorem decodeS_trap_eq : decodeS 0x62 w x = noX x (chk (decide (fld w 16 5 = 0) && decide (fld w 8 8 = 0)) (.ok (.trap (fld w 0 8)))) :=
  rfl

theorem decodeS_eq_trap_iff :
    decodeS op w x = .ok (.trap i) ↔ op = 0x62 ∧ x = none ∧ (fld w 16 5 = 0 ∧ fld w 8 8 = 0) ∧ fld w 0 8 = i := by
  by_cases hop : op = 0x62
  · subst hop
    simp [decodeS_trap_eq]
  · simp [hop, decodeS_ne_trap]

theorem decodeHead_eq_trap (h : decodeHead w x = .ok (.trap i)) :
    (fld w 28 3).toNat = 0 ∧ decodeS (fld w 21 7).toNat w x = .ok (.trap i) := by
  unfold decodeHead at h
  split at h
  · next hclass => exact ⟨hclass, h⟩
  · exact absurd h (otherClass_ne_trap (dec := decodeW) (by simp))
  · exact absurd h (otherClass_ne_trap (dec := decodeV) (by simp))
  · exact absurd h (otherClass_ne_trap (dec := decodeM) (by simp))
  · exact absurd h (otherClass_ne_trap (dec := decodeK) (by simp))
  · exact absurd h (otherClass_ne_trap (dec := decodeC) (by simp))
  · cases h
  · cases h

theorem fld_append_fld {w : BitVec 32} {hi lo m n : Nat} (h : hi = lo + n) : fld w hi m ++ fld w lo n = fld w lo (m + n) :=
  BitVec.extractLsb'_append_extractLsb'_eq_extractLsb' h

/-- A word cut along the fields of format SL (R320). -/
theorem eq_append_fields (w : BitVec 32) :
    w = fld w 31 1 ++ fld w 28 3 ++ fld w 21 7 ++ fld w 16 5 ++ fld w 8 8 ++ fld w 0 8 := by
  rw [fld_append_fld (show 31 = 28 + 3 from rfl), fld_append_fld (show 28 = 21 + 7 from rfl),
    fld_append_fld (show 21 = 16 + 5 from rfl), fld_append_fld (show 16 = 8 + 8 from rfl), fld_append_fld (show 8 = 0 + 8 from rfl)]
  exact (extract_all w).symm

/-- A bit that is clear, as a field. -/
theorem fld_one_eq_zero {k : Nat} (h : w.getLsbD k = false) : fld w k 1 = 0 := by
  ext j hj
  obtain rfl : j = 0 := by omega
  simpa [fld] using h

/-- Every bit of `trap` outside I[7:0] is fixed, E apart. -/
theorem eq_of_decodeInstr_trap (hE : w.getLsbD 31 = false) (h : decodeInstr w x = .ok (.trap i)) :
    w = 0#1 ++ 0#3 ++ 0x62#7 ++ 0#5 ++ 0#8 ++ i ∧ x = none := by
  obtain ⟨hclass, hS⟩ := decodeHead_eq_trap (decodeHead_of_decodeInstr h)
  obtain ⟨hop, hx, ⟨hD, hI⟩, rfl⟩ := decodeS_eq_trap_iff.1 hS
  have hclass' : fld w 28 3 = 0#3 := BitVec.eq_of_toNat_eq hclass
  have hop' : fld w 21 7 = 0x62#7 := BitVec.eq_of_toNat_eq hop
  refine ⟨?_, hx⟩
  conv_lhs => rw [eq_append_fields w, fld_one_eq_zero hE, hclass', hop', hD, hI]
  rfl

end

end Sys2Proof

namespace Sys2Proof.Machine

open Sys2Proof

/-! ## A context after its bundle -/

/-- A context after a bundle of w words that leaves no result in flight and no transfer: its time and pc go on (R225, R226). -/
def Ctx.after (c : Ctx) (w : Nat) : Ctx :=
  { c.fresh.tick with released := false, pc := c.pc + BitVec.ofNat 52 (4 * w) }.setResults []

section

variable (c : Ctx) (w : Nat)

@[simp] theorem tick_inh : c.tick.inh = c.inh := by unfold Ctx.tick; split <;> rfl
@[simp] theorem tick_sup : c.tick.sup = c.sup := by unfold Ctx.tick; split <;> rfl
@[simp] theorem tick_sr : c.tick.sr = c.sr := by unfold Ctx.tick; split <;> rfl
@[simp] theorem tick_ti : c.tick.ti = c.ti := by unfold Ctx.tick; split <;> rfl

@[simp] theorem after_inh : (c.after w).inh = c.inh := by simp [Ctx.after, Ctx.fresh]
@[simp] theorem after_sup : (c.after w).sup = c.sup := by simp [Ctx.after, Ctx.fresh]
@[simp] theorem after_sr : (c.after w).sr = c.sr := by simp [Ctx.after, Ctx.fresh]
@[simp] theorem after_ti : (c.after w).ti = c.ti := by simp [Ctx.after, Ctx.fresh]
@[simp] theorem after_pc : (c.after w).pc = c.pc + BitVec.ofNat 52 (4 * w) := by simp [Ctx.after]

/-- In the program the time that goes on is CT. -/
theorem after_ct (h : c.inh = false) : (c.after w).ct = c.ct + 1 := by simp [Ctx.after, Ctx.fresh, Ctx.tick, h]

end

/-- A bundle that asks for a trap, in a context with nothing under way, ends as any other and is followed by the trap, which drops
the request (R304). -/
theorem finish_trapi {s : State} {x : Nat} (w i : Nat) (hq : (getX s x).Quiet) :
    finish w (modX s x (fun c => { c with trapi := some i })) x
      = enterTrap (setX s x ((getX s x).after w)) x 2 0 ⟨cTRAPI, 0, i, 0⟩ ((getX s x).after w).pc ((getX s x).after w).ct := by
  obtain ⟨hr, hn, hl, ha, -⟩ := hq
  rw [modX]
  generalize getX s x = c at *
  cases hinh : c.inh <;>
    simp_all [finish, sequence, branchGap, Ctx.tick, Ctx.fresh, Ctx.curLoop, Ctx.results, Ctx.setResults, settle, settleList, tileDue,
      Ctx.time, Ctx.after, enterTrap, trapCtx, trapImage, setPend, endTask, modX]

/-! ## The image after a trap's entry (R306) -/

section

variable (cyc : Nat) (c : Ctx) (kind slot : Nat) (q : Cause) (opc : Va) (oct : Nat)

theorem tiRead_trapCtx {j : Nat} (hj : j < 14) (hstate : j ≠ 6) :
    tiRead (trapCtx cyc c kind slot q opc oct) j = mget 0 (trapImage c kind slot q opc oct) j := by
  simp [tiRead, trapCtx, hj, hstate]

theorem tiRead_trapCtx_cause : tiRead (trapCtx cyc c kind slot q opc oct) 0 = tiCause q.code kind slot q.reason q.extra := by
  rw [tiRead_trapCtx _ _ _ _ _ _ _ (by decide) (by decide), trapImage_get, if_pos rfl]

theorem tiRead_trapCtx_pc : tiRead (trapCtx cyc c kind slot q opc oct) 1 = BitVec.zeroExtend 64 c.pc := by
  rw [tiRead_trapCtx _ _ _ _ _ _ _ (by decide) (by decide), trapImage_get, if_neg (by decide), if_pos rfl]

theorem tiRead_trapCtx_ct : tiRead (trapCtx cyc c kind slot q opc oct) 2 = BitVec.ofNat 64 c.ct := by
  rw [tiRead_trapCtx _ _ _ _ _ _ _ (by decide) (by decide), trapImage_get, if_neg (by decide), if_neg (by decide), if_pos rfl]

end

/-! ## `trap` (R355) -/

/-- With no result in flight no bundle waits for one. -/
theorem notReady_of_results_nil {c : Ctx} (h : c.results = []) : notReady c = false := by simp [notReady, h]

/-- `trap` issues, and asks for a trap at its bundle's end. -/
theorem issues_trap {s : State} (i : BitVec 8) (hready : Unblocked s) :
    Issues (.trap i) s 1 (fun t => modX t s.cur (fun c => { c with trapi := some i.toNat })) :=
  single_go (op := 0x62) (p := 0) (sl := slotTrap i) hready (by decide) rfl

theorem exec_trap_quiet {s : State} (i : BitVec 8) (hq : s.ctx.Quiet) :
    exec (.trap i) s = .next (enterTrap (setX s s.cur (s.ctx.after 1)) s.cur 2 0 ⟨cTRAPI, 0, i.toNat, 0⟩
      (s.ctx.after 1).pc (s.ctx.after 1).ct) := by
  rw [← finish_trapi 1 i.toNat hq]
  obtain ⟨hr, -⟩ := hq
  exact issues_trap i (notReady_of_results_nil hr)

/-- TI.CAUSE of `trap i`: code 0x11, kind 2, EXTRA = i, and nothing in the other fields (R306). -/
theorem tiCause_trap (i : BitVec 8) : tiCause cTRAPI 2 0 0 i.toNat = BitVec.ofNat 64 (0x11 + 2 * 256 + 16777216 * i.toNat) := by
  have hi : i.toNat % 256 = i.toNat := Nat.mod_eq_of_lt i.isLt
  simp only [tiCause, cTRAPI, hi]
  congr 1
  omega

/-- Settles O17: the decoder's rows give `trap` one word, and a quiet context's bundle ends in the trap itself. -/
theorem trapInstructionEnters : Obligations.TrapInstructionEnters := by
  unfold Obligations.TrapInstructionEnters
  refine ⟨fun i => rfl, fun w x i hE h => eq_of_decodeInstr_trap hE h,
    fun s i hq => ⟨fun hinh hvec => ⟨_, exec_trap_quiet i hq, ?_⟩, fun hinh => ⟨_, exec_trap_quiet i hq, ?_⟩⟩⟩
  · have hctx : getX (setX s s.cur (s.ctx.after 1)) s.cur = s.ctx.after 1 := by simp
    have hinh' : (s.ctx.after 1).inh = false := by simpa using hinh
    have hvec' : mget 0 (s.ctx.after 1).ti 7 ≠ 0 := by simpa using hvec
    rw [enterTrap_eq _ _ _ _ _ (by rwa [hctx]) (by rwa [hctx]), hctx, getX_setX, if_pos rfl]
    simp only [tiRead_trapCtx_cause, tiRead_trapCtx_pc, tiRead_trapCtx_ct, tiCause_trap]
    simp [trapCtx, Ctx.fresh, after_ct, hinh]
  · rw [enterTrap_inh _ _ _ _ _ (by simpa using hinh)]
    simp [endTask]

end Sys2Proof.Machine
end

section
/-!
SUPPORT AND CERTIFICATE. The encoder and the decoder are inverse (R318, R320, R323): a head is the fields of its word, a payload those of its X.
-/

set_option Elab.async false

namespace Sys2Proof

/-! ## Payloads (R323) -/

section

variable {α : Type} {e : α → BitVec 28} {f : BitVec 28 → Option α}

/-- An optional payload that was encoded is read back. -/
theorem optX_map {x : Option α} {k : Option α → Dec} (h : ∀ a, f (e a) = some a) : optX (x.map e) f k = k x := by
  cases x <;> simp [optX, h]

/-- A required payload that was encoded is read back. -/
theorem reqX_some {a : α} {k : α → Dec} (h : ∀ a, f (e a) = some a) : reqX (some (e a)) f k = k a := by
  simp [reqX, h]

@[simp] theorem noX_none (r : Dec) : noX none r = r := rfl
@[simp] theorem chk_true (r : Dec) : chk true r = r := rfl

end

theorem decImm_encImm (a : BitVec 28) : decImm (encImm a) = some a := rfl

theorem decLd_encLd (e : WgLd) : decLd (encLd e) = some e := by
  obtain ⟨oc, mmh, sem, scope, off⟩ := e
  cases mmh <;> simp (disch := decide) only [decLd, encLd, pfld, extract_append_hi, extract_append_lo, extract_all, Nat.reduceSub,
    BitVec.ofNat_eq_ofNat, Bool.false_eq_true, if_true, if_false] <;> rfl

theorem decSt_encSt (e : WgSt) : decSt (encSt e) = some e := by
  simp (disch := decide) only [decSt, encSt, pfld, extract_append_hi, extract_append_lo, extract_all, Nat.reduceSub,
    BitVec.ofNat_eq_ofNat, and_self, if_true]

theorem decAt_encAt (e : AtExt) : decAt (encAt e) = some e := by
  simp (disch := decide) only [decAt, encAt, pfld, extract_append_hi, extract_append_lo, extract_all, Nat.reduceSub,
    BitVec.ofNat_eq_ofNat, and_self, if_true]

theorem decCas_encCas (e : CasExt) : decCas (encCas e) = some e := by
  simp (disch := decide) only [decCas, encCas, pfld, extract_append_hi, extract_append_lo, extract_all, Nat.reduceSub,
    BitVec.ofNat_eq_ofNat, and_self, if_true]

theorem decC5_encC5 (c : BitVec 5) : decC5 (encC5 c) = some c := by
  simp (disch := decide) only [decC5, encC5, pfld, extract_append_hi, extract_append_lo, extract_all, Nat.reduceSub,
    BitVec.ofNat_eq_ofNat, if_true]

theorem decOff_encOff (v : BitVec 18) : decOff (encOff v) = some v := by
  simp (disch := decide) only [decOff, encOff, pfld, extract_append_hi, extract_append_lo, extract_all, Nat.reduceSub,
    BitVec.ofNat_eq_ofNat, if_true]

theorem decCvt_encCvt (e : CvtExt) : decCvt (encCvt e) = some e := by
  simp (disch := decide) only [decCvt, encCvt, pfld, extract_append_hi, extract_append_lo, extract_all, Nat.reduceSub,
    BitVec.ofNat_eq_ofNat, and_self, if_true]

theorem decVldc_encVldc (e : VldcExt) : decVldc (encVldc e) = some e := by
  simp (disch := decide) only [decVldc, encVldc, pfld, extract_append_hi, extract_append_lo, extract_all, Nat.reduceSub,
    BitVec.ofNat_eq_ofNat, if_true]

theorem decVstc_encVstc (e : VstcExt) : decVstc (encVstc e) = some e := by
  simp (disch := decide) only [decVstc, encVstc, pfld, extract_append_hi, extract_append_lo, extract_all, Nat.reduceSub,
    BitVec.ofNat_eq_ofNat, if_true]

theorem decInc_encInc (v : BitVec 16) : decInc (encInc v) = some v := by
  simp (disch := decide) only [decInc, encInc, pfld, extract_append_hi, extract_append_lo, extract_all, Nat.reduceSub,
    BitVec.ofNat_eq_ofNat, if_true]

/-- A command whose TI is 0 carries no increment; one whose TI is 1 may (R328). -/
theorem incX_eq {n : BitVec 1} {x : Option (BitVec 16)} {k : Option (BitVec 16) → Dec} (h : wfInc n x = true) :
    (if n = 0 then noX (x.map encInc) (k none) else optX (x.map encInc) decInc k) = k x := by
  rw [optX_map decInc_encInc]
  cases x with
  | none => simp [noX]
  | some v =>
    have hn : n = 1 := by simp [wfInc] at h; exact h.1
    simp [hn]

/-! ## The words of an instruction, read field by field -/

theorem getLsbD_of_fld_one {w : BitVec 32} {k : Nat} (h : fld w k 1 = 0#1) : w.getLsbD k = false := by
  simpa [fld] using congrArg (fun v => v.getLsbD 0) h

/-- Encoded words leave E clear. -/
theorem encode_last {i : Instr} {w : Word} {x : Option (BitVec 28)} (h : encode i = some (w, x)) : fld w 31 1 = 0#1 := by
  cases i
  all_goals cases h
  all_goals simp (disch := decide) only [fld, extract_append_hi, extract_all, Nat.reduceSub]

/-- In class S the encoded words are read as the instruction. -/
theorem decodeHead_encode_S {i : Instr} {w : Word} {x : Option (BitVec 28)} (h : encode i = some (w, x)) (hc : fld w 28 3 = 0)
    : decodeHead w x = .ok i := by
  cases i
  all_goals cases h
  all_goals simp (disch := decide) only [fld, extract_append_hi, extract_append_lo, extract_all, Nat.reduceSub, BitVec.ofNat_eq_ofNat,
    BitVec.reduceEq] at hc
  all_goals simp (disch := decide) only [decodeHead, fld, extract_append_hi, extract_append_lo, extract_all, Nat.reduceSub, BitVec.reduceToNat]
  all_goals rw [decodeS]
  all_goals simp (disch := decide) only [noX_none, chk_true, fld, extract_append_hi, extract_append_lo, extract_all, Nat.reduceSub, BitVec.ofNat_eq_ofNat,
    BitVec.reduceToNat, decide_true, Bool.and_self, optX_map decImm_encImm]

/-- In class W the encoded words are read as the instruction. -/
theorem decodeHead_encode_W {i : Instr} {w : Word} {x : Option (BitVec 28)} (h : encode i = some (w, x)) (hc : fld w 28 3 = 1)
    : decodeHead w x = .ok i := by
  cases i
  all_goals cases h
  all_goals simp (disch := decide) only [fld, extract_append_hi, extract_append_lo, extract_all, Nat.reduceSub, BitVec.ofNat_eq_ofNat,
    BitVec.reduceEq] at hc
  all_goals simp (disch := decide) only [decodeHead, fld, extract_append_hi, extract_append_lo, extract_all, Nat.reduceSub, BitVec.reduceToNat]
  all_goals rw [decodeW]
  all_goals simp (disch := decide) only [noX_none, chk_true, fld, extract_append_hi, extract_append_lo, extract_all, Nat.reduceSub, BitVec.ofNat_eq_ofNat,
    BitVec.reduceToNat, decide_true, Bool.and_self, optX_map decLd_encLd, optX_map decSt_encSt,
    reqX_some decAt_encAt, reqX_some decCas_encCas, reqX_some decC5_encC5]
  case fenceSc => rfl

/-- In class V the encoded words are read as the instruction. -/
theorem decodeHead_encode_V {i : Instr} {w : Word} {x : Option (BitVec 28)} (h : encode i = some (w, x)) (hc : fld w 28 3 = 2)
    : decodeHead w x = .ok i := by
  cases i
  all_goals cases h
  all_goals simp (disch := decide) only [fld, extract_append_hi, extract_append_lo, extract_all, Nat.reduceSub, BitVec.ofNat_eq_ofNat,
    BitVec.reduceEq] at hc
  all_goals simp (disch := decide) only [decodeHead, fld, extract_append_hi, extract_append_lo, extract_all, Nat.reduceSub, BitVec.reduceToNat]
  all_goals rw [decodeV]
  all_goals simp (disch := decide) only [noX_none, chk_true, fld, extract_append_hi, extract_append_lo, extract_all, Nat.reduceSub, BitVec.ofNat_eq_ofNat,
    BitVec.reduceToNat, decide_true, Bool.and_self, if_true, reqX_some decC5_encC5, optX_map decOff_encOff,
    optX_map decCvt_encCvt, reqX_some decVldc_encVldc, reqX_some decVstc_encVstc]

/-- In the classes M, K and C the encoded words of a well-formed instruction are read as it. -/
theorem decodeHead_encode_MKC {i : Instr} {w : Word} {x : Option (BitVec 28)} (h : encode i = some (w, x)) (hS : fld w 28 3 ≠ 0) (hW : fld w 28 3 ≠ 1)
    (hV : fld w 28 3 ≠ 2)
    (hwf : i.wf = true) : decodeHead w x = .ok i := by
  cases i
  all_goals cases h
  all_goals simp (disch := decide) only [fld, extract_append_hi, extract_append_lo, extract_all, Nat.reduceSub, ne_eq, not_true_eq_false, not_false_eq_true, BitVec.ofNat_eq_ofNat,
    BitVec.reduceEq] at hS hW hV
  all_goals simp (disch := decide) only [decodeHead, fld, extract_append_hi, extract_append_lo, extract_all, Nat.reduceSub, BitVec.reduceToNat]
  all_goals first | rw [decodeM] | rw [decodeK] | rw [decodeC]
  all_goals simp (disch := decide) only [noX_none, chk_true, fld, extract_append_hi, extract_append_lo, extract_all, Nat.reduceSub, BitVec.ofNat_eq_ofNat,
    BitVec.reduceToNat, decide_true, Bool.and_self, optX_map decC5_encC5]
  all_goals exact incX_eq hwf -- a command, with or without its increment

/-- Settles O47: class by class the decoder reads back each field of the encoded words. -/
theorem encodeDecode : Obligations.EncodeDecode := by
  unfold Obligations.EncodeDecode
  intro i w x hwf h
  refine ⟨decodeInstr_of_head ?_ hwf, getLsbD_of_fld_one (encode_last h)⟩
  by_cases hS : fld w 28 3 = 0
  · exact decodeHead_encode_S h hS
  by_cases hW : fld w 28 3 = 1
  · exact decodeHead_encode_W h hW
  by_cases hV : fld w 28 3 = 2
  · exact decodeHead_encode_V h hV
  exact decodeHead_encode_MKC h hS hW hV hwf

end Sys2Proof
end

section
/-!
SUPPORT AND CERTIFICATE. What decodes to an instruction is what encodes it (R318, R320, R323).
-/

set_option Elab.async false

namespace Sys2Proof

/-! ## A word as its fields -/

/-- Two fields side by side are one. -/
theorem append_eq_extract {k m n lo : Nat} {w : BitVec k} {u : BitVec m} {v : BitVec n} (hu : u = w.extractLsb' (lo + n) m)
    (hv : v = w.extractLsb' lo n) : u ++ v = w.extractLsb' lo (m + n) := by
  rw [hu, hv]
  exact BitVec.extractLsb'_append_extractLsb'_eq_extractLsb' rfl

/-- A field that a row compares as a number. -/
theorem literal_eq {k n : Nat} {u v : BitVec k} (h : v.toNat = n) (hu : u.toNat = n) : u = v :=
  BitVec.eq_of_toNat_eq (hu.trans h.symm)

/-- A field of one bit that is not 0. -/
theorem one_eq {v : BitVec 1} (h : v.toNat = 0 → False) : 1#1 = v := by
  have hv := v.isLt
  exact literal_eq (n := 1) (by have h : ¬ v.toNat = 0 := h; omega) rfl

/-! ## Payloads -/

theorem encImm_of_decImm {p a : BitVec 28} (h : decImm p = some a) : encImm a = p := (Option.some.inj h).symm

theorem encLd_of_decLd {p : BitVec 28} {e : WgLd} (h : decLd p = some e) : encLd e = p := by
  simp only [decLd, Option.ite_none_right_eq_some, Option.some.injEq] at h
  obtain ⟨h27, rfl⟩ := h
  have hmmh : (if (pfld p 4 1 == 1) = true then 1#1 else 0#1) = pfld p 4 1 := by
    split
    · next hb => exact (eq_of_beq hb).symm
    · next hb => exact (literal_eq (n := 0) (by have := (pfld p 4 1).isLt; have : (pfld p 4 1).toNat ≠ 1 := fun hc => hb (beq_iff_eq.2 (literal_eq hc rfl).symm); omega) rfl)
  refine Eq.trans (b := p.extractLsb' 0 28) ?_ (extract_all p)
  unfold encLd
  repeat' apply append_eq_extract
  all_goals first | rfl | exact h27.symm | exact hmmh

theorem encSt_of_decSt {p : BitVec 28} {e : WgSt} (h : decSt p = some e) : encSt e = p := by
  simp only [decSt, Option.ite_none_right_eq_some, Option.some.injEq] at h
  obtain ⟨⟨h27, h4⟩, rfl⟩ := h
  refine Eq.trans (b := p.extractLsb' 0 28) ?_ (extract_all p)
  unfold encSt
  repeat' apply append_eq_extract
  all_goals first | rfl | exact h27.symm | exact h4.symm

theorem encAt_of_decAt {p : BitVec 28} {e : AtExt} (h : decAt p = some e) : encAt e = p := by
  simp only [decAt, Option.ite_none_right_eq_some, Option.some.injEq] at h
  obtain ⟨⟨h20, h10, h4⟩, rfl⟩ := h
  refine Eq.trans (b := p.extractLsb' 0 28) ?_ (extract_all p)
  unfold encAt
  repeat' apply append_eq_extract
  all_goals first | rfl | exact h20.symm | exact h10.symm | exact h4.symm

theorem encCas_of_decCas {p : BitVec 28} {e : CasExt} (h : decCas p = some e) : encCas e = p := by
  simp only [decCas, Option.ite_none_right_eq_some, Option.some.injEq] at h
  obtain ⟨⟨h20, h4⟩, rfl⟩ := h
  refine Eq.trans (b := p.extractLsb' 0 28) ?_ (extract_all p)
  unfold encCas
  repeat' apply append_eq_extract
  all_goals first | rfl | exact h20.symm | exact h4.symm

theorem encC5_of_decC5 {p : BitVec 28} {c : BitVec 5} (h : decC5 p = some c) : encC5 c = p := by
  simp only [decC5, Option.ite_none_right_eq_some, Option.some.injEq] at h
  obtain ⟨h5, rfl⟩ := h
  exact (append_eq_extract h5.symm rfl).trans (extract_all p)

theorem encOff_of_decOff {p : BitVec 28} {v : BitVec 18} (h : decOff p = some v) : encOff v = p := by
  simp only [decOff, Option.ite_none_right_eq_some, Option.some.injEq] at h
  obtain ⟨h18, rfl⟩ := h
  exact (append_eq_extract h18.symm rfl).trans (extract_all p)

theorem encInc_of_decInc {p : BitVec 28} {v : BitVec 16} (h : decInc p = some v) : encInc v = p := by
  simp only [decInc, Option.ite_none_right_eq_some, Option.some.injEq] at h
  obtain ⟨h16, rfl⟩ := h
  exact (append_eq_extract h16.symm rfl).trans (extract_all p)

theorem encCvt_of_decCvt {p : BitVec 28} {e : CvtExt} (h : decCvt p = some e) : encCvt e = p := by
  simp only [decCvt, Option.ite_none_right_eq_some, Option.some.injEq] at h
  obtain ⟨⟨h10, h0⟩, rfl⟩ := h
  refine Eq.trans (b := p.extractLsb' 0 28) ?_ (extract_all p)
  unfold encCvt
  repeat' apply append_eq_extract
  all_goals first | rfl | exact h10.symm | exact h0.symm

theorem encVldc_of_decVldc {p : BitVec 28} {e : VldcExt} (h : decVldc p = some e) : encVldc e = p := by
  simp only [decVldc, Option.ite_none_right_eq_some, Option.some.injEq] at h
  obtain ⟨h10, rfl⟩ := h
  refine Eq.trans (b := p.extractLsb' 0 28) ?_ (extract_all p)
  unfold encVldc
  repeat' apply append_eq_extract
  all_goals first | rfl | exact h10.symm

theorem encVstc_of_decVstc {p : BitVec 28} {e : VstcExt} (h : decVstc p = some e) : encVstc e = p := by
  simp only [decVstc, Option.ite_none_right_eq_some, Option.some.injEq] at h
  obtain ⟨h15, rfl⟩ := h
  refine Eq.trans (b := p.extractLsb' 0 28) ?_ (extract_all p)
  unfold encVstc
  repeat' apply append_eq_extract
  all_goals first | rfl | exact h15.symm

/-! ## Rows of the decoder -/

/-- What a row answers is encoded as the words it was read from. -/
def Encodes (w : Word) (x : Option (BitVec 28)) (d : Dec) : Prop := ∀ i, d = .ok i → encode i = some (w, x)

section

variable {w : Word} {x : Option (BitVec 28)}

theorem encodes_ok {i : Instr} : Encodes w x (.ok i) ↔ encode i = some (w, x) :=
  ⟨fun h => h i rfl, fun h _ hj => Except.ok.inj hj ▸ h⟩

theorem encodes_error {e : DecErr} : Encodes w x (.error e) ↔ True := ⟨fun _ => trivial, fun _ _ h => nomatch h⟩

theorem encodes_chk {c : Bool} {r : Dec} : Encodes w x (chk c r) ↔ (c = true → Encodes w x r) := by
  cases c <;> simp [chk, encodes_error]

theorem encodes_noX {r : Dec} : Encodes w x (noX x r) ↔ (x = none → Encodes w x r) := by
  cases x <;> simp [noX, encodes_error]

theorem encodes_ite {c : Prop} [Decidable c] {r d : Dec} :
    Encodes w x (if c then r else d) ↔ (c → Encodes w x r) ∧ (¬ c → Encodes w x d) := by
  split <;> simp_all

theorem encodes_optX {α : Type} {e : α → BitVec 28} {f : BitVec 28 → Option α} (he : ∀ a, f (e a) = some a)
    (hf : ∀ {p a}, f p = some a → e a = p) {k : Option α → Dec} :
    Encodes w x (optX x f k) ↔ ∀ y, x = y.map e → Encodes w x (k y) := by
  constructor
  · rintro h y rfl
    rwa [optX_map he] at h
  · intro h
    unfold optX
    split
    · exact h none rfl
    · split
      · next hp => exact h (some _) (by simp [hf hp])
      · exact encodes_error.2 trivial

theorem encodes_reqX {α : Type} {e : α → BitVec 28} {f : BitVec 28 → Option α} (he : ∀ a, f (e a) = some a)
    (hf : ∀ {p a}, f p = some a → e a = p) {k : α → Dec} :
    Encodes w x (reqX x f k) ↔ ∀ a, x = some (e a) → Encodes w x (k a) := by
  constructor
  · rintro h a rfl
    rwa [reqX_some he] at h
  · intro h
    unfold reqX
    split
    · exact encodes_error.2 trivial
    · split
      · next hp => exact h _ (by simp [hf hp])
      · exact encodes_error.2 trivial

/-- Words are those of an instruction when the head agrees field by field. -/
theorem words_eq {v : Word} {y : Option (BitVec 28)} (hv : v = w.extractLsb' 0 32) (hy : x = y) : some (v, y) = some (w, x) := by
  rw [hv, hy, extract_all]


/-- `fence.sc`: the fields of a fence, each 0. -/
theorem zero_eq_fenceFields (hmask : fld w 0 16 = 0) (hscope : fld w 16 3 = 0) (hz : fld w 19 2 = 0) : 0#21 = w.extractLsb' 0 21 :=
  append_eq_extract (append_eq_extract hz.symm hscope.symm) hmask.symm

theorem encodes_decodeS (hE : fld w 31 1 = 0) (hc : fld w 28 3 = 0) : Encodes w x (decodeS (fld w 21 7).toNat w x) := by
  unfold decodeS
  split
  all_goals simp only [encodes_noX, encodes_chk, encodes_ok, encodes_error, encodes_optX decImm_encImm encImm_of_decImm,
    Bool.and_eq_true, decide_eq_true_eq, and_imp]
  all_goals intros
  all_goals try split -- a row whose field chooses the instruction
  all_goals try simp only [encodes_ok, encodes_error]
  all_goals refine words_eq ?_ ‹_›
  all_goals repeat' apply append_eq_extract
  all_goals first | rfl | exact Eq.symm ‹_› | exact literal_eq ‹_› rfl

theorem encodes_decodeW (hE : fld w 31 1 = 0) (hc : fld w 28 3 = 1) : Encodes w x (decodeW (fld w 21 7).toNat w x) := by
  unfold decodeW
  split
  all_goals simp only [encodes_noX, encodes_chk, encodes_ok, encodes_error, encodes_ite, implies_true, and_true,
    encodes_optX decLd_encLd encLd_of_decLd, encodes_optX decSt_encSt encSt_of_decSt, encodes_reqX decC5_encC5 encC5_of_decC5,
    encodes_reqX decAt_encAt encAt_of_decAt, encodes_reqX decCas_encCas encCas_of_decCas,
    Bool.and_eq_true, decide_eq_true_eq, and_imp]
  all_goals intros
  all_goals try split -- a row whose field chooses the instruction
  all_goals try simp only [encodes_ok, encodes_chk, Bool.and_eq_true, decide_eq_true_eq, and_imp]
  all_goals intros
  all_goals refine words_eq ?_ ‹_›
  all_goals repeat' apply append_eq_extract
  all_goals first | rfl | exact Eq.symm ‹_› | exact literal_eq ‹_› rfl | exact one_eq ‹_› | exact zero_eq_fenceFields ‹_› ‹_› ‹_›

theorem encodes_decodeV (hE : fld w 31 1 = 0) (hc : fld w 28 3 = 2) : Encodes w x (decodeV (fld w 21 7).toNat w x) := by
  unfold decodeV
  split
  all_goals simp only [encodes_noX, encodes_chk, encodes_ok, encodes_error, encodes_ite, implies_true, and_true,
    encodes_optX decCvt_encCvt encCvt_of_decCvt, encodes_optX decOff_encOff encOff_of_decOff, encodes_reqX decC5_encC5 encC5_of_decC5,
    encodes_reqX decVldc_encVldc encVldc_of_decVldc, encodes_reqX decVstc_encVstc encVstc_of_decVstc,
    Bool.and_eq_true, decide_eq_true_eq, and_imp]
  all_goals intros
  all_goals try split -- a row whose field chooses the instruction
  all_goals try simp only [encodes_ok, encodes_error]
  all_goals refine words_eq ?_ ‹_›
  all_goals repeat' apply append_eq_extract
  all_goals first | rfl | exact Eq.symm ‹_› | exact literal_eq ‹_› rfl

theorem encodes_decodeM (hE : fld w 31 1 = 0) (hc : fld w 28 3 = 3) : Encodes w x (decodeM (fld w 21 7).toNat w x) := by
  unfold decodeM
  split
  all_goals simp only [encodes_noX, encodes_chk, encodes_ok, encodes_error, encodes_optX decC5_encC5 encC5_of_decC5,
    Bool.and_eq_true, decide_eq_true_eq, and_imp]
  all_goals intros
  all_goals try split -- a row whose field chooses the instruction
  all_goals try simp only [encodes_ok, encodes_error]
  all_goals refine words_eq ?_ ‹_›
  all_goals repeat' apply append_eq_extract
  all_goals first | rfl | exact Eq.symm ‹_› | exact literal_eq ‹_› rfl | exact one_eq ‹_›

theorem encodes_decodeK (hE : fld w 31 1 = 0) (hc : fld w 28 3 = 4) : Encodes w x (decodeK (fld w 21 7).toNat w x) := by
  unfold decodeK
  split
  all_goals simp only [encodes_noX, encodes_chk, encodes_error, Bool.and_eq_true, decide_eq_true_eq, and_imp]
  all_goals intros
  all_goals try split -- a row whose field chooses the instruction
  all_goals simp only [encodes_ok]
  all_goals refine words_eq ?_ ‹_›
  all_goals repeat' apply append_eq_extract
  all_goals first | rfl | exact Eq.symm ‹_› | exact literal_eq ‹_› rfl | exact one_eq ‹_›

theorem encodes_decodeC (hE : fld w 31 1 = 0) (hc : fld w 28 3 = 5) : Encodes w x (decodeC (fld w 21 7).toNat w x) := by
  unfold decodeC
  split
  all_goals simp only [encodes_noX, encodes_chk, encodes_ok, encodes_error, encodes_ite, encodes_optX decInc_encInc encInc_of_decInc,
    Bool.and_eq_true, decide_eq_true_eq, and_imp]
  all_goals try refine ⟨?_, ?_⟩ -- a command without an increment, and with one
  all_goals intros
  all_goals refine words_eq ?_ ‹_›
  all_goals repeat' apply append_eq_extract
  all_goals first | rfl | exact Eq.symm ‹_› | exact literal_eq ‹_› rfl

end

theorem wf_of_decodeInstr {w : Word} {x : Option (BitVec 28)} {i : Instr} (h : decodeInstr w x = .ok i) : i.wf = true := by
  unfold decodeInstr at h
  split at h
  · split at h
    · cases h
      assumption
    · cases h
  · cases h

/-- Settles O48: row by row, the fields that a row reads and those that it requires to be zero are all of the word. -/
theorem wordHasOneMeaning : Obligations.WordHasOneMeaning := by
  unfold Obligations.WordHasOneMeaning
  intro i w x hE h
  have hlast := fld_one_eq_zero hE
  refine ⟨?_, wf_of_decodeInstr h⟩
  have hhead := decodeHead_of_decodeInstr h
  unfold decodeHead at hhead
  split at hhead
  · next hc => exact encodes_decodeS hlast (BitVec.eq_of_toNat_eq hc) i hhead
  · next hc => exact encodes_decodeW hlast (BitVec.eq_of_toNat_eq hc) i hhead
  · next hc => exact encodes_decodeV hlast (BitVec.eq_of_toNat_eq hc) i hhead
  · next hc => exact encodes_decodeM hlast (BitVec.eq_of_toNat_eq hc) i hhead
  · next hc => exact encodes_decodeK hlast (BitVec.eq_of_toNat_eq hc) i hhead
  · next hc => exact encodes_decodeC hlast (BitVec.eq_of_toNat_eq hc) i hhead
  · cases hhead
  · cases hhead

end Sys2Proof
end

section
/-!
SUPPORT AND CERTIFICATE. Traps and returns (R303 to R311): what the entry writes, what the return restores, and which cause is taken first.
-/

set_option Elab.async false

namespace Sys2Proof.Machine

open Sys2Proof

/-! ## The entry of a trap (R306, R308) -/

/-- A bit after `setBits`: of the number inside the field, of the old word outside. -/
theorem getLsbD_setBits {w : Nat} (v : BitVec w) (lo n x j : Nat) (hj : j < w) :
    (setBits v lo n x).getLsbD j = if lo ≤ j ∧ j < lo + n then x.testBit (j - lo) else v.getLsbD j := by
  simp only [setBits, BitVec.getLsbD_or, BitVec.getLsbD_and, BitVec.getLsbD_not, BitVec.getLsbD_ofNat, Nat.testBit_mul_two_pow,
    Nat.testBit_two_pow_sub_one, Nat.testBit_mod_two_pow, hj, decide_true, Bool.true_and]
  by_cases hlo : lo ≤ j
  · by_cases hn : j < lo + n
    · have : j - lo < n := by omega
      simp [hlo, hn, this]
    · have : ¬ j - lo < n := by omega
      simp [hlo, hn, this]
  · simp [hlo]

theorem testBit_bitsN {w : Nat} (v : BitVec w) (lo n i : Nat) : (bitsN v lo n).testBit i = (decide (i < n) && v.getLsbD (lo + i)) := by
  rw [bitsN, BitVec.testBit_toNat, BitVec.getLsbD_extractLsb']

/-- A bit cleared by `setBits` (R306). -/
theorem getLsbD_setBits_clear (v : DWord) (k j : Nat) (hj : j < 64) :
    (setBits v k 1 0).getLsbD j = (v.getLsbD j && decide (j ≠ k)) := by
  have hin : (k ≤ j ∧ j < k + 1) ↔ j = k := by omega
  simp only [getLsbD_setBits v k 1 0 j hj, hin]
  by_cases h : j = k <;> simp [h]

/-- TI.CAUSE of a cause whose fields fit theirs. -/
theorem tiCause_of_lt {code kind slot reason extra : Nat} (hc : code < 256) (hk : kind < 4) (hs : slot < 16) (hr : reason < 256)
    (he : extra < 256) :
    tiCause code kind slot reason extra = BitVec.ofNat 64 (code + 256 * kind + 1024 * slot + 65536 * reason + 16777216 * extra) := by
  rw [tiCause, Nat.mod_eq_of_lt hc, Nat.mod_eq_of_lt hk, Nat.mod_eq_of_lt hs, Nat.mod_eq_of_lt hr, Nat.mod_eq_of_lt he]
  congr 1
  omega

theorem bitsN_eq {w : Nat} (v : BitVec w) (lo n : Nat) : bitsN v lo n = v.toNat / 2 ^ lo % 2 ^ n := by
  simp [bitsN, BitVec.extractLsb'_toNat, Nat.shiftRight_eq_div_pow]

/-- ACT is RETRY in the image that a trap writes. -/
theorem act_tiCause (code kind slot reason extra : Nat) : bitsN (tiCause code kind slot reason extra) 14 2 = 0 := by
  rw [bitsN_eq, tiCause, BitVec.toNat_ofNat]
  have ha : code % 256 < 256 := Nat.mod_lt _ (by decide)
  have hk : kind % 4 < 4 := Nat.mod_lt _ (by decide)
  have ht : slot % 16 < 16 := Nat.mod_lt _ (by decide)
  generalize code % 256 = a, kind % 4 = k, slot % 16 = t, reason % 256 = r, extra % 256 = e at *
  omega

/-- An image register after the entry, in the form that `simp` keeps. -/
@[simp] theorem mget_trapImage (c : Ctx) (kind slot : Nat) (q : Cause) (opc : Va) (oct j : Nat) :
    mget 0#64 (trapImage c kind slot q opc oct) j =
      if j = 0 then tiCause q.code kind slot q.reason q.extra else if j = 1 then BitVec.zeroExtend 64 c.pc
      else if j = 2 then BitVec.ofNat 64 c.ct else if j = 3 then q.addr else if j = 4 then BitVec.zeroExtend 64 opc
      else if j = 5 then BitVec.ofNat 64 oct else if j = 9 then setBits (mget 0 c.ti 9) q.code 1 0 else mget 0 c.ti j :=
  trapImage_get ..

theorem act_trapCtx (cyc : Nat) (c : Ctx) (kind slot : Nat) (q : Cause) (opc : Va) (oct : Nat) :
    (trapCtx cyc c kind slot q opc oct).act = 0 := by
  simp [Ctx.act, trapCtx, act_tiCause]

/-- Settles O14: outside handler mode the entry is `trapCtx`, whose image is read register by register; in handler mode it is `endTask`. -/
theorem trapEntryWritesImage : Obligations.TrapEntryWritesImage := by
  unfold Obligations.TrapEntryWritesImage
  constructor
  · intro s x kind slot q opc oct
    dsimp only
    intro hinh hvec hk hs hcode hr he
    rw [enterTrap_eq _ _ _ _ _ hinh hvec, getX_setX, if_pos rfl]
    refine ⟨?_, tiRead_trapCtx_pc .., tiRead_trapCtx_ct .., ?_, ?_, ?_, ?_, ?_, ?_⟩
    · rw [tiRead_trapCtx_cause, tiCause_of_lt (by omega) hk hs hr he]
    · simp [tiRead_trapCtx]
    · simp [tiRead_trapCtx]
    · simp [tiRead_trapCtx]
    · intro k hk64
      simp [tiRead, trapCtx, getLsbD_setBits_clear _ _ _ hk64]
    · intro j hj
      have hj' : j < 14 ∧ j ≠ 0 ∧ j ≠ 1 ∧ j ≠ 2 ∧ j ≠ 3 ∧ j ≠ 4 ∧ j ≠ 5 ∧ j ≠ 6 ∧ j ≠ 9 := by omega
      simp [tiRead, trapCtx, hj']
    · simp +contextual [trapCtx, Ctx.fresh]
  · intro s x kind slot q opc oct
    dsimp only
    intro hinh
    rw [enterTrap_inh _ _ _ _ _ hinh]
    refine ⟨by simp [endTask], fun j hj => ?_, ?_⟩
    · have hj9 : j ≠ 9 := by omega
      simp [endTask, tiRead, tiState, mget_mset, hj9]
    · simp +contextual [endTask]

/-! ## The return (R310) -/

/-- With ACT = RETRY, and no deferred cause of the handler's own, the context leaves its handler. -/
theorem returnFrom_retry {s : State} {x : Nat} (skip : Option Nat) (hact : (getX s x).act = 0) (hdef : (getX s x).hdeferred = []) :
    returnFrom s x skip = setX s x (returnCtx s.cyc (getX s x)) := by
  cases skip <;> simp [returnFrom, hact, hdef]

/-- With ACT = SKIP after a trap that was no issue trap, the return is that of RETRY. -/
theorem returnFrom_skip_other {s : State} {x : Nat} (n : Nat) (hact : (getX s x).act = 1) (hkind : (getX s x).kind ≠ 0)
    (hdef : (getX s x).hdeferred = []) : returnFrom s x (some n) = setX s x (returnCtx s.cyc (getX s x)) := by
  simp [returnFrom, hact, hdef, hkind]

/-- With ACT = SKIP after an issue trap, the program goes on after the bundle at TI.PC. -/
theorem returnFrom_skip_issue {s : State} {x : Nat} (n : Nat) (hact : (getX s x).act = 1) (hkind : (getX s x).kind = 0)
    (hdef : (getX s x).hdeferred = []) :
    returnFrom s x (some n)
      = settle (setX s x (sequence n { returnCtx s.cyc (getX s x) with ct := (returnCtx s.cyc (getX s x)).ct + 1 })) x := by
  simp [returnFrom, hact, hdef, hkind]

/-- With ACT = END, or 3, the task ends. -/
theorem returnFrom_end {s : State} {x : Nat} (skip : Option Nat) (hact : (getX s x).act = 2 ∨ (getX s x).act = 3) :
    returnFrom s x skip = endTask s x true := by
  unfold returnFrom
  rw [if_pos (by tauto)]

/-- Settles O15: the entry saves privilege, pc and wait, and `returnCtx` takes them back. -/
theorem trapAndReturnRestore : Obligations.TrapAndReturnRestore := by
  unfold Obligations.TrapAndReturnRestore
  intro s x kind slot q opc oct
  dsimp only
  intro hinh hvec _
  rw [enterTrap_eq _ _ _ _ _ hinh hvec]
  generalize getX s x = c at *
  have hctx : getX (setX s x (trapCtx s.cyc c kind slot q opc oct)) x = trapCtx s.cyc c kind slot q opc oct := by simp
  rw [returnFrom_retry none (by rw [hctx, act_trapCtx]) (by rw [hctx]; rfl), hctx]
  simp [returnCtx, trapCtx, Ctx.fresh, readS, readP, readV, physS, physP, physV, readPhysS, hinh]

/-- Settles O16: one equation of `returnFrom` for each value of ACT. -/
theorem returnByAct : Obligations.ReturnByAct := by
  unfold Obligations.ReturnByAct
  intro s x n
  have hact : (getX s x).act = (tiRead (getX s x) 0).toNat / 2 ^ 14 % 4 := by simp [Ctx.act, bitsN_eq, tiRead]
  have hkind : (getX s x).kind = (tiRead (getX s x) 0).toNat / 2 ^ 8 % 4 := by simp [Ctx.kind, bitsN_eq, tiRead]
  have hpc : BitVec.truncate 52 (tiRead (getX s x) 1) = BitVec.truncate 52 (mget 0 (getX s x).ti 1) := by simp [tiRead]
  dsimp only
  rw [← hact, ← hkind, hpc]
  intro hdef
  refine ⟨fun h => ⟨returnFrom_end _ h, returnFrom_end _ h⟩, fun h k => ?_, fun h hk hloop hinfl => ?_, fun h hk => ?_⟩
  · rw [returnFrom_retry k h hdef]
    simp [returnCtx, Ctx.fresh]
  · rw [returnFrom_skip_issue n h hk hdef, settle_nil]
    · simp [sequence, Ctx.curLoop, returnCtx, Ctx.fresh, hloop]
    · simp [sequence, Ctx.curLoop, Ctx.results, returnCtx, Ctx.fresh, hloop, hinfl]
  · rw [returnFrom_skip_other n h hk hdef]
    simp [returnCtx, Ctx.fresh]

/-! ## Which cause is taken (R305) -/

theorem lowestCause_eq_none {l : List Cause} : lowestCause l = none ↔ l = [] := by
  cases l with
  | nil => simp [lowestCause]
  | cons a l => cases h : lowestCause l <;> simp [lowestCause, h]; split <;> simp

theorem firstDeferred_eq_none {l : List Deferred} : firstDeferred l = none ↔ l = [] := by
  cases l with
  | nil => simp [firstDeferred]
  | cons a l => cases h : firstDeferred l <;> simp [firstDeferred, h]; split <;> simp

theorem lowestCause_spec {l : List Cause} {q : Cause} (h : lowestCause l = some q) : q ∈ l ∧ ∀ e ∈ l, q.code ≤ e.code := by
  induction l generalizing q with
  | nil => cases h
  | cons a l ih =>
    simp only [lowestCause] at h
    split at h
    · next hl =>
      obtain rfl := lowestCause_eq_none.1 hl
      simp_all
    · next r hr =>
      obtain ⟨hmem, hmin⟩ := ih hr
      split at h <;> cases h <;> simp only [List.mem_cons, forall_eq_or_imp]
      · exact ⟨Or.inr hmem, by omega, hmin⟩
      · exact ⟨Or.inl trivial, le_refl _, fun e he => by have := hmin e he; omega⟩

theorem firstDeferred_spec {l : List Deferred} {d : Deferred} (h : firstDeferred l = some d) :
    d ∈ l ∧ ∀ e ∈ l, d.oct < e.oct ∨ (d.oct = e.oct ∧ d.code ≤ e.code) := by
  induction l generalizing d with
  | nil => cases h
  | cons a l ih =>
    simp only [firstDeferred] at h
    split at h
    · next hl =>
      obtain rfl := firstDeferred_eq_none.1 hl
      simp_all
    · next r hr =>
      obtain ⟨hmem, hmin⟩ := ih hr
      split at h <;> cases h <;> simp only [List.mem_cons, forall_eq_or_imp]
      · exact ⟨Or.inr hmem, by omega, hmin⟩
      · exact ⟨Or.inl trivial, by simp, fun e he => by have := hmin e he; omega⟩

/-- Settles O18: both choices are minima of their lists. -/
theorem trapPriorities : Obligations.TrapPriorities := by
  unfold Obligations.TrapPriorities
  refine ⟨fun _ _ => firstDeferred_spec, fun _ _ => lowestCause_spec, fun l hl => ?_, fun l hl => ?_⟩
  · simpa [Option.isSome_iff_ne_none, lowestCause_eq_none] using hl
  · simpa [Option.isSome_iff_ne_none, firstDeferred_eq_none] using hl

end Sys2Proof.Machine
end

section
/-!
SUPPORT AND CERTIFICATE. Every instruction with an encoding is its slot, issued as a bundle of its own (R304, R319, R329).
-/

set_option Elab.async false

namespace Sys2Proof.Machine

open Sys2Proof

theorem xWords_pos {α : Type} (x : Option α) : 1 ≤ xWords x := by unfold xWords; split <;> decide
theorem xWords_le {α : Type} (x : Option α) : xWords x ≤ 2 := by unfold xWords; split <;> decide

/-- An instruction that has a slot issues as a bundle of it alone, of one or two words, at a position that is not the second C slot's. -/
theorem exec_eq_single {i : Instr} {f : Slot} (h : slotOf i = some f) :
    ∃ op w p, (∀ s, exec i s = single i.wf op w p f s) ∧ 1 ≤ w ∧ w ≤ 2 ∧ p ≠ 7 := by
  cases i
  all_goals cases h
  all_goals refine ⟨_, _, _, fun s => rfl, ?_, ?_, by decide⟩
  all_goals first | decide | exact xWords_pos _ | exact xWords_le _

/-- An ill-formed instruction has a slot: an event is always well formed. -/
theorem slotOf_isSome_of_ill {i : Instr} (h : i.wf = false) : ∃ f, slotOf i = some f := by
  cases i
  all_goals first | exact ⟨_, rfl⟩ | cases h

/-- Settles O19: with the fields unlisted the slot is the cause IIL. -/
theorem illFormedIsIil : Obligations.IllFormedIsIil := by
  unfold Obligations.IllFormedIsIil
  intro i s hready hill
  obtain ⟨f, hf⟩ := slotOf_isSome_of_ill hill
  obtain ⟨op, w, p, hexec, -, -, hp⟩ := exec_eq_single hf
  exact ⟨p, op, by rw [Traps, hexec, hill]; exact single_ill hready hp⟩

/-- Settles O20: with the fields listed `single` issues the slot itself. -/
theorem instructionIsItsSlot : Obligations.InstructionIsItsSlot := by
  unfold Obligations.InstructionIsItsSlot
  intro i f hf hwf
  obtain ⟨op, w, p, hexec, hw, hw', -⟩ := exec_eq_single hf
  exact ⟨w, p, hw, hw', fun s => by rw [hexec, hwf]; rfl⟩

end Sys2Proof.Machine
end

section
/-!
SUPPORT AND CERTIFICATE. Reads after writes: tile stores (R132, R133), memory (R252), and a write at a home (R64, R132).
-/

set_option Elab.async false

namespace Sys2Proof

/-! ## Maps and tables -/

theorem mfind_mset {α : Type} (m : List (Nat × α)) (n k : Nat) (v : α) :
    mfind (mset m n v) k = if k = n then some v else mfind m k := by
  induction m with
  | nil => simp [mset, mfind]
  | cons p m ih =>
    obtain ⟨j, w⟩ := p
    simp only [mset]
    split_ifs with h h' <;> simp only [mfind] <;> grind

@[simp] theorem mem_tab {α : Type} {n : Nat} {f : Nat → α} {a : α} : a ∈ tab n f ↔ ∃ i < n, f i = a := by simp [tab]

theorem mget_of_forall_ne {α : Type} {d : α} {m : List (Nat × α)} {n : Nat} (h : ∀ c ∈ m, c.1 ≠ n) : mget d m n = d := by
  induction m with
  | nil => rfl
  | cons p m ih =>
    obtain ⟨k, v⟩ := p
    simp only [List.forall_mem_cons] at h
    rw [mget, if_neg (Ne.symm h.1), ih h.2]

theorem mget_append_left {α : Type} {d : α} {m l : List (Nat × α)} {n : Nat} (h : ∀ c ∈ l, c.1 ≠ n) : mget d (m ++ l) n = mget d m n := by
  induction m with
  | nil => exact mget_of_forall_ne h
  | cons p m ih => simp [mget, ih]

theorem mget_append_right {α : Type} {d : α} {m l : List (Nat × α)} {n : Nat} (h : ∀ c ∈ m, c.1 ≠ n) : mget d (m ++ l) n = mget d l n := by
  induction m with
  | nil => rfl
  | cons p m ih =>
    obtain ⟨k, v⟩ := p
    simp only [List.forall_mem_cons] at h
    rw [List.cons_append, mget, if_neg (Ne.symm h.1), ih h.2]

namespace Machine

/-! ## Tile stores -/

theorem tsByte_putByte (t : TileStore) (a b : Nat) (v : Byte) :
    tsByte { t with cells := tsPutByte t.cells a v } b = if b = a then v else tsByte t b := by
  simp only [tsByte, tsCell, tsPutByte, mget_mset]
  by_cases hrow : b / 64 = a / 64
  · have hcol : b % 64 = a % 64 ↔ b = a := by omega
    simp only [hrow, if_true, mfind_mset, hcol]
    by_cases hb : b = a <;> simp [hb]
  · have hne : b ≠ a := fun h => hrow (by rw [h])
    simp [hrow, hne]

theorem tsPut_poison (l : List Byte) (t : TileStore) (a : Nat) : (tsPut t a l).poison = t.poison := by
  induction l generalizing t a with
  | nil => rfl
  | cons v l ih => rw [tsPut, ih]

theorem tsByte_tsPut (l : List Byte) (t : TileStore) (a b : Nat) :
    tsByte (tsPut t a l) b = if a ≤ b ∧ b < a + l.length then l.getD (b - a) 0 else tsByte t b := by
  induction l generalizing t a with
  | nil =>
    rw [tsPut, if_neg (by simp)]
  | cons v l ih =>
    rw [tsPut, ih, tsByte_putByte, List.length_cons]
    by_cases hb : b = a
    · subst hb
      simp
    · by_cases hin : a + 1 ≤ b ∧ b < a + 1 + l.length
      · obtain ⟨j, rfl⟩ : ∃ j, b = a + 1 + j := ⟨b - (a + 1), by omega⟩
        have : a + 1 + j - a = j + 1 := by omega
        rw [if_pos hin, if_pos (by omega), this, Nat.add_sub_cancel_left, List.getD_cons_succ]
      · rw [if_neg hin, if_neg hb, if_neg (by omega)]

/-- A byte after a write (R132 changes no byte). -/
theorem tsByte_tsWrite (t : TileStore) (a : Nat) (l : List Byte) (bad : Bool) (b : Nat) :
    tsByte (tsWrite t a l bad) b = if a ≤ b ∧ b < a + l.length then l.getD (b - a) 0 else tsByte t b :=
  tsByte_tsPut l t a b

theorem mem_sectorsOf {a n k : Nat} : k ∈ sectorsOf a n ↔ n ≠ 0 ∧ a < 32 * k + 32 ∧ 32 * k < a + n := by
  unfold sectorsOf
  split
  · next h => simp [h]
  · next h =>
    rw [mem_tab]
    constructor
    · rintro ⟨i, hi, rfl⟩
      omega
    · intro hk
      exact ⟨k - a / 32, by omega, by omega⟩

theorem mem_sectorAfter {ps : List Nat} {j k a n : Nat} {bad : Bool} :
    k ∈ sectorAfter ps j a n bad ↔
      (bad = true ∧ k = j) ∨ (k ∈ ps ∧ ¬ (bad = false ∧ k = j ∧ a ≤ 32 * k ∧ 32 * k + 32 ≤ a + n)) := by
  cases bad with
  | true => by_cases h : j ∈ ps <;> simp [sectorAfter, h]; grind
  | false =>
    simp only [sectorAfter, mul_comm j 32]
    split <;> simp <;> grind

/-- Poison after the sectors of one access, in whatever order they are taken. -/
theorem mem_foldl_sectorAfter {L ps : List Nat} {k a n : Nat} {bad : Bool} :
    k ∈ L.foldl (fun p j => sectorAfter p j a n bad) ps ↔
      (bad = true ∧ k ∈ L) ∨ (k ∈ ps ∧ ¬ (bad = false ∧ k ∈ L ∧ a ≤ 32 * k ∧ 32 * k + 32 ≤ a + n)) := by
  induction L generalizing ps with
  | nil => simp
  | cons j L ih =>
    rw [List.foldl_cons, ih, mem_sectorAfter, List.mem_cons]
    cases bad <;> simp <;> tauto

/-- Settles O23: the bytes by induction on the write, the poison by the sectors that the write touches. -/
theorem tileStoreReadAfterWrite : Obligations.TileStoreReadAfterWrite := by
  unfold Obligations.TileStoreReadAfterWrite
  intro t a l bad b k
  refine ⟨tsByte_tsWrite t a l bad b, ?_⟩
  simp only [tsWrite, mem_foldl_sectorAfter, mem_sectorsOf, tsPut_poison, ne_eq, List.length_eq_zero_iff]
  have hcover : a ≤ 32 * k ∧ 32 * k + 32 ≤ a + l.length → l ≠ [] ∧ a < 32 * k + 32 ∧ 32 * k < a + l.length := by
    rintro ⟨hlo, hhi⟩
    refine ⟨?_, by omega, by omega⟩
    rintro rfl
    simp at hhi
    omega
  tauto

/-! ## Memory -/

theorem mget_memCells (l : List Byte) (a b : Nat) :
    mget memDefault (memCells a l) b = if a ≤ b ∧ b < a + l.length then l.getD (b - a) 0 else memDefault := by
  induction l generalizing a with
  | nil => simp [memCells, mget]
  | cons v l ih =>
    have hhere : mget memDefault (memCells a (v :: l)) b = if b = a then v else mget memDefault (memCells (a + 1) l) b := by
      simp only [memCells]
      split
      · next hv =>
        split
        · next hb => rw [ih, if_neg (by omega), hv]
        · rfl
      · rfl
    rw [hhere, ih, List.length_cons]
    by_cases hb : b = a
    · simp [hb]
    · by_cases hin : a + 1 ≤ b ∧ b < a + 1 + l.length
      · obtain ⟨j, rfl⟩ : ∃ j, b = a + 1 + j := ⟨b - (a + 1), by omega⟩
        have : a + 1 + j - a = j + 1 := by omega
        rw [if_neg hb, if_pos hin, if_pos (by omega), this, Nat.add_sub_cancel_left, List.getD_cons_succ]
      · rw [if_neg hb, if_neg hin, if_neg (by omega)]

section

variable {m : List Host.Cell} (hs : m.Pairwise (fun c d => c.1 < d.1))

include hs

/-- The part of memory below a bound. -/
theorem mget_takeWhile {a b : Nat} (hb : b < a) :
    mget memDefault (m.takeWhile (fun c => decide (c.1 < a))) b = mget memDefault m b := by
  conv_rhs => rw [← List.takeWhile_append_dropWhile (p := fun c => decide (c.1 < a)) (l := m)]
  rw [mget_append_left]
  intro c hc
  have := (mem_dropWhile_ge hs hc).2
  omega

omit hs in
/-- The part of memory from a bound on. -/
theorem mget_dropWhile {a b : Nat} (hb : a ≤ b) :
    mget memDefault (m.dropWhile (fun c => decide (c.1 < a))) b = mget memDefault m b := by
  conv_rhs => rw [← List.takeWhile_append_dropWhile (p := fun c => decide (c.1 < a)) (l := m)]
  rw [mget_append_right]
  intro c hc
  have := (mem_takeWhile_lt hc).2
  omega

/-- A byte after a write, by the part of memory it comes from. -/
theorem memByte_memWrite (a : Nat) (l : List Byte) (b : Nat) :
    memByte (memWrite m a l) b = if a ≤ b ∧ b < a + l.length then l.getD (b - a) 0 else memByte m b := by
  have hcells : ∀ c ∈ memCells a l, a ≤ c.1 ∧ c.1 < a + l.length := fun c hc => ⟨(memCells_mem hc).1, (memCells_mem hc).2.1⟩
  have hback : ∀ c ∈ m.dropWhile (fun c => decide (c.1 < a + l.length)), a + l.length ≤ c.1 := fun c hc => (mem_dropWhile_ge hs hc).2
  have hfront : ∀ c ∈ m.takeWhile (fun c => decide (c.1 < a)), c.1 < a := fun c hc => (mem_takeWhile_lt hc).2
  simp only [memByte, memWrite]
  rcases Nat.lt_or_ge b a with hb | hb
  · rw [mget_append_left (fun c hc => by have := hback c hc; omega), mget_append_left (fun c hc => by have := hcells c hc; omega),
      mget_takeWhile hs hb, if_neg (by omega)]
  · rcases Nat.lt_or_ge b (a + l.length) with hb' | hb'
    · rw [mget_append_left (fun c hc => by have := hback c hc; omega), mget_append_right (fun c hc => by have := hfront c hc; omega),
        mget_memCells]
      simp [hb, hb']
    · rw [mget_append_right, mget_dropWhile hb', if_neg (by omega)]
      intro c hc
      rcases List.mem_append.1 hc with hc | hc
      · have := hfront c hc
        omega
      · have := hcells c hc
        omega

end

theorem memRun_eq (n a : Nat) (m : List Host.Cell) (hs : m.Pairwise (fun c d => c.1 < d.1)) (hge : ∀ c ∈ m, a ≤ c.1) :
    memRun n a m = (List.range n).map (fun i => memByte m (a + i)) := by
  induction n generalizing a m with
  | zero => rfl
  | succ n ih =>
    rw [List.range_succ_eq_map, List.map_cons, List.map_map]
    have hnext : ∀ i, a + (i + 1) = a + 1 + i := fun i => by omega
    cases m with
    | nil =>
      rw [memRun, ih _ _ hs (by simp)]
      simp [memByte, mget, Function.comp_def]
    | cons p m =>
      obtain ⟨k, v⟩ := p
      simp only [List.pairwise_cons] at hs
      obtain ⟨hk, hs⟩ := hs
      simp only [List.forall_mem_cons] at hge
      rw [memRun]
      split
      · next hka =>
        subst hka
        rw [ih _ _ hs (fun c hc => hk c hc)]
        simp only [List.cons.injEq]
        refine ⟨by simp [memByte, mget], List.map_congr_left fun i _ => ?_⟩
        simp [memByte, mget, ← hnext]
      · next hka =>
        rw [ih _ _ (List.pairwise_cons.2 ⟨hk, hs⟩) (by
          simp only [List.forall_mem_cons]
          exact ⟨by omega, fun c hc => by have := hk c hc; omega⟩)]
        simp only [List.cons.injEq]
        refine ⟨(mget_of_forall_ne (by
          simp only [List.forall_mem_cons]
          exact ⟨by simpa using hka, fun c hc => by have := hk c hc; have := hge.1; omega⟩)).symm, List.map_congr_left fun i _ => ?_⟩
        simp [← hnext]

/-- Settles O24: the written bytes stand between the parts of memory below and above them; a read runs along the cells. -/
theorem memoryReadAfterWrite : Obligations.MemoryReadAfterWrite := by
  unfold Obligations.MemoryReadAfterWrite
  refine ⟨fun m a b l hwf => memByte_memWrite ((memWf_iff m).1 hwf).1 a l b, fun m a n hwf => ?_⟩
  have hs := ((memWf_iff m).1 hwf).1
  rw [memBytes, memRun_eq n a _ (hs.sublist (List.dropWhile_sublist _)) (fun c hc => (mem_dropWhile_ge hs hc).2)]
  exact List.map_congr_left fun i _ => mget_dropWhile (Nat.le_add_right a i)

/-! ## A write at a home -/

theorem linesOf_within {pa n : Nat} (hn : n ≠ 0) (h : pa % 64 + n ≤ 64) : linesOf pa n = [pa / 64] := by
  have hone : (pa + n - 1) / 64 - pa / 64 + 1 = 1 := by omega
  rw [linesOf, if_neg hn, hone]
  rfl

theorem homeWrite_within {s : State} {pa : Nat} {l : List Byte} {bad : Bool} (hl : l ≠ []) (h : pa % 64 + l.length ≤ 64) :
    homeWrite s pa l bad
      = bumpVer { s with mem := memWrite s.mem pa l, poison := poisonAfter s.poison (pa / 64) pa l.length bad } (pa / 64) := by
  rw [homeWrite, linesOf_within (by simpa using hl) h]
  rfl

@[simp] theorem bumpVer_poison (s : State) (n : Nat) : (bumpVer s n).poison = s.poison := by unfold bumpVer; split <;> rfl
@[simp] theorem bumpVer_ctxs (s : State) (n : Nat) : (bumpVer s n).ctxs = s.ctxs := by unfold bumpVer; split <;> rfl
@[simp] theorem bumpVer_cores (s : State) (n : Nat) : (bumpVer s n).cores = s.cores := by unfold bumpVer; split <;> rfl
@[simp] theorem bumpVer_mg (s : State) (n : Nat) : (bumpVer s n).mg = s.mg := by unfold bumpVer; split <;> rfl

theorem lineVer_bumpVer (s : State) (k n : Nat) :
    lineVer (bumpVer s k) n = if n = k ∧ isTier2 (64 * n) = false then lineVer s n + 1 else lineVer s n := by
  by_cases hk : isTier2 (64 * k) = true <;> by_cases hn : n = k <;>
    simp_all [lineVer, bumpVer, mget_mset, mul_comm]

theorem mem_poisonAfter {ps : List Nat} {line pa n k : Nat} {bad : Bool} :
    k ∈ poisonAfter ps line pa n bad ↔
      (k = line ∧ bad = true) ∨ (k ∈ ps ∧ ¬ (k = line ∧ bad = false ∧ pa ≤ line * 64 ∧ line * 64 + 64 ≤ pa + n)) := by
  cases bad with
  | true => by_cases h : line ∈ ps <;> simp [poisonAfter, h]; grind
  | false =>
    simp only [poisonAfter]
    split <;> simp <;> grind

/-- Settles O25: the write touches one line, whose version it steps and whose poison it sets, clears or keeps. -/
theorem homeWriteVersionAndPoison : Obligations.HomeWriteVersionAndPoison := by
  unfold Obligations.HomeWriteVersionAndPoison
  intro s pa l bad n hl hin
  have hwhole : (pa ≤ pa / 64 * 64 ∧ pa / 64 * 64 + 64 ≤ pa + l.length) ↔ l.length = 64 := by omega
  dsimp only
  refine ⟨homeWrite_mem s pa l bad, ?_, ?_, ?_⟩
  · rw [homeWrite_within hl hin, lineVer_bumpVer]
    rfl
  · rw [homeWrite_within hl hin]
    simp only [linePoison, List.contains_iff_mem, bumpVer_poison, mem_poisonAfter, hwhole]
  · rw [homeWrite_within hl hin]
    simp

end Machine
end Sys2Proof
end

section
/-!
SUPPORT AND CERTIFICATE. Scalar instructions (R338 to R344): each form is a slot of one shape, so it issues, and what is left is that
the value it computes is the one its row gives.
-/

set_option Elab.async false

namespace Sys2Proof.Machine

open Sys2Proof

section

variable {i : Instr} {s : State} {op w p : Nat} (hs : Unblocked s)

include hs

/-- A well-formed instruction whose slot goes on issues. -/
theorem issues_of_go {sl : Slot} {f : State → State} (he : exec i s = single true op w p sl s) (hg : sl ⟨w, p⟩ s = .go f)
    (hp : p ≠ 7 := by decide) : Issues i s w f :=
  he.trans (single_go hs hp hg)

/-- A well-formed instruction whose slot finds causes traps with the lowest. -/
theorem traps_of_trap {sl : Slot} {l : List Cause} {q : Cause} (he : exec i s = single true op w p sl s) (hg : sl ⟨w, p⟩ s = .trap l)
    (hq : lowestCause l = some q) (hp : p ≠ 7 := by decide) : Traps i s p q :=
  he.trans (single_trap hs hp hg hq)

/-- A well-formed instruction whose slot must wait holds. -/
theorem holds_of_hold {sl : Slot} {n : Nat} {f : State → State} (he : exec i s = single true op w p sl s) (hg : sl ⟨w, p⟩ s = .hold n f)
    (hp : p ≠ 7 := by decide) : Holds i s n f :=
  he.trans (single_hold hs hp hg)

/-- A form that writes a scalar. -/
theorem issues_retS {sl : Slot} {d : BitVec 5} {lat : Nat} {u v : DWord} (he : exec i s = single true op w p sl s)
    (hg : sl ⟨w, p⟩ s = .go (retS d lat u)) (hv : u = v) (hp : p ≠ 7 := by decide) : Issues i s w (retS d lat v) :=
  hv ▸ issues_of_go hs he hg hp

/-- A form that writes a predicate. -/
theorem issues_retP {sl : Slot} {d : BitVec 4} {lat : Nat} {u v : Bool} (he : exec i s = single true op w p sl s)
    (hg : sl ⟨w, p⟩ s = .go (retP d lat u)) (hv : u = v) (hp : p ≠ 7 := by decide) : Issues i s w (retP d lat v) :=
  hv ▸ issues_of_go hs he hg hp

end

/-! ## Values -/

theorem ofNat_toNat_add (x y : DWord) : x + y = BitVec.ofNat 64 (x.toNat + y.toNat) := BitVec.eq_of_toNat_eq (by simp)
theorem ofNat_toNat_mul (x y : DWord) : x * y = BitVec.ofNat 64 (x.toNat * y.toNat) := BitVec.eq_of_toNat_eq (by simp)
theorem ofInt_toNat_sub (x y : DWord) : x - y = BitVec.ofInt 64 (x.toNat - y.toNat) := by
  apply BitVec.eq_of_toNat_eq
  rw [BitVec.toNat_sub, BitVec.toNat_ofInt]
  omega
theorem shl_eq_mul (x : DWord) (n : Nat) : x <<< n = BitVec.ofNat 64 (x.toNat * 2 ^ n) :=
  BitVec.eq_of_toNat_eq (by simp [Nat.shiftLeft_eq])
theorem shr_eq_div (x : DWord) (n : Nat) : x >>> n = BitVec.ofNat 64 (x.toNat / 2 ^ n) := by
  apply BitVec.eq_of_toNat_eq
  rw [BitVec.toNat_ushiftRight, Nat.shiftRight_eq_div_pow, BitVec.toNat_ofNat,
    Nat.mod_eq_of_lt (lt_of_le_of_lt (Nat.div_le_self _ _) x.isLt)]
theorem zeroExtend_low (x : DWord) (n : Nat) : BitVec.zeroExtend 64 (bits x 0 n) = BitVec.ofNat 64 (x.toNat % 2 ^ n) :=
  BitVec.eq_of_toNat_eq (by simp [bits])

/-- The word with a new high part (R341). -/
theorem movh_eq (l : BitVec 16) (v : DWord) : (l ++ bits v 0 48 : DWord) = BitVec.ofNat 64 (l.toNat * 2 ^ 48 + v.toNat % 2 ^ 48) := by
  apply BitVec.eq_of_toNat_eq
  have hv : v.toNat % 2 ^ 48 < 2 ^ 48 := Nat.mod_lt _ (by decide)
  have hl := l.isLt
  have hlow : (bits v 0 48).toNat = v.toNat % 2 ^ 48 := by simp [bits]
  rw [BitVec.toNat_append, hlow, ← Nat.shiftLeft_add_eq_or_of_lt hv, Nat.shiftLeft_eq, BitVec.toNat_ofNat,
    Nat.mod_eq_of_lt (show l.toNat * 2 ^ 48 + v.toNat % 2 ^ 48 < 2 ^ 64 by omega)]

/-- Settles O1: the value of each form, by the arithmetic of its operation. -/
theorem scalarRegisterForms : Obligations.ScalarRegisterForms := by
  unfold Obligations.ScalarRegisterForms
  intro s d a b hs x y n
  have hn : shamt y = n := shamt_eq y
  have hclz := leadZeros_spec x 64 (by decide) x.isLt
  have hctz := trailZeros_spec x 64 0 (by simp)
  rw [Nat.zero_add] at hctz
  exact ⟨issues_of_go hs rfl rfl, issues_retS hs rfl rfl (ofNat_toNat_add x y), issues_retS hs rfl rfl (ofInt_toNat_sub x y),
    issues_retS hs rfl rfl (ofNat_toNat_mul x y), issues_retS hs rfl rfl (mulhS_eq x y), issues_retS hs rfl rfl (mulhU_eq x y),
    issues_retS hs rfl rfl rfl, issues_retS hs rfl rfl rfl, issues_retS hs rfl rfl rfl, issues_retS hs rfl rfl rfl,
    issues_retS hs rfl rfl ((shl_eq_mul x _).trans (by rw [hn])), issues_retS hs rfl rfl ((shr_eq_div x _).trans (by rw [hn])),
    issues_retS hs rfl rfl ((sar_eq x _).trans (by rw [hn])), issues_retS hs rfl rfl (congrArg x.rotateLeft hn),
    issues_retS hs rfl rfl (min_signed x y), issues_retS hs rfl rfl (max_signed x y),
    issues_retS hs rfl rfl (min_unsigned x y), issues_retS hs rfl rfl (max_unsigned x y),
    ⟨leadZeros x 64, issues_retS hs rfl rfl rfl, hclz⟩, ⟨trailZeros x 64 0, issues_retS hs rfl rfl rfl, hctz⟩,
    issues_retS hs rfl rfl (congrArg (BitVec.ofNat 64) (countOnes_eq x 64)),
    issues_retS hs rfl rfl rfl, issues_retS hs rfl rfl rfl, issues_retS hs rfl rfl rfl,
    issues_retS hs rfl rfl (zeroExtend_low x 8), issues_retS hs rfl rfl (zeroExtend_low x 16),
    issues_retS hs rfl rfl (zeroExtend_low x 32), issues_retS hs rfl rfl rfl⟩

/-- Settles O3: the immediate of each form is the integer its row names. -/
theorem immediateForms : Obligations.ImmediateForms := by
  unfold Obligations.ImmediateForms
  intro s d a i l n x hs v im il w
  have hi : immOf i x = im := immOf_eq i x
  have hl : immOf l x = il := immOf_eq l x
  exact ⟨issues_retS hs rfl rfl (congrArg (v + ·) hi), issues_retS hs rfl rfl (congrArg (v * ·) hi), issues_retS hs rfl rfl (congrArg (v &&& ·) hi),
    issues_retS hs rfl rfl (congrArg (v ||| ·) hi), issues_retS hs rfl rfl (congrArg (v ^^^ ·) hi),
    issues_retS hs rfl rfl (shl_eq_mul v _), issues_retS hs rfl rfl (shr_eq_div v _), issues_retS hs rfl rfl (sar_eq v _),
    issues_retS hs rfl rfl hl, issues_retS hs rfl rfl (movh_eq l _)⟩

/-- Settles O4: the truth value of each compare and predicate form, and the source that `sel` chooses. -/
theorem conditionForms : Obligations.ConditionForms := by
  unfold Obligations.ConditionForms
  intro s p q r d a b g i x hs v y im w f h
  have hi : immOf i x = im := immOf_eq i x
  have heq : ∀ u, Cond.holds .eq v u = decide (v = u) := fun u => rfl
  have hne : ∀ u, Cond.holds .ne v u = decide (v ≠ u) := fun u => by simp [Cond.holds, bne, beq_eq_decide]
  have hlt : ∀ u, Cond.holds .lt v u = decide (v.toInt < u.toInt) := fun u => rfl
  have hle : ∀ u, Cond.holds .le v u = decide (v.toInt ≤ u.toInt) := fun u => rfl
  have hlo : ∀ u, Cond.holds .lo v u = decide (v.toNat < u.toNat) := fun u => rfl
  have hls : ∀ u, Cond.holds .ls v u = decide (v.toNat ≤ u.toNat) := fun u => rfl
  exact ⟨issues_retP hs rfl rfl (heq y), issues_retP hs rfl rfl (hne y), issues_retP hs rfl rfl (hlt y), issues_retP hs rfl rfl (hle y),
    issues_retP hs rfl rfl (hlo y), issues_retP hs rfl rfl (hls y),
    issues_retP hs rfl rfl (hi ▸ heq im), issues_retP hs rfl rfl (hi ▸ hne im), issues_retP hs rfl rfl (hi ▸ hlt im), issues_retP hs rfl rfl (hi ▸ hle im),
    issues_retP hs rfl rfl (hi ▸ hlo im), issues_retP hs rfl rfl (hi ▸ hls im),
    issues_retP hs rfl rfl rfl, issues_retP hs rfl rfl rfl, issues_retP hs rfl rfl rfl, issues_retP hs rfl rfl rfl, issues_retP hs rfl rfl rfl,
    issues_retS hs rfl rfl rfl⟩

end Sys2Proof.Machine
end

section
/-!
SUPPORT AND CERTIFICATE. Control (R345 to R357): branches, the loop's nest, control registers, and the instructions that enter, leave and end.
-/

set_option Elab.async false

namespace Sys2Proof.Machine

open Sys2Proof

/-- An instruction with an enumerated field, once that field is listed. -/
theorem exec_of_wf {i : Instr} {s : State} {op w p : Nat} {sl : Slot} (he : exec i s = single i.wf op w p sl s) (hwf : i.wf = true) :
    exec i s = single true op w p sl s := by rw [he, hwf]

section

variable {i : Instr} {s : State} {op w p : Nat} (hs : Unblocked s)

include hs

/-- A well-formed instruction issues with the effect of its slot, in whatever words that is written. -/
theorem issues_of_go_eq {sl : Slot} {f g : State → State} (he : exec i s = single true op w p sl s) (hg : sl ⟨w, p⟩ s = .go g) (hfg : g = f)
    (hp : p ≠ 7 := by decide) : Issues i s w f :=
  hfg ▸ issues_of_go hs he hg hp

/-- A well-formed instruction whose slot finds one cause traps with it. -/
theorem traps_of_one {sl : Slot} {q r : Cause} (he : exec i s = single true op w p sl s) (hg : sl ⟨w, p⟩ s = .trap [r]) (hq : r = q)
    (hp : p ≠ 7 := by decide) : Traps i s p q :=
  traps_of_trap hs he hg (hq ▸ rfl) hp

end

/-! ## Branches and calls (R345 to R347) -/

/-- The target of a direct form as one sum. -/
theorem directTarget_ofInt (c : Ctx) (d : Int) : directTarget c (BitVec.ofInt 64 d) = BitVec.ofInt 52 (c.pc.toNat + 4 * d) := by
  apply BitVec.eq_of_toNat_eq
  rw [directTarget, BitVec.toNat_add, BitVec.toNat_mul, BitVec.toNat_setWidth, BitVec.toNat_ofInt, BitVec.toNat_ofInt]
  change (c.pc.toNat + 4 * _ % 2 ^ 52) % 2 ^ 52 = _
  omega

theorem linkOf_eq (c : Ctx) (n : Nat) : linkOf c n = BitVec.ofNat 64 ((c.pc.toNat + 4 * n) % 2 ^ 52) := by
  apply BitVec.eq_of_toNat_eq
  simp [linkOf]

theorem registerTarget_eq (v : DWord) : BitVec.truncate 52 v = BitVec.ofNat 52 (v.toNat % 2 ^ 52) := by
  apply BitVec.eq_of_toNat_eq
  simp

theorem targetCheck_aligned {v : DWord} (h : v.toNat % 4 = 0) : targetCheck v = [] := by simp [targetCheck, bitsN_eq, h]

theorem targetCheck_misaligned {v : DWord} (h : v.toNat % 4 ≠ 0) :
    targetCheck v = [⟨0x05, 0, 0, BitVec.ofNat 64 (v.toNat % 2 ^ 56)⟩] := by simp [targetCheck, bitsN_eq, h, tiVa, causeAt, cALIGN]

theorem slotJmp_on {g a : BitVec 5} {e : Env} {s : State} (h : guardOn s.ctx g = true) :
    slotJmp g a e s = check (targetCheck (readS s.ctx a)) (.go (transfer (BitVec.truncate 52 (readS s.ctx a)))) := if_pos h

theorem slotJmp_off {g a : BitVec 5} {e : Env} {s : State} (h : guardOn s.ctx g = false) : slotJmp g a e s = .go id := if_neg (by simp [h])

theorem slotBr_on {g : BitVec 5} {i : BitVec 16} {x : Option (BitVec 28)} {e : Env} {s : State} (h : guardOn s.ctx g = true) :
    slotBr g i x e s = .go (transfer (directTarget s.ctx (immOf i x))) := if_pos h

theorem slotBr_off {g : BitVec 5} {i : BitVec 16} {x : Option (BitVec 28)} {e : Env} {s : State} (h : guardOn s.ctx g = false) :
    slotBr g i x e s = .go id := if_neg (by simp [h])

theorem slotJcall_eq {d a : BitVec 5} {e : Env} {s : State} :
    slotJcall d a e s = check (targetCheck (readS s.ctx a))
      (.go (fun t => retS d 1 (linkOf s.ctx e.words) (transfer (BitVec.truncate 52 (readS s.ctx a)) t))) := rfl

/-- Settles O5: by the guard, and by the alignment of a register target. -/
theorem branchForms : Obligations.BranchForms := by
  unfold Obligations.BranchForms
  intro s d a g i x hs v on im target w link reg
  have htarget : directTarget s.ctx (immOf i x) = target := (congrArg (directTarget s.ctx) (immOf_eq i x)).trans (directTarget_ofInt s.ctx im)
  have hreg : BitVec.truncate 52 v = reg := registerTarget_eq v
  refine ⟨fun hon => issues_of_go_eq hs rfl (slotBr_on hon) (by rw [htarget]),
    fun hoff => ⟨issues_of_go hs rfl (slotBr_off hoff), issues_of_go hs rfl (slotJmp_off hoff)⟩,
    issues_of_go_eq hs rfl rfl (by rw [htarget]; exact funext fun t => by rw [linkOf_eq]),
    fun hal => ⟨fun hon => issues_of_go_eq hs rfl (by rw [slotJmp_on hon, targetCheck_aligned hal, check_nil]) (by rw [← hreg]),
      issues_of_go_eq hs rfl (by rw [slotJcall_eq, targetCheck_aligned hal, check_nil]) (by rw [← hreg]; exact funext fun t => by rw [linkOf_eq])⟩,
    fun hmis => ⟨fun hon => traps_of_one hs rfl (by rw [slotJmp_on hon, targetCheck_misaligned hmis, check_cons]) rfl,
      traps_of_one hs rfl (by rw [slotJcall_eq, targetCheck_misaligned hmis, check_cons]) rfl⟩⟩

/-! ## The hardware loop (R348 to R353) -/

section

variable {d a b : BitVec 5} {f : BitVec 6} {e : Env} {s : State}

/-- What `lvl` refuses (R348). -/
def levelBad (c : Ctx) (d a : BitVec 5) (f : BitVec 6) : Prop :=
  let l := mget Level.init c.curNest f.toNat
  bitsN (readS c a) 32 32 ≠ 0 ∨ (l.armed ∧ l.count ≠ bits (readS c a) 0 32) ∨ (d ≠ 0 ∧ l.armed ∧ l.pairs.length ≥ 4)

theorem slotLvl_bad (h : levelBad s.ctx d a f) : slotLvl d a b f e s = .trap [causeAt cBOUND (tiVa (readS s.ctx a).toNat)] :=
  congrArg (fun l => check l _) (if_pos h)

theorem slotLvl_good (h : ¬ levelBad s.ctx d a f) : slotLvl d a b f e s =
    let l := mget Level.init s.ctx.curNest f.toNat
    .go (fun t => modX t t.cur (fun k =>
      let old := if l.armed then l.pairs else []
      let pairs := if d = 0 then old else old ++ [(physS s.ctx d.toNat, readS s.ctx b)]
      k.setNest (mset k.curNest f.toNat ⟨true, bits (readS s.ctx a) 0 32, pairs⟩))) :=
  congrArg (fun l => check l _) (if_neg h)

end

/-- Settles O6: by whether one of the three checks fails. -/
theorem loopLevels : Obligations.LoopLevels := by
  unfold Obligations.LoopLevels
  intro s d a b f hs hf v l old pairs bad
  have hwf : (Instr.lvl d a b f).wf = true := by simpa [Instr.wf] using hf
  have hbad : levelBad s.ctx d a f ↔ bad := by
    have hv := v.isLt
    refine or_congr ?_ Iff.rfl
    change bitsN v 32 32 ≠ 0 ↔ _
    rw [bitsN_eq]
    omega
  exact ⟨fun h => issues_of_go hs (exec_of_wf rfl hwf) (slotLvl_good (mt hbad.1 h)),
    fun h => traps_of_one hs (exec_of_wf rfl hwf) (slotLvl_bad (hbad.2 h)) rfl⟩

section

variable {stages len : Nat} {e : Env} {s : State}

/-- The passes that the counts of a nest give (R349). -/
def passCount (ls : List Level) : Nat := ls.foldl (fun p l => p * l.count.toNat) 1

theorem passCount_eq (ls : List Level) : passCount ls = (ls.map (fun l => l.count.toNat)).foldl (fun p k => p * k) 1 := by
  rw [passCount, List.foldl_map]

/-- The passes of a loop with its stages (R351). -/
def loopPasses (stages n : Nat) : Nat := if n = 0 then 0 else n + stages - (if stages = 0 then 0 else 1)

/-- What both forms refuse. -/
def loopBad (c : Ctx) (stages : Nat) : Prop :=
  nestLevels c.curNest = [] ∨ c.curLoop.isSome = true ∨ (c.inh = true ∧ stages ≠ 0)
    ∨ 2 ^ 64 ≤ loopPasses stages (passCount (nestLevels c.curNest))

theorem loopBad_iff (c : Ctx) (stages : Nat) : loopBad c stages ↔ ((nestLevels c.curNest).isEmpty || c.curLoop.isSome || (c.inh && stages != 0)
    || decide (2 ^ 64 ≤ loopPasses stages (passCount (nestLevels c.curNest)))) = true := by
  simp [loopBad, or_assoc]

theorem startLoop_bad (h : loopBad s.ctx stages) : startLoop stages len e s = .trap [⟨0x06, 0, 0, 0⟩] :=
  congrArg (fun l => check l _) (if_pos ((loopBad_iff _ _).1 h))

/-- A loop that nothing refuses is skipped or starts. -/
theorem startLoop_good (h : ¬ loopBad s.ctx stages) : startLoop stages len e s =
    let c := s.ctx
    let ls := nestLevels c.curNest
    let n := passCount ls
    let start := c.pc + BitVec.ofNat 52 (4 * e.words)
    if loopPasses stages n = 0 then
      match bodyEnd s s.cur len start.toNat with
      | .inl va => .go (fun t => transfer (BitVec.ofNat 52 va) (modX t s.cur (fun k => k.setNest [])))
      | .inr o => o
    else .go (fun t => modX t s.cur (fun k =>
      let k1 := (k.setNest []).setLoop (some ⟨ls, start, len, stages, n, loopPasses stages n, 0, 0, []⟩)
      if stages = 0 then k1
      else (tab 8 (fun i => 8 + i)).foldl (fun q r => q.setResults (insResult q.results
        ⟨q.time + 1, .preg r (r == physP c 8), 0, .done⟩)) k1)) :=
  congrArg (fun l => check l _) (if_neg (mt (loopBad_iff _ _).2 h))

theorem startLoop_skip {va : Nat} (h : ¬ loopBad s.ctx stages) (hn : passCount (nestLevels s.ctx.curNest) = 0)
    (hb : bodyEnd s s.cur len (s.ctx.pc + BitVec.ofNat 52 (4 * e.words)).toNat = .inl va) :
    startLoop stages len e s = .go (fun t => transfer (BitVec.ofNat 52 va) (modX t s.cur (fun k => k.setNest []))) := by
  rw [startLoop_good h]
  simp only [hn, loopPasses, if_true, hb]

theorem startLoop_plain (h : ¬ loopBad s.ctx 0) (hn : passCount (nestLevels s.ctx.curNest) ≠ 0) :
    startLoop 0 len e s = .go (fun t => modX t s.cur (fun k => (k.setNest []).setLoop (some
      ⟨nestLevels s.ctx.curNest, s.ctx.pc + BitVec.ofNat 52 (4 * e.words), len, 0, passCount (nestLevels s.ctx.curNest),
        passCount (nestLevels s.ctx.curNest), 0, 0, []⟩))) := by
  rw [startLoop_good h]
  simp [loopPasses, hn]

theorem startLoop_staged (h : ¬ loopBad s.ctx (stages + 1)) (hn : passCount (nestLevels s.ctx.curNest) ≠ 0) :
    startLoop (stages + 1) len e s = .go (fun t => modX t s.cur (fun k => (List.range 8).foldl (fun q i =>
      q.setResults (insResult q.results ⟨q.time + 1, .preg (8 + i) (8 + i == physP s.ctx 8), 0, .done⟩))
      ((k.setNest []).setLoop (some ⟨nestLevels s.ctx.curNest, s.ctx.pc + BitVec.ofNat 52 (4 * e.words), len, stages + 1,
        passCount (nestLevels s.ctx.curNest), passCount (nestLevels s.ctx.curNest) + (stages + 1) - 1, 0, 0, []⟩)))) := by
  rw [startLoop_good h]
  have hp : passCount (nestLevels s.ctx.curNest) + (stages + 1) - 1 ≠ 0 := by omega
  simp only [loopPasses, if_neg hn, if_neg (Nat.succ_ne_zero stages), if_neg hp, tab, List.foldl_map]

theorem not_loopBad (hl : nestLevels s.ctx.curNest ≠ []) (hc : s.ctx.curLoop = none) (hi : stages ≠ 0 → s.ctx.inh = false)
    (hp : loopPasses stages (passCount (nestLevels s.ctx.curNest)) < 2 ^ 64) : ¬ loopBad s.ctx stages := by
  rintro (h | h | ⟨h, h'⟩ | h)
  · exact hl h
  · simp [hc] at h
  · simp [hi h'] at h
  · omega

end

/-- Settles O7: refused, started, or skipped, by the passes that the nest gives. -/
theorem loopForms : Obligations.LoopForms := by
  unfold Obligations.LoopForms
  intro s n st hs c ls total stages start run stagePreds
  have htotal : passCount ls = total := passCount_eq ls
  have hbad : ∀ stages, (ls = [] ∨ c.curLoop.isSome = true) → loopBad c stages := fun _ h => h.elim .inl (fun h => .inr (.inl h))
  refine ⟨fun h => ⟨traps_of_one hs rfl (startLoop_bad (hbad _ h)) rfl, traps_of_one hs rfl (startLoop_bad (hbad _ h)) rfl⟩,
    fun h => traps_of_one hs rfl (startLoop_bad (.inr (.inr (.inl ⟨h, Nat.succ_ne_zero _⟩)))) rfl,
    fun h => traps_of_one hs rfl (startLoop_bad (.inr (.inr (.inr ?_)))) rfl, fun hl hc hpos hlt => ?_, fun hl hc hi hpos hlt => ?_,
    fun e hl hc hzero hb => ⟨?_, fun hi => ?_⟩⟩
  · have hne : passCount ls ≠ 0 := by omega
    change 2 ^ 64 ≤ loopPasses 0 (passCount ls)
    simp only [loopPasses, if_neg hne, if_true]
    omega
  · have hne : passCount ls ≠ 0 := by omega
    have hp : loopPasses 0 (passCount ls) < 2 ^ 64 := by simp only [loopPasses, if_neg hne]; omega
    refine issues_of_go_eq hs rfl (startLoop_plain (not_loopBad hl hc (by simp) hp) hne) ?_
    rw [htotal]
    rfl
  · have hne : passCount ls ≠ 0 := by omega
    have hp : loopPasses stages (passCount ls) < 2 ^ 64 := by
      simp only [loopPasses, if_neg hne, if_neg (show stages ≠ 0 from Nat.succ_ne_zero _)]
      omega
    refine issues_of_go_eq hs rfl (startLoop_staged (not_loopBad hl hc (fun _ => hi) hp) hne) ?_
    rw [htotal]
    rfl
  · have hz : passCount ls = 0 := by omega
    have hp0 : ∀ k, loopPasses k (passCount ls) < 2 ^ 64 := fun k => by simp [loopPasses, hz]
    exact issues_of_go hs rfl (startLoop_skip (not_loopBad hl hc (by simp) (hp0 _)) hz hb)
  · have hz : passCount ls = 0 := by omega
    have hp0 : ∀ k, loopPasses k (passCount ls) < 2 ^ 64 := fun k => by simp [loopPasses, hz]
    exact issues_of_go hs rfl (startLoop_skip (not_loopBad hl hc (fun _ => hi) (hp0 _)) hz hb)

end Sys2Proof.Machine
end

section
/-!
SUPPORT AND CERTIFICATE. Control registers (R245 to R250, R354), and the instructions that enter, leave and end (R355 to R357).
-/

set_option Elab.async false

namespace Sys2Proof.Machine

open Sys2Proof

/-! ## The map (R246) -/

theorem crMapped_iff (n : Nat) : crMapped n = true ↔
    n ≤ 8 ∨ (0x10 ≤ n ∧ n ≤ 0x1F) ∨ (0x20 ≤ n ∧ n ≤ 0x22) ∨ (0x30 ≤ n ∧ n ≤ 0x33) ∨ (0x40 ≤ n ∧ n ≤ 0x5F) := by
  simp [crMapped, or_assoc]

theorem crCheck_unmapped {c : Ctx} {op n : Nat} (h : crMapped n = false) : crCheck c op n = [⟨0x02, 0, op, 0⟩] := by simp [crCheck, h, cIIL]

theorem crCheck_image {c : Ctx} {op n : Nat} (h : crMapped n = true) (hn : 0x40 ≤ n) (hsup : c.sup = false) :
    crCheck c op n = [⟨0x03, 0, 0, BitVec.ofNat 64 n⟩] := by simp [crCheck, h, hn, hsup, causeAt, cPRIV]

theorem crCheck_ok {c : Ctx} {op n : Nat} (h : crMapped n = true) (hu : n < 0x40 ∨ c.sup = true) : crCheck c op n = [] := by
  rcases hu with hu | hu
  · simp [crCheck, h, Nat.not_le.2 hu]
  · simp [crCheck, h, hu]

/-- The bytes of the shape that a VSHAPE value gives (R249). -/
theorem shapeBytes_eq (v : DWord) :
    shapeBytes v = (v.toNat % 64 + 1) * (v.toNat / 2 ^ 8 % 128 + 1) * (if v.getLsbD 15 then 4 else 2) := by
  simp [shapeBytes, shapeRows, shapeCols, shapeEsz, bitsN_eq, bit]

theorem slotCrr_eq (d : BitVec 5) (n : BitVec 12) (e : Env) (s : State) :
    slotCrr d n e s = check (crCheck s.ctx 0x60 n.toNat) (.go (retS d 2 (crRead s s.cur n.toNat))) := rfl

/-- A write of a control register that fits, by the checks of the map. -/
theorem slotCrw_of_shape {d : BitVec 5} {n : BitVec 12} {e : Env} {s : State} (h : n.toNat ≠ 6 ∨ shapeBytes (readS s.ctx d) ≤ 2048) :
    slotCrw d n e s = check (crCheck s.ctx 0x61 n.toNat) (.go (fun t => modX t t.cur (fun k => crWrite k n.toNat (readS s.ctx d)))) := by
  have h' : ¬ (n = 6 ∧ 2048 < shapeBytes (readS s.ctx d)) := by
    rintro ⟨rfl, hbig⟩
    exact h.elim (· rfl) (fun hle => by omega)
  change check (crCheck s.ctx 0x61 n.toNat ++ if n = 6 ∧ 2048 < shapeBytes (readS s.ctx d) then _ else _) _ = _
  rw [if_neg h', List.append_nil]

theorem slotCrw_bound {d : BitVec 5} {n : BitVec 12} {e : Env} {s : State} (hn : n.toNat = 6) (h : 2048 < shapeBytes (readS s.ctx d)) :
    slotCrw d n e s = .trap [causeAt cBOUND (tiVa (readS s.ctx d).toNat)] := by
  have hn' : n = 6 := BitVec.eq_of_toNat_eq (by rw [hn]; rfl)
  simp [slotCrw, hn', h, crCheck, crMapped, check_cons]

/-! ## What is read back -/

theorem crRead_image (s : State) (x n : Nat) (h : 0x40 ≤ n ∧ n ≤ 0x5F) : crRead s x n = tiRead (getX s x) (n - 0x40) := by
  have : ∀ k : Nat, k < 0x40 → n ≠ k := by omega
  simp only [crRead, if_neg (this 0 (by decide)), if_neg (this 1 (by decide)), if_neg (this 2 (by decide)), if_neg (this 3 (by decide)),
    if_neg (this 4 (by decide)), if_neg (this 5 (by decide)), if_neg (this 6 (by decide)), if_neg (this 7 (by decide)),
    if_neg (this 8 (by decide)), if_neg (this 0x20 (by decide)), if_neg (this 0x21 (by decide)), if_neg (this 0x22 (by decide)),
    if_neg (this 0x30 (by decide)), if_neg (this 0x31 (by decide)), if_neg (this 0x32 (by decide)), if_neg (this 0x33 (by decide)),
    if_neg (show ¬ (0x10 ≤ n ∧ n ≤ 0x1F) by omega), if_pos h]

theorem crRead_window (s : State) (x n : Nat) (h : 0x10 ≤ n ∧ n ≤ 0x1F) : crRead s x n = readTw (getX s x) (n - 0x10) := by
  have : ∀ k : Nat, k < 0x10 → n ≠ k := by omega
  simp only [crRead, if_neg (this 0 (by decide)), if_neg (this 1 (by decide)), if_neg (this 2 (by decide)), if_neg (this 3 (by decide)),
    if_neg (this 4 (by decide)), if_neg (this 5 (by decide)), if_neg (this 6 (by decide)), if_neg (this 7 (by decide)),
    if_neg (this 8 (by decide)), if_pos h]

theorem crWrite_image (c : Ctx) (n : Nat) (v : DWord) (h : 0x4A ≤ n ∧ n ≤ 0x4D) :
    crWrite c n v = { c with ti := mset c.ti (n - 0x40) v } := by
  have : ∀ k : Nat, k < 0x4A → n ≠ k := by omega
  simp only [crWrite, if_neg (this 5 (by decide)), if_neg (this 6 (by decide)), if_neg (show ¬ (0x10 ≤ n ∧ n ≤ 0x1F) by omega),
    if_neg (this 0x40 (by decide)), if_neg (this 0x41 (by decide)), if_neg (this 0x47 (by decide)), if_neg (this 0x48 (by decide)), if_pos h]

theorem crWrite_window (c : Ctx) (n : Nat) (v : DWord) (h : 0x10 ≤ n ∧ n ≤ 0x1F) :
    crWrite c n v = { c with tw := mset c.tw (n - 0x10) (twStored v) } := by
  have : ∀ k : Nat, k < 0x10 → n ≠ k := by omega
  simp only [crWrite, if_neg (this 5 (by decide)), if_neg (this 6 (by decide)), if_pos h]

/-- A register that no case of the write names stays (R245). -/
theorem crWrite_readOnly (c : Ctx) (v : DWord) : ∀ n ∈ ([0x00, 0x01, 0x02, 0x03, 0x04, 0x07, 0x08, 0x20, 0x21, 0x22, 0x30, 0x31, 0x32, 0x33,
    0x42, 0x43, 0x44, 0x45, 0x46, 0x49] : List Nat), crWrite c n v = c := by
  simp [crWrite]

theorem tiRead_of_lt {c : Ctx} {j : Nat} (h6 : j ≠ 6) (h : j < 14) : tiRead c j = mget 0 c.ti j := by rw [tiRead, if_neg h6, if_pos h]
theorem tiRead_of_ge {c : Ctx} {j : Nat} (h : 14 ≤ j) : tiRead c j = 0 := by rw [tiRead, if_neg (by omega), if_neg (by omega)]

/-- A write of the two bits of ACT changes no other bit of TI.CAUSE (R306). -/
theorem getLsbD_setBits_act (v u : DWord) (j : Nat) (hj : j < 64) :
    (setBits v 14 2 (bitsN u 14 2)).getLsbD j = if j = 14 ∨ j = 15 then u.getLsbD j else v.getLsbD j := by
  have hin : (14 ≤ j ∧ j < 14 + 2) ↔ j = 14 ∨ j = 15 := by omega
  simp only [getLsbD_setBits v 14 2 _ j hj, hin]
  split
  · next h =>
    have hlt : j - 14 < 2 := by omega
    have hj' : 14 + (j - 14) = j := by omega
    simp [testBit_bitsN, hlt, hj']
  · rfl

/-- Settles O9: the checks by the map and the privilege, the values by the case of the number. -/
theorem controlRegisterForms : Obligations.ControlRegisterForms := by
  unfold Obligations.ControlRegisterForms
  intro s d n x u hs cx after k v mapped shape
  have hmap : crMapped k = true ↔ mapped := crMapped_iff k
  have hshape : shapeBytes v = shape := shapeBytes_eq v
  have hcx : ∀ n, getX (after n) x = crWrite cx n u := fun n => by simp [after]
  refine ⟨fun hm => ?_, fun hm hn hsup => ?_, fun hm hu => ⟨?_, fun hfit => ?_⟩, fun hk hbig => ?_, fun n hn => ?_, fun n hlo hhi => ?_, ?_,
    fun n hlo hhi => ?_, ?_, fun j hj => ?_, fun n hn => crWrite_readOnly cx u n hn, fun n hlo hhi => ?_⟩
  · have hm' : crMapped k = false := by simpa using mt hmap.1 hm
    have hk : k ≠ 6 := fun h => hm (.inl (by omega))
    exact ⟨traps_of_one hs rfl (by rw [slotCrr_eq, crCheck_unmapped hm', check_cons]) rfl,
      traps_of_one hs rfl (by rw [slotCrw_of_shape (.inl hk), crCheck_unmapped hm', check_cons]) rfl⟩
  · have hk : k ≠ 6 := by omega
    exact ⟨traps_of_one hs rfl (by rw [slotCrr_eq, crCheck_image (hmap.2 hm) hn hsup, check_cons]) rfl,
      traps_of_one hs rfl (by rw [slotCrw_of_shape (.inl hk), crCheck_image (hmap.2 hm) hn hsup, check_cons]) rfl⟩
  · exact issues_of_go hs rfl (by rw [slotCrr_eq, crCheck_ok (hmap.2 hm) hu, check_nil])
  · exact issues_of_go hs rfl (by rw [slotCrw_of_shape (hshape ▸ hfit), crCheck_ok (hmap.2 hm) hu, check_nil])
  · exact traps_of_one hs rfl (slotCrw_bound hk (hshape ▸ hbig)) rfl
  · rcases hn with rfl | rfl
    · rw [crRead_image _ _ _ (by decide), hcx]
      simp [crWrite, tiRead]
    · rw [crRead_image _ _ _ (by decide), hcx]
      simp [crWrite, tiRead]
  · rw [crRead_image _ _ _ (by omega), hcx, crWrite_image _ _ _ ⟨hlo, hhi⟩, tiRead_of_lt (by omega) (by omega), mget_mset, if_pos rfl]
  · rw [crRead_image _ _ _ (by decide), hcx]
    simp [crWrite, tiRead]
  · rw [crRead_window _ _ _ ⟨hlo, hhi⟩, hcx, crWrite_window _ _ _ ⟨hlo, hhi⟩]
    simp [readTw, twStored]
  · simp [crRead, hcx, crWrite]
  · rw [crRead_image _ _ _ (by decide), crRead_image _ _ _ (by decide), hcx]
    simp only [crWrite, tiRead]
    simpa using getLsbD_setBits_act _ u j hj
  · rw [crRead_image _ _ _ (by omega), tiRead_of_ge (by omega)]

/-- Settles O10: none has a check but `tret`, which asks for handler mode. -/
theorem enterAndLeaveForms : Obligations.EnterAndLeaveForms := by
  unfold Obligations.EnterAndLeaveForms
  intro s i hs
  refine ⟨issues_of_go hs rfl rfl, issues_of_go hs rfl rfl, fun h => issues_of_go hs rfl ?_, fun h => traps_of_one hs rfl ?_ rfl⟩
  · exact congrArg (fun l => check l _) (if_pos h)
  · exact congrArg (fun l => check l _) (if_neg (Bool.eq_false_iff.1 h))

end Sys2Proof.Machine
end

section
/-!
SUPPORT AND CERTIFICATE. What a bundle leaves as it was (R225, R226, R229): the context after it, field by field, and the frames of results,
stores, accesses and transfers.
-/

set_option Elab.async false

namespace Sys2Proof.Machine

open Sys2Proof

/-! ## A context after its bundle -/

/-- A scalar register and a predicate written by name, where the name is not 0. -/
def Ctx.putS (c : Ctx) (d : BitVec 5) (v : DWord) : Ctx := { c with sr := mset c.sr (physS c d.toNat) v }
def Ctx.putP (c : Ctx) (e : BitVec 4) (b : Bool) : Ctx := { c with pr := mset c.pr (physP c e.toNat) b }

section

variable (c : Ctx) (w : Nat)

@[simp] theorem tick_pr : c.tick.pr = c.pr := by unfold Ctx.tick; split <;> rfl
@[simp] theorem tick_vr : c.tick.vr = c.vr := by unfold Ctx.tick; split <;> rfl
@[simp] theorem tick_hr : c.tick.hr = c.hr := by unfold Ctx.tick; split <;> rfl
@[simp] theorem tick_kr : c.tick.kr = c.kr := by unfold Ctx.tick; split <;> rfl
@[simp] theorem tick_qr : c.tick.qr = c.qr := by unfold Ctx.tick; split <;> rfl
@[simp] theorem tick_tlr : c.tick.tlr = c.tlr := by unfold Ctx.tick; split <;> rfl
@[simp] theorem tick_vshape : c.tick.vshape = c.vshape := by unfold Ctx.tick; split <;> rfl
@[simp] theorem tick_tw : c.tick.tw = c.tw := by unfold Ctx.tick; split <;> rfl
@[simp] theorem tick_la : c.tick.la = c.la := by unfold Ctx.tick; split <;> rfl
@[simp] theorem tick_lb : c.tick.lb = c.lb := by unfold Ctx.tick; split <;> rfl
@[simp] theorem tick_rrb : c.tick.rrb = c.rrb := by unfold Ctx.tick; split <;> rfl
@[simp] theorem tick_await : c.tick.await = c.await := by unfold Ctx.tick; split <;> rfl
@[simp] theorem tick_trapi : c.tick.trapi = c.trapi := by unfold Ctx.tick; split <;> rfl
@[simp] theorem tick_npc : c.tick.npc = c.npc := by unfold Ctx.tick; split <;> rfl
@[simp] theorem tick_loop : c.tick.loop = c.loop := by unfold Ctx.tick; split <;> rfl
@[simp] theorem tick_hloop : c.tick.hloop = c.hloop := by unfold Ctx.tick; split <;> rfl

@[simp] theorem after_pr : (c.after w).pr = c.pr := by simp [Ctx.after, Ctx.fresh]
@[simp] theorem after_vr : (c.after w).vr = c.vr := by simp [Ctx.after, Ctx.fresh]
@[simp] theorem after_hr : (c.after w).hr = c.hr := by simp [Ctx.after, Ctx.fresh]
@[simp] theorem after_kr : (c.after w).kr = c.kr := by simp [Ctx.after, Ctx.fresh]
@[simp] theorem after_qr : (c.after w).qr = c.qr := by simp [Ctx.after, Ctx.fresh]
@[simp] theorem after_tlr : (c.after w).tlr = c.tlr := by simp [Ctx.after, Ctx.fresh]
@[simp] theorem after_vshape : (c.after w).vshape = c.vshape := by simp [Ctx.after, Ctx.fresh]
@[simp] theorem after_tw : (c.after w).tw = c.tw := by simp [Ctx.after, Ctx.fresh]
@[simp] theorem after_la : (c.after w).la = c.la := by simp [Ctx.after, Ctx.fresh]
@[simp] theorem after_lb : (c.after w).lb = c.lb := by simp [Ctx.after, Ctx.fresh]
@[simp] theorem after_rrb : (c.after w).rrb = c.rrb := by simp [Ctx.after, Ctx.fresh]
@[simp] theorem after_await : (c.after w).await = c.await := by simp [Ctx.after, Ctx.fresh]
@[simp] theorem after_trapi : (c.after w).trapi = c.trapi := by simp [Ctx.after, Ctx.fresh]
@[simp] theorem after_npc : (c.after w).npc = c.npc := by simp [Ctx.after, Ctx.fresh]
@[simp] theorem after_loop : (c.after w).loop = c.loop := by simp [Ctx.after, Ctx.fresh]
@[simp] theorem after_hloop : (c.after w).hloop = c.hloop := by simp [Ctx.after, Ctx.fresh]
@[simp] theorem after_time : (c.after w).time = c.time + 1 := by cases h : c.inh <;> simp [Ctx.after, Ctx.fresh, Ctx.tick, Ctx.time, h]
@[simp] theorem after_results : (c.after w).results = [] := by simp [Ctx.after]
@[simp] theorem after_curLoop : (c.after w).curLoop = c.curLoop := by simp [Ctx.curLoop]
@[simp] theorem setResults_setResults (l m : List Result) : (c.setResults l).setResults m = c.setResults m := by
  cases h : c.inh <;> simp [Ctx.setResults, h]
@[simp] theorem setResults_curLoop (l : List Result) : (c.setResults l).curLoop = c.curLoop := by simp [Ctx.curLoop]

/-- A name stands for the same register after the bundle. -/
@[simp] theorem physS_after (n : Nat) : physS (c.after w) n = physS c n := by simp [physS]
@[simp] theorem physP_after (n : Nat) : physP (c.after w) n = physP c n := by simp [physP]
@[simp] theorem readS_after (r : BitVec 5) : readS (c.after w) r = readS c r := by simp [readS, readPhysS]
@[simp] theorem readP_after (r : BitVec 4) : readP (c.after w) r = readP c r := by simp [readP]
@[simp] theorem readV_after (r : BitVec 5) : readV (c.after w) r = readV c r := by simp [readV, physV]

/-- A scalar register written by name (R229). -/
theorem readS_putS (d r : BitVec 5) (v : DWord) (hd : d ≠ 0) : readS (c.putS d v) r = if r = d then v else readS c r := by
  have hphys : physS (c.putS d v) r.toNat = physS c r.toNat := rfl
  rw [readS, hphys, readPhysS, readS, readPhysS, Ctx.putS, mget_mset]
  by_cases hr : r = d
  · subst hr
    rw [if_neg (mt (physS_zero c r).1 hd), if_pos rfl, if_pos rfl]
  · rw [if_neg (mt (physS_inj c r d) hr), if_neg hr]

/-- A predicate written by name (R229). -/
theorem readP_putP (e p : BitVec 4) (b : Bool) (he : e ≠ 0) : readP (c.putP e b) p = if p = e then b else readP c p := by
  have hphys : physP (c.putP e b) p.toNat = physP c p.toNat := rfl
  rw [readP, hphys, readP, Ctx.putP, mget_mset]
  by_cases hp : p = e
  · subst hp
    rw [if_neg he, if_pos rfl, if_pos rfl]
  · rw [if_neg (mt (physP_inj c p e) hp), if_neg hp]

end

/-! ## The end of a bundle -/

section

variable {s : State} {x : Nat} {c : Ctx} (w : Nat)

/-- A bundle that leaves nothing under way changes its context alone (R225). -/
theorem finish_eq_after (h : (getX s x).Quiet) : finish w s x = setX s x ((getX s x).after w) := by
  rw [finish_quiet w h]
  cases hi : (getX s x).inh <;> simp [Ctx.after, Ctx.fresh, Ctx.tick, hi]

/-- A context whose bundle has had its effects, with its time gone on. -/
def Ctx.ticked (s : State) (c : Ctx) : Ctx := { c.fresh.tick with readyAt := branchGap s c, released := false }

/-- What follows once the next bundle is found: results, a trap asked for, a return. -/
def closeBundle (s : State) (x : Nat) (d : Ctx) : State :=
  let s1 := setX s x d
  match (getX s1 x).await with
  | .ending f => endTask s1 x f
  | _ =>
    let s2 := settle s1 x
    match (getX s2 x).trapi with
    | none => if (getX s2 x).await = .tret then resolveReturn s2 x else s2
    | some i => enterTrap s2 x 2 0 ⟨cTRAPI, 0, i, 0⟩ (getX s2 x).pc (getX s2 x).ct

theorem finish_eq_closeBundle : finish w s x = closeBundle s x (sequence w ((getX s x).ticked s)) := rfl

/-- A bundle ends in the context that its sequence and its results due leave, when nothing awaits the bundle's end. -/
theorem finish_of_settle {d e : Ctx} (hseq : sequence w ((getX s x).ticked s) = d)
    (hd : d.await = .none) (hset : settle (setX s x d) x = setX s x e) (he : e.await = .none) (ht : e.trapi = none) :
    finish w s x = setX s x e := by
  rw [finish_eq_closeBundle, hseq]
  simp [closeBundle, hd, hset, he, ht]

theorem after_setResults (c : Ctx) (w : Nat) (l : List Result) :
    (c.after w).setResults l = { c.fresh.tick with released := false, pc := c.pc + BitVec.ofNat 52 (4 * w) }.setResults l := by
  rw [Ctx.after, setResults_setResults]

/-- The context after a bundle that leaves results in flight. -/
theorem sequence_results (l : List Result) (h : c.Quiet) : sequence w ((c.setResults l).ticked s) = (c.after w).setResults l := by
  obtain ⟨-, hn, hl, -, -⟩ := h
  have hgap : branchGap s (c.setResults l) = c.readyAt := by simp [branchGap, hn]
  rw [sequence_quiet w (by simpa [Ctx.ticked, Ctx.fresh] using hn) (by cases hi : c.inh <;> simp_all [Ctx.ticked, Ctx.curLoop, Ctx.fresh]),
    after_setResults, Ctx.ticked, hgap]
  cases hi : c.inh <;> simp [Ctx.setResults, Ctx.fresh, Ctx.tick, hi]

/-- What one write does to its context is the same before and after the results in flight are taken off. -/
theorem applyWrite_setResults (d : Ctx) (ts us : TileStore) (e : RegWrite) (l m : List Result) :
    (applyWrite (d.setResults l) ts e).1.setResults m = (applyWrite d us e).1.setResults m := by
  cases hi : d.inh <;> cases e <;> simp [applyWrite, Ctx.setResults, hi]

theorem tileDue_one {r : Result} (heff : ∀ l, r.eff ≠ .tile l) (t : Nat) : tileDue t [r] = false := by
  cases h : r.eff with
  | tile l => exact absurd h (heff l)
  | _ => simp [tileDue, h]

/-- A result that has come: it is written if it is due, else it stays in flight (R226). -/
theorem settle_one {d : Ctx} {r : Result} (hdone : r.stat = .done) (heff : ∀ l, r.eff ≠ .tile l) (ts : TileStore) :
    settle (setX s x (d.setResults [r])) x
      = setX s x (if r.wp ≤ d.time then (applyWrite d ts r.eff).1.setResults [] else d.setResults [r]) := by
  have htile : tileDue d.time [r] = false := tileDue_one heff _
  by_cases hw : r.wp ≤ d.time
  · simp [settle, settleList, htile, hw, hdone, applyWrite_setResults d _ ts]
  · simp [settle, settleList, htile, hw]

/-- A bundle with one result writes it if it is due, else leaves it in flight (R226). -/
theorem finish_one_result {r : Result} (hq : c.Quiet) (hdone : r.stat = .done) (heff : ∀ l, r.eff ≠ .tile l) (ts : TileStore) :
    finish w (setX s x (c.setResults [r])) x
      = setX s x (if r.wp ≤ c.time + 1 then (applyWrite (c.after w) ts r.eff).1.setResults [] else (c.after w).setResults [r]) := by
  obtain ⟨-, -, -, ha, ht⟩ := id hq
  have hctx : getX (setX s x (c.setResults [r])) x = c.setResults [r] := by simp
  have hseq : sequence w ((getX (setX s x (c.setResults [r])) x).ticked (setX s x (c.setResults [r]))) = (c.after w).setResults [r] := by
    rw [hctx, sequence_results w [r] hq]
  have hset := settle_one (s := setX s x (c.setResults [r])) (x := x) (d := c.after w) hdone heff ts
  rw [after_time] at hset
  rw [finish_of_settle w hseq (by simpa using ha) hset, setX_setX]
  · split
    · cases r.eff <;> simpa [applyWrite] using ha
    · simpa using ha
  · split
    · cases r.eff <;> simpa [applyWrite] using ht
    · simpa using ht

/-- The context after a bundle that takes a transfer (R233, R347). -/
def Ctx.afterTransfer (c : Ctx) (w : Nat) (target : Va) (ready : Nat) : Ctx :=
  { c.after w with pc := target, npc := none, readyAt := ready }

theorem finish_transfer (target : Va) (h : s.ctx.Quiet) :
    finish w (transfer target s) s.cur = setX s s.cur (s.ctx.afterTransfer w target (s.cyc + 3)) := by
  obtain ⟨hr, hn, hl, ha, ht⟩ := h
  have hctx : getX (transfer target s) s.cur = { s.ctx with npc := some target } := by simp [transfer]
  rw [finish_of_settle (e := s.ctx.afterTransfer w target (s.cyc + 3)) (d := s.ctx.afterTransfer w target (s.cyc + 3))]
  · simp [transfer, modX]
  · rw [hctx]
    generalize s.ctx = c at *
    cases hi : c.inh <;>
      simp_all [Ctx.ticked, sequence, branchGap, transfer, Ctx.afterTransfer, Ctx.after, Ctx.setResults, Ctx.results, Ctx.curLoop, Ctx.setLoop, Ctx.fresh, Ctx.tick]
  · simpa [Ctx.afterTransfer] using ha
  · rw [settle_nil] <;> cases hi : s.ctx.inh <;> simp [Ctx.afterTransfer, Ctx.after, Ctx.setResults, Ctx.results, Ctx.fresh, Ctx.tick, hi]
  · simpa [Ctx.afterTransfer] using ha
  · simpa [Ctx.afterTransfer] using ht

end

/-! ## Results (R226, R229) -/

theorem retS_zero (lat : Nat) (v : DWord) (s : State) : retS 0 lat v s = s := rfl

theorem retS_quiet {d : BitVec 5} {s : State} (lat : Nat) (v : DWord) (hd : d ≠ 0) (hq : s.ctx.Quiet) :
    retS d lat v s = setX s s.cur (s.ctx.setResults [⟨s.ctx.time + lat, .sreg (physS s.ctx d.toNat) v, 0, .done⟩]) := by
  obtain ⟨hr, -⟩ := hq
  rw [retS, if_neg hd, modX, Ctx.addResult, hr]
  rfl

theorem retP_zero (lat : Nat) (b : Bool) (s : State) : retP 0 lat b s = s := rfl

theorem retP_quiet {e : BitVec 4} {s : State} (lat : Nat) (b : Bool) (he : e ≠ 0) (hq : s.ctx.Quiet) :
    retP e lat b s = setX s s.cur (s.ctx.setResults [⟨s.ctx.time + lat, .preg (physP s.ctx e.toNat) b, 0, .done⟩]) := by
  obtain ⟨hr, -⟩ := hq
  rw [retP, if_neg he, modX, Ctx.addResult, hr]
  rfl

/-- The context after a bundle whose one result is the scalar v. -/
def Ctx.afterS (c : Ctx) (w : Nat) (d : BitVec 5) (lat : Nat) (v : DWord) : Ctx :=
  if d = 0 then c.after w
  else if lat = 1 then (c.after w).putS d v
  else (c.after w).setResults [⟨c.time + lat, .sreg (physS c d.toNat) v, 0, .done⟩]

/-- The context after a bundle whose one result is the predicate b at latency 1. -/
def Ctx.afterP (c : Ctx) (w : Nat) (e : BitVec 4) (b : Bool) : Ctx := if e = 0 then c.after w else (c.after w).putP e b

theorem setResults_putS_after (c : Ctx) (w : Nat) (d : BitVec 5) (v : DWord) : ((c.after w).putS d v).setResults [] = (c.after w).putS d v := by
  cases hi : c.inh <;> simp [Ctx.putS, Ctx.setResults, Ctx.after, Ctx.fresh, Ctx.tick, hi]

theorem setResults_putP_after (c : Ctx) (w : Nat) (e : BitVec 4) (b : Bool) : ((c.after w).putP e b).setResults [] = (c.after w).putP e b := by
  cases hi : c.inh <;> simp [Ctx.putP, Ctx.setResults, Ctx.after, Ctx.fresh, Ctx.tick, hi]

theorem finish_retS {s : State} (w : Nat) (d : BitVec 5) {lat : Nat} (v : DWord) (hq : s.ctx.Quiet) (hlat : 1 ≤ lat) :
    finish w (retS d lat v s) s.cur = setX s s.cur (s.ctx.afterS w d lat v) := by
  by_cases hd : d = 0
  · rw [hd, retS_zero, finish_eq_after w hq, Ctx.afterS, if_pos rfl]
  · rw [retS_quiet lat v hd hq, finish_one_result w hq rfl (by simp) (getTs s 0), Ctx.afterS, if_neg hd]
    by_cases h1 : lat = 1
    · rw [if_pos h1, if_pos (by simp [h1]), ← setResults_putS_after, Ctx.putS, physS_after]
      rfl
    · have : ¬ s.ctx.time + lat ≤ s.ctx.time + 1 := by omega
      rw [if_neg h1, if_neg this]

theorem finish_retP {s : State} (w : Nat) (e : BitVec 4) (b : Bool) (hq : s.ctx.Quiet) :
    finish w (retP e 1 b s) s.cur = setX s s.cur (s.ctx.afterP w e b) := by
  by_cases he : e = 0
  · rw [he, retP_zero, finish_eq_after w hq, Ctx.afterP, if_pos rfl]
  · rw [retP_quiet 1 b he hq, finish_one_result w hq rfl (by simp) (getTs s 0), Ctx.afterP, if_neg he, if_pos (by simp),
      ← setResults_putP_after, Ctx.putP, physP_after]
    rfl

/-- What is the same in two contexts of a program but for its scalars and predicates. -/
structure Ctx.SameRest (c' c : Ctx) : Prop where
  inh : c'.inh = c.inh
  sup : c'.sup = c.sup
  vr : c'.vr = c.vr
  hr : c'.hr = c.hr
  kr : c'.kr = c.kr
  qr : c'.qr = c.qr
  tlr : c'.tlr = c.tlr
  tw : c'.tw = c.tw
  vshape : c'.vshape = c.vshape
  ti : c'.ti = c.ti
  la : c'.la = c.la
  lb : c'.lb = c.lb
  rrb : c'.rrb = c.rrb

theorem sameRest_after (c : Ctx) (w : Nat) : (c.after w).SameRest c := by constructor <;> simp

theorem sameRest_setResults {c' c : Ctx} (h : c'.SameRest c) (l : List Result) : (c'.setResults l).SameRest c := by
  obtain ⟨_, _, _, _, _, _, _, _, _, _, _, _, _⟩ := h
  constructor <;> simpa

theorem sameRest_putS {c' c : Ctx} (h : c'.SameRest c) (d : BitVec 5) (v : DWord) : (c'.putS d v).SameRest c := by
  cases h
  constructor <;> assumption

theorem sameRest_putP {c' c : Ctx} (h : c'.SameRest c) (e : BitVec 4) (b : Bool) : (c'.putP e b).SameRest c := by
  cases h
  constructor <;> assumption

theorem readV_of_sameRest {c' c : Ctx} (h : c'.SameRest c) (r : BitVec 5) : readV c' r = readV c r := by simp [readV, physV, h.vr, h.rrb]

theorem readS_of_sameRest {c' c : Ctx} (h : c'.SameRest c) (hsr : c'.sr = c.sr) (r : BitVec 5) : readS c' r = readS c r := by
  have hphys : physS c' r.toNat = physS c r.toNat := by simp [physS, h.inh, h.rrb]
  rw [readS, readPhysS, readS, readPhysS, hphys, hsr]

theorem readP_of_sameRest {c' c : Ctx} (h : c'.SameRest c) (hpr : c'.pr = c.pr) (p : BitVec 4) : readP c' p = readP c p := by
  have hphys : physP c' p.toNat = physP c p.toNat := by simp [physP, h.inh, h.rrb]
  rw [readP, readP, hphys, hpr]

section

variable (c : Ctx) (w : Nat) (d : BitVec 5) (lat : Nat) (v : DWord) (e : BitVec 4) (b : Bool)

theorem afterS_cases : (d = 0 ∧ c.afterS w d lat v = c.after w) ∨ (d ≠ 0 ∧ lat = 1 ∧ c.afterS w d lat v = (c.after w).putS d v)
    ∨ (d ≠ 0 ∧ lat ≠ 1 ∧ c.afterS w d lat v = (c.after w).setResults [⟨c.time + lat, .sreg (physS c d.toNat) v, 0, .done⟩]) := by
  unfold Ctx.afterS
  split_ifs <;> simp_all

theorem sameRest_afterS : (c.afterS w d lat v).SameRest c := by
  rcases afterS_cases c w d lat v with ⟨-, h⟩ | ⟨-, -, h⟩ | ⟨-, -, h⟩ <;> rw [h]
  · exact sameRest_after c w
  · exact sameRest_putS (sameRest_after c w) d v
  · exact sameRest_setResults (sameRest_after c w) _

theorem afterS_pr : (c.afterS w d lat v).pr = c.pr := by
  rcases afterS_cases c w d lat v with ⟨-, h⟩ | ⟨-, -, h⟩ | ⟨-, -, h⟩ <;> rw [h]
  · exact after_pr c w
  · exact after_pr c w
  · rw [setResults_pr, after_pr]

theorem afterS_pc : (c.afterS w d lat v).pc = c.pc + BitVec.ofNat 52 (4 * w) := by
  rcases afterS_cases c w d lat v with ⟨-, h⟩ | ⟨-, -, h⟩ | ⟨-, -, h⟩ <;> rw [h]
  · exact after_pc c w
  · exact after_pc c w
  · rw [setResults_pc, after_pc]

theorem afterS_time : (c.afterS w d lat v).time = c.time + 1 := by
  rcases afterS_cases c w d lat v with ⟨-, h⟩ | ⟨-, -, h⟩ | ⟨-, -, h⟩ <;> rw [h]
  · exact after_time c w
  · exact after_time c w
  · rw [setResults_time, after_time]

theorem afterS_results : (c.afterS w d lat v).results = if lat = 1 ∨ d = 0 then [] else [⟨c.time + lat, .sreg (physS c d.toNat) v, 0, .done⟩] := by
  rcases afterS_cases c w d lat v with ⟨hd, h⟩ | ⟨-, h1, h⟩ | ⟨hd, h1, h⟩ <;> rw [h]
  · rw [if_pos (.inr hd), after_results]
  · rw [if_pos (.inl h1)]
    exact after_results c w
  · rw [if_neg (not_or.2 ⟨h1, hd⟩), setResults_results]

theorem readS_afterS (r : BitVec 5) : readS (c.afterS w d lat v) r = if lat = 1 ∧ r = d ∧ d ≠ 0 then v else readS c r := by
  rcases afterS_cases c w d lat v with ⟨hd, h⟩ | ⟨hd, h1, h⟩ | ⟨hd, h1, h⟩ <;> rw [h]
  · rw [if_neg (fun hr => hr.2.2 hd), readS_after]
  · have hif : (lat = 1 ∧ r = d ∧ d ≠ 0) ↔ r = d := ⟨fun h => h.2.1, fun h => ⟨h1, h, hd⟩⟩
    simp only [readS_putS _ _ _ _ hd, readS_after, hif]
  · rw [if_neg (fun hr => h1 hr.1)]
    exact readS_of_sameRest (sameRest_setResults (sameRest_after c w) _) (by simp) r

theorem afterP_cases : (e = 0 ∧ c.afterP w e b = c.after w) ∨ (e ≠ 0 ∧ c.afterP w e b = (c.after w).putP e b) := by
  unfold Ctx.afterP
  split_ifs <;> simp_all

theorem sameRest_afterP : (c.afterP w e b).SameRest c := by
  rcases afterP_cases c w e b with ⟨-, h⟩ | ⟨-, h⟩ <;> rw [h]
  · exact sameRest_after c w
  · exact sameRest_putP (sameRest_after c w) e b

theorem afterP_sr : (c.afterP w e b).sr = c.sr := by
  rcases afterP_cases c w e b with ⟨-, h⟩ | ⟨-, h⟩ <;> rw [h]
  · exact after_sr c w
  · exact after_sr c w

theorem afterP_pc : (c.afterP w e b).pc = c.pc + BitVec.ofNat 52 (4 * w) := by
  rcases afterP_cases c w e b with ⟨-, h⟩ | ⟨-, h⟩ <;> rw [h]
  · exact after_pc c w
  · exact after_pc c w

theorem afterP_time : (c.afterP w e b).time = c.time + 1 := by
  rcases afterP_cases c w e b with ⟨-, h⟩ | ⟨-, h⟩ <;> rw [h]
  · exact after_time c w
  · exact after_time c w

theorem readP_afterP (p : BitVec 4) : readP (c.afterP w e b) p = if p = e ∧ e ≠ 0 then b else readP c p := by
  rcases afterP_cases c w e b with ⟨he, h⟩ | ⟨he, h⟩ <;> rw [h]
  · rw [if_neg (fun hp => hp.2 he), readP_after]
  · have hif : (p = e ∧ e ≠ 0) ↔ p = e := ⟨fun h => h.1, fun h => ⟨h, he⟩⟩
    simp only [readP_putP _ _ _ _ he, readP_after, hif]

end

/-- Settles O11: the bundle ends in its context with the result written or in flight, and in nothing else changed. -/
theorem resultReachesRegister : Obligations.ResultReachesRegister := by
  unfold Obligations.ResultReachesRegister
  intro s w lat d v e b hq hlat
  dsimp only
  rw [finish_retS w d v hq hlat, finish_retP w e b hq]
  have hS := sameRest_afterS s.ctx w d lat v
  have hP := sameRest_afterP s.ctx w e b
  simp only [getX_setX, if_true]
  exact ⟨afterS_pc .., afterS_time .., hS.inh, hS.sup, readS_afterS s.ctx w d lat v, afterS_results .., readP_of_sameRest hS (afterS_pr ..),
    readV_of_sameRest hS, hS.hr, hS.kr, hS.qr, hS.tlr, hS.tw, hS.vshape, hS.ti, hS.la, hS.lb, fun y hy => if_neg hy, rfl, rfl, rfl, rfl, rfl,
    afterP_pc .., afterP_time .., hP.inh, hP.sup, readP_afterP s.ctx w e b, afterP_sr .., hP.vr, hP.hr, hP.kr, hP.qr, hP.tlr, hP.tw, hP.vshape,
    hP.ti, fun y hy => if_neg hy, rfl, rfl, rfl, rfl, rfl⟩

/-! ## Transfers -/

/-- Settles O13: the transfer's context differs from the bundle's own only in where it goes on and when. -/
theorem transferTakesEffect : Obligations.TransferTakesEffect := by
  unfold Obligations.TransferTakesEffect
  intro s w target hq
  dsimp only
  rw [finish_transfer w target hq]
  have hrest := sameRest_after s.ctx w
  simp only [getX_setX, if_true]
  exact ⟨rfl, after_time s.ctx w, rfl, rfl, hrest.inh, hrest.sup, after_sr .., after_pr .., hrest.vr, hrest.hr, hrest.kr, hrest.qr, hrest.tlr, hrest.tw,
    hrest.ti, fun y hy => by simp [hy], rfl, rfl, rfl, rfl, rfl⟩

/-! ## Stores and accesses -/

/-- A byte that no piece of a store covers stays. -/
theorem tsByte_storePieces (parts : List (Nat × Nat × Nat)) (l : List Byte) (bad : Bool) (t : TileStore) (i : Nat)
    (h : ∀ p ∈ parts, ¬ (p.1 ≤ i ∧ i < p.1 + p.2.2)) :
    tsByte (parts.foldl (fun t p => tsWrite t p.1 ((l.drop p.2.1).take p.2.2) bad) t) i = tsByte t i := by
  induction parts generalizing t with
  | nil => rfl
  | cons p parts ih =>
    rw [List.foldl_cons, ih _ (fun q hq => h q (List.mem_cons_of_mem _ hq)), tsByte_tsWrite, if_neg]
    have := h p List.mem_cons_self
    simp only [List.length_take]
    omega

@[simp] theorem getX_storeTs (s : State) (x y a : Nat) (l : List Byte) (bad : Bool) : getX (storeTs s x a l bad) y = getX s y := rfl

/-- An access joins the context's accesses and changes nothing else of it. -/
theorem getX_addAccess (x : Nat) (kind : AccKind) (pa n : Nat) (cls : BitVec 4) (sem : BitVec 2) (scope : BitVec 3) (mmh nc : Bool)
    (data : List Byte) (s : State) :
    ∃ accs, ∀ y, getX (addAccess x kind pa n cls sem scope mmh nc data s) y
      = if y = x then { getX s x with ord := (getX s x).ord + 1, accs := accs } else getX s y :=
  ⟨_, fun y => getX_setX _ x y _⟩

/-- Settles O12: neither effect touches the context's results, so the bundle ends in the context alone. -/
theorem storesKeepTheRest : Obligations.StoresKeepTheRest := by
  unfold Obligations.StoresKeepTheRest
  intro s w e l bad kind pa n cls sem scope nc data hq
  obtain ⟨accs, hacc⟩ := getX_addAccess s.cur kind pa n cls sem scope false nc data s
  have hacc' : getX (addAccess s.cur kind pa n cls sem scope false nc data s) s.cur = { s.ctx with ord := s.ctx.ord + 1, accs := accs } :=
    (hacc s.cur).trans (if_pos rfl)
  have hqs : (getX (storeTs s s.cur e l bad) s.cur).Quiet := hq
  have hqa : (getX (addAccess s.cur kind pa n cls sem scope false nc data s) s.cur).Quiet := by rw [hacc']; exact hq
  have hS := sameRest_after s.ctx w
  have hA := sameRest_after { s.ctx with ord := s.ctx.ord + 1, accs := accs } w
  dsimp only
  rw [finish_eq_after w hqs, finish_eq_after w hqa, hacc', getX_storeTs]
  simp only [getX_setX, if_true]
  refine ⟨⟨after_pc .., after_time .., hS.inh, hS.sup, after_results .., after_sr .., after_pr .., hS.vr, hS.hr, hS.kr, hS.qr, hS.tlr, hS.tw,
      hS.vshape, hS.ti, hS.la, hS.lb, fun y hy => if_neg hy, rfl, rfl, rfl, rfl⟩,
    ⟨after_pc .., after_time .., hA.inh, hA.sup, after_results .., after_sr .., after_pr .., hA.vr, hA.hr, hA.kr, hA.qr, hA.tlr, hA.tw,
      hA.vshape, hA.ti, hA.la, hA.lb, fun y hy => (if_neg hy).trans ((hacc y).trans (if_neg hy)), rfl, rfl, rfl, rfl⟩,
    rfl, fun k hk => ?_, fun i hi => ?_⟩
  · simp [storeTs, setTs, hk]
  · rw [getTs_setX, storeTs, getTs_setTs, tsByte_storePieces _ _ _ _ _ hi]

end Sys2Proof.Machine
end

section
/-!
SUPPORT AND CERTIFICATE. Tile-store loads and stores (R359, R361): the address, the checks, and what is loaded or stored.
-/

set_option Elab.async false

namespace Sys2Proof.Machine

open Sys2Proof

/-! ## Bytes -/

theorem length_tsBytes {t : TileStore} {a n : Nat} (h : n ≤ 8) : (tsBytes t a n).length = n := by simp [tsBytes, h, tab]

theorem length_loadTs (s : State) (x a : Nat) {n : Nat} (h : n ≤ 8) : (loadTs s x a n).length = n := by
  unfold loadTs tsParts
  split
  · next hs =>
    obtain ⟨hlo, hhi⟩ := hs
    simp only [List.flatMap_cons, List.flatMap_nil, List.append_nil, List.length_append]
    rw [length_tsBytes (by omega), length_tsBytes (by omega)]
    omega
  · simp [length_tsBytes h]

/-- The value of a loading form, from as many bytes as its size (R361). -/
theorem formValue_eq {form n : Nat} {l : List Byte} (hn : n = 2 ^ (form % 8)) (hl : l.length = n) :
    formValue form l = if form / 8 % 2 = 1
      then BitVec.ofInt 64 (if leNat l < 2 ^ (8 * n - 1) then (leNat l : Int) else (leNat l : Int) - 2 ^ (8 * n))
      else BitVec.ofNat 64 (leNat l) := by
  subst hn
  rw [formValue, List.take_of_length_le hl.le, sextNat]
  congr 1
  split <;> simp

/-! ## Addresses and checks -/

theorem toNat_add_ofInt_mul (v : DWord) (off : Int) (n : Nat) :
    (v + BitVec.ofInt 64 off * BitVec.ofNat 64 n).toNat = ((v.toNat + off * n) % 2 ^ 64 : Int).toNat := by
  rw [← BitVec.ofInt_natCast, ← BitVec.ofInt_mul, BitVec.toNat_add, BitVec.toNat_ofInt]
  generalize off * (n : Int) = z
  have := v.isLt
  omega

/-- The effective address as one sum (R359). -/
theorem smAddr_eq (c : Ctx) (a : BitVec 5) (n : Nat) (i : BitVec 6) (x : Option (BitVec 28)) :
    smAddr c a n i x = (((readS c a).toNat + (match x with | none => i.toInt | some e => e.toInt * 2 ^ 6 + i.toNat) * n) % 2 ^ 64 : Int).toNat := by
  cases x with
  | none =>
    rw [smAddr, immOf_none]
    exact toNat_add_ofInt_mul _ _ _
  | some e =>
    rw [smAddr, immOf_some]
    exact toNat_add_ofInt_mul _ _ _

section

variable {s : State} {e n : Nat}

theorem tsCheck_misaligned (h : e % n ≠ 0) : ∃ l, tsCheck s s.cur e n = ⟨0x05, 0, 0, BitVec.ofNat 64 (e % 2 ^ 56)⟩ :: l ∧
    lowestCause (⟨0x05, 0, 0, BitVec.ofNat 64 (e % 2 ^ 56)⟩ :: l) = some ⟨0x05, 0, 0, BitVec.ofNat 64 (e % 2 ^ 56)⟩ := by
  rw [tsCheck, if_neg h]
  split
  · exact ⟨[], rfl, rfl⟩
  · exact ⟨[_], rfl, rfl⟩

theorem tsCheck_closed (h : e % n = 0) (ho : tsOpen s.ctx s.core e n = false) : tsCheck s s.cur e n = [⟨0x06, 0, 0, BitVec.ofNat 64 (e % 2 ^ 56)⟩] := by
  rw [tsCheck, if_pos h, if_neg (by simpa using ho)]
  rfl

theorem tsCheck_ok (h : e % n = 0) (ho : tsOpen s.ctx s.core e n = true) : tsCheck s s.cur e n = [] := by
  rw [tsCheck, if_pos h, if_pos ho]
  rfl

end

/-! ## Loads -/

section

variable {s : State} {form : Nat} {d a : BitVec 5} {i : BitVec 6} {x : Option (BitVec 28)} {env : Env}

theorem tileLoad_clean {e n : Nat} (hn : n = 2 ^ (form % 8)) (he : smAddr s.ctx a n i x = e) (hp : poisonTs s s.cur e n = false) :
    tileLoad form d a i x env s = check (tsCheck s s.cur e n) (.go (retS d 4 (formValue form (loadTs s s.cur e n)))) := by
  subst hn he
  exact congrArg (check _) (if_neg (by simpa using hp))

theorem tileLoad_poisoned {e n : Nat} (hn : n = 2 ^ (form % 8)) (he : smAddr s.ctx a n i x = e) (hp : poisonTs s s.cur e n = true) :
    tileLoad form d a i x env s = check (tsCheck s s.cur e n) (.go (fun t => modX t t.cur (fun k =>
      k.addResult 4 (.sreg (physS s.ctx d.toNat) 0) form (.failed ⟨0x0B, 0, 0, env.pos, tiTs e, s.ctx.pc, s.ctx.time⟩)))) := by
  subst hn he
  exact congrArg (check _) (if_pos hp)

/-- The checks of a load come first, whatever it would load. -/
theorem tileLoad_checks {e n : Nat} (hn : n = 2 ^ (form % 8)) (he : smAddr s.ctx a n i x = e) :
    ∃ k, tileLoad form d a i x env s = check (tsCheck s s.cur e n) k := by
  subst hn he
  exact ⟨_, rfl⟩

/-- What a load of n bytes at e does, sign-extended or not. -/
theorem tileLoad_form {ins : Instr} {op w e n : Nat} (hs : Unblocked s) (hexec : exec ins s = single true op w 0 (tileLoad form d a i x) s)
    (hn : n = 2 ^ (form % 8)) (hsize : n ≤ 8) (he : smAddr s.ctx a n i x = e) :
    let v := leNat (loadTs s s.cur e n)
    let val : DWord := if form / 8 % 2 = 1 then BitVec.ofInt 64 (if v < 2 ^ (8 * n - 1) then (v : Int) else (v : Int) - 2 ^ (8 * n)) else BitVec.ofNat 64 v
    (e % n = 0 → tsOpen s.ctx s.core e n = true → poisonTs s s.cur e n = false → Issues ins s w (retS d 4 val))
    ∧ (e % n = 0 → tsOpen s.ctx s.core e n = true → poisonTs s s.cur e n = true → ∃ f, Issues ins s w (fun t => modX t t.cur (fun k =>
        k.addResult 4 (.sreg (physS s.ctx d.toNat) 0) f (.failed ⟨0x0B, 0, 0, 0, BitVec.ofNat 64 (e % 2 ^ 56 + 2 ^ 62), s.ctx.pc, s.ctx.time⟩))))
    ∧ (e % n ≠ 0 → Traps ins s 0 ⟨0x05, 0, 0, BitVec.ofNat 64 (e % 2 ^ 56)⟩)
    ∧ (e % n = 0 → tsOpen s.ctx s.core e n = false → Traps ins s 0 ⟨0x06, 0, 0, BitVec.ofNat 64 (e % 2 ^ 56)⟩) := by
  obtain ⟨k, hk⟩ := tileLoad_checks (env := ⟨w, 0⟩) (d := d) hn he
  refine ⟨fun hal ho hp => issues_retS hs hexec (by rw [tileLoad_clean hn he hp, tsCheck_ok hal ho, check_nil]) (formValue_eq hn (length_loadTs _ _ _ hsize)),
    fun hal ho hp => ⟨form, issues_of_go hs hexec (by rw [tileLoad_poisoned hn he hp, tsCheck_ok hal ho, check_nil]; rfl)⟩,
    fun hmis => ?_, fun hal ho => traps_of_one hs hexec (by rw [hk, tsCheck_closed hal ho, check_cons]) rfl⟩
  obtain ⟨l, hl, hlow⟩ := tsCheck_misaligned (s := s) hmis
  exact traps_of_trap hs hexec (by rw [hk, hl, check_cons]) hlow

end

/-- Settles O21: each form is the load of its size and extension. -/
theorem tileLoadForms : Obligations.TileLoadForms := by
  unfold Obligations.TileLoadForms
  intro s d a i x hs c off ea w form
  have he : ∀ n, smAddr s.ctx a n i x = (ea n).toNat := fun n => smAddr_eq c a n i x
  exact ⟨tileLoad_form (form := 8) hs rfl rfl (by decide) (he 1), tileLoad_form (form := 9) hs rfl rfl (by decide) (he 2),
    tileLoad_form (form := 10) hs rfl rfl (by decide) (he 4), tileLoad_form (form := 11) hs rfl rfl (by decide) (he 8),
    tileLoad_form (form := 0) hs rfl rfl (by decide) (he 1), tileLoad_form (form := 1) hs rfl rfl (by decide) (he 2),
    tileLoad_form (form := 2) hs rfl rfl (by decide) (he 4)⟩

/-! ## Stores -/

section

variable {s : State} {lg : Nat} {g a b : BitVec 5} {i : BitVec 6} {x : Option (BitVec 28)} {env : Env}

theorem tileStore_on {e n : Nat} (hg : guardOn s.ctx g = true) (hn : n = 2 ^ lg) (he : smAddr s.ctx a n i x = e) :
    tileStore lg g a b i x env s
      = check (tsCheck s s.cur e n) (.go (fun t => storeTs t t.cur e (leBytes n (readS s.ctx b).toNat) false)) := by
  subst hn he
  exact guarded_on hg

theorem tileStore_off (hg : guardOn s.ctx g = false) : tileStore lg g a b i x env s = .go id := guarded_off hg

/-- What a store of n bytes at e does. -/
theorem tileStore_form {ins : Instr} {op w e n : Nat} (hs : Unblocked s) (hexec : exec ins s = single true op w 0 (tileStore lg g a b i x) s)
    (hn : n = 2 ^ lg) (he : smAddr s.ctx a n i x = e) :
    (guardOn s.ctx g = true → e % n = 0 → tsOpen s.ctx s.core e n = true →
      Issues ins s w (fun t => storeTs t t.cur e (leBytes n (readS s.ctx b).toNat) false))
    ∧ (guardOn s.ctx g = true → e % n ≠ 0 → Traps ins s 0 ⟨0x05, 0, 0, BitVec.ofNat 64 (e % 2 ^ 56)⟩)
    ∧ (guardOn s.ctx g = true → e % n = 0 → tsOpen s.ctx s.core e n = false → Traps ins s 0 ⟨0x06, 0, 0, BitVec.ofNat 64 (e % 2 ^ 56)⟩)
    ∧ (guardOn s.ctx g = false → Issues ins s w id) := by
  refine ⟨fun hg hal ho => issues_of_go hs hexec (by rw [tileStore_on hg hn he, tsCheck_ok hal ho, check_nil]), fun hg hmis => ?_,
    fun hg hal ho => traps_of_one hs hexec (by rw [tileStore_on hg hn he, tsCheck_closed hal ho, check_cons]) rfl,
    fun hg => issues_of_go hs hexec (tileStore_off hg)⟩
  obtain ⟨l, hl, hlow⟩ := tsCheck_misaligned (s := s) hmis
  exact traps_of_trap hs hexec (by rw [tileStore_on hg hn he, hl, check_cons]) hlow

end

/-- Settles O22: each form is the store of its size. -/
theorem tileStoreForms : Obligations.TileStoreForms := by
  unfold Obligations.TileStoreForms
  intro s g a b i x hs c off ea w on form
  have he : ∀ n, smAddr s.ctx a n i x = (ea n).toNat := fun n => smAddr_eq c a n i x
  exact ⟨tileStore_form (lg := 0) hs rfl rfl (he 1), tileStore_form (lg := 1) hs rfl rfl (he 2), tileStore_form (lg := 2) hs rfl rfl (he 4),
    tileStore_form (lg := 3) hs rfl rfl (he 8)⟩

end Sys2Proof.Machine
end

section
/-!
SUPPORT AND CERTIFICATE. The word of a transaction barrier as its fields (R273, R274).
-/

set_option Elab.async false

namespace Sys2Proof.Machine

open Sys2Proof

/-! ## Fields of a word -/

/-- The field that `setBits` sets. -/
theorem bitsN_setBits_same {w : Nat} (v : BitVec w) {lo n : Nat} (x : Nat) (h : lo + n ≤ w) : bitsN (setBits v lo n x) lo n = x % 2 ^ n := by
  apply Nat.eq_of_testBit_eq
  intro i
  rw [testBit_bitsN, Nat.testBit_mod_two_pow]
  by_cases hi : i < n
  · rw [getLsbD_setBits _ _ _ _ _ (by omega), if_pos (by omega), Nat.add_sub_cancel_left]
  · simp [hi]

/-- A field that `setBits` does not touch. -/
theorem bitsN_setBits_other {w : Nat} (v : BitVec w) {lo n lo' n' : Nat} (x : Nat) (h : lo' + n' ≤ w) (hdis : lo' + n' ≤ lo ∨ lo + n ≤ lo') :
    bitsN (setBits v lo n x) lo' n' = bitsN v lo' n' := by
  apply Nat.eq_of_testBit_eq
  intro i
  rw [testBit_bitsN, testBit_bitsN]
  by_cases hi : i < n'
  · rw [getLsbD_setBits _ _ _ _ _ (by omega), if_neg (by omega)]
  · simp [hi]

theorem bit_iff_bitsN {w : Nat} (v : BitVec w) (i : Nat) : bit v i = true ↔ bitsN v i 1 = 1 := by
  have h := testBit_bitsN v i 1 0
  have hlt : bitsN v i 1 < 2 := by
    rw [bitsN_eq]
    exact Nat.mod_lt _ (by decide)
  rw [bit]
  simp only [Nat.testBit_zero, Nat.zero_lt_one, decide_true, Bool.true_and, Nat.add_zero] at h
  rw [← h, decide_eq_true_iff]
  omega

/-! ## The update (R274) -/

section

variable {w : BitVec 128} {a n : Nat}

theorem tbUpdate_idle (h : tbOvr w = true ∨ tbArm w = false) : tbUpdate w a n = w := if_pos (by simpa using h)

variable (ho : tbOvr w = false) (ha : tbArm w = true)

include ho ha

theorem tbUpdate_over (h : bitsN w 100 20 < a ∨ bitsN w 40 40 < n) : tbUpdate w a n = setBits w 123 1 1 :=
  (if_neg (by simp [ho, ha])).trans (if_pos h)

theorem tbUpdate_complete (h : bitsN w 100 20 = a ∧ bitsN w 40 40 = n) :
    tbUpdate w a n = setBits (setBits (setBits w 124 4 (tbPhase w + 1)) 100 20 (bitsN w 80 20)) 40 40 (bitsN w 0 40) :=
  (if_neg (by simp [ho, ha])).trans ((if_neg (by omega)).trans (if_pos h))

theorem tbUpdate_pending (hle : a ≤ bitsN w 100 20 ∧ n ≤ bitsN w 40 40) (h : ¬ (bitsN w 100 20 = a ∧ bitsN w 40 40 = n)) :
    tbUpdate w a n = setBits (setBits w 100 20 (bitsN w 100 20 - a)) 40 40 (bitsN w 40 40 - n) :=
  (if_neg (by simp [ho, ha])).trans ((if_neg (by omega)).trans (if_neg h))

end

/-- A field of a number given by what stands below, in and above it. -/
theorem field_eq {t lo mid hi k l : Nat} (ht : t = lo + 2 ^ k * (mid + 2 ^ l * hi)) (hlo : lo < 2 ^ k) (hmid : mid < 2 ^ l) :
    t / 2 ^ k % 2 ^ l = mid := by
  rw [ht, Nat.add_mul_div_left _ _ (by positivity), Nat.div_eq_of_lt hlo, Nat.zero_add, Nat.add_mul_mod_self_left, Nat.mod_eq_of_lt hmid]

/-- The word that `tbinit` writes, with its armed bit g. -/
theorem tbInit_toNat {ea es : Nat} (hea : ea < 2 ^ 20) (hes : es < 2 ^ 40) :
    ∃ g, g < 2 ∧ g = (if ea = 0 ∧ es = 0 then 0 else 1)
      ∧ (tbInit ea es).toNat = g * 2 ^ 122 + ea * 2 ^ 100 + ea * 2 ^ 80 + es * 2 ^ 40 + es := by
  refine ⟨_, ?_, rfl, ?_⟩
  · split <;> decide
  · have harmed : (ea = 0 ∧ es = 0) ↔ ¬ (ea ≠ 0 ∨ es ≠ 0) := by omega
    rw [tbInit, BitVec.toNat_ofNat, Nat.mod_eq_of_lt (by split <;> omega)]
    simp only [harmed]
    split <;> simp_all

theorem tbInit_fields {ea es : Nat} (hea : ea < 2 ^ 20) (hes : es < 2 ^ 40) :
    let i := tbInit ea es
    bitsN i 124 4 = 0 ∧ bitsN i 123 1 = 0 ∧ bitsN i 122 1 = (if ea = 0 ∧ es = 0 then 0 else 1) ∧ bitsN i 120 2 = 0
      ∧ bitsN i 100 20 = ea ∧ bitsN i 80 20 = ea ∧ bitsN i 40 40 = es ∧ bitsN i 0 40 = es := by
  obtain ⟨g, hg, hg', hi⟩ := tbInit_toNat hea hes
  dsimp only
  rw [← hg']
  simp only [bitsN_eq, hi]
  clear hg' hi
  refine ⟨field_eq (lo := g * 2 ^ 122 + ea * 2 ^ 100 + ea * 2 ^ 80 + es * 2 ^ 40 + es) (hi := 0) ?_ ?_ ?_,
    field_eq (lo := g * 2 ^ 122 + ea * 2 ^ 100 + ea * 2 ^ 80 + es * 2 ^ 40 + es) (hi := 0) ?_ ?_ ?_,
    field_eq (lo := ea * 2 ^ 100 + ea * 2 ^ 80 + es * 2 ^ 40 + es) (hi := 0) ?_ ?_ ?_,
    field_eq (lo := ea * 2 ^ 100 + ea * 2 ^ 80 + es * 2 ^ 40 + es) (hi := g) ?_ ?_ ?_,
    field_eq (lo := ea * 2 ^ 80 + es * 2 ^ 40 + es) (hi := 4 * g) ?_ ?_ ?_,
    field_eq (lo := es * 2 ^ 40 + es) (hi := ea + 2 ^ 22 * g) ?_ ?_ ?_,
    field_eq (lo := es) (hi := ea + 2 ^ 20 * ea + 2 ^ 42 * g) ?_ ?_ ?_,
    field_eq (lo := 0) (hi := es + 2 ^ 40 * ea + 2 ^ 60 * ea + 2 ^ 82 * g) ?_ ?_ ?_⟩
  all_goals omega

/-- Settles O35: by the case of the update, each field set or out of reach. -/
theorem transactionBarrierUpdate : Obligations.TransactionBarrierUpdate := by
  unfold Obligations.TransactionBarrierUpdate
  intro w a n ea es f u same i
  have hf : ∀ v lo len, f v lo len = bitsN v lo len := fun v lo len => (bitsN_eq v lo len).symm
  have hovr : tbOvr w = true ↔ f w 123 1 = 1 := by rw [hf]; exact bit_iff_bitsN w 123
  have harm : tbArm w = true ↔ f w 122 1 = 1 := by rw [hf]; exact bit_iff_bitsN w 122
  have hquiet : f w 123 1 = 0 → tbOvr w = false := fun h => Bool.eq_false_iff.2 (mt hovr.1 (by omega))
  have hlt : ∀ lo len, bitsN w lo len < 2 ^ len := fun lo len => by rw [bitsN_eq]; exact Nat.mod_lt _ (by positivity)
  simp only [same, hf]
  simp only [hf] at hovr harm hquiet
  refine ⟨fun h => ?_, fun ho ha h => ?_, fun ho ha h h' => ?_, fun ho ha h h' hne => ?_, fun hea hes => ?_⟩
  · refine tbUpdate_idle (h.imp hovr.2 fun h => Bool.eq_false_iff.2 (mt harm.1 (by omega)))
  · rw [show u = _ from tbUpdate_over (hquiet ho) (harm.2 ha) h]
    exact ⟨bitsN_setBits_same _ _ (by decide), bitsN_setBits_other _ _ (by decide) (by decide), bitsN_setBits_other _ _ (by decide) (by decide)⟩
  · rw [show u = _ from tbUpdate_complete (hquiet ho) (harm.2 ha) ⟨h, h'⟩]
    simp (disch := decide) only [bitsN_setBits_same, bitsN_setBits_other, Nat.mod_eq_of_lt (hlt 80 20), Nat.mod_eq_of_lt (hlt 0 40), and_true]
    rfl
  · rw [show u = _ from tbUpdate_pending (hquiet ho) (harm.2 ha) ⟨h, h'⟩ hne]
    have h1 : (bitsN w 100 20 - a) % 2 ^ 20 = bitsN w 100 20 - a := Nat.mod_eq_of_lt (by have := hlt 100 20; omega)
    have h2 : (bitsN w 40 40 - n) % 2 ^ 40 = bitsN w 40 40 - n := Nat.mod_eq_of_lt (by have := hlt 40 40; omega)
    simp (disch := decide) only [bitsN_setBits_same, bitsN_setBits_other, h1, h2]
    trivial
  · exact tbInit_fields hea hes

end Sys2Proof.Machine
end

section
/-!
CERTIFICATE. Sample words of each class, and what reset leaves.
-/

set_option Elab.async false

namespace Sys2Proof.Machine

open Sys2Proof

/-- Settles O49: each list of words is decoded. -/
theorem decodeSamples : Obligations.DecodeSamples := by
  unfold Obligations.DecodeSamples
  decide +kernel

/-- PKG.POWER stands in C0's window only, and another die's window reads 0 there (R149; log entry 55). -/
theorem mgF_reset_power_other_die : mgF State.reset 1 oPower 0 13 = 0 := by decide +kernel

/-- Refutes O52: it claims the power budget 4,400 in every die's window, and die 1's holds 0. -/
theorem not_resetState : ¬ Obligations.ResetState := by
  unfold Obligations.ResetState
  intro h
  obtain ⟨-, -, -, -, -, -, -, -, -, -, -, -, -, hdie, -⟩ := h
  obtain ⟨hpower, -⟩ := hdie 1
  rw [mgF_reset_power_other_die] at hpower
  exact absurd hpower (by decide)

end Sys2Proof.Machine
end

section
/-!
SUPPORT AND CERTIFICATE. Exact values (R296, R297) and the entry of an accumulator (R299 to R302).
-/

set_option Elab.async false

namespace Sys2Proof.Machine

open Sys2Proof

/-! ## Absent values and NaN -/

/-- An operation in which absent wins over NaN, and NaN over every number (R296). -/
structure Strict (f : Ex → Ex → Ex) : Prop where
  absent_left : ∀ y, f .absent y = .absent
  absent_right : ∀ x, f x .absent = .absent
  nan_left : ∀ x, x ≠ .absent → f .nan x = .nan
  nan_right : ∀ x, x ≠ .absent → f x .nan = .nan

theorem strict_add : Strict Ex.add := by
  constructor <;> intro x <;> cases x <;> simp [Ex.add]
theorem strict_mul : Strict Ex.mul := by
  constructor <;> intro x <;> cases x <;> simp [Ex.mul]
theorem strict_div : Strict Ex.div := by
  constructor <;> intro x <;> cases x <;> simp [Ex.div]
theorem strict_min : Strict Ex.min := by
  constructor <;> intro x <;> cases x <;> simp [Ex.min]
theorem strict_max : Strict Ex.max := by
  constructor <;> intro x <;> cases x <;> simp [Ex.max]

theorem neg_ne_absent {x : Ex} (h : x ≠ .absent) : x.neg ≠ .absent := by cases x <;> simp_all [Ex.neg]

theorem strict_sub : Strict Ex.sub where
  absent_left y := strict_add.absent_left y.neg
  absent_right x := strict_add.absent_right x
  nan_left x h := strict_add.nan_left x.neg (neg_ne_absent h)
  nan_right x h := strict_add.nan_right x h

theorem strict_of_mem {f : Ex → Ex → Ex} (h : f ∈ [Ex.add, Ex.sub, Ex.mul, Ex.div, Ex.min, Ex.max]) : Strict f := by
  simp only [List.mem_cons, List.not_mem_nil, or_false] at h
  rcases h with rfl | rfl | rfl | rfl | rfl | rfl
  exacts [strict_add, strict_sub, strict_mul, strict_div, strict_min, strict_max]

theorem identity_absent_right (f : Ex → Ex → Ex) (x : Ex) : identity f x .absent = x := by cases x <;> rfl

theorem identity_present (f : Ex → Ex → Ex) {x y : Ex} (hx : x ≠ .absent) (hy : y ≠ .absent) : identity f x y = f x y := by
  cases x <;> cases y <;> first | rfl | contradiction

/-! ## Finite values -/

theorem signed_mul (s : Bool) (n k : Nat) : signed s (n * k) = signed s n * k := by cases s <;> simp [signed]

/-- The sign and magnitude of an integer, with the sign of zero left open. -/
theorem signed_natAbs (i : Int) (z : Bool) : signed (if i = 0 then z else decide (i < 0)) i.natAbs = i := by
  by_cases hz : i = 0
  · subst hz
    cases z <;> rfl
  · rcases lt_or_gt_of_ne hz with h | h
    · simp [signed, hz, h, abs_of_neg h]
    · simp [signed, hz, not_lt.2 h.le, abs_of_pos h]

/-- A common denominator of two (R298): the numerator over it is the sum of theirs. -/
theorem addFin_spec (s t : Bool) {n d m e : Nat} (hd : 0 < d) (he : 0 < e) :
    ∃ g k z, addFin s n d t m e = .fin g k z ∧ 0 < z ∧ signed g k * (d * e) = (signed s n * e + signed t m * d) * z
      ∧ (k = 0 → g = (s && t && n == 0 && m == 0)) := by
  refine ⟨_, _, _, rfl, ?_, ?_, fun hk => if_pos (Int.natAbs_eq_zero.1 hk)⟩
  · split_ifs
    exacts [he, hd, Nat.mul_pos hd he]
  · rw [signed_natAbs]
    split_ifs with h h'
    · obtain ⟨c, rfl⟩ := Nat.dvd_of_mod_eq_zero h
      rw [Nat.mul_div_cancel_left _ hd, signed_mul]
      push_cast
      ring
    · obtain ⟨c, rfl⟩ := Nat.dvd_of_mod_eq_zero h'
      rw [Nat.mul_div_cancel_left _ he, signed_mul]
      push_cast
      ring
    · rw [signed_mul, signed_mul]
      push_cast
      ring

theorem lt_fin_iff (s t : Bool) (n d m e : Nat) : (Ex.fin s n d).lt (.fin t m e) = true ↔ signed s n * e < signed t m * d := by
  rw [Ex.lt, decide_eq_true_iff, signed_mul, signed_mul]

section

variable {s t : Bool} {n d m e : Nat}

theorem lt_fin_irrefl : ¬ (Ex.fin s n d).lt (.fin s n d) = true := by
  rw [lt_fin_iff]
  exact lt_irrefl _

theorem lt_fin_asymm (h : (Ex.fin s n d).lt (.fin t m e) = true) : ¬ (Ex.fin t m e).lt (.fin s n d) = true := by
  rw [lt_fin_iff] at h ⊢
  omega

/-- The smaller of two numbers is one of them, and neither is below it. -/
theorem min_fin (p q : Ex) (hp : p = .fin s n d) (hq : q = .fin t m e) :
    (p.min q = p ∨ p.min q = q) ∧ ¬ p.lt (p.min q) = true ∧ ¬ q.lt (p.min q) = true := by
  have hpp : ¬ p.lt p = true := hp ▸ lt_fin_irrefl
  have hqq : ¬ q.lt q = true := hq ▸ lt_fin_irrefl
  have hpq : p.lt q = true → ¬ q.lt p = true := hp ▸ hq ▸ lt_fin_asymm
  have hmin : p.min q = if p.lt q then p else if q.lt p then q else if s then p else q := by
    subst hp hq
    cases s <;> rfl
  rw [hmin]
  split_ifs <;> simp_all

theorem max_fin (p q : Ex) (hp : p = .fin s n d) (hq : q = .fin t m e) :
    (p.max q = p ∨ p.max q = q) ∧ ¬ (p.max q).lt p = true ∧ ¬ (p.max q).lt q = true := by
  have hpp : ¬ p.lt p = true := hp ▸ lt_fin_irrefl
  have hqq : ¬ q.lt q = true := hq ▸ lt_fin_irrefl
  have hpq : p.lt q = true → ¬ q.lt p = true := hp ▸ hq ▸ lt_fin_asymm
  have hmax : p.max q = if p.lt q then q else if q.lt p then p else if s then q else p := by
    subst hp hq
    cases s <;> rfl
  rw [hmax]
  split_ifs <;> simp_all

end

/-- Settles O40: absence and NaN by what the operations share, finite values by their numerators over a common denominator. -/
theorem exactArithmetic : Obligations.ExactArithmetic := by
  unfold Obligations.ExactArithmetic
  intro x y s t n d m e hd he num p q ops
  refine ⟨fun f hf => ⟨(strict_of_mem hf).absent_left y, (strict_of_mem hf).absent_right x, rfl, identity_absent_right f x⟩,
    fun hx f hf => ?_, fun hx hy f hf => identity_present f hx hy, rfl, rfl, rfl, rfl, rfl, rfl, rfl, rfl, rfl, addFin_spec s t hd he, rfl,
    fun hm => if_neg hm, lt_fin_iff s t n d m e, ?_⟩
  · have hstrict := strict_of_mem hf
    refine ⟨hstrict.nan_left x hx, hstrict.nan_right x hx, ?_, ?_⟩
    · rw [identity_present f (by decide) hx, hstrict.nan_left x hx]
    · rw [identity_present f hx (by decide), hstrict.nan_right x hx]
  · obtain ⟨h1, h2, h3⟩ := min_fin p q rfl rfl
    exact ⟨h1, h2, h3, max_fin p q rfl rfl⟩

/-! ## The accumulator entry (R140) -/

theorem mkAcc_toNat (v c f : Nat) : (mkAcc v c f).toNat = v % 2 ^ 32 + c % 2 ^ 16 * 2 ^ 32 + f % 2 ^ 16 * 2 ^ 48 := by
  rw [mkAcc, BitVec.toNat_ofNat, Nat.mod_eq_of_lt]
  omega

theorem accCount_mkAcc (v c f : Nat) : accCount (mkAcc v c f) = c % 2 ^ 16 := by
  rw [accCount, bitsN_eq, mkAcc_toNat]
  omega

theorem accFlags_mkAcc (v c f : Nat) : accFlags (mkAcc v c f) = f % 2 ^ 16 := by
  rw [accFlags, bitsN_eq, mkAcc_toNat]
  omega

/-- An entry is its three fields. -/
theorem mkAcc_fields (e : BitVec 64) : mkAcc (accVal e) (accCount e) (accFlags e) = e := by
  apply BitVec.eq_of_toNat_eq
  rw [mkAcc_toNat, accVal, accCount, accFlags, bitsN_eq, bitsN_eq, bitsN_eq]
  omega

theorem blockSum_of_absent {fs : List (Ex × Ex)} (h : ∀ p ∈ fs, p.1 = .absent ∨ p.2 = .absent) : blockSum false fs = mkAcc 0 0 0 := by
  have hnone : fs.filter (fun p => p.1.present && p.2.present) = [] := by
    rw [List.filter_eq_nil_iff]
    intro p hp
    rcases h p hp with h | h <;> simp [h, Ex.present]
  simp [blockSum, hnone]

theorem applyBlock_of_count_zero {e b : BitVec 64} (hc : accCount b = 0) (hf : accFlags b = 0) : applyBlock e b = e := by
  rw [applyBlock, if_pos hc, hf, Nat.or_zero, mkAcc_fields]

theorem accCount_accAdd (e : BitVec 64) (v count flags : Nat) : accCount (accAdd e v count flags) = min (accCount e + count) 65535 := by
  rw [accAdd, accCount_mkAcc]
  omega

theorem addOnWrite_present {e : BitVec 64} {code : Nat} (h : decodeNum fp32 code ≠ .absent) :
    ∃ flags, addOnWrite e code = accAdd e code 1 flags := by
  unfold addOnWrite
  split
  · contradiction
  · exact ⟨_, rfl⟩

theorem decodeAcc_ne_absent (code : Nat) : decodeAcc code ≠ .absent := by
  unfold decodeAcc
  split
  · decide
  · assumption

/-- Settles O42: by the fields of the entry. -/
theorem accumulatorRules : Obligations.AccumulatorRules := by
  unfold Obligations.AccumulatorRules
  intro e fs code count
  have hcount : accCount e = count := bitsN_eq e 32 16
  refine ⟨fun h => ?_, fun h => ?_, fun h => ?_, fun h => ?_, fun h => ?_, ?_, decodeAcc_ne_absent _⟩
  · rw [blockSum_of_absent h]
    exact applyBlock_of_count_zero (accCount_mkAcc ..) (accFlags_mkAcc ..)
  · rw [addOnWrite, h]
  · obtain ⟨flags, hadd⟩ := addOnWrite_present (e := e) h
    rw [hadd, ← bitsN_eq, ← accCount, accCount_accAdd, hcount]
  · exact ⟨if_pos (hcount.trans h), if_pos (hcount.trans h)⟩
  · have hne : accCount e ≠ 0 := hcount ▸ h
    exact ⟨if_neg hne, (if_neg hne).trans (by rw [hcount]; rfl)⟩
  · rw [← hcount]
    rfl

end Sys2Proof.Machine
end

section
/-!
SUPPORT AND CERTIFICATE. Global accesses (R360 to R366): a handle that serves, and what a load, a store, an atomic and an exchange store do with it.
-/

set_option Elab.async false

namespace Sys2Proof.Machine

open Sys2Proof

/-! ## Operands -/

@[simp] theorem length_leBytes (n v : Nat) : (leBytes n v).length = n := by
  induction n generalizing v with
  | zero => rfl
  | succ n ih => rw [leBytes, List.length_cons, ih]

@[simp] theorem length_tileBytes (v : Tile) (n : Nat) : (tileBytes v n).length = n := by simp [tileBytes, tab]

theorem pageBytes_eq_pageSpan (size : BitVec 2) : pageBytes size = pageSpan size := rfl

section

variable {s : State} {x : Nat} {hn o n align : Nat} {rd wr : Bool}

/-- No check of a handle that serves finds a cause (R360). -/
theorem globCheck_served {h : Handle} (hserve : Serves s h o n align rd wr) : globCheck s h hn o n align rd wr = [] := by
  obtain ⟨-, halign, hbound, hpop, -, hrd, hwr⟩ := hserve
  have hin : ¬ o + n > pageBytes h.size := Nat.not_lt.2 hbound
  have hpop' : ¬ (!decide (o + n > pageBytes h.size) && isLocal s ((h.pa.toNat + o) % 2 ^ 56)
      && !populatedRange s (paOf ((h.pa.toNat + o) % 2 ^ 56)) n) = true := by
    cases hl : isLocal s ((h.pa.toNat + o) % 2 ^ 56) with
    | false => simp
    | true =>
      have hfull : populatedRange s (paOf ((h.pa.toNat + o) % 2 ^ 56)) n = true := hpop hl
      rw [hfull]
      simp
  have hperm : ¬ ((rd && !h.rd) || (wr && !h.wr)) = true := by
    cases rd <;> cases wr <;> simp_all
  simp only [globCheck]
  rw [if_pos halign, if_neg hin, if_neg hpop', if_neg hperm]
  rfl

/-- A VALID handle stands for itself (R173). -/
theorem resolveHandle_valid {va : Nat} (h : (readH (getX s x) hn).st = 1) : resolveHandle s x hn va = .ok (readH (getX s x) hn) := if_pos h

theorem globalOperand_served (hserve : Serves s (readH (getX s x) hn) o n align rd wr) :
    globalOperand s x hn o n align rd wr
      = .ok (readH (getX s x) hn) ((readH (getX s x) hn).addrAt o) (handleVa (readH (getX s x) hn) o) := by
  have hcheck := globCheck_served (hn := hn) hserve
  obtain ⟨hst, -, -, -, hmove, -, -⟩ := hserve
  rw [globalOperand, resolveHandle_valid hst]
  simp only [hcheck]
  exact if_neg (by simpa [Handle.addrAt] using hmove)

end

/-- A slot whose handle serves goes on with the operand. -/
theorem withGlobal_served {s : State} {x hn o n align : Nat} {rd wr : Bool} (hserve : Serves s (readH (getX s x) hn) o n align rd wr)
    (k : Handle → Nat → Nat → SlotOut) :
    withGlobal (globalOperand s x hn o n align rd wr) k
      = k (readH (getX s x) hn) ((readH (getX s x) hn).addrAt o) (handleVa (readH (getX s x) hn) o) := by
  rw [globalOperand_served hserve]
  rfl

/-! ## Holds that do not arise -/

section

variable {s : State}

/-- The data cache does not drain, or the access does not use it (R137). -/
theorem drainHold_free {nc past : Bool} {pa : Nat} {k : SlotOut}
    (h : s.core.dcDrain ≤ s.cyc ∨ s.core.split = 0 ∨ nc = true ∨ isLocal s pa = false) : drainHold s nc past pa k = k := by
  refine if_neg fun hc => ?_
  simp only [Bool.and_eq_true, decide_eq_true_iff, Bool.not_eq_true', bne_iff_ne] at hc
  obtain ⟨⟨⟨⟨hdrain, hsplit⟩, hnc⟩, -⟩, hlocal⟩ := hc
  rcases h with h | h | h | h
  · exact absurd hdrain (Nat.not_lt.2 h)
  · exact hsplit h
  · simp [h] at hnc
  · simp [h] at hlocal

/-- The remote-store set has room (R259). -/
theorem ninthHold_room {pa : Nat} {k : SlotOut}
    (h : isLocal s pa = true ∨ BitVec.ofNat 8 (pa / 2 ^ 48) ∈ remoteSet s s.ctx ∨ (remoteSet s s.ctx).length < 8) : ninthHold s pa k = k := by
  refine if_neg fun hc => ?_
  simp only [Bool.and_eq_true, decide_eq_true_iff, Bool.not_eq_true'] at hc
  obtain ⟨⟨hlocal, hmem⟩, hlen⟩ := hc
  rcases h with h | h | h
  · simp [h] at hlocal
  · have : ¬ (remoteSet s s.ctx).contains (BitVec.ofNat 8 (pa / 2 ^ 48)) = true := by simpa using hmem
    exact this (by simpa using h)
  · exact absurd hlen (Nat.not_le.2 h)

end

/-! ## Loads and stores -/

section

variable {s : State} {d a b g : BitVec 5} {h : BitVec 4} {env : Env}

theorem slotLdg_served {xl : Option WgLd} {form n : Nat} (hn : n = 2 ^ (form % 8))
    (hserve : Serves s (readH s.ctx h.toNat) (globOff s.ctx a (ldExt xl).off) n n true false)
    (hfree : s.core.dcDrain ≤ s.cyc ∨ s.core.split = 0 ∨ (readH s.ctx h.toNat).nc = true
      ∨ isLocal s ((readH s.ctx h.toNat).addrAt (globOff s.ctx a (ldExt xl).off)) = false) :
    slotLdg form d a h xl env s = .go (globalLoad s.cur form ((readH s.ctx h.toNat).addrAt (globOff s.ctx a (ldExt xl).off)) n
      (if d = 0 then .tile [] else .sreg (physS s.ctx d.toNat) 0) (ldExt xl) (readH s.ctx h.toNat).nc) := by
  subst hn
  exact (withGlobal_served hserve _).trans (drainHold_free hfree)

theorem slotLdgV_served {xl : Option WgLd}
    (hserve : Serves s (readH s.ctx h.toNat) (globOff s.ctx a (ldExt xl).off) (shapeBytes s.ctx.vshape) 64 true false)
    (hfree : s.core.dcDrain ≤ s.cyc ∨ s.core.split = 0 ∨ (readH s.ctx h.toNat).nc = true
      ∨ isLocal s ((readH s.ctx h.toNat).addrAt (globOff s.ctx a (ldExt xl).off)) = false) :
    slotLdgV d a h xl env s = .go (globalLoad s.cur 0 ((readH s.ctx h.toNat).addrAt (globOff s.ctx a (ldExt xl).off)) (shapeBytes s.ctx.vshape)
      (.vreg (physV s.ctx d.toNat) 0 (lowMask (shapeBytes s.ctx.vshape))) (ldExt xl) (readH s.ctx h.toNat).nc) :=
  (withGlobal_served hserve _).trans (drainHold_free hfree)

theorem globalStore_served {xs : Option WgSt} {n align : Nat} {bytes : List Byte} (hn : bytes.length = n)
    (hserve : Serves s (readH s.ctx h.toNat) (globOff s.ctx a (stExt xs).off) n align false true)
    (hfree : s.core.dcDrain ≤ s.cyc ∨ s.core.split = 0 ∨ (readH s.ctx h.toNat).nc = true
      ∨ isLocal s ((readH s.ctx h.toNat).addrAt (globOff s.ctx a (stExt xs).off)) = false)
    (hroom : isLocal s ((readH s.ctx h.toNat).addrAt (globOff s.ctx a (stExt xs).off)) = true
      ∨ BitVec.ofNat 8 ((readH s.ctx h.toNat).addrAt (globOff s.ctx a (stExt xs).off) / 2 ^ 48) ∈ remoteSet s s.ctx
      ∨ (remoteSet s s.ctx).length < 8) :
    globalStore a h xs align bytes env s = .go (addAccess s.cur .store ((readH s.ctx h.toNat).addrAt (globOff s.ctx a (stExt xs).off)) n
      (stExt xs).oc (stExt xs).sem (stExt xs).scope false (readH s.ctx h.toNat).nc bytes) := by
  subst hn
  exact (withGlobal_served hserve _).trans ((drainHold_free hfree).trans (ninthHold_room hroom))

end

/-- Settles O27: each form through the operand that its handle serves. -/
theorem globalLoadAndStoreForms : Obligations.GlobalLoadAndStoreForms := by
  unfold Obligations.GlobalLoadAndStoreForms
  intro s d a b g h xl xs hs hwl hws c hd ql qs wl ws ol os on free room vs load store
  have hload : ∀ form n op (ins : Instr), n = 2 ^ (form % 8) → exec ins s = single true op wl 1 (slotLdg form d a h xl) s → load n form ins :=
    fun form n op ins hn he hserve hfree => issues_of_go hs he (slotLdg_served hn hserve hfree)
  have hstore : ∀ lg n op (ins : Instr), n = 2 ^ lg → exec ins s = single true op ws 1 (slotStg lg g a b h xs) s → store n ins := by
    intro lg n op ins hn he
    subst hn
    exact ⟨fun hon hserve hfree hroom => issues_of_go hs he ((guarded_on hon).trans (globalStore_served (length_leBytes _ _) hserve hfree hroom)),
      fun hoff => issues_of_go hs he (guarded_off hoff)⟩
  exact ⟨hload 8 1 _ _ rfl (exec_of_wf rfl hwl), hload 9 2 _ _ rfl (exec_of_wf rfl hwl), hload 10 4 _ _ rfl (exec_of_wf rfl hwl),
    hload 11 8 _ _ rfl (exec_of_wf rfl hwl), hload 0 1 _ _ rfl (exec_of_wf rfl hwl), hload 1 2 _ _ rfl (exec_of_wf rfl hwl),
    hload 2 4 _ _ rfl (exec_of_wf rfl hwl),
    fun hserve hfree => issues_of_go hs (exec_of_wf rfl hwl) (slotLdgV_served hserve hfree),
    hstore 0 1 _ _ rfl (exec_of_wf rfl hws), hstore 1 2 _ _ rfl (exec_of_wf rfl hws), hstore 2 4 _ _ rfl (exec_of_wf rfl hws),
    hstore 3 8 _ _ rfl (exec_of_wf rfl hws),
    fun hon hserve hfree hroom => issues_of_go hs (exec_of_wf rfl hws)
      ((guarded_on hon).trans (globalStore_served (length_tileBytes _ _) hserve hfree hroom)),
    fun hoff => issues_of_go hs (exec_of_wf rfl hws) (guarded_off hoff)⟩

/-! ## Atomics and exchange stores -/

/-- What an atomic does (R366). -/
def atomicEff (x pa op : Nat) (d : BitVec 5) (phys : Nat) (wide nc : Bool) (v cmp : DWord) (oc : BitVec 4) (sem : BitVec 2) (scope : BitVec 3)
    (t : State) : State :=
  let t1 := addAccess x (.atomic op wide v cmp (d != 0)) pa (if wide then 8 else 4) oc sem scope false nc [] t
  let t2 := if d = 0 then t1 else modX t1 x (fun k => k.addResult 12 (.sreg phys 0) (if wide then 11 else 10) (.waiting t.nextId))
  if sem = 1 ∨ sem = 3 then modX t2 x (fun k => { k with await := .acquire t.nextId scope.toNat, lastFrz := 1 }) else t2

theorem slotAtomic_on {s : State} {d a b g : BitVec 5} {h : BitVec 4} {z : BitVec 1} {op n : Nat} {oc : BitVec 4} {sem : BitVec 2} {scope : BitVec 3}
    {cmp : DWord} {env : Env} (hg : guardOn s.ctx g = true) (hn : n = if (z == 1) = true then 8 else 4)
    (hserve : Serves s (readH s.ctx h.toNat) (readS s.ctx a).toNat n n true true) :
    slotAtomic op d a b h z oc sem scope cmp g env s
      = .go (atomicEff s.cur ((readH s.ctx h.toNat).addrAt (readS s.ctx a).toNat) op d (physS s.ctx d.toNat) (z == 1) (readH s.ctx h.toNat).nc
        (readS s.ctx b) cmp oc sem scope) := by
  subst hn
  exact (guarded_on hg).trans (withGlobal_served hserve _)

theorem slotAtomic_off {s : State} {d a b g : BitVec 5} {h : BitVec 4} {z : BitVec 1} {op : Nat} {oc : BitVec 4} {sem : BitVec 2} {scope : BitVec 3}
    {cmp : DWord} {env : Env} (hg : guardOn s.ctx g = false) : slotAtomic op d a b h z oc sem scope cmp g env s = .go id :=
  guarded_off hg

/-- The window of an exchange store is not the gang's (R365). -/
def xstBound (s : State) (a c : BitVec 5) : Bool :=
  match gangOf s s.cur with
  | some q => !q.exch || decide (q.tasks ≤ (readS s.ctx c).toNat) || decide (0x40000 ≤ (readS s.ctx a).toNat)
  | none => true

/-- What an exchange store that passes its checks does. -/
def xstGo (s : State) (a b c : BitVec 5) : SlotOut :=
  match gangOf s s.cur with
  | some q =>
    if q.live.contains (readS s.ctx c).toNat then .go (fun t =>
      sendPkt { t with gangs := updFirst (fun r => r.id = q.id) (fun r => { r with xstOut := r.xstOut + 1 }) t.gangs }
        (mkPkt 6 0 s.ctx.part (coreEp t (coreOf s.cur)) (coreEp t (coreOf (q.xs.getD (readS s.ctx c).toNat s.cur))) 0 (readS s.ctx a).toNat
          (leBytes 8 (readS s.ctx b).toNat) (.xst q.id (readS s.ctx c).toNat s.ctx.phase.toNat (readS s.ctx a).toNat)))
    else .go id
  | none => .go id

section

variable {s : State} {g a b c : BitVec 5} {q : Gang} {env : Env} (hg : guardOn s.ctx g = true)

include hg

theorem slotXst_on : slotXst g a b c env s
    = check ((if (readS s.ctx a).toNat % 8 = 0 then [] else [causeAt cALIGN (tiVa (readS s.ctx a).toNat)])
        ++ (if xstBound s a c then [causeAt cBOUND (tiVa (readS s.ctx a).toNat)] else [])) (xstGo s a b c) := guarded_on hg

theorem slotXst_misaligned (h : (readS s.ctx a).toNat % 8 ≠ 0) :
    ∃ l, slotXst g a b c env s = .trap l ∧ lowestCause l = some (causeAt cALIGN (tiVa (readS s.ctx a).toNat)) := by
  rw [slotXst_on hg, if_neg h]
  cases xstBound s a c with
  | false => exact ⟨_, check_cons _ _ _, rfl⟩
  | true => exact ⟨_, check_cons _ _ _, rfl⟩

/-- An exchange store of a gang member, by the checks of the gang's window (R365). -/
theorem slotXst_member (hal : (readS s.ctx a).toNat % 8 = 0) (hq : gangOf s s.cur = some q) :
    slotXst g a b c env s
      = check (if (!q.exch || decide (q.tasks ≤ (readS s.ctx c).toNat) || decide (0x40000 ≤ (readS s.ctx a).toNat)) = true
          then [causeAt cBOUND (tiVa (readS s.ctx a).toNat)] else [])
        (if q.live.contains (readS s.ctx c).toNat then .go (fun t =>
          sendPkt { t with gangs := updFirst (fun r => r.id = q.id) (fun r => { r with xstOut := r.xstOut + 1 }) t.gangs }
            (mkPkt 6 0 s.ctx.part (coreEp t (coreOf s.cur)) (coreEp t (coreOf (q.xs.getD (readS s.ctx c).toNat s.cur))) 0 (readS s.ctx a).toNat
              (leBytes 8 (readS s.ctx b).toNat) (.xst q.id (readS s.ctx c).toNat s.ctx.phase.toNat (readS s.ctx a).toNat)))
        else .go id) := by
  rw [slotXst_on hg, if_pos hal, List.nil_append, xstBound, xstGo, hq]

end

/-- Settles O28: an atomic by the operand its handle serves, an exchange store by its gang. -/
theorem atomicForms : Obligations.AtomicForms := by
  unfold Obligations.AtomicForms
  refine ⟨fun s d a b h z x y hs hx hy => ?_, fun s g a b c q hs => ?_⟩
  · intro c hd o n eff on served form
    have hn : n = if (z == 1) = true then 8 else 4 := by simp [n]
    have hform : ∀ op code (ins : Instr), exec ins s = single true code 2 1 (slotAt op d a b h z x) s → form op ins :=
      fun op code ins he => ⟨fun hon hserve => issues_of_go hs he (slotAtomic_on hon hn hserve),
        fun hoff => issues_of_go hs he (slotAtomic_off hoff)⟩
    have hwf : (Instr.afadd d a b h 0 x).wf = true := by simpa [Instr.wf] using hx
    exact ⟨hform 0 _ _ (exec_of_wf rfl hx), hform 1 _ _ (exec_of_wf rfl hx), hform 2 _ _ (exec_of_wf rfl hx), hform 3 _ _ (exec_of_wf rfl hx),
      hform 4 _ _ (exec_of_wf rfl hx), hform 5 _ _ (exec_of_wf rfl hx), hform 6 _ _ (exec_of_wf rfl hx), hform 7 _ _ (exec_of_wf rfl hx),
      hform 8 _ _ (exec_of_wf rfl hx), hform 9 _ _ (exec_of_wf rfl hx),
      fun hon hserve => issues_of_go hs (exec_of_wf rfl hy) (slotAtomic_on hon hn hserve),
      fun hoff => issues_of_go hs (exec_of_wf rfl hy) (slotAtomic_off hoff),
      fun hon hserve => issues_of_go hs (exec_of_wf rfl hwf) (slotAtomic_on (env := ⟨2, 1⟩) hon (n := 4) rfl hserve),
      fun hoff => issues_of_go hs (exec_of_wf rfl hwf) (slotAtomic_off (env := ⟨2, 1⟩) hoff)⟩
  · intro k o n on mine
    refine ⟨fun hoff => issues_of_go hs rfl (guarded_off hoff), fun hon hq hex hlt ho hal => ?_, fun hon hmis => ?_, fun hon hal hq hbad => ?_⟩
    · have hok : ¬ (!q.exch || decide (q.tasks ≤ n) || decide (0x40000 ≤ o)) = true := by
        simp [hex]
        omega
      have hgo := (slotXst_member (b := b) (env := ⟨2, 1⟩) hon hal hq).trans (congrArg (check · _) (if_neg hok))
      rw [check_nil] at hgo
      exact ⟨fun hdead => issues_of_go hs rfl (hgo.trans (if_neg (by simpa using hdead))),
        fun hlive => issues_of_go hs rfl (hgo.trans (if_pos (by simpa using hlive)))⟩
    · obtain ⟨l, hl, hlow⟩ := slotXst_misaligned (b := b) (c := c) (env := ⟨2, 1⟩) hon hmis
      exact traps_of_trap hs rfl hl hlow
    · have hbad' : (!q.exch || decide (q.tasks ≤ n) || decide (0x40000 ≤ o)) = true := by simpa [or_assoc] using hbad
      exact traps_of_one hs rfl ((slotXst_member hon hal hq).trans (congrArg (check · _) (if_pos hbad'))) rfl

end Sys2Proof.Machine
end

section
/-!
SUPPORT AND CERTIFICATE. Translation and invalidation (R368 to R370), fences (R372), the gang barrier (R373), the data-cache split (R374), and
timelines (R375 to R377).
-/

set_option Elab.async false

namespace Sys2Proof.Machine

open Sys2Proof

/-! ## Translation -/

section

variable {s : State} {x va : Nat} {e : TlbEntry}

theorem translate_hit (h : (getC s (coreOf x)).tlb.find? (fun f => covers f (getX s x).part (va / 65536)) = some e) :
    translate s x va = if e.stop then .wait 5 id else if moving s (mappedAt e va) then .wait 7 id else .ok e := by
  rw [translate, h]

/-- An entry covers a page when the page lies between its first and its last byte (R171). -/
theorem covers_eq (f : TlbEntry) (p : BitVec 3) (v : Nat) :
    covers f p v = (f.part == p && decide (f.vpn.toNat ≤ v) && decide (65536 * v < 65536 * f.vpn.toNat + pageSpan f.size)) := by
  have hspan : pageSpan f.size = 65536 * pagesOf f.size := rfl
  have hlt : v < f.vpn.toNat + pagesOf f.size ↔ 65536 * v < 65536 * f.vpn.toNat + pageSpan f.size := by omega
  rw [covers, decide_eq_decide.2 hlt]

theorem translate_mapped {m : TlbEntry} (h : Mapped s va m) : translate s s.cur va = .ok m := by
  obtain ⟨hfind, hstop, hmove⟩ := h
  have hfind' : (getC s (coreOf s.cur)).tlb.find? (fun f => covers f (getX s s.cur).part (va / 65536)) = some m := by
    simpa only [covers_eq] using hfind
  rw [translate_hit hfind', if_neg (by simp [hstop]), if_neg (by simpa [mappedAt] using hmove)]

end

section

variable {s : State} {ar : Bool} {d : BitVec 4} {a : BitVec 5} {env : Env}

/-- The VA of a translation has no bit above its 52 (R368). -/
theorem vaHigh_iff (v : DWord) : bitsN v 52 12 ≠ 0 ↔ 2 ^ 52 ≤ v.toNat := by
  have := v.isLt
  rw [bitsN_eq]
  omega

theorem translateInto_high (h : 2 ^ 52 ≤ (readS s.ctx a).toNat) :
    translateInto ar d a env s = .trap [causeAt cBOUND (tiVa (readS s.ctx a).toNat)] := if_pos ((vaHigh_iff _).2 h)

/-- A translation of a VA of 52 bits does what its walk or its mapping says. -/
theorem translateInto_low (h : (readS s.ctx a).toNat < 2 ^ 52) : translateInto ar d a env s =
    match translate s s.cur (readS s.ctx a).toNat with
    | .wait q f => .hold q f
    | .fault r => .trap [⟨cPFLT, r, d.toNat, tiVa (readS s.ctx a).toNat⟩]
    | .ok m =>
      check (if !s.ctx.sup && !m.u then [⟨cPPROT, 1, d.toNat, tiVa (readS s.ctx a).toNat⟩] else [])
        (.go (fun t => modX (touchTlb t s.cur (readS s.ctx a).toNat) s.cur (fun k => k.addResult 16 (.handle d.toNat (handleOf m ar)) 0 .done))) :=
  if_neg (mt (vaHigh_iff _).1 (Nat.not_le.2 h))

theorem translateInto_mapped {m : TlbEntry} (h : (readS s.ctx a).toNat < 2 ^ 52) (hm : Mapped s (readS s.ctx a).toNat m) :
    translateInto ar d a env s = check (if !s.ctx.sup && !m.u then [⟨cPPROT, 1, d.toNat, tiVa (readS s.ctx a).toNat⟩] else [])
      (.go (fun t => modX (touchTlb t s.cur (readS s.ctx a).toNat) s.cur (fun k => k.addResult 16 (.handle d.toNat (handleOf m ar)) 0 .done))) := by
  rw [translateInto_low h, translate_mapped hm]

theorem translateInto_fault {q : Nat} (h : (readS s.ctx a).toNat < 2 ^ 52) (hq : translate s s.cur (readS s.ctx a).toNat = .fault q) :
    translateInto ar d a env s = .trap [⟨cPFLT, q, d.toNat, tiVa (readS s.ctx a).toNat⟩] := by
  rw [translateInto_low h, hq]

end

/-- Settles O29: by the VA's high bits, then by what the translation gives. -/
theorem translateForms : Obligations.TranslateForms := by
  unfold Obligations.TranslateForms
  refine ⟨fun s d a r h m hs => ?_, fun s x va e hfind => ?_⟩
  · intro c va adr hd ok
    have hok : ∀ op (ins : Instr) ar, exec ins s = single true op 1 1 (translateInto ar d a) s → ok ins ar := by
      intro op ins ar he
      refine ⟨fun hva hm hu => issues_of_go hs he ?_, fun hva => traps_of_one hs he (translateInto_high hva) rfl,
        fun hva hm hsup hu => traps_of_one hs he ?_ rfl, fun q hva hq => traps_of_one hs he (translateInto_fault hva hq) rfl⟩
      · have : ¬ (!c.sup && !m.u) = true := by rcases hu with hu | hu <;> simp [hu]
        rw [translateInto_mapped hva hm, if_neg this, check_nil]
        rfl
      · rw [translateInto_mapped hva hm, if_pos (by simpa using ⟨hsup, hu⟩), check_cons]
        rfl
    exact ⟨hok _ _ _ rfl, hok _ _ _ rfl, issues_retS hs rfl rfl rfl⟩
  · intro pa
    have h := translate_hit hfind
    refine ⟨fun hstop hmove => ?_, fun hstop => ?_, fun hstop hmove => ?_⟩
    · rw [h, if_neg (by simp [hstop]), if_neg (by simpa [mappedAt, pa] using hmove)]
    · rw [h, if_pos hstop]
    · rw [h, if_neg (by simp [hstop]), if_pos (by simpa [mappedAt, pa] using hmove)]

/-! ## Invalidation -/

theorem modX_modX (s : State) (x : Nat) (f g : Ctx → Ctx) : modX (modX s x f) x g = modX s x (fun c => g (f c)) := by simp [modX]

/-- An invalidation asked for: its place in C0's order, and the context's freeze (R174, R370). -/
theorem requestInval_eq (x vpn count : Nat) (all : Bool) (t : State) :
    requestInval x vpn count all t
      = modX { t with nextId := t.nextId + 1,
                      invals := t.invals ++ [⟨t.nextId, (getX t x).part, vpn, count, all, false, false, [], []⟩] } x
        (fun k => { k with await := .inv t.nextId vpn count all, lastFrz := 7 }) := by
  rw [requestInval, joinInval, modX_modX]

/-- The checks of `inv`: privilege, then the count (R370). -/
theorem slotInv_eq (a b : BitVec 5) (env : Env) (s : State) :
    slotInv a b env s = check ((if s.ctx.sup then [] else [causeAt cPRIV 0])
        ++ (if 2 ^ 24 ≤ (readS s.ctx b).toNat then [causeAt cBOUND (tiVa (readS s.ctx b).toNat)] else []))
      (.go (requestInval s.cur (bitsN (readS s.ctx a) 16 36) (readS s.ctx b).toNat false)) := rfl

theorem slotInvAll_eq (env : Env) (s : State) :
    slotInvAll env s = check (if s.ctx.sup then [] else [causeAt cPRIV 0]) (.go (requestInval s.cur 0 0 true)) := rfl

/-- Settles O30: by the privilege and the count. -/
theorem invalidateForms : Obligations.InvalidateForms := by
  unfold Obligations.InvalidateForms
  intro s a b hs c n join
  have hjoin : ∀ vpn count all, requestInval s.cur vpn count all = join vpn count all := fun vpn count all =>
    funext fun t => requestInval_eq s.cur vpn count all t
  refine ⟨fun hsup hn => ?_, fun hsup => ?_, fun hsup => ⟨?_, ?_⟩, fun hsup hn => ?_⟩
  · refine issues_of_go_eq hs rfl (by rw [slotInv_eq, if_pos hsup, if_neg (Nat.not_le.2 hn), List.nil_append, check_nil]) ?_
    rw [hjoin, bitsN_eq]
  · exact issues_of_go_eq hs rfl (by rw [slotInvAll_eq, if_pos hsup, check_nil]) (hjoin _ _ _)
  · have hlow : ∀ l : List Cause, l = [] ∨ (∃ v, l = [causeAt cBOUND v]) → lowestCause ([causeAt cPRIV 0] ++ l) = some ⟨0x03, 0, 0, 0⟩ := by
      rintro l (rfl | ⟨v, rfl⟩) <;> rfl
    refine traps_of_trap hs rfl (by rw [slotInv_eq, if_neg (Bool.eq_false_iff.1 hsup)]; exact check_cons _ _ _) (hlow _ ?_)
    split
    · exact .inr ⟨_, rfl⟩
    · exact .inl rfl
  · exact traps_of_one hs rfl (by rw [slotInvAll_eq, if_neg (Bool.eq_false_iff.1 hsup), check_cons]; rfl) rfl
  · exact traps_of_one hs rfl (by rw [slotInv_eq, if_pos hsup, if_pos hn, List.nil_append, check_cons]; rfl) rfl

/-! ## Fences and the gang barrier -/

/-- Settles O31: a fence by its mask, `gbar` by its release and by what is still to be cleaned. -/
theorem fenceForms : Obligations.FenceForms := by
  unfold Obligations.FenceForms
  refine ⟨fun s sc m hs hsc => ⟨fun hm => ?_, fun hm => ?_, issues_of_go hs rfl rfl⟩, fun s hs => ⟨fun h => ?_, fun h hd => ?_, fun h hd => ?_⟩⟩
  · have hwf : (Instr.fenceCm sc m).wf = true := by simpa [Instr.wf, wfScope] using hsc
    exact issues_of_go hs (exec_of_wf rfl hwf) (if_neg hm)
  · have hwf : (Instr.fenceCm sc m).wf = true := by simpa [Instr.wf, wfScope] using hsc
    exact issues_of_go hs (exec_of_wf rfl hwf) (if_pos hm)
  · exact holds_of_hold hs rfl (if_neg (by simp [h]))
  · exact issues_of_go hs rfl ((if_pos h).trans (if_pos hd))
  · exact holds_of_hold hs rfl ((if_pos h).trans (if_neg (by simp [hd])))

/-! ## The data-cache split -/

theorem dirtyLines_none (k : Core) : dirtyLines k none = k.dc.filter (fun l => l.dirty ≠ 0) :=
  List.filter_congr fun l _ => by simp [bne, beq_eq_decide]

/-- A well-formed instruction issues with any effect that does the same as its slot's here. -/
theorem issues_of_go_at {i : Instr} {s : State} {op w p : Nat} {sl : Slot} {f g : State → State} (hs : Unblocked s)
    (he : exec i s = single true op w p sl s) (hg : sl ⟨w, p⟩ s = .go g) (hfg : g s = f s) (hp : p ≠ 7 := by decide) : Issues i s w f := by
  have h := issues_of_go hs he hg hp
  rwa [Issues, hfg] at h

/-- The start of a drain, with its cycles written out (R137, R374). -/
theorem startDrain_eq (s : State) (x n : Nat) :
    startDrain x n s =
      let k := coreOf x
      let w := 41 + 2 * ((getC s k).dc.filter (fun l => l.dirty ≠ 0)).length
      addTimer (modX (modC (dropAllocs (drainCache s k) k) k
        (fun c => { c with dcDrain := s.cyc + 41 + 2 * ((getC s k).dc.filter (fun l => l.dirty ≠ 0)).length })) x
        (fun c => { c with await := .phase n (s.cyc + w), lastFrz := 9 })) w .phaseDrainEnd (EvArg.of x) := by
  rw [startDrain]
  simp only [dirtyLines_none, ← Nat.add_assoc]
  rfl

/-- Settles O32: by the regions that the new cache would meet, then by a drain that runs. -/
theorem phaseForm : Obligations.PhaseForm := by
  unfold Obligations.PhaseForm
  intro s p hs hp k w meets
  have hwf : (Instr.phase p).wf = true := by simpa [Instr.wf] using hp
  have hpv : tiVa p.toNat = BitVec.ofNat 64 p.toNat := by rw [tiVa, Nat.mod_eq_of_lt (by omega)]
  refine ⟨fun hm => traps_of_one hs (exec_of_wf rfl hwf) (if_pos hm) (by rw [hpv]; rfl), fun hm hd => ?_, fun hm hd => ?_⟩
  · exact holds_of_hold hs (exec_of_wf rfl hwf) ((if_neg (Bool.eq_false_iff.1 hm)).trans (if_pos hd))
  · exact issues_of_go_at hs (exec_of_wf rfl hwf) ((if_neg (Bool.eq_false_iff.1 hm)).trans (if_neg (Nat.not_lt.2 hd))) (startDrain_eq s s.cur p.toNat)

/-! ## Timelines -/

section

variable {s : State} {sc a : BitVec 3} {b q : BitVec 5} {h : BitVec 4} {env : Env}

theorem tlReached_iff (t n : DWord) : tlReached t n = true ↔ (t - n).toNat < 2 ^ 63 := decide_eq_true_iff

theorem slotTlwait_reached (hr : tlReached (readTl s.ctx a.toNat) (readS s.ctx b) = true) :
    slotTlwait sc a b env s = .go (acquireAfter s.cur sc) := if_pos hr

theorem slotTlwait_waits (hr : ¬ tlReached (readTl s.ctx a.toNat) (readS s.ctx b) = true) :
    slotTlwait sc a b env s
      = check (if tlReached (promised s.ctx a.toNat 4) (readS s.ctx b) then [] else [causeAt cQDEAD 0]) (.hold 1 id) := if_neg hr

theorem slotTlinc_eq : slotTlinc a b env s = check (if 2 ^ 63 ≤ (readS s.ctx b).toNat then [causeAt cBOUND (tiVa (readS s.ctx b).toNat)] else [])
    (.go (fun t => modX t t.cur (fun k => { k with incs := k.incs ++ [⟨a.toNat, (readS s.ctx b).toNat, 0, 0, k.ord, false⟩] }))) := rfl

/-- A poll that its handle serves: satisfied by a value read, or held (R377). -/
theorem slotTlmwait_served (hserve : Serves s (readH s.ctx h.toNat) (readS s.ctx q).toNat 8 8 true false) :
    slotTlmwait sc q b h env s =
      if (s.ctx.poll.map (fun v => tlReached v (readS s.ctx b))).getD false then .go (acquireAfter s.cur sc)
      else .hold 1 (fun t =>
        if (s.ctx.pollTick.map (fun k => decide (s.cicada.toNat ≤ k))).getD false then t
        else modX (addAccess s.cur .poll ((readH s.ctx h.toNat).addrAt (readS s.ctx q).toNat) 8 0 0 0 false (readH s.ctx h.toNat).nc [] t) s.cur
          (fun k => { k with pollTick := some s.cicada.toNat })) := withGlobal_served hserve _

theorem slotTlmsig_served (hserve : Serves s (readH s.ctx h.toNat) (readS s.ctx q).toNat 8 8 true true) :
    slotTlmsig sc q b h env s = .go (addAccess s.cur (.atomic 12 true (readS s.ctx b) 0 false) ((readH s.ctx h.toNat).addrAt (readS s.ctx q).toNat)
      8 0 2 sc false (readH s.ctx h.toNat).nc []) := withGlobal_served hserve _

end

/-- Settles O33: by whether the value is reached, promised, or read. -/
theorem timelineForms : Obligations.TimelineForms := by
  unfold Obligations.TimelineForms
  intro s sc a b d q h hs hsc c hd n reached acquire o
  have hreached : ∀ t, tlReached t n = true ↔ reached t := fun t => tlReached_iff t n
  have hwait : (Instr.tlwait sc a b).wf = true := by simpa [Instr.wf, wfScope] using hsc
  have hmwait : (Instr.tlmwait sc q b h).wf = true := by simpa [Instr.wf, wfScope] using hsc
  have hmsig : (Instr.tlmsig sc q b h).wf = true := by simpa [Instr.wf, wfScope] using hsc
  refine ⟨fun hr => issues_of_go hs (exec_of_wf rfl hwait) (slotTlwait_reached ((hreached _).2 hr)), fun hr hp => ?_, fun hr hp => ?_,
    fun hn => issues_of_go hs rfl ?_, fun hn => traps_of_one hs rfl ?_ rfl, issues_retS hs rfl rfl rfl, fun v hserve hpoll hr => ?_,
    fun hserve hpoll htick => ?_, fun hserve => issues_of_go hs (exec_of_wf rfl hmsig) (slotTlmsig_served hserve)⟩
  · refine holds_of_hold hs (exec_of_wf rfl hwait) ((slotTlwait_waits (mt (hreached _).1 hr)).trans ?_)
    rw [if_pos ((hreached _).2 hp), check_nil]
  · refine traps_of_one hs (exec_of_wf rfl hwait) ((slotTlwait_waits (mt (hreached _).1 hr)).trans ?_) rfl
    rw [if_neg (mt (hreached _).1 hp), check_cons]
    rfl
  · rw [slotTlinc_eq, if_neg (Nat.not_le.2 hn), check_nil]
  · rw [slotTlinc_eq, if_pos hn, check_cons]
    rfl
  · have hv : (c.poll.map (fun v => tlReached v n)).getD false = true := by
      rw [hpoll]
      exact (hreached v).2 hr
    exact issues_of_go hs (exec_of_wf rfl hmwait) ((slotTlmwait_served hserve).trans (if_pos hv))
  · have hv : ¬ (c.poll.map (fun v => tlReached v n)).getD false = true := by simp [hpoll]
    have ht : ¬ (s.ctx.pollTick.map (fun k => decide (s.cicada.toNat ≤ k))).getD false = true := by
      simp [show s.ctx.pollTick = none from htick]
    have hslot := (slotTlmwait_served (sc := sc) (b := b) (env := ⟨1, 1⟩) hserve).trans (if_neg hv)
    simp only [if_neg ht] at hslot
    exact holds_of_hold hs (exec_of_wf rfl hmwait) hslot

end Sys2Proof.Machine
end

section
/-!
SUPPORT AND CERTIFICATE. Vector arithmetic and the forms on element bits (R381 to R390, R397, R398): each is a lane form through a pipe.
-/

set_option Elab.async false

namespace Sys2Proof.Machine

open Sys2Proof

/-! ## A slot through a pipe (R235) -/

section

variable {s : State} {fused : Bool} {occ : Ctx → Nat} {f : Slot} {e : Env} {g : State → State} {l : List Cause}

theorem throughPipe_free (hf : f e s = .go g) (hb : pipeBusy s fused e.pos = false) :
    throughPipe fused occ f e s = .go (fun t => g (takePipe fused e.pos (occ s.ctx) t)) := by simp [throughPipe, hf, hb]

theorem throughPipe_busy (hf : f e s = .go g) (hb : pipeBusy s fused e.pos = true) : throughPipe fused occ f e s = .hold 1 id := by
  simp [throughPipe, hf, hb]

theorem throughPipe_trap (hf : f e s = .trap l) : throughPipe fused occ f e s = .trap l := by simp [throughPipe, hf]

end

/-- The first vector slot's form finds the pipes that it takes free. -/
theorem pipeBusy_free {s : State} {fused : Bool} (h0 : s.core.pipe0 ≤ s.cyc) (h1 : fused = true → s.core.pipe1 ≤ s.cyc) :
    pipeBusy s fused 2 = false := by
  cases fused with
  | false => simpa [pipeBusy] using h0
  | true => simpa [pipeBusy] using ⟨h0, h1 rfl⟩

theorem pipeBusy_held {s : State} {fused : Bool} (h0 : s.cyc < s.core.pipe0) : pipeBusy s fused 2 = true := by simp [pipeBusy, h0]

/-! ## Lane forms (R381, R382) -/

theorem fmtCheck_same {c : Ctx} {t : BitVec 3} (h : (laneFmt t).width = laneBits c) : fmtCheck c t = [] := if_pos h
theorem fmtCheck_other {c : Ctx} {t : BitVec 3} (h : (laneFmt t).width ≠ laneBits c) : fmtCheck c t = [causeAt cFMT 0] := if_neg h

section

variable {i : Instr} {s : State} {op words : Nat} {sl : Slot} {d : BitVec 5} {causes : Ctx → List Cause} {lat occ : Ctx → Nat}
  {k : Nat → Nat} {f : Ctx → Nat → Nat} {fused : Bool} (hs : Unblocked s) (he : exec i s = single true op words 2 sl s)
  (hsl : sl = throughPipe fused occ (laneForm d causes k f))

include hs he hsl

/-- A lane form without a cause issues when its pipes are free. -/
theorem lanes_issue (hc : causes s.ctx = []) (h0 : s.core.pipe0 ≤ s.cyc) (h1 : fused = true → s.core.pipe1 ≤ s.cyc) :
    Issues i s words (fun u => retV d (k (passesOf s.ctx)) (tilePack (laneBits s.ctx) (tab (laneCount s.ctx) (f s.ctx)))
      (lowMask (laneCount s.ctx * laneBits s.ctx / 8)) (takePipe fused 2 (occ s.ctx) u)) := by
  subst hsl
  exact issues_of_go hs he (throughPipe_free (by simp only [laneForm]; rw [hc]; rfl) (pipeBusy_free h0 h1))

/-- A lane form without a cause waits while its pipe is held. -/
theorem lanes_wait (hc : causes s.ctx = []) (h0 : s.cyc < s.core.pipe0) : Holds i s 1 id := by
  subst hsl
  exact holds_of_hold hs he (throughPipe_busy (by simp only [laneForm]; rw [hc]; rfl) (pipeBusy_held h0))

/-- A lane form traps with its lowest cause. -/
theorem lanes_trap {q : Cause} {l : List Cause} (hc : causes s.ctx = q :: l) {r : Cause} (hq : lowestCause (q :: l) = some r) : Traps i s 2 r := by
  subst hsl
  exact traps_of_trap hs he (throughPipe_trap (by simp only [laneForm]; rw [hc]; rfl)) hq

end

section

variable {i : Instr} {s : State} {op words : Nat} {sl : Slot} {d : BitVec 5} {t : BitVec 3} {occ : Ctx → Nat}
  {k : Nat → Nat} {f : Ctx → Nat → Nat} {fused : Bool}

/-- A form of T, by its format and its pipes, with its lanes, latency and occupancy in whatever words they are written. -/
theorem typed_lanes {F : Nat → Nat} {L O : Nat} (hs : Unblocked s) (he : exec i s = single true op words 2 sl s)
    (hsl : sl = throughPipe fused occ (laneForm d (fmtCheck · t) k f)) (hk : k (passesOf s.ctx) = L := by rfl) (ho : occ s.ctx = O := by rfl)
    (hf : f s.ctx = F := by rfl) :
    ((laneFmt t).width = laneBits s.ctx → s.core.pipe0 ≤ s.cyc → (fused = true → s.core.pipe1 ≤ s.cyc) →
      Issues i s words (fun u => retV d L (tilePack (laneBits s.ctx) (tab (laneCount s.ctx) F))
        (lowMask (laneCount s.ctx * laneBits s.ctx / 8)) (takePipe fused 2 O u)))
    ∧ ((laneFmt t).width = laneBits s.ctx → s.cyc < s.core.pipe0 → Holds i s 1 id)
    ∧ ((laneFmt t).width ≠ laneBits s.ctx → Traps i s 2 ⟨0x0A, 0, 0, 0⟩) := by
  subst hk ho hf
  exact ⟨fun hw => lanes_issue hs he hsl (fmtCheck_same hw), fun hw => lanes_wait hs he hsl (fmtCheck_same hw),
    fun hw => lanes_trap hs he hsl (fmtCheck_other hw) rfl⟩

end

/-! ## Arithmetic (R384 to R386) -/

theorem wfArith {r t : BitVec 3} (ht : t.toNat ≤ 4) (hr : r.toNat ≤ 3) : (wfT t && wfRnd r) = true := by simp [wfT, wfRnd, ht, hr]
theorem wfSpecial {r t : BitVec 3} (ht : t.toNat ≤ 2) (hr : r.toNat ≤ 3) : (wfTFloat t && wfRnd r) = true := by simp [wfTFloat, wfRnd, ht, hr]

theorem isIntT_iff {t : BitVec 3} (ht : t.toNat ≤ 4) : isIntT t = true ↔ ¬ t.toNat < 3 := by
  revert t
  decide

/-- The special functions' row (R234): twice the passes in the pipe. -/
theorem vecSpecial_eq (d : BitVec 5) (t : BitVec 3) (f : Ctx → Nat → Nat) :
    vecSpecial d t f = throughPipe false (fun c => 2 * passesOf c) (laneForm d (fmtCheck · t) (fun n => 11 + 2 * n) f) := rfl

/-- Settles O36: each form is a lane form through its pipe, whose lanes are the fields of the registers. -/
theorem vectorArithmeticForms : Obligations.VectorArithmeticForms := by
  unfold Obligations.VectorArithmeticForms
  intro s d a b q r t hs ht hr
  simp -zeta only [← bitsN_eq]
  intro c w m n fm code v rnd form two one three special
  have hn : n = passesOf s.ctx := rfl
  clear_value n
  have ha := wfArith ht hr
  have hsp : t.toNat ≤ 2 → (wfTFloat t && wfRnd r) = true := fun h => wfSpecial h hr
  have hdiv : (fun i => rnd i (if t.toNat < 3 then (v a i).div (v b i) else (v a i).divInt (v b i)))
      = fun i => laneRound t r i (if isIntT t then (laneEx t c a i).divInt (laneEx t c b i) else (laneEx t c a i).div (laneEx t c b i)) := by
    funext i
    by_cases h : t.toNat < 3
    · rw [if_pos h, if_neg (by rw [isIntT_iff ht]; simpa using h)]
      rfl
    · rw [if_neg h, if_pos ((isIntT_iff ht).2 h)]
      rfl
  rw [hdiv]

  subst hn
  exact ⟨typed_lanes hs (exec_of_wf rfl ha) rfl,
    typed_lanes hs (exec_of_wf rfl ha) rfl,
    typed_lanes hs (exec_of_wf rfl ha) rfl,
    typed_lanes hs (exec_of_wf rfl ha) rfl,
    typed_lanes hs (exec_of_wf rfl ha) rfl,
    typed_lanes hs (exec_of_wf rfl ha) rfl,
    typed_lanes hs (exec_of_wf rfl ha) rfl,
    typed_lanes hs (exec_of_wf rfl ha) rfl,
    typed_lanes hs (exec_of_wf rfl ha) rfl,
    typed_lanes hs (exec_of_wf rfl ha) (vecSpecial_eq _ _ _),
    typed_lanes hs (exec_of_wf rfl ha) rfl,
    typed_lanes hs (exec_of_wf rfl ha) rfl,
    typed_lanes hs (exec_of_wf rfl ha) rfl,
    typed_lanes hs (exec_of_wf rfl ha) rfl,
    typed_lanes hs (exec_of_wf rfl ha) rfl,
    fun h => typed_lanes hs (exec_of_wf rfl (hsp h)) (vecSpecial_eq _ _ _),
    fun h => typed_lanes hs (exec_of_wf rfl (hsp h)) (vecSpecial_eq _ _ _),
    fun h => typed_lanes hs (exec_of_wf rfl (hsp h)) (vecSpecial_eq _ _ _),
    fun h => typed_lanes hs (exec_of_wf rfl (hsp h)) (vecSpecial_eq _ _ _),
    fun h => typed_lanes hs (exec_of_wf rfl (hsp h)) (vecSpecial_eq _ _ _),
    fun h => typed_lanes hs (exec_of_wf rfl (hsp h)) (vecSpecial_eq _ _ _),
    fun h => typed_lanes hs (exec_of_wf rfl (hsp h)) (vecSpecial_eq _ _ _),
    fun h => typed_lanes hs (exec_of_wf rfl (hsp h)) (vecSpecial_eq _ _ _)⟩

end Sys2Proof.Machine
end

section
/-!
SUPPORT AND CERTIFICATE. Vector forms on element bits (R387 to R390, R397, R398): each is a lane form through the pipe of its slot.
-/

set_option Elab.async false

namespace Sys2Proof.Machine

open Sys2Proof

section

variable {i : Instr} {s : State} {op words : Nat} {sl : Slot} {d : BitVec 5} {t : BitVec 3} {causes : Ctx → List Cause}
  {k : Nat → Nat} {f : Ctx → Nat → Nat} {F : Nat → Nat} {L : Nat}

/-- A lane form that finds no cause issues or, while its pipe is held, waits. -/
theorem moved_lanes (hs : Unblocked s) (he : exec i s = single true op words 2 sl s)
    (hsl : sl = throughPipe false passesOf (laneForm d causes k f)) (hc : causes s.ctx = []) (hf : f s.ctx = F := by rfl)
    (hk : k (passesOf s.ctx) = L := by rfl) :
    (s.core.pipe0 ≤ s.cyc → Issues i s words (fun u => retV d L (tilePack (laneBits s.ctx) (tab (laneCount s.ctx) F))
      (lowMask (laneCount s.ctx * laneBits s.ctx / 8)) (takePipe false 2 (passesOf s.ctx) u)))
    ∧ (s.cyc < s.core.pipe0 → Holds i s 1 id) := by
  subst hk hf
  exact ⟨fun h => lanes_issue hs he hsl hc h nofun, lanes_wait hs he hsl hc⟩

/-- A lane form of T: where the width of T is the shape's it moves, elsewhere it is FMT. -/
theorem typed_moved_lanes (hs : Unblocked s) (he : exec i s = single true op words 2 sl s)
    (hsl : sl = throughPipe false passesOf (laneForm d (fmtCheck · t) k f)) (hf : f s.ctx = F := by rfl)
    (hk : k (passesOf s.ctx) = L := by rfl) :
    ((laneFmt t).width = laneBits s.ctx →
      (s.core.pipe0 ≤ s.cyc → Issues i s words (fun u => retV d L (tilePack (laneBits s.ctx) (tab (laneCount s.ctx) F))
        (lowMask (laneCount s.ctx * laneBits s.ctx / 8)) (takePipe false 2 (passesOf s.ctx) u)))
      ∧ (s.cyc < s.core.pipe0 → Holds i s 1 id))
    ∧ ((laneFmt t).width ≠ laneBits s.ctx → Traps i s 2 ⟨0x0A, 0, 0, 0⟩) :=
  ⟨fun hw => moved_lanes hs he hsl (fmtCheck_same hw) hf hk, fun hw => lanes_trap hs he hsl (fmtCheck_other hw) rfl⟩

end

theorem vecMove_eq (k : Nat) (d : BitVec 5) (causes : Ctx → List Cause) (f : Ctx → Nat → Nat) :
    vecMove k d causes f = throughPipe false passesOf (laneForm d causes (k + ·) f) := rfl

/-! ## The values of the lanes -/

theorem wfTInt_of_le {t : BitVec 3} (h : 3 ≤ t.toNat) (ht : t.toNat ≤ 4) : wfTInt t = true := by
  simp only [wfTInt, Bool.or_eq_true, decide_eq_true_eq]
  omega

theorem wfT_of_le {t : BitVec 3} (ht : t.toNat ≤ 4) : wfT t = true := decide_eq_true ht

/-- A mask element of a compare is 1 when both values have an order and the relation holds (R388). -/
theorem maskOf_ordered (x y : Ex) (r q : Bool) (h : x.noOrder = false → y.noOrder = false → q = r) :
    maskOf (!x.noOrder && !y.noOrder && q) = if x.noOrder = false ∧ y.noOrder = false ∧ r = true then 1 else 0 := by
  cases hx : x.noOrder
  · cases hy : y.noOrder
    · simp [maskOf, h hx hy]
    · simp [maskOf]
  · simp [maskOf]

theorem eq_of_ordered {x y : Ex} (hx : x.noOrder = false) (hy : y.noOrder = false) : x.eq y = (!x.lt y && !y.lt x) := by simp [Ex.eq, hx, hy]

theorem not_eq_of_ordered {x y : Ex} (hx : x.noOrder = false) (hy : y.noOrder = false) : (!x.eq y) = (x.lt y || y.lt x) := by
  simp [eq_of_ordered hx hy]

theorem present_iff (x : Ex) : x.present = true ↔ x ≠ .absent := by cases x <;> simp [Ex.present]

theorem maskOf_absent (x : Ex) : maskOf (!x.present) = if x = .absent then 1 else 0 := by cases x <;> rfl
theorem maskOf_present (x : Ex) : maskOf x.present = if x ≠ .absent then 1 else 0 := if_congr (present_iff x) rfl rfl
theorem ite_present {α : Type} (x : Ex) (u v : α) : (if x.present then u else v) = if x = .absent then v else u :=
  (if_congr (present_iff x) rfl rfl).trans (ite_not _ _ _)
theorem ite_le_swap {α : Type} (m j : Nat) (u v : α) : (if m ≤ j then u else v) = if j < m then v else u :=
  (if_congr Nat.not_lt.symm rfl rfl).trans (ite_not _ _ _)

/-- The element that `vext` gives, with its sign for an integer format (R398). -/
theorem sextNat_lane {w v : Nat} (h : v < 2 ^ w) : sextNat 64 w v = BitVec.ofInt 64 (toSigned w v) := by
  unfold sextNat toSigned
  rw [Nat.mod_eq_of_lt h]
  split
  · rfl
  · rfl

theorem laneCode_lt (c : Ctx) (r : BitVec 5) (i : Nat) : laneCode c r i < 2 ^ laneBits c := BitVec.isLt _

theorem elemCheck_inside {c : Ctx} {j : Nat} (h : j < laneCount c) : elemCheck c j = [] := if_neg (by omega)
theorem elemCheck_beyond {c : Ctx} {j : Nat} (h : laneCount c ≤ j) : elemCheck c j = [causeAt cBOUND (tiVa j)] := if_pos h

theorem fmtElemCheck_inside {c : Ctx} {t : BitVec 3} {j : Nat} (hw : (laneFmt t).width = laneBits c) (h : j < laneCount c) :
    fmtCheck c t ++ elemCheck c j = [] := by rw [fmtCheck_same hw, elemCheck_inside h, List.append_nil]
theorem fmtElemCheck_beyond {c : Ctx} {t : BitVec 3} {j : Nat} (hw : (laneFmt t).width = laneBits c) (h : laneCount c ≤ j) :
    fmtCheck c t ++ elemCheck c j = [causeAt cBOUND (tiVa j)] := by rw [fmtCheck_same hw, elemCheck_beyond h, List.nil_append]

section

variable {s : State} {d a b : BitVec 5} {t : BitVec 3} (hs : Unblocked s) (ht : t.toNat ≤ 4) (hw : (laneFmt t).width = laneBits s.ctx)

include hs ht hw

theorem vext_inside (hj : (readS s.ctx b).toNat < laneCount s.ctx) (h0 : s.core.pipe0 ≤ s.cyc) :
    Issues (.vext d a b t) s 1 (fun u => retS d (3 + passesOf s.ctx)
      (if 3 ≤ t.toNat then BitVec.ofInt 64 (toSigned (laneBits s.ctx) (laneCode s.ctx a (readS s.ctx b).toNat))
        else BitVec.ofNat 64 (laneCode s.ctx a (readS s.ctx b).toNat)) (takePipe false 2 (passesOf s.ctx) u)) := by
  have hv : (if isIntT t then sextNat 64 (laneBits s.ctx) (laneCode s.ctx a (readS s.ctx b).toNat)
        else BitVec.ofNat 64 (laneCode s.ctx a (readS s.ctx b).toNat))
      = if 3 ≤ t.toNat then BitVec.ofInt 64 (toSigned (laneBits s.ctx) (laneCode s.ctx a (readS s.ctx b).toNat))
        else BitVec.ofNat 64 (laneCode s.ctx a (readS s.ctx b).toNat) := by
    rw [sextNat_lane (laneCode_lt _ _ _)]
    exact if_congr ((isIntT_iff ht).trans Nat.not_lt) rfl rfl
  rw [← hv]
  exact issues_of_go hs (exec_of_wf rfl (wfT_of_le ht)) (throughPipe_free
    (show check _ _ = _ by rw [fmtElemCheck_inside hw hj]; rfl) (pipeBusy_free h0 nofun))

theorem vext_beyond (hj : laneCount s.ctx ≤ (readS s.ctx b).toNat) :
    Traps (.vext d a b t) s 2 ⟨0x06, 0, 0, BitVec.ofNat 64 ((readS s.ctx b).toNat % 2 ^ 56)⟩ :=
  traps_of_one hs (exec_of_wf rfl (wfT_of_le ht)) (throughPipe_trap (show check _ _ = _ by rw [fmtElemCheck_beyond hw hj]; rfl)) rfl

theorem vins_beyond (hj : laneCount s.ctx ≤ (readS s.ctx b).toNat) :
    Traps (.vins d a b t) s 2 ⟨0x06, 0, 0, BitVec.ofNat 64 ((readS s.ctx b).toNat % 2 ^ 56)⟩ :=
  lanes_trap (i := .vins d a b t) hs (exec_of_wf rfl (wfT_of_le ht)) (vecMove_eq _ _ _ _) (fmtElemCheck_beyond hw hj) rfl

end

/-- `vbrow` beyond the rows (R397). -/
theorem vbrow_beyond {s : State} {d a : BitVec 5} {f : BitVec 6} (hs : Unblocked s) (h : shapeRows s.ctx.vshape ≤ f.toNat) :
    Traps (.vbrow d a f) s 2 ⟨0x06, 0, 0, BitVec.ofNat 64 f.toNat⟩ := by
  have hf : tiVa f.toNat = BitVec.ofNat 64 f.toNat := by rw [tiVa, Nat.mod_eq_of_lt (f.isLt.trans (by decide))]
  rw [← hf]
  exact lanes_trap hs rfl (vecMove_eq _ _ _ _) (if_pos h) rfl

/-- Settles O37: each form is a lane form through the pipe; the lanes of a compare, a test and a select are read off their conditions. -/
theorem vectorElementForms : Obligations.VectorElementForms := by
  unfold Obligations.VectorElementForms
  intro s d a b g q t f hs ht
  simp -zeta only [← bitsN_eq]
  intro c w rows cols m n fm code v guard open' tile move typed logic truth cmp j
  have hn : n = passesOf s.ctx := rfl
  clear_value n
  subst hn
  have hwf := wfT_of_le ht
  have hint : 3 ≤ t.toNat → wfTInt t = true := fun h => wfTInt_of_le h ht
  have hmask := fun i r q h => maskOf_ordered (v a i) (v b i) r q h
  exact ⟨fun h => typed_moved_lanes hs (exec_of_wf rfl (hint h)) rfl, fun h => typed_moved_lanes hs (exec_of_wf rfl (hint h)) rfl,
    fun h => typed_moved_lanes hs (exec_of_wf rfl (hint h)) rfl, fun h => typed_moved_lanes hs (exec_of_wf rfl (hint h)) rfl,
    fun h => typed_moved_lanes hs (exec_of_wf rfl (hint h)) rfl, fun h => typed_moved_lanes hs (exec_of_wf rfl (hint h)) rfl,
    typed_moved_lanes hs (exec_of_wf rfl hwf) rfl (funext fun i => hmask i _ _ eq_of_ordered),
    typed_moved_lanes hs (exec_of_wf rfl hwf) rfl (funext fun i => hmask i _ _ not_eq_of_ordered),
    typed_moved_lanes hs (exec_of_wf rfl hwf) rfl (funext fun i => hmask i _ _ fun _ _ => rfl),
    typed_moved_lanes hs (exec_of_wf rfl hwf) rfl (funext fun i => hmask i _ _ fun _ _ => rfl),
    typed_moved_lanes hs (exec_of_wf rfl hwf) rfl (funext fun i => hmask i _ _ fun _ _ => rfl),
    typed_moved_lanes hs (exec_of_wf rfl hwf) rfl (funext fun i => hmask i _ _ fun _ _ => rfl),
    typed_moved_lanes hs (exec_of_wf rfl hwf) rfl (funext fun i => maskOf_absent (v a i)),
    typed_moved_lanes hs (exec_of_wf rfl hwf) rfl (funext fun i => maskOf_present (v a i)),
    typed_moved_lanes hs (exec_of_wf rfl hwf) rfl (funext fun i => ite_present (v a i) _ _),
    moved_lanes hs rfl (vecMove_eq _ _ _ _) rfl,
    moved_lanes hs rfl (vecMove_eq _ _ _ _) rfl (funext fun i => ite_not (code q i = 0) _ _), moved_lanes hs rfl (vecMove_eq _ _ _ _) rfl, moved_lanes hs rfl (vecMove_eq _ _ _ _) rfl, moved_lanes hs rfl (vecMove_eq _ _ _ _) rfl (funext fun i => ite_le_swap m (code b i) _ _),
    fun h => moved_lanes hs rfl (vecMove_eq _ _ _ _) (if_neg (Nat.not_le.2 h)), vbrow_beyond hs,
    fun hw => moved_lanes hs (exec_of_wf rfl hwf) (vecMove_eq _ _ _ _) (fmtCheck_same hw),
    fun hw hj => moved_lanes hs (exec_of_wf rfl hwf) (vecMove_eq _ _ _ _) (fmtElemCheck_inside hw hj),
    fun hw hj h0 => vext_inside hs ht hw hj h0,
    fun hw hj => ⟨vins_beyond hs ht hw hj, vext_beyond hs ht hw hj⟩⟩

end Sys2Proof.Machine
end

section
/-!
SUPPORT AND CERTIFICATE. Reductions, conversion and the tree mask (R391, R392, R399): the lanes that a fold of single lanes leaves, and the
chain of ancestors of a node.
-/

set_option Elab.async false

namespace Sys2Proof.Machine

open Sys2Proof

/-! ## Lanes set one by one (R391) -/

/-- A field of a tile into which one lane alone is put. -/
theorem bitsN_single_lane {w i p v : Nat} (hv : v < 2 ^ w) (hi : w * i + w ≤ 16384) :
    bitsN (BitVec.ofNat 16384 v <<< (w * p) : Tile) (w * i) w = if p = i then v else 0 := by
  apply Nat.eq_of_testBit_eq
  intro b
  rw [testBit_bitsN, BitVec.getLsbD_shiftLeft, BitVec.getLsbD_ofNat]
  have hhigh : ∀ n, w ≤ n → v.testBit n = false := fun n hn =>
    Nat.testBit_lt_two_pow (hv.trans_le (Nat.pow_le_pow_right (by decide) hn))
  by_cases hb : b < w
  · rcases Nat.lt_trichotomy p i with h | rfl | h
    · have hm : w * p + w ≤ w * i := by rw [← Nat.mul_succ]; exact Nat.mul_le_mul_left w h
      rw [if_neg h.ne, hhigh _ (show w ≤ w * i + b - w * p by omega)]
      simp
    · have hs : w * p + b - w * p = b := by omega
      rw [if_pos rfl, hs]
      simp [hb, show w * p + b < 16384 by omega, show b < 16384 by omega]
    · have hm : w * i + w ≤ w * p := by rw [← Nat.mul_succ]; exact Nat.mul_le_mul_left w h
      rw [if_neg h.ne']
      simp
      omega
  · have hz : (if p = i then v else 0).testBit b = false := by
      split
      · exact hhigh b (by omega)
      · exact Nat.zero_testBit b
    simp [hb, hz]

theorem bitsN_or {n : Nat} (u v : BitVec n) (lo w : Nat) : bitsN (u ||| v) lo w = bitsN u lo w ||| bitsN v lo w := by
  apply Nat.eq_of_testBit_eq
  intro b
  rw [Nat.testBit_or, testBit_bitsN, testBit_bitsN, testBit_bitsN, BitVec.getLsbD_or, Bool.and_or_distrib_left]

/-- The tile into which the lane at `at p` of each p of a list is put with the code `val p`. -/
def orLanes {α : Type} (w : Nat) (val pos : α → Nat) (l : List α) : Tile :=
  l.foldl (fun v p => v ||| (BitVec.ofNat 16384 (val p) <<< (w * pos p))) 0

section

variable {α : Type} {w i : Nat} {val pos : α → Nat} {l : List α} (hv : ∀ p, val p < 2 ^ w) (hi : w * i + w ≤ 16384)

include hv hi

theorem bitsN_foldl_lanes_kept (hn : ∀ p ∈ l, pos p ≠ i) (acc : Tile) :
    bitsN (l.foldl (fun v p => v ||| (BitVec.ofNat 16384 (val p) <<< (w * pos p))) acc) (w * i) w = bitsN acc (w * i) w := by
  induction l generalizing acc with
  | nil => rfl
  | cons p l ih =>
    obtain ⟨hp, hl⟩ := List.forall_mem_cons.1 hn
    rw [List.foldl_cons, ih hl, bitsN_or, bitsN_single_lane (hv p) hi, if_neg hp, Nat.or_zero]

/-- A lane that is set to one code, once or more often, from a tile where it holds that code or nothing. -/
theorem bitsN_foldl_lanes_set {x : Nat} (hx : ∀ p ∈ l, pos p = i → val p = x) (acc : Tile)
    (h : bitsN acc (w * i) w = x ∨ bitsN acc (w * i) w = 0 ∧ ∃ p ∈ l, pos p = i) :
    bitsN (l.foldl (fun v p => v ||| (BitVec.ofNat 16384 (val p) <<< (w * pos p))) acc) (w * i) w = x := by
  induction l generalizing acc with
  | nil => simpa using h
  | cons p l ih =>
    obtain ⟨hp, hl⟩ := List.forall_mem_cons.1 hx
    rw [List.foldl_cons]
    apply ih hl
    rw [bitsN_or, bitsN_single_lane (hv p) hi]
    by_cases hpi : pos p = i
    · rw [if_pos hpi, hp hpi]
      rcases h with h | ⟨h, -⟩
      · exact .inl (by rw [h, Nat.or_self])
      · exact .inl (by rw [h, Nat.zero_or])
    · rw [if_neg hpi, Nat.or_zero]
      exact h.imp_right fun ⟨h0, q, hq, hqi⟩ => ⟨h0, q, (List.mem_cons.1 hq).resolve_left (fun e => hpi (e ▸ hqi)), hqi⟩

theorem bitsN_orLanes_set {x : Nat} (hx : ∀ p ∈ l, pos p = i → val p = x) (he : ∃ p ∈ l, pos p = i) :
    bitsN (orLanes w val pos l) (w * i) w = x :=
  bitsN_foldl_lanes_set hv hi hx 0 (.inr ⟨by simp [bitsN], he⟩)

theorem bitsN_orLanes_kept (hn : ∀ p ∈ l, pos p ≠ i) : bitsN (orLanes w val pos l) (w * i) w = 0 :=
  (bitsN_foldl_lanes_kept hv hi hn 0).trans (by simp [bitsN])

end

/-! ## Reductions -/

theorem mem_tab {α : Type} {n : Nat} {f : Nat → α} {x : α} : x ∈ tab n f ↔ ∃ k < n, f k = x := by simp [tab]

theorem map_tab {α β : Type} (g : α → β) (n : Nat) (f : Nat → α) : (tab n f).map g = tab n (fun k => g (f k)) := List.map_map

/-- Where a reduction of a tile writes, and what it reduces (R391). -/
def reductionLines (axis : BitVec 1) (rows cols : Nat) : List (Nat × List Nat) :=
  if axis = 0 then tab rows (fun r => (r * cols, tab cols (fun k => r * cols + k))) else tab cols (fun k => (k, tab rows (fun r => r * cols + k)))

/-- The elements of the line whose result is at element i. -/
def lineOf (axis : BitVec 1) (rows cols i : Nat) : List Nat :=
  if axis = 0 then tab cols (fun k => i / cols * cols + k) else tab rows (fun r => r * cols + i)

/-- Element i gets the result of a line. -/
def lineAt (axis : BitVec 1) (cols i : Nat) : Prop := if axis = 0 then i % cols = 0 else i < cols

section

variable {axis : BitVec 1} {rows cols i : Nat} {p : Nat × List Nat}

theorem line_of_mem (hp : p ∈ reductionLines axis rows cols) (hi : p.1 = i) (hc : 0 < cols) : lineAt axis cols i ∧ p.2 = lineOf axis rows cols i := by
  subst hi
  unfold lineAt lineOf
  by_cases ha : axis = 0
  · rw [reductionLines, if_pos ha] at hp
    rw [if_pos ha, if_pos ha]
    obtain ⟨r, -, rfl⟩ := mem_tab.1 hp
    exact ⟨Nat.mul_mod_left _ _, by simp only [Nat.mul_div_cancel _ hc]⟩
  · rw [reductionLines, if_neg ha] at hp
    rw [if_neg ha, if_neg ha]
    obtain ⟨k, hk, rfl⟩ := mem_tab.1 hp
    exact ⟨hk, rfl⟩

theorem mem_of_lineAt (hi : i < rows * cols) (h : lineAt axis cols i) : ∃ p ∈ reductionLines axis rows cols, p.1 = i := by
  unfold reductionLines
  unfold lineAt at h
  split at h
  · rename_i ha
    rw [if_pos ha]
    exact ⟨_, mem_tab.2 ⟨i / cols, Nat.div_lt_of_lt_mul (by rwa [Nat.mul_comm]), rfl⟩, Nat.div_mul_cancel (Nat.dvd_of_mod_eq_zero h)⟩
  · rename_i ha
    rw [if_neg ha]
    exact ⟨_, mem_tab.2 ⟨i, h, rfl⟩, rfl⟩

end

theorem slotVred_go {s : State} {d a : BitVec 5} {x : BitVec 1} {t : BitVec 3} {f : List Ex → Ex} {w : Nat} (hw : (laneFmt t).width = laneBits s.ctx)
    (h0 : s.core.pipe0 ≤ s.cyc) :
    slotVred d a x t f ⟨w, 2⟩ s = .go (fun z => retV d (7 + passesOf s.ctx)
      (orLanes (laneBits s.ctx) (fun p => roundNum (laneFmt t) .rne (f (p.2.map (laneEx t s.ctx a))) % 2 ^ laneBits s.ctx) (·.1)
        (reductionLines x (shapeRows s.ctx.vshape) (shapeCols s.ctx.vshape)))
      (orLanes (laneBits s.ctx) (fun _ => 2 ^ laneBits s.ctx - 1) (·.1)
        (reductionLines x (shapeRows s.ctx.vshape) (shapeCols s.ctx.vshape))) (takePipe false 2 (passesOf s.ctx) z)) :=
  throughPipe_free (show check _ _ = _ by rw [fmtCheck_same hw]; rfl) (pipeBusy_free h0 nofun)

theorem laneBits_pos (c : Ctx) : 0 < laneBits c := by
  unfold laneBits shapeEsz
  split <;> decide

/-- A reduction issues with each line's result in its element, under the mask of those elements alone. -/
theorem vred_issues {i : Instr} {s : State} {op : Nat} {d a : BitVec 5} {x : BitVec 1} {t : BitVec 3} {f : List Ex → Ex} (hs : Unblocked s)
    (he : exec i s = single true op 1 2 (slotVred d a x t f) s) (h0 : s.core.pipe0 ≤ s.cyc) (hw : (laneFmt t).width = laneBits s.ctx)
    (hfit : laneCount s.ctx * laneBits s.ctx ≤ 16384) :
    ∃ val msk : Tile, Issues i s 1 (fun z => retV d (7 + passesOf s.ctx) val msk (takePipe false 2 (passesOf s.ctx) z))
      ∧ ∀ i < laneCount s.ctx,
        (lineAt x (shapeCols s.ctx.vshape) i →
          bitsN val (laneBits s.ctx * i) (laneBits s.ctx) = roundNum (laneFmt t) .rne
            (f ((lineOf x (shapeRows s.ctx.vshape) (shapeCols s.ctx.vshape) i).map (laneEx t s.ctx a))) % 2 ^ laneBits s.ctx
          ∧ bitsN msk (laneBits s.ctx * i) (laneBits s.ctx) = 2 ^ laneBits s.ctx - 1)
        ∧ (¬ lineAt x (shapeCols s.ctx.vshape) i → bitsN msk (laneBits s.ctx * i) (laneBits s.ctx) = 0) := by
  have hcols : 0 < shapeCols s.ctx.vshape := Nat.succ_pos _
  have hpow : 0 < 2 ^ laneBits s.ctx := Nat.two_pow_pos _
  refine ⟨_, _, issues_of_go hs he (slotVred_go hw h0), fun i hi => ?_⟩
  have hin : laneBits s.ctx * i + laneBits s.ctx ≤ 16384 := by
    rw [← Nat.mul_succ, Nat.mul_comm]
    exact (Nat.mul_le_mul_right _ hi).trans hfit
  refine ⟨fun h => ⟨bitsN_orLanes_set (fun _ => Nat.mod_lt _ hpow) hin (fun p hp hpi => ?_) (mem_of_lineAt hi h),
    bitsN_orLanes_set (fun _ => Nat.sub_lt hpow Nat.one_pos) hin (fun _ _ _ => rfl) (mem_of_lineAt hi h)⟩,
    fun h => bitsN_orLanes_kept (fun _ => Nat.sub_lt hpow Nat.one_pos) hin fun p hp hpi => h (line_of_mem hp hpi hcols).1⟩
  rw [(line_of_mem hp hpi hcols).2]

/-! ## Conversion (R392) -/

theorem fmtChecks_other {c : Ctx} {t u : BitVec 3} (h : (laneFmt t).width ≠ laneBits c ∨ (laneFmt u).width ≠ laneBits c) :
    ∃ l, fmtCheck c t ++ fmtCheck c u = causeAt cFMT 0 :: l ∧ lowestCause (causeAt cFMT 0 :: l) = some (causeAt cFMT 0) := by
  by_cases ht : (laneFmt t).width = laneBits c
  · exact ⟨[], by rw [fmtCheck_same ht, fmtCheck_other (h.resolve_left (not_not.2 ht))]; rfl, rfl⟩
  · by_cases hu : (laneFmt u).width = laneBits c
    · exact ⟨[], by rw [fmtCheck_other ht, fmtCheck_same hu]; rfl, rfl⟩
    · exact ⟨[causeAt cFMT 0], by rw [fmtCheck_other ht, fmtCheck_other hu]; rfl, rfl⟩

/-- The lanes that a conversion gives (R382, R392). -/
def cvtLane (a : BitVec 5) (u t : BitVec 3) (k : CvtExt) (c : Ctx) (i : Nat) : Nat :=
  roundNum (laneFmt u) (modeOf k.rnd.toNat 0 0 (saltOf c k.salt) i) (laneEx t c a i)

theorem slotVcvt_eq (d a : BitVec 5) (u t : BitVec 3) (x : Option CvtExt) :
    slotVcvt d a u t x = throughPipe false passesOf (laneForm d (fun c => fmtCheck c t ++ fmtCheck c u) (5 + ·) (cvtLane a u t (x.getD ⟨0, 0⟩))) := rfl

section

variable {s : State} {d a : BitVec 5} {t u : BitVec 3} {e : Option CvtExt} (hs : Unblocked s) (ht : t.toNat ≤ 4) (hu : u.toNat ≤ 4)

include ht hu

theorem exec_vcvt : exec (.vcvt d a u t e) s = single true 0x2A (xWords e) 2 (slotVcvt d a u t e) s :=
  exec_of_wf rfl (show (wfT t && wfT u) = true by rw [wfT_of_le ht, wfT_of_le hu]; rfl)

include hs

theorem vcvt_issues (hwt : (laneFmt t).width = laneBits s.ctx) (hwu : (laneFmt u).width = laneBits s.ctx) (h0 : s.core.pipe0 ≤ s.cyc) :
    Issues (.vcvt d a u t e) s (xWords e) (fun z => retV d (5 + passesOf s.ctx)
      (tilePack (laneBits s.ctx) (tab (laneCount s.ctx) (cvtLane a u t (e.getD ⟨0, 0⟩) s.ctx)))
      (lowMask (laneCount s.ctx * laneBits s.ctx / 8)) (takePipe false 2 (passesOf s.ctx) z)) :=
  lanes_issue hs (exec_vcvt ht hu) (slotVcvt_eq _ _ _ _ _) (by rw [fmtCheck_same hwt, fmtCheck_same hwu]; rfl) h0 nofun

theorem vcvt_traps (h : (laneFmt t).width ≠ laneBits s.ctx ∨ (laneFmt u).width ≠ laneBits s.ctx) :
    Traps (.vcvt d a u t e) s 2 ⟨0x0A, 0, 0, 0⟩ := by
  obtain ⟨l, hl, hq⟩ := fmtChecks_other h
  exact lanes_trap hs (exec_vcvt ht hu) (slotVcvt_eq _ _ _ _ _) hl hq

end

/-! ## The tree mask -/

/-- The chain of a node is as long as its number, when each node of the chain has a smaller parent (R399). -/
theorem isAncestor_fuel {p : Nat → Int} {cols k : Nat} (hp : ∀ j < cols, p j < (j : Int)) :
    ∀ (n m : Nat) (y : Int), y < cols → y < n → y < m → isAncestor p k n y = isAncestor p k m y
  | 0, 0, _, _, _, _ => rfl
  | 0, m + 1, y, _, hn, _ => by simp [isAncestor, show y < 0 from hn]
  | n + 1, 0, y, _, _, hm => by simp [isAncestor, show y < 0 from hm]
  | n + 1, m + 1, y, hc, hn, hm => by
    by_cases hy : y < 0
    · simp [isAncestor, hy]
    · have hlt := hp y.toNat (by omega)
      rw [isAncestor, isAncestor, if_neg hy, if_neg hy, isAncestor_fuel hp n m _ (by omega) (by omega) (by omega)]

/-- The parent chain as one step of itself. -/
theorem isAncestor_step {p : Nat → Int} {cols k : Nat} (hp : ∀ j < cols, p j < (j : Int)) {y : Int} (hy : 0 ≤ y) (hc : y < cols) :
    isAncestor p k (cols + 1) y = (decide (y = (k : Int)) || isAncestor p k (cols + 1) (p y.toNat)) := by
  have hlt := hp y.toNat (by omega)
  rw [isAncestor, if_neg (by omega), isAncestor_fuel hp cols (cols + 1) (p y.toNat) (by omega) (by omega) (by omega)]

/-- A list of causes whose first has the lowest code. -/
theorem lowestCause_head {q : Cause} {l : List Cause} (h : ∀ e ∈ l, q.code ≤ e.code) : lowestCause (q :: l) = some q := by
  unfold lowestCause
  cases hl : lowestCause l with
  | none => rfl
  | some r => exact if_neg (Nat.not_lt.2 (h r (lowestCause_spec hl).1))

theorem throughPipe_congr {fused : Bool} {occ : Ctx → Nat} {f g : Slot} {e : Env} {s : State} (h : f e s = g e s) :
    throughPipe fused occ f e s = throughPipe fused occ g e s := by rw [throughPipe, h, throughPipe]

/-- The causes of the tree mask (R399). -/
def tmaskCauses (c : Ctx) (a : BitVec 5) : List Cause :=
  let rows := shapeRows c.vshape
  let cols := shapeCols c.vshape
  let q0 : Int := if rows < 2 then 0 else laneInt c a cols
  (if 64 < cols then [causeAt cBOUND (tiVa cols)] else [])
  ++ (match (List.range cols).find? (fun (j : Nat) => decide (Int.ofNat j ≤ laneInt c a j)) with
      | some j => [causeAt cBOUND (tiVa j)]
      | none => [])
  ++ (if q0 < 0 ∨ (cols : Int) < q0 + rows then [causeAt cBOUND (tiVa (BitVec.ofInt 56 q0).toNat)] else [])

theorem slotVtmask_eq (d a : BitVec 5) (e : Env) (s : State) :
    slotVtmask d a e s = throughPipe false (fun _ => 1) (laneForm d (fun _ => tmaskCauses s.ctx a) (fun _ => 6)
      (fun k i => if isAncestor (laneInt k a) (i % shapeCols s.ctx.vshape) (shapeCols s.ctx.vshape + 1)
        ((if shapeRows s.ctx.vshape < 2 then 0 else laneInt s.ctx a (shapeCols s.ctx.vshape)) + (i / shapeCols s.ctx.vshape : Nat)) then 0
        else 2 ^ laneBits k - 1)) e s := throughPipe_congr rfl

theorem tmaskCauses_none {c : Ctx} {a : BitVec 5} (hcols : shapeCols c.vshape ≤ 64) (hp : ∀ j < shapeCols c.vshape, laneInt c a j < (j : Int))
    (h0 : 0 ≤ (if shapeRows c.vshape < 2 then 0 else laneInt c a (shapeCols c.vshape)))
    (h1 : (if shapeRows c.vshape < 2 then 0 else laneInt c a (shapeCols c.vshape)) + shapeRows c.vshape ≤ (shapeCols c.vshape : Int)) :
    tmaskCauses c a = [] := by
  have hf : (List.range (shapeCols c.vshape)).find? (fun (j : Nat) => decide (Int.ofNat j ≤ laneInt c a j)) = none :=
    List.find?_eq_none.2 fun j hj => by
      have := hp j (List.mem_range.1 hj)
      simpa using this
  unfold tmaskCauses
  simp only [hf]
  rw [if_neg (by omega), if_neg (by omega)]
  rfl

theorem eq_of_mem_ite {α : Type} {P : Prop} [Decidable P] {q e : α} (h : e ∈ if P then [q] else []) : e = q := by
  split at h
  · exact List.mem_singleton.1 h
  · cases h

theorem tmaskCauses_wide {c : Ctx} {a : BitVec 5} (h : 64 < shapeCols c.vshape) :
    ∃ l, tmaskCauses c a = causeAt cBOUND (tiVa (shapeCols c.vshape)) :: l ∧ ∀ e ∈ l, e.code = cBOUND := by
  unfold tmaskCauses
  simp only
  rw [if_pos h]
  refine ⟨_, rfl, fun e he => ?_⟩
  rcases List.mem_append.1 he with he | he
  · cases hf : (List.range (shapeCols c.vshape)).find? (fun (j : Nat) => decide (Int.ofNat j ≤ laneInt c a j)) with
    | none =>
      rw [hf] at he
      cases he
    | some j =>
      rw [hf] at he
      rw [List.mem_singleton.1 he]
      rfl
  · rw [eq_of_mem_ite he]
    rfl

theorem shapeCols_le (v : DWord) : shapeCols v ≤ 128 := (v.extractLsb' 8 7).isLt

/-- The query node of a tree mask's first row (R399). -/
def firstQuery (c : Ctx) (a : BitVec 5) : Int := if shapeRows c.vshape < 2 then 0 else laneInt c a (shapeCols c.vshape)

/-- The mask lanes of a tree. -/
def tmaskLane (c : Ctx) (a : BitVec 5) (i : Nat) : Nat :=
  if isAncestor (laneInt c a) (i % shapeCols c.vshape) (shapeCols c.vshape + 1) (firstQuery c a + (i / shapeCols c.vshape : Nat)) then 0
  else 2 ^ laneBits c - 1

section

variable {s : State} {d a : BitVec 5} (hs : Unblocked s)

include hs

theorem vtmask_issues (hc : tmaskCauses s.ctx a = []) (h0 : s.core.pipe0 ≤ s.cyc) :
    Issues (.vtmask d a) s 1 (fun z => retV d 6 (tilePack (laneBits s.ctx) (tab (laneCount s.ctx) (tmaskLane s.ctx a)))
      (lowMask (laneCount s.ctx * laneBits s.ctx / 8)) (takePipe false 2 1 z)) :=
  issues_of_go hs rfl ((slotVtmask_eq d a _ s).trans (throughPipe_free (by simp only [laneForm, hc]; rfl) (pipeBusy_free h0 nofun)))

theorem vtmask_wide (h : 64 < shapeCols s.ctx.vshape) : Traps (.vtmask d a) s 2 ⟨0x06, 0, 0, BitVec.ofNat 64 (shapeCols s.ctx.vshape)⟩ := by
  obtain ⟨l, hl, hcode⟩ := tmaskCauses_wide (a := a) h
  have hlow := lowestCause_head (q := causeAt cBOUND (tiVa (shapeCols s.ctx.vshape))) fun e he => (hcode e he).ge
  have hva : tiVa (shapeCols s.ctx.vshape) = BitVec.ofNat 64 (shapeCols s.ctx.vshape) := by
    rw [tiVa, Nat.mod_eq_of_lt ((shapeCols_le _).trans_lt (by decide))]
  rw [← hva]
  exact traps_of_trap hs rfl ((slotVtmask_eq d a _ s).trans (throughPipe_trap (by simp only [laneForm, hl]; rfl))) hlow

end

/-- Settles O38: a reduction's lanes by the fold that sets them, a conversion as a lane form, the tree mask by the chain of parents. -/
theorem vectorReduceConvertMaskForms : Obligations.VectorReduceConvertMaskForms := by
  unfold Obligations.VectorReduceConvertMaskForms
  intro s d a x t u e hs ht hu h0
  simp -zeta only [← bitsN_eq]
  intro c w rows cols m n code v line red p q0 ok
  have hn : n = passesOf s.ctx := rfl
  clear_value n
  subst hn
  have hred : ∀ {i : Instr} {op : Nat} {f : List Ex → Ex}, exec i s = single i.wf op 1 2 (slotVred d a x t f) s → i.wf = true → red i f := by
    intro i op f he hwf hw hfit
    obtain ⟨val, msk, hi, hl⟩ := vred_issues hs (exec_of_wf he hwf) h0 hw hfit
    refine ⟨val, msk, hi, fun i him => ?_⟩
    obtain ⟨hset, hkept⟩ := hl i him
    have hline : (lineOf x rows cols i).map (laneEx t c a) = line (if x = 0 then i / cols else i) := by
      unfold lineOf
      by_cases hx : x = 0
      · simp only [line, if_pos hx, map_tab]
        rfl
      · simp only [line, if_neg hx, map_tab]
        rfl
    by_cases hat : lineAt x cols i
    · obtain ⟨hval, hmsk⟩ := hset hat
      exact (if_pos hat).mpr ⟨hval.trans (congrArg (fun l => roundNum (laneFmt t) .rne (f l) % 2 ^ w) hline), hmsk⟩
    · exact (if_neg hat).mpr (hkept hat)
  have hwf := wfT_of_le ht
  refine ⟨hred (i := .vredSum d a x t) rfl hwf, hred (i := .vredMax d a x t) rfl hwf, hred (i := .vredMin d a x t) rfl hwf,
    hred (i := .vredMean d a x t) rfl hwf, hred (i := .vredCount d a x t) rfl hwf, fun hwt hwu => vcvt_issues hs ht hu hwt hwu h0,
    vcvt_traps hs ht hu, fun ⟨hc, hp, hq, hr⟩ => ?_, vtmask_wide hs⟩
  exact ⟨fun k y => isAncestor (laneInt c a) k (cols + 1) y, vtmask_issues hs (tmaskCauses_none hc hp hq hr) h0,
    fun k _ y hy => ⟨fun h => by simp [isAncestor, h], fun h => isAncestor_step hp h hy⟩⟩

end Sys2Proof.Machine
end

section
/-!
SUPPORT AND CERTIFICATE. Vector loads and stores through tensor windows (R393 to R396): their checks, and what passes them.
-/

set_option Elab.async false

namespace Sys2Proof.Machine

open Sys2Proof

/-! ## Checks of a window (R134, R393, R394) -/

section

variable {s : State} {w o n : Nat}

theorem windowBad_none (hin : o + n ≤ twSize (readTw s.ctx w)) (ho : tsOpen s.ctx s.core (twBase (readTw s.ctx w) + o) n = true) :
    windowBad s s.cur w o n = none := if_pos ⟨hin, ho⟩

theorem windowMoveCheck_inside (ha : o % 64 = 0) (h0 : 0 < twSize (readTw s.ctx w)) (hin : o + n ≤ twSize (readTw s.ctx w))
    (ho : tsOpen s.ctx s.core (twBase (readTw s.ctx w) + o) n = true) : windowMoveCheck s s.cur w o n = [] := by
  simp only [windowMoveCheck, windowBad_none hin ho, ha, if_neg h0.ne']
  rfl

theorem windowMoveCheck_misaligned (ha : o % 64 ≠ 0) :
    ∃ l, windowMoveCheck s s.cur w o n = causeAt cALIGN (tiVa o) :: l
      ∧ lowestCause (causeAt cALIGN (tiVa o) :: l) = some (causeAt cALIGN (tiVa o)) := by
  rw [windowMoveCheck, if_neg ha]
  refine ⟨_, rfl, lowestCause_head fun e he => ?_⟩
  have hle : cALIGN ≤ cBOUND := by decide
  split at he
  · rw [List.mem_singleton.1 he]
    exact hle
  · split at he
    · rw [List.mem_singleton.1 he]
      exact hle
    · cases he

theorem windowMoveCheck_empty (ha : o % 64 = 0) (h0 : twSize (readTw s.ctx w) = 0) :
    windowMoveCheck s s.cur w o n = [⟨cBOUND, 0, w, tiVa o⟩] := by
  rw [windowMoveCheck, if_pos ha, if_pos h0, List.nil_append]

end

theorem windowBad_inWindow {s : State} {w : BitVec 4} {o n : Nat} (h : InWindow s w o n) : windowBad s s.cur w.toNat o n = none := by
  obtain ⟨-, -, hin, -, ho⟩ := h
  exact windowBad_none (by exact_mod_cast hin) (by exact_mod_cast ho)

theorem rangesBad_none {s : State} {w : BitVec 4} {l : List (Nat × Nat)} (h : ∀ r ∈ l, InWindow s w r.1 r.2) : rangesBad s s.cur w.toNat l = none := by
  rw [rangesBad, List.filterMap_eq_nil_iff.2 fun r hr => windowBad_inWindow (h r hr)]
  rfl

/-- The alignment of a sequence of elements to bytes and to scale blocks (R394). -/
def SeqAligned (f : NumFmt) (scaled : Bool) (e0 m : Nat) : Prop :=
  if scaled then e0 % 32 = 0 ∧ m % 32 = 0 else f.cont = 4 → e0 % 2 = 0 ∧ m % 2 = 0

theorem seqCheck_none {s : State} {w : BitVec 4} {f : NumFmt} {scaled : Bool} {e0 m : Nat}
    (hr : ∀ r ∈ seqRanges scaled f.cont e0 m, InWindow s w r.1 r.2) (ha : SeqAligned f scaled e0 m) :
    seqCheck s s.cur w.toNat f scaled true e0 m = [] := by
  have hstart : ¬ ((f.cont = 4 ∧ (!scaled) = true ∧ e0 % 2 = 1) ∨ (scaled = true ∧ e0 % 32 ≠ 0)) := by
    cases scaled <;> simp [SeqAligned] at ha ⊢ <;> omega
  have hcount : ¬ (True ∧ ((f.cont = 4 ∧ (!scaled) = true ∧ m % 2 = 1) ∨ (scaled = true ∧ m % 32 ≠ 0))) := by
    cases scaled <;> simp [SeqAligned] at ha ⊢ <;> omega
  simp only [seqCheck]
  rw [rangesBad_none hr, if_neg hstart, if_neg hcount]
  rfl

/-! ## Whole tiles (R393) -/

section

variable {s : State} {g d a b : BitVec 5} {w : BitVec 4} {x : Option (BitVec 18)} {e : Env} {l : List Cause}

theorem slotVld_clean (hc : windowMoveCheck s s.cur w.toNat (vmOff s.ctx a x) (vecBytes s.ctx) = [])
    (hp : poisonTs s s.cur (twBase (readTw s.ctx w.toNat) + vmOff s.ctx a x) (vecBytes s.ctx) = false) :
    slotVld d a w x e s = .go (retV d 4 (tileOf (loadTs s s.cur (twBase (readTw s.ctx w.toNat) + vmOff s.ctx a x) (vecBytes s.ctx)))
      (lowMask (vecBytes s.ctx))) := by
  simp only [slotVld]
  rw [hc, check_nil, hp]
  rfl

theorem slotVld_trap {q : Cause} (hc : windowMoveCheck s s.cur w.toNat (vmOff s.ctx a x) (vecBytes s.ctx) = q :: l) :
    slotVld d a w x e s = .trap (q :: l) := by
  simp only [slotVld]
  rw [hc, check_cons]

theorem slotVst_on (hg : guardOn s.ctx g = true) (hc : windowMoveCheck s s.cur w.toNat (vmOff s.ctx a x) (vecBytes s.ctx) = []) :
    slotVst g a b w x e s = .go (fun t => storeTs t t.cur (twBase (readTw s.ctx w.toNat) + vmOff s.ctx a x)
      (tileBytes (readV s.ctx b) (vecBytes s.ctx)) false) := by
  refine (guarded_on hg).trans ?_
  simp only
  rw [hc, check_nil]

theorem slotVst_trap {q : Cause} (hg : guardOn s.ctx g = true) (hc : windowMoveCheck s s.cur w.toNat (vmOff s.ctx a x) (vecBytes s.ctx) = q :: l) :
    slotVst g a b w x e s = .trap (q :: l) := by
  refine (guarded_on hg).trans ?_
  simp only
  rw [hc, check_cons]

end

/-! ## Converted elements (R394 to R396) -/

section

variable {s : State} {g d a b : BitVec 5} {w : BitVec 4} {f : NumFmt}

/-- What the checks of a converting move ask for. -/
def SeqFits (s : State) (w : BitVec 4) (f : NumFmt) (a : BitVec 5) (t : BitVec 3) : Prop :=
  (laneFmt t).width = laneBits s.ctx
  ∧ (∀ r ∈ seqRanges (thrBscale (windowRecord s s.cur w.toNat)) f.cont (readS s.ctx a).toNat (laneCount s.ctx), InWindow s w r.1 r.2)
  ∧ SeqAligned f (thrBscale (windowRecord s s.cur w.toNat)) (readS s.ctx a).toNat (laneCount s.ctx)

/-- The lanes that a converting load gives (R395). -/
def vldcLane (s : State) (a : BitVec 5) (w : BitVec 4) (x : VldcExt) (f : NumFmt) (i : Nat) : Nat :=
  roundNum (laneFmt x.t) (modeOf x.rnd.toNat 0 0 (saltOf s.ctx x.salt) i)
    (seqEx s s.cur (twBase (readTw s.ctx w.toNat)) f (thrBscale (windowRecord s s.cur w.toNat)) ((readS s.ctx a).toNat + i))

theorem vldc_issues {x : VldcExt} (hs : Unblocked s) (hf : thrFmt (windowRecord s s.cur w.toNat) = some f) (ht : x.t.toNat ≤ 4)
    (hfit : SeqFits s w f a x.t) (h0 : s.core.pipe0 ≤ s.cyc)
    (hp : ∀ r ∈ seqRanges (thrBscale (windowRecord s s.cur w.toNat)) f.cont (readS s.ctx a).toNat (laneCount s.ctx),
      poisonTs s s.cur (twBase (readTw s.ctx w.toNat) + r.1) r.2 = false) :
    Issues (.vldc d a w x) s 2 (fun t => retV d (5 + passesOf s.ctx) (tilePack (laneBits s.ctx) (tab (laneCount s.ctx) (vldcLane s a w x f)))
      (lowMask (vecBytes s.ctx)) (useThr (takePipe false 2 (passesOf s.ctx) t))) := by
  obtain ⟨hw, hr, ha⟩ := hfit
  have hbad := List.find?_eq_none.2 fun r hr => by simpa using hp r hr
  refine issues_of_go hs (exec_of_wf rfl (wfT_of_le ht)) (throughPipe_free (g := fun t => retV d (5 + passesOf s.ctx)
    (tilePack (laneBits s.ctx) (tab (laneCount s.ctx) (vldcLane s a w x f))) (lowMask (vecBytes s.ctx)) (useThr t)) ?_ (pipeBusy_free h0 nofun))
  simp only [hf, fmtCheck_same hw, seqCheck_none hr ha, hbad]
  rfl

theorem vldc_raw {x : VldcExt} (hs : Unblocked s) (hf : thrFmt (windowRecord s s.cur w.toNat) = none) (ht : x.t.toNat ≤ 4)
    (hw : (laneFmt x.t).width = laneBits s.ctx) : Traps (.vldc d a w x) s 2 ⟨0x0A, 0, twThr (readTw s.ctx w.toNat), 0⟩ :=
  traps_of_one hs (exec_of_wf rfl (wfT_of_le ht)) (throughPipe_trap (by simp only [hf, fmtCheck_same hw]; rfl)) rfl

/-- The bytes that a converting store writes (R396). -/
def vstcCells (s : State) (a b : BitVec 5) (w : BitVec 4) (y : VstcExt) (f : NumFmt) : List (Nat × Byte) :=
  let rc := windowRecord s s.cur w.toNat
  let e0 := (readS s.ctx a).toNat
  encodeSeq f (thrBscale rc) (fun i => modeOf y.rnd.toNat (thrRmode rc) (thrKey rc) (saltOf s.ctx y.salt) (e0 + i))
    (twBase (readTw s.ctx w.toNat)) e0 (rotateAll (thrSeed rc) (thrRot rc) (readS s.ctx y.kb).toNat (tab (laneCount s.ctx) (laneEx y.t s.ctx b)))

theorem rot_ok {r m kb : Nat} (h : r = 0 ∨ m % (4 * 4 ^ r) = 0 ∧ kb % (4 * 4 ^ r) = 0) :
    ¬ (r ≠ 0 ∧ (m % rotLen r ≠ 0 ∨ kb % rotLen r ≠ 0)) := by
  unfold rotLen
  rcases h with h | ⟨hm, hk⟩
  · simp [h]
  · rintro ⟨h0, hbad⟩
    rw [if_neg h0, hm, hk] at hbad
    simp at hbad

theorem vstc_issues {y : VstcExt} (hs : Unblocked s) (hf : thrFmt (windowRecord s s.cur w.toNat) = some f) (ht : y.t.toNat ≤ 4)
    (hfit : SeqFits s w f a y.t) (h0 : s.core.pipe0 ≤ s.cyc) (hg : guardOn s.ctx g = true)
    (hrot : thrRot (windowRecord s s.cur w.toNat) = 0 ∨ laneCount s.ctx % (4 * 4 ^ thrRot (windowRecord s s.cur w.toNat)) = 0
      ∧ (readS s.ctx y.kb).toNat % (4 * 4 ^ thrRot (windowRecord s s.cur w.toNat)) = 0) :
    Issues (.vstc g a b w y) s 2 (fun t => modX (useThr (takePipe false 2 (passesOf s.ctx) t)) s.cur (fun q =>
      q.addResult (5 + rotLog (thrRot (windowRecord s s.cur w.toNat)) / 2 + passesOf s.ctx + 1) (.tile (vstcCells s a b w y f)) 0 .done)) := by
  obtain ⟨hw, hr, ha⟩ := hfit
  refine issues_of_go_at hs (exec_of_wf rfl (wfT_of_le ht)) ((guarded_on hg).trans (throughPipe_free
    (g := fun t => modX (useThr t) t.cur (fun k => k.addResult (5 + rotLog (thrRot (windowRecord s s.cur w.toNat)) / 2 + passesOf s.ctx + 1)
      (.tile (vstcCells s a b w y f)) 0 .done)) ?_ (pipeBusy_free h0 nofun))) rfl
  simp only [hf, fmtCheck_same hw, seqCheck_none hr ha, if_neg (rot_ok hrot)]
  rfl

end

/-- Settles O39: the checks of the window, then the bytes or the converted elements. -/
theorem vectorWindowForms : Obligations.VectorWindowForms := by
  unfold Obligations.VectorWindowForms
  intro s g d a b w x l y f hs hl hy
  simp -zeta only [← bitsN_eq]
  intro c k n m lw n' tw o at' words holds inside rc e0 v salt kb fits
  have hn : n' = passesOf s.ctx := rfl
  clear_value n'
  subst hn
  refine ⟨fun ⟨ha, h0, hin, ho⟩ hp => issues_of_go hs rfl (slotVld_clean (windowMoveCheck_inside ha h0 hin ho) hp),
    fun ⟨ha, h0, hin, ho⟩ hg => issues_of_go_at hs rfl (slotVst_on hg (windowMoveCheck_inside ha h0 hin ho)) rfl,
    fun hg => ⟨issues_of_go hs rfl (guarded_off hg), issues_of_go hs (exec_of_wf rfl (wfT_of_le hy)) (guarded_off hg)⟩,
    fun ha => ?_, fun ha h0 => ?_, fun hf hfit h0 hp => vldc_issues hs hf hl hfit h0 hp,
    fun hf hfit h0 hrot hg => vstc_issues hs hf hy hfit h0 hg hrot, fun hf hw => vldc_raw hs hf hl hw⟩
  · obtain ⟨q, hc, hq⟩ := windowMoveCheck_misaligned (s := s) (w := w.toNat) (n := n) ha
    exact ⟨traps_of_trap hs rfl (slotVld_trap hc) hq, fun hg => traps_of_trap hs rfl (slotVst_trap hg hc) hq⟩
  · have hc := windowMoveCheck_empty (n := n) ha h0
    exact ⟨traps_of_trap hs rfl (slotVld_trap hc) rfl, fun hg => traps_of_trap hs rfl (slotVst_trap hg hc) rfl⟩

end Sys2Proof.Machine
end

section
/-!
SUPPORT AND CERTIFICATE. Matrix and scale instructions (R404 to R406, R410, R412 to R416): what each check finds, then the effect.
-/

set_option Elab.async false

namespace Sys2Proof.Machine

open Sys2Proof

theorem check_of_nil {l : List Cause} {k : SlotOut} (h : l = []) : check l k = k := by rw [h, check_nil]
theorem check_of_cons {l r : List Cause} {q : Cause} {k : SlotOut} (h : l = q :: r) : check l k = .trap (q :: r) := by rw [h, check_cons]

/-! ## Tiles (R199, R401, R410) -/

section

variable {s : State} {t : BitVec 3} {pt : Nat}

theorem tileCheck_allotted {c : Ctx} (h : tileOfAcm c.acm t.toNat = some pt) : tileCheck c t = [] := by
  rw [tileCheck, h]
  rfl

theorem physTile_allotted {c : Ctx} (h : tileOfAcm c.acm t.toNat = some pt) : physTile c t = pt := by
  rw [physTile, h]
  rfl

theorem tileCheck_beyond {c : Ctx} (h : tileOfAcm c.acm t.toNat = none) : tileCheck c t = [⟨cBOUND, 0, t.toNat, 0⟩] := by
  rw [tileCheck, h]
  rfl

theorem busyCheck_idle (h : tileOfAcm s.ctx.acm t.toNat = some pt) (hi : (getAcc s.core pt).busy = []) : busyCheck s t = [] := by
  simp only [busyCheck, h, hi]
  rfl

theorem busyCheck_busy (h : tileOfAcm s.ctx.acm t.toNat = some pt) (hi : ¬ (getAcc s.core pt).busy = []) : busyCheck s t = [⟨cSCHED, 1, t.toNat, 0⟩] := by
  simp only [busyCheck, h]
  exact if_neg (by simpa using hi)

theorem busyCheck_beyond (h : tileOfAcm s.ctx.acm t.toNat = none) : busyCheck s t = [] := by
  simp only [busyCheck, h]

end

/-! ## Loading a plane (R403 to R405) -/

theorem planeUsed_eq (k : Core) (p : Nat) :
    planeUsed k p = (k.inArray.any (fun q => q.2.1 == p) || (match k.entry with | some q => q.plane == p | none => false)) := by
  rw [planeUsed, Bool.or_comm]
  cases k.entry with
  | none => rfl
  | some q => rfl

/-- The first byte of a plane's sequence, its scales with it (R404). -/
def planeStart (sc : Bool) (f : NumFmt) (e0 : Nat) : Nat := elemBit sc f.cont e0 / 8 - (if sc then 32 else 0)
/-- The bytes of a plane's sequence. -/
def planeBytes (sc : Bool) (f : NumFmt) : Nat := if sc then 128 * kbOf f.cont / 1024 * (32 + 128 * f.cont) else 128 * kbOf f.cont * f.cont / 8
/-- The alignment of a plane's first element. -/
def PlaneAligned (sc : Bool) (f : NumFmt) (e0 : Nat) : Prop := if sc then e0 % 1024 = 0 else e0 * f.cont % 512 = 0

/-- The checks of a plane's load (R404). -/
def planeCauses (s : State) (nMajor : Bool) (a : BitVec 5) (w : BitVec 4) (f : NumFmt) : List Cause :=
  let tw := readTw s.ctx w.toNat
  let sc := thrBscale (windowRecord s s.cur w.toNat)
  let e0 := (readS s.ctx a).toNat
  (if !nMajor && sc then [⟨cFMT, 0, twThr tw, 0⟩] else [])
    ++ (if (if sc then e0 % 1024 ≠ 0 else e0 * f.cont % 512 ≠ 0) then [causeAt cALIGN (tiVa e0)] else [])
    ++ (if twSize tw = 0 then [⟨cBOUND, 0, w.toNat, tiVa e0⟩]
      else match windowBad s s.cur w.toNat (planeStart sc f e0) (planeBytes sc f) with
        | some ad => [⟨cBOUND, 0, w.toNat, tiVa ad⟩]
        | none => [])

/-- The plane that a load lands, when its rounds have ended. -/
def landing (s : State) (nMajor : Bool) (a : BitVec 5) (w : BitVec 4) (f : NumFmt) (t : State) : State :=
  let r := windowRecord s s.cur w.toNat
  let e0 := (readS s.ctx a).toNat
  modC (useThr t) (coreOf s.cur) (fun q => { q with loads := q.loads ++ [(s.cyc + 1, s.cur, targetPlane s s.cur,
    { els := planeEls s s.cur (twBase (readTw s.ctx w.toNat)) f.cont e0 (thrBscale r) nMajor, thr := r, owner := some s.cur, form := nMajor,
      win := w, e0 := e0 })] })

section

variable {s : State} {nMajor : Bool} {a : BitVec 5} {w : BitVec 4} {f : NumFmt} {e : Env}

theorem loadPlane_raw (hf : matFmt (windowRecord s s.cur w.toNat) = none) :
    loadPlane nMajor a w e s = .trap [⟨cFMT, 0, twThr (readTw s.ctx w.toNat), 0⟩] := by simp only [loadPlane, hf]

theorem planeCauses_none (hm : nMajor = true ∨ thrBscale (windowRecord s s.cur w.toNat) = false)
    (ha : PlaneAligned (thrBscale (windowRecord s s.cur w.toNat)) f (readS s.ctx a).toNat)
    (hin : InWindow s w (planeStart (thrBscale (windowRecord s s.cur w.toNat)) f (readS s.ctx a).toNat)
      (planeBytes (thrBscale (windowRecord s s.cur w.toNat)) f)) : planeCauses s nMajor a w f = [] := by
  have hfmt : ¬ (!nMajor && thrBscale (windowRecord s s.cur w.toNat)) = true := by rcases hm with h | h <;> simp [h]
  have hal : ¬ (if thrBscale (windowRecord s s.cur w.toNat) then (readS s.ctx a).toNat % 1024 ≠ 0 else (readS s.ctx a).toNat * f.cont % 512 ≠ 0) := by
    unfold PlaneAligned at ha
    split at ha <;> simp [*]
  simp only [planeCauses]
  rw [if_neg hfmt, if_neg hal, if_neg hin.1.ne', windowBad_inWindow hin]
  rfl

theorem planeCauses_misaligned (ha : ¬ PlaneAligned (thrBscale (windowRecord s s.cur w.toNat)) f (readS s.ctx a).toNat)
    (hm : thrBscale (windowRecord s s.cur w.toNat) = false) :
    ∃ l, planeCauses s nMajor a w f = causeAt cALIGN (tiVa (readS s.ctx a).toNat) :: l
      ∧ lowestCause (causeAt cALIGN (tiVa (readS s.ctx a).toNat) :: l) = some (causeAt cALIGN (tiVa (readS s.ctx a).toNat)) := by
  have hal : (if thrBscale (windowRecord s s.cur w.toNat) then (readS s.ctx a).toNat % 1024 ≠ 0 else (readS s.ctx a).toNat * f.cont % 512 ≠ 0) := by
    rw [PlaneAligned, hm] at ha
    rw [hm]
    exact ha
  have hfmt : ¬ (!nMajor && thrBscale (windowRecord s s.cur w.toNat)) = true := by simp [hm]
  have hle : cALIGN ≤ cBOUND := by decide
  simp only [planeCauses]
  rw [if_neg hfmt, if_pos hal]
  refine ⟨_, rfl, lowestCause_head fun e he => ?_⟩
  split at he
  · rw [List.mem_singleton.1 he]
    exact hle
  · split at he
    · rw [List.mem_singleton.1 he]
      exact hle
    · cases he

theorem loadPlane_trap (hf : matFmt (windowRecord s s.cur w.toNat) = some f) {q : Cause} {l : List Cause} (hc : planeCauses s nMajor a w f = q :: l) :
    loadPlane nMajor a w e s = .trap (q :: l) := by
  simp only [loadPlane, hf]
  exact check_of_cons hc

theorem loadPlane_waits (hf : matFmt (windowRecord s s.cur w.toNat) = some f) (hc : planeCauses s nMajor a w f = [])
    (hu : planeUsed s.core (targetPlane s s.cur) = true) : loadPlane nMajor a w e s = .hold 1 id := by
  simp only [loadPlane, hf]
  exact (check_of_nil hc).trans (if_pos hu)

theorem loadPlane_lands (hf : matFmt (windowRecord s s.cur w.toNat) = some f) (hc : planeCauses s nMajor a w f = [])
    (hu : planeUsed s.core (targetPlane s s.cur) = false)
    (hp : poisonTs s s.cur (twBase (readTw s.ctx w.toNat) + planeStart (thrBscale (windowRecord s s.cur w.toNat)) f (readS s.ctx a).toNat)
      (planeBytes (thrBscale (windowRecord s s.cur w.toNat)) f) = false) :
    loadPlane nMajor a w e s = .go (landing s nMajor a w f) := by
  simp only [loadPlane, hf]
  exact (check_of_nil hc).trans ((if_neg (by simp [hu])).trans (if_neg (Bool.eq_false_iff.1 hp)))

end
/-! ## The matrix product (R406, R410) -/

/-- The indices of a product's rows. -/
def rowIndices (c : Ctx) (a : BitVec 5) : List Nat := tab (laneCount c) (fun j => lane 16 (readV c a) j)

/-- The causes of an operand's format and rows (R402, R406). -/
def operandCauses (s : State) (a : BitVec 5) (w : BitVec 4) : List Cause :=
  let c := s.ctx
  let tw := readTw c w.toNat
  let r := windowRecord s s.cur w.toNat
  match matFmt r with
  | none => [⟨cFMT, 0, twThr tw, 0⟩]
  | some f => (match c.front, matFmt (getPlane s.core (c.front.getD 0)).thr with
    | some _, some g => if f.cont = g.cont then [] else [⟨cFMT, 0, twThr tw, 0⟩]
    | _, _ => []) ++ (if laneCount c ≤ 128 then rowsBad s s.cur w.toNat (thrBscale r) f.cont (rowIndices c a) else [])

/-- The causes of a product before and after those of its operands. -/
def mmaCauses (s : State) (chain : Bool) (t : BitVec 3) (a : BitVec 5) (w : BitVec 4) : List Cause :=
  tileCheck s.ctx t ++ (match s.ctx.front with | none => [⟨cSCHED, 1, 8, 0⟩] | some _ => []) ++ (if chain then [] else busyCheck s t)
    ++ (if laneBits s.ctx = 16 then [] else [⟨cFMT, 0, 0, 0⟩]) ++ operandCauses s a w
    ++ (if 128 < laneCount s.ctx then [causeAt cBOUND (tiVa (laneCount s.ctx))] else [])

/-- A product enters the entry stage, and its tile is busy (R406). -/
def entering (s : State) (pt : Nat) (a : BitVec 5) (w : BitVec 4) (u : State) : State :=
  modC (useThr { u with nextId := u.nextId + 1 }) (coreOf s.cur) (fun q =>
    setAcc { q with entry := some { id := u.nextId, x := s.cur, t := pt, plane := s.ctx.front.getD 0, tw := readTw s.ctx w.toNat,
                                    thr := windowRecord s s.cur w.toNat, idx := rowIndices s.ctx a, step := s.core.step, entered := 0 } }
      pt { getAcc q pt with busy := (getAcc q pt).busy ++ [u.nextId] })

/-- What a product asks of its operands. -/
structure MmaOperands (s : State) (a : BitVec 5) (w : BitVec 4) (f : NumFmt) : Prop where
  fmt : matFmt (windowRecord s s.cur w.toNat) = some f
  plane : ∃ g, matFmt (getPlane s.core (s.ctx.front.getD 0)).thr = some g ∧ g.cont = f.cont
  width : shapeEsz s.ctx.vshape = 2
  rows : laneCount s.ctx ≤ 128
  inside : ∀ i ∈ rowIndices s.ctx a, i ≠ 0xFFFF →
    InWindow s w (elemBit (thrBscale (windowRecord s s.cur w.toNat)) f.cont (i * (2048 / f.cont)) / 8 : Nat) 256
  loaded : s.ctx.front.isSome = true

section

variable {s : State} {chain : Bool} {t : BitVec 3} {a : BitVec 5} {w : BitVec 4} {f : NumFmt} {pt : Nat} {e : Env} {l : List Cause} {q : Cause}

theorem startMma_trap (hc : mmaCauses s chain t a w = q :: l) : startMma chain t a w e s = .trap (q :: l) := check_of_cons hc

theorem rowsBad_none {sc : Bool} {ct : Nat} {idx : List Nat}
    (h : ∀ i ∈ idx, i ≠ 0xFFFF → InWindow s w (elemBit sc ct (i * (2048 / ct)) / 8 : Nat) 256) : rowsBad s s.cur w.toNat sc ct idx = [] := by
  have hf : (idx.filter (fun i => i != 0xFFFF)).find? (fun i => (windowBad s s.cur w.toNat (elemBit sc ct (i * kbOf ct) / 8) 256).isSome) = none :=
    List.find?_eq_none.2 fun i hi => by
      obtain ⟨hm, hne⟩ := List.mem_filter.1 hi
      rw [kbOf, windowBad_inWindow (h i hm (by simpa using hne))]
      decide
  simp only [rowsBad, hf]

theorem operandCauses_none (h : MmaOperands s a w f) : operandCauses s a w = [] := by
  obtain ⟨g, hg, hgf⟩ := h.plane
  obtain ⟨p, hp⟩ := Option.isSome_iff_exists.1 h.loaded
  rw [hp] at hg
  simp only [operandCauses, h.fmt, hp, hg, hgf, if_true, if_pos h.rows, rowsBad_none h.inside, List.append_nil]

theorem laneBits_two {c : Ctx} (h : shapeEsz c.vshape = 2) : laneBits c = 16 := by rw [laneBits, h]

theorem mmaCauses_none (h : MmaOperands s a w f) (ht : tileOfAcm s.ctx.acm t.toNat = some pt) (hb : chain = true ∨ (getAcc s.core pt).busy = []) :
    mmaCauses s chain t a w = [] := by
  obtain ⟨p, hp⟩ := Option.isSome_iff_exists.1 h.loaded
  have hbusy : (if chain then [] else busyCheck s t) = [] := by
    rcases hb with hb | hb
    · rw [if_pos hb]
    · rw [busyCheck_idle ht hb, ite_self]
  simp only [mmaCauses, tileCheck_allotted ht, hp, hbusy, if_pos (laneBits_two h.width), operandCauses_none h, if_neg (Nat.not_lt.2 h.rows),
    List.append_nil]

theorem mmaCauses_busy (h : MmaOperands s a w f) (ht : tileOfAcm s.ctx.acm t.toNat = some pt) (hb : ¬ (getAcc s.core pt).busy = []) :
    mmaCauses s false t a w = [⟨cSCHED, 1, t.toNat, 0⟩] := by
  obtain ⟨p, hp⟩ := Option.isSome_iff_exists.1 h.loaded
  simp only [mmaCauses, tileCheck_allotted ht, hp, busyCheck_busy ht hb, if_pos (laneBits_two h.width), operandCauses_none h,
    if_neg (Nat.not_lt.2 h.rows), List.append_nil]
  rfl

theorem startMma_eq (hc : mmaCauses s chain t a w = []) : startMma chain t a w e s =
    if s.core.entry.isSome || (chain && !(getAcc s.core (physTile s.ctx t)).busy.isEmpty && decide (64 < rowsPending s.core (physTile s.ctx t)))
    then .hold 1 id else .go (entering s (physTile s.ctx t) a w) := check_of_nil hc

theorem startMma_enters (h : MmaOperands s a w f) (ht : tileOfAcm s.ctx.acm t.toNat = some pt) (he : s.core.entry = none)
    (hb : (getAcc s.core pt).busy = [] ∨ chain = true ∧ rowsPending s.core pt ≤ 64) :
    startMma chain t a w e s = .go (entering s pt a w) := by
  rw [startMma_eq (mmaCauses_none h ht (hb.symm.imp_left And.left)), physTile_allotted ht, he]
  refine if_neg ?_
  rcases hb with hb | ⟨-, hb⟩
  · simp [hb]
  · simp [Nat.not_lt.2 hb]

theorem startMma_waits (h : MmaOperands s a w f) (ht : tileOfAcm s.ctx.acm t.toNat = some pt) (he : s.core.entry.isSome = true)
    (hb : (getAcc s.core pt).busy = []) : startMma chain t a w e s = .hold 1 id := by
  rw [startMma_eq (mmaCauses_none h ht (.inr hb)), he]
  rfl

end
/-! ## Causes that come after SCHED -/

/-- Every cause of the list is SCHED or a later one (R305). -/
def FromSched (l : List Cause) : Prop := ∀ e ∈ l, cSCHED ≤ e.code

theorem fromSched_nil : FromSched [] := nofun
theorem fromSched_one {q : Cause} (h : cSCHED ≤ q.code := by decide) : FromSched [q] := fun _ he => List.mem_singleton.1 he ▸ h
theorem FromSched.append {l r : List Cause} (hl : FromSched l) (hr : FromSched r) : FromSched (l ++ r) := List.forall_mem_append.2 ⟨hl, hr⟩
theorem FromSched.ite {p : Prop} [Decidable p] {l r : List Cause} (hl : FromSched l) (hr : FromSched r) : FromSched (if p then l else r) := by
  split
  · exact hl
  · exact hr

theorem lowestCause_fromSched {q : Cause} {l : List Cause} (hq : q.code = cSCHED) (h : FromSched l) : lowestCause (q :: l) = some q :=
  lowestCause_head fun e he => hq ▸ h e he

section

variable {s : State} {t : BitVec 3} {a : BitVec 5} {w : BitVec 4}

theorem fromSched_fmt {x : Nat} : FromSched [⟨cFMT, 0, x, 0⟩] := fromSched_one (show 4 ≤ 10 by decide)
theorem fromSched_bound {x : Nat} {v : DWord} : FromSched [⟨cBOUND, 0, x, v⟩] := fromSched_one (show 4 ≤ 6 by decide)
theorem fromSched_align {v : DWord} : FromSched [causeAt cALIGN v] := fromSched_one (show 4 ≤ 5 by decide)

theorem fromSched_busyCheck : FromSched (busyCheck s t) := by
  unfold busyCheck
  split
  · exact .ite fromSched_nil (fromSched_one le_rfl)
  · exact fromSched_nil

theorem fromSched_rowsBad {x n ct : Nat} {sc : Bool} {idx : List Nat} : FromSched (rowsBad s x n sc ct idx) := by
  simp only [rowsBad]
  split
  · exact fromSched_nil
  · exact .ite fromSched_bound fromSched_bound

theorem fromSched_operandCauses : FromSched (operandCauses s a w) := by
  simp only [operandCauses]
  split
  · exact fromSched_fmt
  · refine .append ?_ (.ite fromSched_rowsBad fromSched_nil)
    split
    · exact .ite fromSched_nil fromSched_fmt
    · exact fromSched_nil

theorem fromSched_seqCheck {x n e0 m : Nat} {f : NumFmt} {sc even : Bool} : FromSched (seqCheck s x n f sc even e0 m) := by
  simp only [seqCheck]
  refine .append (.append (.ite fromSched_align fromSched_nil) (.ite fromSched_bound fromSched_nil)) ?_
  split
  · exact fromSched_bound
  · exact fromSched_nil

theorem mmaCauses_unloaded {chain : Bool} {pt : Nat} (hf : s.ctx.front = none) (ht : tileOfAcm s.ctx.acm t.toNat = some pt) :
    ∃ l, mmaCauses s chain t a w = ⟨cSCHED, 1, 8, 0⟩ :: l ∧ lowestCause (⟨cSCHED, 1, 8, 0⟩ :: l) = some ⟨cSCHED, 1, 8, 0⟩ := by
  simp only [mmaCauses, tileCheck_allotted ht, hf, List.nil_append, List.cons_append, List.append_assoc]
  exact ⟨_, rfl, lowestCause_fromSched rfl (.append (.ite fromSched_nil fromSched_busyCheck)
    (.append (.ite fromSched_nil fromSched_fmt) (.append fromSched_operandCauses (.ite fromSched_bound fromSched_nil))))⟩

end

/-! ## Drains (R414 to R416) -/

/-- The bytes that a drain writes (R415). -/
def drainCells (s : State) (dmode pt : Nat) (a : BitVec 5) (w : BitVec 4) (rnd : BitVec 2) (sl : Option (BitVec 5)) (f : NumFmt) : List (Nat × Byte) :=
  let r := windowRecord s s.cur w.toNat
  encodeSeq f (thrBscale r) (fun i => modeOf rnd.toNat (thrRmode r) (thrKey r) (saltOf s.ctx (sl.getD 0)) i) (twBase (readTw s.ctx w.toNat))
    (readS s.ctx a).toNat ((accEntries (getAcc s.core pt)).map (drainValue f (thrBscale r) dmode))

section

variable {s : State} {dmode pt : Nat} {t : BitVec 3} {a : BitVec 5} {w : BitVec 4} {rnd : BitVec 2} {sl : Option (BitVec 5)} {f : NumFmt} {e : Env}

theorem seqCheck_drain {sc : Bool} {e0 m : Nat} (hr : ∀ r ∈ seqRanges sc f.cont e0 m, InWindow s w r.1 r.2)
    (ha : if sc then e0 % 32 = 0 else f.cont = 4 → e0 % 2 = 0) : seqCheck s s.cur w.toNat f sc false e0 m = [] := by
  have hstart : ¬ ((f.cont = 4 ∧ (!sc) = true ∧ e0 % 2 = 1) ∨ (sc = true ∧ e0 % 32 ≠ 0)) := by
    cases sc <;> simp at ha ⊢ <;> omega
  simp only [seqCheck, rangesBad_none hr]
  rw [if_neg hstart]
  simp

theorem exists_mem_seqRanges {sc : Bool} {ct e0 m : Nat} (hm : 0 < m / 32) : ∃ r, r ∈ seqRanges sc ct e0 m := by
  cases sc with
  | false => exact ⟨_, List.mem_cons_self⟩
  | true => exact ⟨_, List.mem_flatten.2 ⟨_, mem_tab.2 ⟨0, hm, rfl⟩, List.mem_cons_self⟩⟩

/-- The window of a drain is not empty when its ranges lie in it. -/
theorem twSize_pos_of_ranges {sc : Bool} {e0 : Nat} (hr : ∀ r ∈ seqRanges sc f.cont e0 16384, InWindow s w r.1 r.2) :
    0 < twSize (readTw s.ctx w.toNat) := by
  obtain ⟨r, hm⟩ := exists_mem_seqRanges (sc := sc) (ct := f.cont) (e0 := e0) (show 0 < 16384 / 32 by decide)
  exact (hr r hm).1

theorem slotMdrn_writes (ht : tileOfAcm s.ctx.acm t.toNat = some pt) (hi : (getAcc s.core pt).busy = [])
    (hf : thrFmt (windowRecord s s.cur w.toNat) = some f) (hrot : thrRot (windowRecord s s.cur w.toNat) = 0)
    (hr : ∀ r ∈ seqRanges (thrBscale (windowRecord s s.cur w.toNat)) f.cont (readS s.ctx a).toNat 16384, InWindow s w r.1 r.2)
    (ha : if thrBscale (windowRecord s s.cur w.toNat) then (readS s.ctx a).toNat % 32 = 0 else f.cont = 4 → (readS s.ctx a).toNat % 2 = 0) :
    slotMdrn dmode t a w rnd sl e s = .go (fun u => setTs (useThr u) s.cur
      (tsPutCells (getTs u s.cur) ((drainCells s dmode pt a w rnd sl f).map (fun q => (tsPhys s.ctx q.1, q.2))))) := by
  simp only [slotMdrn, hf, physTile_allotted ht]
  refine check_of_nil ?_
  rw [tileCheck_allotted ht, busyCheck_idle ht hi, if_neg (not_not.2 hrot), if_neg (twSize_pos_of_ranges hr).ne', seqCheck_drain hr ha]
  rfl

theorem slotMdrn_busy (ht : tileOfAcm s.ctx.acm t.toNat = some pt) (hi : ¬ (getAcc s.core pt).busy = []) :
    ∃ l, slotMdrn dmode t a w rnd sl e s = .trap (⟨cSCHED, 1, t.toNat, 0⟩ :: l)
      ∧ lowestCause (⟨cSCHED, 1, t.toNat, 0⟩ :: l) = some ⟨cSCHED, 1, t.toNat, 0⟩ := by
  simp only [slotMdrn]
  cases hf : thrFmt (windowRecord s s.cur w.toNat) with
  | none =>
    simp only [tileCheck_allotted ht, busyCheck_busy ht hi]
    exact ⟨_, rfl, lowestCause_fromSched rfl fromSched_fmt⟩
  | some f =>
    simp only [tileCheck_allotted ht, busyCheck_busy ht hi]
    exact ⟨_, check_cons _ _ _, lowestCause_fromSched rfl (.append (.ite fromSched_fmt fromSched_nil)
      (.ite (.append fromSched_seqCheck fromSched_bound) fromSched_seqCheck))⟩

end
/-! ## Clears and latches (R412, R413, R416) -/

section

variable {s : State} {t : BitVec 3} {pt : Nat} {side : Bool} {a : BitVec 5} {w : BitVec 4} {e : Env}

theorem slotMclr_clears (ht : tileOfAcm s.ctx.acm t.toNat = some pt) (hi : (getAcc s.core pt).busy = []) :
    slotMclr t e s = .go (fun u => modC u (coreOf u.cur) (fun k => setAcc k pt (clearedTile (getAcc k pt)))) := by
  simp only [slotMclr, physTile_allotted ht]
  exact check_of_nil (by rw [tileCheck_allotted ht, busyCheck_idle ht hi]; rfl)

theorem slotMclr_beyond (ht : tileOfAcm s.ctx.acm t.toNat = none) : slotMclr t e s = .trap [⟨cBOUND, 0, t.toNat, 0⟩] := by
  simp only [slotMclr]
  exact check_of_cons (by rw [tileCheck_beyond ht, busyCheck_beyond ht, List.append_nil])

theorem slotScl_latches (ha : (readS s.ctx a).toNat % 64 = 0) (h0 : 0 < twSize (readTw s.ctx w.toNat))
    (hin : (readS s.ctx a).toNat + 2048 ≤ twSize (readTw s.ctx w.toNat))
    (ho : tsOpen s.ctx s.core (twBase (readTw s.ctx w.toNat) + (readS s.ctx a).toNat) 2048 = true)
    (hp : poisonTs s s.cur (twBase (readTw s.ctx w.toNat) + (readS s.ctx a).toNat) 2048 = false) :
    slotScl side a w e s = .go (latchWrite s.cur side (tileOf (loadTs s s.cur (twBase (readTw s.ctx w.toNat) + (readS s.ctx a).toNat) 2048))) := by
  simp only [slotScl]
  exact (check_of_nil (windowMoveCheck_inside ha h0 hin ho)).trans (if_neg (Bool.eq_false_iff.1 hp))

end

/-- Settles O43: each form's checks find nothing, or the cause with the lowest code first; then its effect is its slot's. -/
theorem matrixForms : Obligations.MatrixForms := by
  unfold Obligations.MatrixForms
  intro s tl a w rnd sl f pt hs
  simp -zeta only [← bitsN_eq]
  intro c x k tw r sc e0 kb p used start n aligned inWin land allotted idle m idx enter mmaOk cells drain lp latch win2k
  have hused : ∀ b, used = b → planeUsed s.core (targetPlane s s.cur) = b := fun b h => (planeUsed_eq _ _).trans h
  have hdrain : ∀ {ins : Instr} {op dmode : Nat}, exec ins s = single true op (xWords sl) 4 (slotMdrn dmode tl a w rnd sl) s → drain ins dmode :=
    fun he => ⟨fun ht hi hf hrot hr ha => issues_of_go hs he (slotMdrn_writes ht hi hf hrot hr ha), fun ht hi => by
      obtain ⟨l, hl, hq⟩ := slotMdrn_busy ht hi
      exact traps_of_trap hs he hl hq⟩
  have hops : mmaOk → MmaOperands s a w f := fun ⟨hf, hg, hw, hm, hin, hfr⟩ => ⟨hf, hg, hw, hm, hin, hfr⟩
  refine ⟨fun hf ha hin hu hp => ⟨fun hsc => ?_, ?_⟩, fun hf ha hin hu => ⟨fun hsc => ?_, ?_⟩, fun hf ha hsc => ?_,
    fun hf => ⟨?_, ?_⟩, fun hok ht he => ⟨fun hi => ?_, fun hi => ?_, fun hi => ?_⟩, fun hok ht hi he => ⟨?_, ?_⟩, fun hf ht => ⟨?_, ?_⟩,
    hdrain rfl, hdrain rfl, hdrain rfl, hdrain rfl,
    fun ht hi => issues_of_go hs rfl (slotMclr_clears ht hi), fun hl => traps_of_one hs rfl (slotMclr_beyond (List.getElem?_eq_none hl)) rfl,
    fun ⟨ha, h0, hin, ho, hp⟩ => ⟨issues_of_go hs rfl (slotScl_latches ha h0 hin ho hp), issues_of_go hs rfl (slotScl_latches ha h0 hin ho hp)⟩,
    issues_of_go hs rfl rfl, issues_of_go hs rfl rfl⟩
  · exact issues_of_go hs rfl (loadPlane_lands hf (planeCauses_none (.inr hsc) ha hin) (hused _ hu) hp)
  · exact issues_of_go hs rfl (loadPlane_lands hf (planeCauses_none (.inl rfl) ha hin) (hused _ hu) hp)
  · exact holds_of_hold hs rfl (loadPlane_waits hf (planeCauses_none (.inr hsc) ha hin) (hused _ hu))
  · exact holds_of_hold hs rfl (loadPlane_waits hf (planeCauses_none (.inl rfl) ha hin) (hused _ hu))
  · obtain ⟨l, hl, hq⟩ := planeCauses_misaligned (nMajor := false) (a := a) ha hsc
    exact traps_of_trap hs rfl (loadPlane_trap hf hl) hq
  · exact traps_of_one hs rfl (loadPlane_raw hf) rfl
  · exact traps_of_one hs rfl (loadPlane_raw hf) rfl
  · exact issues_of_go hs rfl (startMma_enters (hops hok) ht he (.inl hi))
  · exact issues_of_go hs rfl (startMma_enters (hops hok) ht he (hi.imp_right (⟨rfl, ·⟩)))
  · exact traps_of_one hs rfl (startMma_trap (mmaCauses_busy (hops hok) ht hi)) rfl
  · exact holds_of_hold hs rfl (startMma_waits (hops hok) ht he hi)
  · exact holds_of_hold hs rfl (startMma_waits (hops hok) ht he hi)
  · obtain ⟨l, hl, hq⟩ := mmaCauses_unloaded (chain := false) (a := a) (w := w) hf ht
    exact traps_of_trap hs rfl (startMma_trap hl) hq
  · obtain ⟨l, hl, hq⟩ := mmaCauses_unloaded (chain := true) (a := a) (w := w) hf ht
    exact traps_of_trap hs rfl (startMma_trap hl) hq

end Sys2Proof.Machine
end

section
/-!
SUPPORT AND CERTIFICATE. Streams and circuits (R206 to R212, R437 to R443): the checks, the room of the queue, and the state of the port or handle.
-/

set_option Elab.async false

namespace Sys2Proof.Machine

open Sys2Proof

/-! ## Blocks and queues (R199, R422, R426) -/

section

variable {s : State} {a n : Nat}

theorem blockCheck_open (ha : a % n = 0) (ho : tsOpen s.ctx s.core a n = true) : blockCheck s s.cur a n = [] := by
  rw [blockCheck, if_pos ha, if_pos ho, List.nil_append]

theorem blockCheck_misaligned (ha : a % n ≠ 0) :
    ∃ l, blockCheck s s.cur a n = causeAt cALIGN (tiVa a) :: l ∧ lowestCause (causeAt cALIGN (tiVa a) :: l) = some (causeAt cALIGN (tiVa a)) := by
  rw [blockCheck, if_neg ha]
  refine ⟨_, rfl, lowestCause_head fun e he => ?_⟩
  split at he
  · cases he
  · rw [List.mem_singleton.1 he]
    exact show cALIGN ≤ cBOUND by decide

end

theorem queueHold_room {c : Ctx} {q : Nat} {k : SlotOut} (h : (queueOf c q).length < queueDepth q) : queueHold c q k = k := if_neg (Nat.not_le.2 h)
theorem queueHold_full {c : Ctx} {q : Nat} {k : SlotOut} (h : queueDepth q ≤ (queueOf c q).length) : queueHold c q k = .hold 4 id := if_pos h

/-! ## Streams (R206 to R212, R437 to R440) -/

section

variable {s : State} {d b : BitVec 5} {p : BitVec 3} {e : Env}

theorem slotSpush_eq : slotSpush d p b e s =
    check ((if (readS s.ctx b).toNat % 64 = 0 then [] else [causeAt cALIGN (tiVa (readS s.ctx b).toNat)])
        ++ (if tsOpen s.ctx s.core (readS s.ctx b).toNat (sdRec (readQ s.ctx p.toNat).desc) then [] else [causeAt cBOUND (tiVa (readS s.ctx b).toNat)])
        ++ (if (readQ s.ctx p.toNat).st == 0 || (readQ s.ctx p.toNat).st == 6 || (readQ s.ctx p.toNat).role then [⟨cQDEAD, 0, 3, 0⟩] else []))
      (if (readQ s.ctx p.toNat).st = 1 then
        if (readQ s.ctx p.toNat).sent - (readQ s.ctx p.toNat).rdp < sdNrec (readQ s.ctx p.toNat).desc then
          queueHold s.ctx 3 (.go (fun t =>
            retS d 2 1 (modX (enqueue 3 0 { mkCmd t s.ctx e 9 with
                a := p.toNat, b := (readQ s.ctx p.toNat).sent, data := loadTs s s.cur (readS s.ctx b).toNat (sdRec (readQ s.ctx p.toNat).desc),
                poison := poisonTs s s.cur (readS s.ctx b).toNat (sdRec (readQ s.ctx p.toNat).desc) } t) s.cur
              (fun k => setQ k p.toNat { readQ k p.toNat with sent := (readQ s.ctx p.toNat).sent + 1 }))))
        else .hold 8 id
      else if (readQ s.ctx p.toNat).st = 2 then .hold 8 id
      else .go (retS d 2 0)) := rfl

variable (ha : (readS s.ctx b).toNat % 64 = 0)
  (ho : tsOpen s.ctx s.core (readS s.ctx b).toNat (sdRec (readQ s.ctx p.toNat).desc) = true)

include ha ho

theorem slotSpush_inside (hst : ((readQ s.ctx p.toNat).st == 0 || (readQ s.ctx p.toNat).st == 6 || (readQ s.ctx p.toNat).role) = false) :
    slotSpush d p b e s = if (readQ s.ctx p.toNat).st = 1 then
        if (readQ s.ctx p.toNat).sent - (readQ s.ctx p.toNat).rdp < sdNrec (readQ s.ctx p.toNat).desc then
          queueHold s.ctx 3 (.go (fun t =>
            retS d 2 1 (modX (enqueue 3 0 { mkCmd t s.ctx e 9 with
                a := p.toNat, b := (readQ s.ctx p.toNat).sent, data := loadTs s s.cur (readS s.ctx b).toNat (sdRec (readQ s.ctx p.toNat).desc),
                poison := poisonTs s s.cur (readS s.ctx b).toNat (sdRec (readQ s.ctx p.toNat).desc) } t) s.cur
              (fun k => setQ k p.toNat { readQ k p.toNat with sent := (readQ s.ctx p.toNat).sent + 1 }))))
        else .hold 8 id
      else if (readQ s.ctx p.toNat).st = 2 then .hold 8 id
      else .go (retS d 2 0) :=
  slotSpush_eq.trans (check_of_nil (by rw [if_pos ha, if_pos ho, if_neg (Bool.eq_false_iff.1 hst)]; rfl))

theorem slotSpush_dead (hst : ((readQ s.ctx p.toNat).st == 0 || (readQ s.ctx p.toNat).st == 6 || (readQ s.ctx p.toNat).role) = true) :
    slotSpush d p b e s = .trap [⟨cQDEAD, 0, 3, 0⟩] :=
  slotSpush_eq.trans (check_of_cons (by rw [if_pos ha, if_pos ho, if_pos hst]; rfl))

end

section

variable {s : State} {p : BitVec 3} {b : BitVec 5} {e : Env}

variable (ha : (readS s.ctx b).toNat % 64 = 0) (ho : tsOpen s.ctx s.core (readS s.ctx b).toNat 64 = true)
  (hr : tsOpen s.ctx s.core (sdRbase (blockAt s s.cur (readS s.ctx b).toNat 64))
      (sdRec (blockAt s s.cur (readS s.ctx b).toNat 64) * sdNrec (blockAt s s.cur (readS s.ctx b).toNat 64)) = true)

include ha ho hr

theorem slotSopen_dead (hi : portIdle (readQ s.ctx p.toNat) = false) : slotSopen p b e s = .trap [⟨cQDEAD, 0, 3, 0⟩] := by
  simp only [slotSopen, blockCheck_open ha ho]
  exact check_of_cons (by rw [if_pos hr, if_neg (Bool.eq_false_iff.1 hi)]; rfl)

/-- `sopen` waits until the walker has answered, and asks it once (R437). -/
theorem slotSopen_asks (hi : portIdle (readQ s.ctx p.toNat) = true) (hop : s.ctx.opened = none) :
    slotSopen p b e s = .hold 1 (fun t => modPart t s.ctx.part.toNat (fun g =>
      if g.opens.any (fun o => o.1 == s.cur) then g
      else { g with opens := g.opens ++ [(s.cur, p.toNat, blockAt s s.cur (readS s.ctx b).toNat 64)] })) := by
  simp only [slotSopen, blockCheck_open ha ho, hop]
  exact check_of_nil (by rw [if_pos hr, if_pos hi]; rfl)

/-- The walker's answer to `sopen`: 0 for a success, from 16 a refusal, from 32 COUPLE (R211, R437). -/
theorem slotSopen_answered {r : Nat} (hi : portIdle (readQ s.ctx p.toNat) = true) (hop : s.ctx.opened = some r) :
    slotSopen p b e s = if r = 0 then .go (openStream s.cur p.toNat (blockAt s s.cur (readS s.ctx b).toNat 64))
      else if r < 32 then .go (fun t => modX t s.cur (fun k => setQ k p.toNat (refusedPort (r - 16))))
      else .trap [⟨cCOUPLE, r - 32, p.toNat, 0⟩] := by
  simp only [slotSopen, blockCheck_open ha ho, hop]
  exact check_of_nil (by rw [if_pos hr, if_pos hi]; rfl)

end

section

variable {s : State} {d : BitVec 5} {p : BitVec 3} {e : Env}

/-- The port that a pop leaves, and the pop's result. -/
def popped (s : State) (d : BitVec 5) (p : BitVec 3) (q : Port) (v : DWord) (t : State) : State :=
  retS d 2 v (modX t s.cur (fun k => setQ k p.toNat q))

theorem slotSpop_dead (h : ((readQ s.ctx p.toNat).st == 0 || (readQ s.ctx p.toNat).st == 6 || !(readQ s.ctx p.toNat).role) = true) :
    slotSpop d p e s = .trap [⟨cQDEAD, 0, 3, 0⟩] := if_pos h

variable (h : ((readQ s.ctx p.toNat).st == 0 || (readQ s.ctx p.toNat).st == 6 || !(readQ s.ctx p.toNat).role) = false)

include h

theorem slotSpop_opening (h2 : (readQ s.ctx p.toNat).st = 2) : slotSpop d p e s = .hold 8 id :=
  (if_neg (Bool.eq_false_iff.1 h)).trans (if_pos h2)

theorem slotSpop_record (h2 : (readQ s.ctx p.toNat).st ≠ 2) (ha : (readQ s.ctx p.toNat).acq < (readQ s.ctx p.toNat).wr) :
    slotSpop d p e s = .go (popped s d p { releaseHeld (readQ s.ctx p.toNat) with held := true, acq := (readQ s.ctx p.toNat).acq + 1 }
      (BitVec.ofNat 64 (recordAddr (readQ s.ctx p.toNat).desc (readQ s.ctx p.toNat).acq))) :=
  (if_neg (Bool.eq_false_iff.1 h)).trans ((if_neg h2).trans (if_pos ha))

/-- A pop with no record to give, by the port's state. -/
theorem slotSpop_empty (h2 : (readQ s.ctx p.toNat).st ≠ 2) (ha : (readQ s.ctx p.toNat).wr ≤ (readQ s.ctx p.toNat).acq) :
    slotSpop d p e s =
      if (readQ s.ctx p.toNat).st = 4 then .go (popped s d p (releaseHeld (readQ s.ctx p.toNat)) 0xFFFFFFFFFFFFFFFF#64)
      else if (readQ s.ctx p.toNat).st = 5 then .go (popped s d p (releaseHeld (readQ s.ctx p.toNat)) 0xFFFFFFFFFFFFFFFE#64)
      else if (readQ s.ctx p.toNat).st = 3 && (match (readQ s.ctx p.toNat).due with | some n => decide (n ≤ (readQ s.ctx p.toNat).wr) | none => false)
      then .go (popped s d p (releaseHeld (readQ s.ctx p.toNat)) 0xFFFFFFFFFFFFFFFF#64)
      else .hold 8 id :=
  (if_neg (Bool.eq_false_iff.1 h)).trans ((if_neg h2).trans ((if_neg (Nat.not_lt.2 ha)).trans rfl))

end

theorem deadPort_iff (st : BitVec 3) (r : Bool) : (st == 0 || st == 6 || r) = true ↔ st = 0 ∨ st = 6 ∨ r = true := by
  simp [or_assoc]

theorem port_usable {st : BitVec 3} {r : Bool} (hr : r = false) (h : st ≠ 0 ∧ st ≠ 6) : (st == 0 || st == 6 || r) = false := by
  rw [hr, beq_false_of_ne h.1, beq_false_of_ne h.2]
  rfl

/-- A port in one state is not in another. -/
theorem ne_of_st {st k j : BitVec 3} (h : st = k) (hk : k ≠ j := by decide) : st ≠ j := h ▸ hk

theorem usable_of_st {st k : BitVec 3} (h : st = k) (hk : k ≠ 0 ∧ k ≠ 6 := by decide) : st ≠ 0 ∧ st ≠ 6 := h ▸ hk

theorem either_iff (st j k : BitVec 3) : (st == j || st == k) = true ↔ st = j ∨ st = k := by simp

/-- Settles O45: each form by its checks, then by the state of its port. -/
theorem streamForms : Obligations.StreamForms := by
  unfold Obligations.StreamForms
  intro s d p b hs
  simp -zeta only [← bitsN_eq]
  intro c x q sb n nrec inside put rel dead blk openOk
  refine ⟨fun ⟨ha, ho⟩ hr hst hroom hq => ?_, fun ⟨ha, ho⟩ hr hst hroom hq => ?_, fun ⟨ha, ho⟩ hr hst hfull => ?_, fun ⟨ha, ho⟩ hr hst => ?_,
    fun ⟨ha, ho⟩ hst => ?_, fun hr hst hacq => ?_, fun hr hacq => ⟨fun hst => ?_, fun hst => ?_, fun hst => ?_⟩, fun hst => ?_, fun hst => ?_,
    fun hst => ?_, fun hst hq => ?_, issues_of_go hs rfl rfl, fun ⟨ha, ho, hring, hidle⟩ hop => ?_, fun k ⟨ha, ho, hring, hidle⟩ hop hk => ?_,
    fun k ⟨ha, ho, hring, hidle⟩ hop => ?_, fun ⟨ha, ho, hring, hidle⟩ hop => ?_, fun ha ho hring hidle => ?_⟩
  · exact issues_of_go hs rfl ((slotSpush_inside ha ho (port_usable hr (usable_of_st hst))).trans
      ((if_pos hst).trans ((if_pos hroom).trans (queueHold_room hq))))
  · exact holds_of_hold hs rfl ((slotSpush_inside ha ho (port_usable hr (usable_of_st hst))).trans
      ((if_pos hst).trans ((if_pos hroom).trans (queueHold_full hq))))
  · exact holds_of_hold hs rfl ((slotSpush_inside ha ho (port_usable hr (usable_of_st hst))).trans
      ((if_pos hst).trans (if_neg (Nat.not_lt.2 hfull))))
  · have hne : q.st ≠ 0 ∧ q.st ≠ 6 ∧ q.st ≠ 1 ∧ q.st ≠ 2 := by
      rcases hst with h | h <;> exact ⟨ne_of_st h, ne_of_st h, ne_of_st h, ne_of_st h⟩
    exact issues_of_go hs rfl ((slotSpush_inside ha ho (port_usable hr ⟨hne.1, hne.2.1⟩)).trans
      ((if_neg hne.2.2.1).trans (if_neg hne.2.2.2)))
  · exact traps_of_one hs rfl (slotSpush_dead ha ho ((deadPort_iff _ _).2 hst)) rfl
  · have hne : q.st ≠ 0 ∧ q.st ≠ 6 ∧ q.st ≠ 2 := by
      rcases hst with h | h | h | h <;> exact ⟨ne_of_st h, ne_of_st h, ne_of_st h⟩
    exact issues_of_go hs rfl (slotSpop_record (port_usable (by rw [hr]; rfl) ⟨hne.1, hne.2.1⟩) hne.2.2 hacq)
  · exact issues_of_go hs rfl ((slotSpop_empty (port_usable (by rw [hr]; rfl) (usable_of_st hst)) (ne_of_st hst) hacq).trans (if_pos hst))
  · exact issues_of_go hs rfl ((slotSpop_empty (port_usable (by rw [hr]; rfl) (usable_of_st hst)) (ne_of_st hst) hacq).trans
      ((if_neg (ne_of_st hst)).trans (if_pos hst)))
  · rcases hst with hst | hst
    · exact holds_of_hold hs rfl ((slotSpop_empty (port_usable (by rw [hr]; rfl) (usable_of_st hst)) (ne_of_st hst) hacq).trans
        ((if_neg (ne_of_st hst)).trans ((if_neg (ne_of_st hst)).trans (if_neg (by rw [decide_eq_false (ne_of_st hst)]; exact Bool.false_ne_true)))))
    · exact holds_of_hold hs rfl (slotSpop_opening (port_usable (by rw [hr]; rfl) (usable_of_st hst)) hst)
  · exact traps_of_one hs rfl (slotSpop_dead ((deadPort_iff _ _).2 (by rwa [Bool.not_eq_true']))) rfl
  · exact traps_of_one hs rfl (if_pos ((either_iff _ _ _).2 hst)) rfl
  · have hne : ¬ (q.st = 0 ∨ q.st = 6) := by
      rcases hst with h | h <;> exact not_or.2 ⟨ne_of_st h, ne_of_st h⟩
    exact issues_of_go hs rfl ((if_neg (mt (either_iff _ _ _).1 hne)).trans (if_pos ((either_iff _ _ _).2 hst)))
  · have hne : ¬ (q.st = 0 ∨ q.st = 6) ∧ ¬ (q.st = 4 ∨ q.st = 5) := by
      rcases hst with h | h | h <;> exact ⟨not_or.2 ⟨ne_of_st h, ne_of_st h⟩, not_or.2 ⟨ne_of_st h, ne_of_st h⟩⟩
    exact issues_of_go hs rfl ((if_neg (mt (either_iff _ _ _).1 hne.1)).trans ((if_neg (mt (either_iff _ _ _).1 hne.2)).trans (queueHold_room hq)))
  · exact issues_of_go hs rfl ((slotSopen_answered ha ho hring hidle hop).trans (if_pos rfl))
  · exact issues_of_go_eq hs rfl ((slotSopen_answered ha ho hring hidle hop).trans ((if_neg (by omega)).trans (if_pos (by omega))))
      (by rw [Nat.add_sub_cancel_left]; rfl)
  · exact traps_of_one hs rfl ((slotSopen_answered ha ho hring hidle hop).trans ((if_neg (by omega)).trans (if_neg (by omega))))
      (by rw [Nat.add_sub_cancel_left]; rfl)
  · exact holds_of_hold hs rfl (slotSopen_asks ha ho hring hidle hop)
  · exact traps_of_one hs rfl (slotSopen_dead ha ho hring hidle) rfl

end Sys2Proof.Machine
end

section
/-!
SUPPORT AND CERTIFICATE. Circuits (R89, R91, R441 to R443): the checks, the state of the handle, the room of the queue.
-/

set_option Elab.async false

namespace Sys2Proof.Machine

open Sys2Proof

section

variable {s : State} {h : BitVec 3} {a b : BitVec 5} {l : BitVec 3} {n : BitVec 1} {v : Option (BitVec 16)} {e : Env}

/-- A block of `ckopen` has its reserved fields zero and a lease that is long enough (R441). -/
def OpenBlock (b : BitVec 512) : Prop := bitsN b 16 24 ≥ 64 ∧ bitsN b 40 24 = 0 ∧ bitsN b 64 3 = 0 ∧ bitsN b 122 6 = 0

/-- A handle that has a circuit, or one that opens (R91). -/
def LiveHandle (k : CkHandle) : Prop := k.st = 1 ∨ k.st = 2 ∨ k.st = 3

theorem openBlock_iff (b : BitVec 512) : (bitsN b 40 24 ≠ 0 ∨ bitsN b 122 6 ≠ 0 ∨ bitsN b 16 24 < 64 ∨ bitsN b 64 3 ≠ 0) ↔ ¬ OpenBlock b := by
  unfold OpenBlock
  omega

theorem liveHandle_iff (k : CkHandle) : (k.st == 1 || k.st == 2 || k.st == 3) = true ↔ LiveHandle k := by simp [LiveHandle, or_assoc]

/-- A command that opens a circuit joins the queue, and its handle is pending. -/
def opening (s : State) (h : BitVec 3) (a : BitVec 5) (e : Env) (t : State) : State :=
  modX (enqueue 2 0 { mkCmd t s.ctx e 0x10 with blk := blockAt s s.cur (readS s.ctx a).toNat 16, a := h.toNat } t) s.cur
    (fun k => setK k h.toNat { CkHandle.init with st := 1, cid := t.nextId })

section

variable (ha : (readS s.ctx a).toNat % 16 = 0) (ho : tsOpen s.ctx s.core (readS s.ctx a).toNat 16 = true)

include ha ho

theorem slotCkopen_free (hf : OpenBlock (blockAt s s.cur (readS s.ctx a).toNat 16)) (hl : ¬ LiveHandle (readK s.ctx h.toNat)) :
    slotCkopen h a e s = queueHold s.ctx 2 (.go (opening s h a e)) := by
  simp only [slotCkopen, blockCheck_open ha ho]
  refine check_of_nil ?_
  rw [if_neg (mt (openBlock_iff _).1 (not_not.2 hf)), if_neg (mt (liveHandle_iff _).1 hl)]
  rfl

theorem slotCkopen_malformed (hf : ¬ OpenBlock (blockAt s s.cur (readS s.ctx a).toNat 16)) :
    ∃ l, slotCkopen h a e s = .trap (causeAt cBOUND (tiVa (readS s.ctx a).toNat) :: l)
      ∧ lowestCause (causeAt cBOUND (tiVa (readS s.ctx a).toNat) :: l) = some (causeAt cBOUND (tiVa (readS s.ctx a).toNat)) := by
  simp only [slotCkopen, blockCheck_open ha ho]
  rw [if_pos ((openBlock_iff _).2 hf)]
  refine ⟨_, check_cons _ _ _, lowestCause_head fun e he => ?_⟩
  split at he
  · rw [List.mem_singleton.1 he]
    exact show cBOUND ≤ cCKFAIL by decide
  · cases he

theorem slotCkopen_live (hf : OpenBlock (blockAt s s.cur (readS s.ctx a).toNat 16)) (hl : LiveHandle (readK s.ctx h.toNat)) :
    slotCkopen h a e s = .trap [⟨cCKFAIL, 0, h.toNat, 0⟩] := by
  simp only [slotCkopen, blockCheck_open ha ho]
  refine check_of_cons ?_
  rw [if_neg (mt (openBlock_iff _).1 (not_not.2 hf)), if_pos ((liveHandle_iff _).2 hl)]
  rfl

end

/-- The causes of `cksend` after the alignment of its address (R442). -/
theorem slotCksend_eq : slotCksend a h b l n v e s =
    check ((if (readS s.ctx b).toNat % 32 = 0 then [] else [causeAt cALIGN (tiVa (readS s.ctx b).toNat)])
        ++ (if (readS s.ctx a).toNat % 8 = 0 ∧ (readS s.ctx a).toNat ≤ 1048576
            ∧ tsOpen s.ctx s.core (readS s.ctx b).toNat (4 * (readS s.ctx a).toNat) then [] else [causeAt cBOUND (tiVa (readS s.ctx b).toNat)])
        ++ (if (readK s.ctx h.toNat).st = 2 then [] else [⟨cCKFAIL, 0, h.toNat, 0⟩]))
      (queueHold s.ctx 2 (.go (fun t => enqueue 2 1
        { mkCmd t s.ctx e 0x12 with a := h.toNat, b := (readS s.ctx b).toNat, c := (readS s.ctx a).toNat, tl := tlName l n, inc := tlAmount v } t))) := rfl

theorem slotCksend_misaligned (hb : (readS s.ctx b).toNat % 32 ≠ 0) :
    ∃ q, slotCksend a h b l n v e s = .trap (causeAt cALIGN (tiVa (readS s.ctx b).toNat) :: q)
      ∧ lowestCause (causeAt cALIGN (tiVa (readS s.ctx b).toNat) :: q) = some (causeAt cALIGN (tiVa (readS s.ctx b).toNat)) := by
  rw [slotCksend_eq, if_neg hb]
  refine ⟨_, check_cons _ _ _, lowestCause_head fun e he => ?_⟩
  rcases List.mem_append.1 he with he | he
  · split at he
    · cases he
    · rw [List.mem_singleton.1 he]
      exact show cALIGN ≤ cBOUND by decide
  · split at he
    · cases he
    · rw [List.mem_singleton.1 he]
      exact show cALIGN ≤ cCKFAIL by decide

end

/-- Settles O46: each form by its checks, then by the state of its handle. -/
theorem circuitForms : Obligations.CircuitForms := by
  unfold Obligations.CircuitForms
  intro s d h a b l n v hs hwf
  simp -zeta only [← bitsN_eq]
  intro c x k sa sb words blk fit readable room live sendOk
  refine ⟨fun ⟨ha, ho⟩ hf hl hr => issues_of_go hs rfl ((slotCkopen_free ha ho hf hl).trans (queueHold_room hr)),
    fun ⟨ha, ho⟩ hf hl hr => holds_of_hold hs rfl ((slotCkopen_free ha ho hf hl).trans (queueHold_full (Nat.not_lt.1 hr))),
    fun ⟨ha, ho⟩ hf => ?_, fun ⟨ha, ho⟩ hf hl => traps_of_one hs rfl (slotCkopen_live ha ho hf hl) rfl,
    fun hlo hhi => ⟨fun hst => ?_, fun hst => ?_⟩, fun hv => ?_, fun ⟨hb, ha8, hamax, ho⟩ hst hr => ?_, fun ⟨hb, ha8, hamax, ho⟩ hst => ?_, fun hb => ?_,
    fun hr => issues_of_go hs rfl (queueHold_room hr), fun hr => holds_of_hold hs rfl (queueHold_full (Nat.not_lt.1 hr)), issues_of_go hs rfl rfl⟩
  · obtain ⟨l, hl, hq⟩ := slotCkopen_malformed (h := h) (e := ⟨1, 6⟩) ha ho hf
    exact traps_of_trap hs rfl hl hq
  · exact issues_of_go_at hs rfl (check_of_nil (if_pos ⟨hlo, Nat.le_of_lt_succ hhi⟩)) (if_pos hst)
  · exact issues_of_go_at hs rfl (check_of_nil (if_pos ⟨hlo, Nat.le_of_lt_succ hhi⟩)) (if_neg hst)
  · exact traps_of_one hs rfl (check_of_cons (if_neg (show ¬ (64 ≤ sb ∧ sb ≤ 16777215) by omega))) rfl
  · exact issues_of_go hs (exec_of_wf rfl hwf) (slotCksend_eq.trans ((check_of_nil (by rw [if_pos hb, if_pos ⟨ha8, hamax, ho⟩, if_pos hst]; rfl)).trans
      (queueHold_room hr)))
  · exact traps_of_one hs (exec_of_wf rfl hwf) (slotCksend_eq.trans (check_of_cons (by rw [if_pos hb, if_pos ⟨ha8, hamax, ho⟩, if_neg hst]; rfl))) rfl
  · obtain ⟨l, hl, hq⟩ := slotCksend_misaligned (a := a) (h := h) (l := l) (n := n) (v := v) (e := ⟨words, 6⟩) hb
    exact traps_of_trap hs (exec_of_wf rfl hwf) hl hq

end Sys2Proof.Machine
end

section
/-!
SUPPORT AND CERTIFICATE. The commands of the copy and launch queues (R199, R420 to R436, R444): ranges of the tile store, of a window and of a
page, the checks of a copy, then the command that joins its queue.
-/

set_option Elab.async false

namespace Sys2Proof.Machine

open Sys2Proof

/-! ## Ranges of the tile store and of a window (R133, R134, R426) -/

theorem all_tab {n : Nat} {f : Nat → Nat} {p : Nat → Bool} : (tab n f).all p = true ↔ ∀ i < n, p (f i) = true := by simp [tab]

/-- No byte of a range is closed when the range is open (R133). -/
theorem firstClosed_none {c : Ctx} {k : Core} {lo : Int} {n : Nat} (h0 : 0 ≤ lo) (ho : tsOpen c k lo.toNat n = true) :
    firstClosed c k lo n = none := by
  unfold firstClosed
  split
  · rfl
  · next hn =>
    rw [if_neg (Int.not_lt.2 h0)]
    simp only [tsOpen, Bool.or_eq_true, beq_iff_eq, hn, false_or, Bool.and_eq_true, decide_eq_true_eq, all_tab] at ho
    obtain ⟨hend, hall⟩ := ho
    generalize lo.toNat = a at *
    have hlast : min ((a + n - 1) / 65536) 64 = (a + n - 1) / 65536 := by omega
    have hfind : (tab (min ((a + n - 1) / 65536) 64 + 1 - a / 65536) (fun i => a / 65536 + i)).find? (fun b => 64 ≤ b || !blockOpen c k b) = none :=
      List.find?_eq_none.2 fun b hb => by
        obtain ⟨i, hi, rfl⟩ := mem_tab.1 hb
        have hopen := hall i (by omega)
        have hlt : ¬ 64 ≤ a / 65536 + i := by omega
        simp [hopen, hlt]
    simp only [hfind]
    exact if_neg (by omega)

section

variable {s : State} {r : Int × Nat}

theorem tsRange_open (h : InStore s r.1 r.2) : tsRange s s.cur r = [] := by
  rw [tsRange, firstClosed_none h.1 h.2]

theorem tsRange_empty {a : Int} : tsRange s s.cur (a, 0) = [] := rfl

theorem windowRange_inside {w : BitVec 4} (h : InWindow s w r.1 r.2) : windowRange s s.cur w.toNat r = [] := by
  obtain ⟨h0, hlo, hhi, hst⟩ := h
  have hx : s.ctx = getX s s.cur := rfl
  rw [hx] at h0 hhi
  simp only [windowRange]
  split
  · rfl
  · next hn =>
    rw [if_neg (by omega)]
    have hr : tsRange s s.cur (twBase (readTw (getX s s.cur) w.toNat) + r.1, r.2) = [] := tsRange_open hst
    rw [hr]
    exact if_neg (by omega)

end

/-! ## Ranges of a page (R118, R360, R426) -/

/-- A handle whose page holds a range, populated at both ends. -/
def PageHolds (s : State) (h : Handle) (r : Int × Nat) : Prop :=
  h.st = 1 ∧ 0 ≤ r.1 ∧ 0 < r.2 ∧ r.1 + r.2 ≤ (pageSpan h.size : Int)
  ∧ (isLocal s h.pa.toNat = true → populated s ((h.pa.toNat + r.1.toNat) % 2 ^ 48) = true
    ∧ populated s ((h.pa.toNat + r.1.toNat + r.2 - 1) % 2 ^ 48) = true)

theorem globRange_ok {s : State} {hd : Nat} {r : Int × Nat} {wr : Bool} (h : PageHolds s (readH s.ctx hd) r)
    (hperm : (if wr then (readH s.ctx hd).wr else (readH s.ctx hd).rd) = true) : globRange s s.cur hd r wr = .ok (readH s.ctx hd) := by
  obtain ⟨hst, hlo, hn, hhi, hpop⟩ := h
  have hout : decide (r.1 < 0 ∨ (pageBytes (readH s.ctx hd).size : Int) < r.1 + r.2) = false := by
    rw [pageBytes_eq_pageSpan]
    exact decide_eq_false (by omega)
  have hp : ((wr && !(readH s.ctx hd).wr) || (!wr && !(readH s.ctx hd).rd)) = false := by cases wr <;> simp_all
  unfold globRange
  rw [if_neg hn.ne']
  simp only [resolveHandle_valid hst, hout, hp, Bool.not_false, Bool.true_and]
  by_cases hl : isLocal s (readH s.ctx hd).pa.toNat = true
  · obtain ⟨hp1, hp2⟩ := hpop hl
    rw [if_pos hl, paOf, hp1, paOf, hp2]
    rfl
  · rw [if_neg hl]
    rfl

/-! ## The block of a copy (R423, R426) -/

theorem bit_iff {w : Nat} (v : BitVec w) (i : Nat) : bit v i = true ↔ bitsN v i 1 = 1 := by
  rw [bit, BitVec.getLsbD, Nat.testBit_eq_decide_div_mod_eq, bitsN_eq, decide_eq_true_eq, pow_one]

theorem bit_eq_false {w : Nat} {v : BitVec w} {i : Nat} (h : ¬ bitsN v i 1 = 1) : bit v i = false := Bool.eq_false_iff.2 (mt (bit_iff v i).1 h)

/-- The fields of a block that the first rows of R426 allow, for the operations of an instruction. -/
structure CopyBlock (b : BitVec 512) (ops : List Nat) (n : BitVec 1) : Prop where
  op : cpOp b ∈ ops
  reserved : bitsN b 249 7 = 0
  staged : bitsN b 7 1 = 1 → bitsN b 6 1 = 1 ∧ n = 1
  mask : bitsN b 12 4 ≠ 0 ↔ cpOp b = 4 ∨ cpOp b = 5
  window : bitsN b 248 1 = 1 → cpOp b = 2
  target : cpOp b ≤ 5 → bitsN b 34 12 = 0
  remote : 7 ≤ cpOp b → bitsN b 34 12 < 2048
  words : cpOp b = 4 ∨ cpOp b = 5 ∨ cpOp b = 8 → bitsN b 4 2 = 2
  halves : cpOp b = 9 → bitsN b 4 2 = 1

section

variable {b : BitVec 512} {ops : List Nat} {n : BitVec 1}

theorem cpToAcc_iff : cpToAcc b = true ↔ cpOp b = 4 ∨ cpOp b = 5 := by simp [cpToAcc]

theorem cpMalformed_false (h : CopyBlock b ops n) : cpMalformed b ops (n == 1) = false := by
  have hops : ops.contains (cpOp b) = true := List.contains_iff_mem.2 h.op
  have hstage : (cpStage b && !cpWen b) = false ∧ (cpStage b && !(n == 1)) = false := by
    by_cases hs : bitsN b 7 1 = 1
    · obtain ⟨hw, hn⟩ := h.staged hs
      simp [cpWen, (bit_iff b 6).2 hw, hn]
    · simp [cpStage, bit_eq_false hs]
  have hmask : ((cpMask b != 0) != cpToAcc b) = false := by
    have hiff : (cpMask b != 0) = true ↔ cpToAcc b = true := by
      rw [cpToAcc_iff, ← h.mask, bne_iff_ne]
      rfl
    rw [Bool.eq_iff_iff.2 hiff, bne_self_eq_false]
  have hwin : (cpDwen b && cpOp b != 2) = false := by
    by_cases hw : bitsN b 248 1 = 1
    · simp [h.window hw]
    · simp [cpDwen, bit_eq_false hw]
  have htgt : (if cpOp b = 6 then false else if 7 ≤ cpOp b then decide (2048 ≤ cpTgt b) else cpTgt b != 0) = false := by
    split
    · rfl
    · split
      · next h7 => exact decide_eq_false (Nat.not_le.2 (h.remote h7))
      · next h6 h7 => simp [show cpTgt b = 0 from h.target (by omega)]
  have hword : ((cpOp b == 4 || cpOp b == 5 || cpOp b == 8) && cpEsz b != 4) = false := by
    by_cases hw : cpOp b = 4 ∨ cpOp b = 5 ∨ cpOp b = 8
    · simp [cpEsz, h.words hw]
    · simp only [not_or] at hw
      simp [hw]
  have hhalf : (cpOp b == 9 && cpEsz b != 2) = false := by
    by_cases hw : cpOp b = 9
    · simp [cpEsz, h.halves hw]
    · simp [hw]
  have hres : (bitsN b 249 7 != 0) = false := by simp [h.reserved]
  simp only [cpMalformed, hops, hres, hstage, hmask, hwin, htgt, hword, hhalf, Bool.not_true, Bool.or_false]

theorem cpMalformed_true {ti : Bool} (h : cpOp b ∉ ops ∨ bitsN b 249 7 ≠ 0) : cpMalformed b ops ti = true := by
  have hfirst : (!ops.contains (cpOp b) || bitsN b 249 7 != 0) = true := by simpa using h
  simp only [cpMalformed, hfirst, Bool.true_or]

end

/-! ## What a well-formed copy asks for (R426, R431) -/

/-- The tile-store side, the tile, the barrier, the targets and the wait of a copy are in order. -/
structure CopyServed (s : State) (b : BitVec 512) (tile pt : Nat) : Prop where
  src : cpTotal b ≠ 0 → cpOp b = 0 ∨ cpOp b = 1 ∨ cpOp b = 4 ∨ 7 ≤ cpOp b → InStore s (cpSrcRange b).1 (cpSrcRange b).2
  dst : cpTotal b ≠ 0 → cpOp b = 0 ∨ (cpOp b = 2 ∧ bitsN b 248 1 = 0) → InStore s (cpDstRange b).1 (cpDstRange b).2
  window : cpTotal b ≠ 0 → cpOp b = 2 → bitsN b 248 1 = 1 → InWindow s (BitVec.ofNat 4 (bitsN b 244 4)) (cpDstRange b).1 (cpDstRange b).2
  shared : cpTotal b ≠ 0 → cpOp b = 6 → 0 ≤ (cpDstRange b).1 ∧ (cpDstRange b).1 + (cpDstRange b).2 ≤ 65536 * (s.ctx.tsSize.toNat : Int)
  tile : cpOp b = 4 ∨ cpOp b = 5 → tileOfAcm s.ctx.acm tile = some pt ∧ (cpTotal b ≠ 0 → 0 ≤ (cpDstRange b).1 ∧ (cpDstRange b).1 + (cpDstRange b).2 ≤ 16384)
  barrier : bitsN b 11 1 = 1 → (cpOp b < 6 → InStore s (16 * bitsN b 46 18 : Nat) 16)
    ∧ (cpOp b = 6 → ((16 * bitsN b 46 18 : Nat) : Int) + 16 ≤ 65536 * (s.ctx.tsSize.toNat : Int))
  gang : cpOp b = 6 → ∃ q, gangOf s s.cur = some q ∧ bitsN b 34 6 + bitsN b 40 6 < q.tasks
  wait : bitsN b 6 1 = 1 → (promised s.ctx (bitsN b 8 3) 1 - (BitVec.ofNat 64 (bitsN b 64 64)
    + (if bitsN b 7 1 = 1 then BitVec.ofNat 64 (bitsN b 464 16 - 1) else 0))).toNat < 2 ^ 63

section

variable {s : State} {b : BitVec 512} {tile pt : Nat}

theorem cpSources_open (h : CopyServed s b tile pt) :
    tsRange s s.cur (if cpTotal b != 0 && !cpGlobalSrc (cpOp b) then cpSrcRange b else (0, 0)) = [] := by
  split
  · next hc =>
    simp only [cpGlobalSrc, Bool.and_eq_true, bne_iff_ne, Bool.not_eq_true', Bool.or_eq_false_iff, beq_eq_false_iff_ne] at hc
    exact tsRange_open (h.src hc.1 (by omega))
  · exact tsRange_empty

theorem cpStoreDst_open (h : CopyServed s b tile pt) :
    (if cpOp b = 0 ∨ (cpOp b = 2 ∧ ¬ cpDwen b) then tsRange s s.cur (if cpTotal b != 0 then cpDstRange b else (0, 0)) else []) = [] := by
  split
  · next hc =>
    split
    · next hany =>
      refine tsRange_open (h.dst (by simpa using hany) (hc.imp_right fun ⟨h2, hw⟩ => ⟨h2, ?_⟩))
      have hlt := (b.extractLsb' 248 1).isLt
      have hne : ¬ bitsN b 248 1 = 1 := mt (bit_iff b 248).2 hw
      exact show bitsN b 248 1 = 0 by unfold bitsN at *; omega
    · exact tsRange_empty
  · rfl

theorem cpWindowDst_inside (h : CopyServed s b tile pt) :
    (if cpOp b = 2 ∧ cpDwen b then windowRange s s.cur (cpDw b) (if cpTotal b != 0 then cpDstRange b else (0, 0)) else []) = [] := by
  split
  · next hc =>
    split
    · next hany =>
      have hw : (BitVec.ofNat 4 (bitsN b 244 4)).toNat = cpDw b := Nat.mod_eq_of_lt (b.extractLsb' 244 4).isLt
      rw [← hw]
      exact windowRange_inside (h.window (by simpa using hany) hc.1 ((bit_iff b 248).1 hc.2))
    · rfl
  · rfl

theorem cpTile_inside (h : CopyServed s b tile pt) :
    (if cpToAcc b then
        (if (tileOfAcm s.ctx.acm tile).isSome then [] else [(⟨cBOUND, 0, tile, 0⟩ : Cause)])
        ++ (if (if cpTotal b != 0 then cpDstRange b else (0, 0)).2 ≠ 0 ∧ ((if cpTotal b != 0 then cpDstRange b else (0, 0)).1 < 0
              ∨ 16384 < (if cpTotal b != 0 then cpDstRange b else (0, 0)).1 + (if cpTotal b != 0 then cpDstRange b else (0, 0)).2) then
              [⟨cBOUND, 0, tile, tiInt (if 0 ≤ (if cpTotal b != 0 then cpDstRange b else (0, 0)).1
                ∧ (if cpTotal b != 0 then cpDstRange b else (0, 0)).1 < 16384 then 16384 else (if cpTotal b != 0 then cpDstRange b else (0, 0)).1)⟩] else [])
      else []) = [] := by
  split
  · next hc =>
    obtain ⟨ht, hd⟩ := h.tile (cpToAcc_iff.1 hc)
    rw [ht]
    by_cases hany : cpTotal b = 0
    · simp [hany]
    · have := hd hany
      simp only [hany, bne_iff_ne, ne_eq, not_false_eq_true, if_true, Option.isSome_some]
      rw [if_neg (by omega)]
      rfl
  · rfl

theorem mcCheck_shared (h : CopyServed s b tile pt) (hop : cpOp b = 6) : mcCheck s s.cur b (cpTotal b != 0) = [] := by
  obtain ⟨q, hq, hlt⟩ := h.gang hop
  have hbar : (cpBaren b && decide (65536 * ((getX s s.cur).tsSize.toNat : Int) < (cpBar b : Int) + 16)) = false := by
    by_cases hb : bitsN b 11 1 = 1
    · have := (h.barrier hb).2 hop
      rw [decide_eq_false (show ¬ 65536 * ((getX s s.cur).tsSize.toNat : Int) < (cpBar b : Int) + 16 from Int.not_lt.2 this), Bool.and_false]
    · rw [cpBaren, bit_eq_false hb, Bool.false_and]
  have hrange : (cpTotal b != 0 && (cpDstRange b).2 != 0 && (decide ((cpDstRange b).1 < 0)
      || decide (65536 * ((getX s s.cur).tsSize.toNat : Int) < (cpDstRange b).1 + (cpDstRange b).2))) = false := by
    by_cases hany : cpTotal b = 0
    · simp [hany]
    · obtain ⟨hlo, hhi⟩ := h.shared hany hop
      rw [decide_eq_false (Int.not_lt.2 hlo), decide_eq_false (Int.not_lt.2 hhi), Bool.or_false, Bool.and_false]
  simp only [mcCheck, hq, hbar, hrange, if_neg (Nat.not_le.2 hlt)]
  rfl

theorem cpBarrier_open (h : CopyServed s b tile pt) : (if cpBaren b ∧ cpOp b < 6 then tsRange s s.cur (cpBar b, 16) else []) = [] := by
  split
  · next hc => exact tsRange_open ((h.barrier ((bit_iff b 11).1 hc.1)).1 hc.2)
  · rfl

theorem cpWait_meets (h : CopyServed s b tile pt) :
    (cpWen b && !tlReached (promised s.ctx (cpWtl b) 1) (cpWval b + (if cpStage b then BitVec.ofNat 64 (cpN b 5 - 1) else 0))) = false := by
  by_cases hw : bitsN b 6 1 = 1
  · have hval : cpWval b = BitVec.ofNat 64 (bitsN b 64 64) := by
      rw [cpWval, bits, bitsN, BitVec.ofNat_toNat, BitVec.setWidth_eq]
    have hst : (if cpStage b then BitVec.ofNat 64 (cpN b 5 - 1) else 0) = if bitsN b 7 1 = 1 then BitVec.ofNat 64 (bitsN b 464 16 - 1) else (0 : DWord) :=
      if_congr (bit_iff b 7) rfl rfl
    have hr : tlReached (promised s.ctx (cpWtl b) 1) (BitVec.ofNat 64 (bitsN b 64 64)
        + if bitsN b 7 1 = 1 then BitVec.ofNat 64 (bitsN b 464 16 - 1) else 0) = true := decide_eq_true (h.wait hw)
    rw [hval, hst, hr, Bool.not_true, Bool.and_false]
  · rw [cpWen, bit_eq_false hw, Bool.false_and]

theorem cpCauses_none (h : CopyServed s b tile pt) : cpCauses s s.cur b tile = [] := by
  simp only [cpCauses]
  rw [cpSources_open h, cpStoreDst_open h, cpWindowDst_inside h, cpTile_inside h, cpBarrier_open h, cpWait_meets h]
  split
  · next hop => rw [mcCheck_shared h hop]; rfl
  · rfl

end

/-! ## The copy family (R423 to R426) -/

/-- The copy reads a page. -/
abbrev FromPage (b : BitVec 512) : Prop := cpTotal b ≠ 0 ∧ (cpOp b = 2 ∨ cpOp b = 3 ∨ cpOp b = 5 ∨ cpOp b = 6)
/-- The copy writes a page. -/
abbrev ToPage (b : BitVec 512) : Prop := cpTotal b ≠ 0 ∧ (cpOp b = 1 ∨ cpOp b = 3)

/-- The pages of a copy hold its ranges and permit them. -/
structure CopyPages (s : State) (b : BitVec 512) : Prop where
  src : FromPage b → PageHolds s (readH s.ctx (bitsN b 16 4)) (cpSrcRange b) ∧ (readH s.ctx (bitsN b 16 4)).rd = true
  dst : ToPage b → PageHolds s (readH s.ctx (bitsN b 20 4)) (cpDstRange b) ∧ (readH s.ctx (bitsN b 20 4)).wr = true

/-- A side of a copy that is served by a handle, or needs none. -/
def sideOf (p : Prop) [Decidable p] (h : Handle) : SideOut := if p then .ok h else .none

section

variable {p : Prop} [Decidable p] {h : Handle}

theorem sideCauses_sideOf : sideCauses (sideOf p h) = [] := by
  unfold sideOf
  split <;> rfl
theorem sideWait_sideOf : sideWait (sideOf p h) = none := by
  unfold sideOf
  split <;> rfl
theorem pa_sideOf : (sideHandle (sideOf p h)).pa = if p then h.pa else 0 := by
  unfold sideOf
  split <;> rfl
theorem fmt_sideOf : (sideHandle (sideOf p h)).fmt = if p then h.fmt else 0 := by
  unfold sideOf
  split <;> rfl

end

section

variable {s : State} {b : BitVec 512}

theorem sourceSide (h : CopyPages s b) :
    (if cpGlobalSrc (cpOp b) && cpTotal b != 0 then globRange s s.cur (cpSh b) (cpSrcRange b) false else .none)
      = sideOf (FromPage b) (readH s.ctx (cpSh b)) := by
  have hiff : (cpGlobalSrc (cpOp b) && cpTotal b != 0) = true ↔ FromPage b := by
    simp [cpGlobalSrc, FromPage, or_assoc, and_comm]
  unfold sideOf
  by_cases hp : FromPage b
  · obtain ⟨hh, hr⟩ := h.src hp
    rw [if_pos (hiff.2 hp), if_pos hp]
    exact globRange_ok hh hr
  · rw [if_neg (mt hiff.1 hp), if_neg hp]

theorem targetSide (h : CopyPages s b) :
    (if cpGlobalDst (cpOp b) && cpTotal b != 0 then globRange s s.cur (cpDh b) (cpDstRange b) true else .none)
      = sideOf (ToPage b) (readH s.ctx (cpDh b)) := by
  have hiff : (cpGlobalDst (cpOp b) && cpTotal b != 0) = true ↔ ToPage b := by
    simp [cpGlobalDst, ToPage, and_comm]
  unfold sideOf
  by_cases hp : ToPage b
  · obtain ⟨hh, hr⟩ := h.dst hp
    rw [if_pos (hiff.2 hp), if_pos hp]
    exact globRange_ok hh hr
  · rw [if_neg (mt hiff.1 hp), if_neg hp]

end

/-- A copy joins its queue (R199, R427). -/
def copyEffect (s : State) (b : BitVec 512) (opcode tile : Nat) (l : BitVec 3) (n : BitVec 1) (v : Option (BitVec 16)) (e : Env) (u : State) : State :=
  enqueue 1 (if bitsN b 7 1 = 1 then bitsN b 464 16 else 1)
    { mkCmd u s.ctx e opcode with
      blk := b, a := tile, b := if bitsN b 248 1 = 1 then twBase (readTw s.ctx (bitsN b 244 4)) else 0, tl := tlName l n, inc := tlAmount v,
      stage := if bitsN b 7 1 = 1 then bitsN b 464 16 else 0, src := if FromPage b then (readH s.ctx (bitsN b 16 4)).pa else 0,
      dst := if ToPage b then (readH s.ctx (bitsN b 20 4)).pa else 0, fmt := if FromPage b then (readH s.ctx (bitsN b 16 4)).fmt else 0 } u

section

variable {s : State} {opcode tile pt : Nat} {ops : List Nat} {a : BitVec 5} {l : BitVec 3} {n : BitVec 1} {v : Option (BitVec 16)} {e : Env}

theorem slotCopy_served (ha : (readS s.ctx a).toNat % 64 = 0) (ho : tsOpen s.ctx s.core (readS s.ctx a).toNat 64 = true)
    (hb : CopyBlock (blockAt s s.cur (readS s.ctx a).toNat 64) ops n) (hc : CopyServed s (blockAt s s.cur (readS s.ctx a).toNat 64) tile pt)
    (hp : CopyPages s (blockAt s s.cur (readS s.ctx a).toNat 64)) :
    slotCopy opcode ops tile a l n v e s
      = queueHold s.ctx 1 (.go (copyEffect s (blockAt s s.cur (readS s.ctx a).toNat 64) opcode tile l n v e)) := by
  simp only [slotCopy, blockCheck_open ha ho]
  generalize blockAt s s.cur (readS s.ctx a).toNat 64 = b at *
  rw [if_neg (Bool.eq_false_iff.1 (cpMalformed_false hb))]
  have hstage : ∀ x y : Nat, (if cpStage b then x else y) = if bitsN b 7 1 = 1 then x else y := fun _ _ => if_congr (bit_iff b 7) rfl rfl
  have hwin : ∀ x y : Nat, (if cpDwen b then x else y) = if bitsN b 248 1 = 1 then x else y := fun _ _ => if_congr (bit_iff b 248) rfl rfl
  simp only [sourceSide hp, targetSide hp, cpCauses_none hc, sideCauses_sideOf, sideWait_sideOf, pa_sideOf, fmt_sideOf, hstage, hwin,
    List.append_nil, check_nil]
  rfl

theorem slotCopy_malformed (ha : (readS s.ctx a).toNat % 64 = 0) (ho : tsOpen s.ctx s.core (readS s.ctx a).toNat 64 = true)
    (hb : cpOp (blockAt s s.cur (readS s.ctx a).toNat 64) ∉ ops ∨ bitsN (blockAt s s.cur (readS s.ctx a).toNat 64) 249 7 ≠ 0) :
    slotCopy opcode ops tile a l n v e s = .trap [causeAt cBOUND (tiVa (readS s.ctx a).toNat)] := by
  simp only [slotCopy, blockCheck_open ha ho]
  exact if_pos (cpMalformed_true hb)

theorem slotCopy_misaligned (ha : (readS s.ctx a).toNat % 64 ≠ 0) :
    ∃ q, slotCopy opcode ops tile a l n v e s = .trap (causeAt cALIGN (tiVa (readS s.ctx a).toNat) :: q)
      ∧ lowestCause (causeAt cALIGN (tiVa (readS s.ctx a).toNat) :: q) = some (causeAt cALIGN (tiVa (readS s.ctx a).toNat)) := by
  obtain ⟨q, hq, hlow⟩ := blockCheck_misaligned (s := s) ha
  refine ⟨q, ?_, hlow⟩
  simp only [slotCopy, hq]

end

/-! ## Posts, commits and launches (R434 to R436, R444) -/

section

variable {s : State} {d a b : BitVec 5} {l : BitVec 3} {n : BitVec 1} {v : Option (BitVec 16)} {e : Env}

theorem slotRmapost_served (ha : (readS s.ctx a).toNat % 64 = 0) (ho : tsOpen s.ctx s.core (readS s.ctx a).toNat 64 = true)
    (hb : (readS s.ctx b).toNat < 64) :
    slotRmapost a b l n v e s = queueHold s.ctx 1 (.go (fun t => enqueue 1 1 { mkCmd t s.ctx e 4 with
      blk := blockAt s s.cur (readS s.ctx a).toNat 64, a := (readS s.ctx b).toNat, tl := tlName l n, inc := tlAmount v } t)) :=
  check_of_nil (by rw [blockCheck_open ha ho, if_neg (Nat.not_le.2 hb), List.nil_append])

theorem slotRmapost_beyond (ha : (readS s.ctx a).toNat % 64 = 0) (ho : tsOpen s.ctx s.core (readS s.ctx a).toNat 64 = true)
    (hb : 64 ≤ (readS s.ctx b).toNat) : slotRmapost a b l n v e s = .trap [causeAt cBOUND (tiVa (readS s.ctx b).toNat)] :=
  check_of_cons (by rw [blockCheck_open ha ho, if_pos hb, List.nil_append])

/-- The bits of a number counted one by one. -/
theorem popNat_eq (m v : Nat) : popNat m v = (List.range m).countP (fun i => v.testBit i) := by
  induction m generalizing v with
  | zero => rfl
  | succ m ih =>
    have hb : v % 2 = if v.testBit 0 then 1 else 0 := by
      rw [Nat.testBit_zero]
      split <;> simp_all
    rw [popNat, ih, List.range_succ_eq_map, List.countP_cons, List.countP_map, hb, Nat.add_comm]
    congr 1
    simp [Function.comp_def, Nat.testBit_succ]

/-- A descriptor and a mask that R435 allows. -/
structure CommitBlock (s : State) (b : BitVec 512) (m : Nat) : Prop where
  aligned : bitsN b 0 6 = 0
  reserved : bitsN b 22 10 = 0 ∧ bitsN b 42 6 = 0 ∧ bitsN b 89 423 = 0
  row : bitsN b 32 10 ≠ 0
  cap : bitsN b 48 16 ≠ 0
  absent : bitsN b 87 2 ≠ 3
  rows : bitsN b 80 7 ≤ 64
  room : bitsN b 64 16 + bitsN b 80 7 ≤ bitsN b 48 16
  inside : tsOpen s.ctx s.core (bitsN b 0 22) (64 * bitsN b 32 10 * bitsN b 48 16) = true
  mask : m < 2 ^ bitsN b 80 7

theorem kvCheck_none {k : BitVec 512} {m sa : Nat} (h : CommitBlock s k m) : kvCheck s s.cur sa k m = [] := by
  have hbase : kvBase k % 64 = 0 := by
    have h0 := h.aligned
    rw [bitsN_eq] at h0
    rw [kvBase, bitsN_eq]
    omega
  obtain ⟨h1, h2, h3⟩ := h.reserved
  have hrow : kvRow k ≠ 0 := by
    have := h.row
    unfold kvRow
    omega
  have hroom : ¬ kvCap k < kvLen k + kvNd k := Nat.not_lt.2 h.room
  have hnd : ¬ 64 < kvNd k := Nat.not_lt.2 h.rows
  have hcap : kvCap k ≠ 0 := h.cap
  have habs : kvAbs k ≠ 3 := h.absent
  have ho : tsOpen (getX s s.cur) (getC s (coreOf s.cur)) (kvBase k) (kvRow k * kvCap k) = true := h.inside
  simp only [kvCheck, hbase, h1, h2, h3, ho, beq_false_of_ne hrow, beq_false_of_ne hcap, beq_false_of_ne habs, decide_eq_false hroom,
    decide_eq_false hnd, if_neg (Nat.not_le.2 (show m < 2 ^ kvNd k from h.mask))]
  rfl

theorem slotKvcommit_served (ha : (readS s.ctx a).toNat % 64 = 0) (ho : tsOpen s.ctx s.core (readS s.ctx a).toNat 64 = true)
    (hk : CommitBlock s (blockAt s s.cur (readS s.ctx a).toNat 64) (readS s.ctx b).toNat) :
    slotKvcommit d a b l n v e s = queueHold s.ctx 1 (.go (fun t =>
      retS d 2 (BitVec.ofNat 64 ((List.range 64).countP (fun i => (readS s.ctx b).getLsbD i)))
        (storeTs (enqueue 1 1 { mkCmd t s.ctx e 0x18 with
            blk := blockAt s s.cur (readS s.ctx a).toNat 64, a := (readS s.ctx b).toNat, tl := tlName l n, inc := tlAmount v } t) s.cur
          ((readS s.ctx a).toNat + 8) (leBytes 4 ((bitsN (blockAt s s.cur (readS s.ctx a).toNat 64) 64 16
            + (List.range 64).countP (fun i => (readS s.ctx b).getLsbD i)) % 65536 + bitsN (blockAt s s.cur (readS s.ctx a).toNat 64) 87 2 * 2 ^ 23)) false))) := by
  have hrows : (List.range 64).countP (fun i => (readS s.ctx b).getLsbD i) = popNat 64 (readS s.ctx b).toNat := (popNat_eq _ _).symm
  simp only [slotKvcommit, blockCheck_open ha ho, hrows]
  exact check_of_nil (kvCheck_none hk)

/-- The causes of `launch` that need no translation (R444). -/
def launchCauses (sa : DWord) (sb : Nat) : List Cause :=
  (if bitsN sa 0 6 = 0 then [] else [causeAt cALIGN (tiVa sa.toNat)])
    ++ (if 32 ≤ sb then [causeAt cBOUND (tiVa sb)] else []) ++ (if bitsN sa 52 12 = 0 then [] else [causeAt cBOUND (tiVa sa.toNat)])

theorem slotLaunch_trap {q : Cause} {r : List Cause} (h : launchCauses (readS s.ctx a) (readS s.ctx b).toNat = q :: r) :
    slotLaunch a b e s = .trap (q :: r) := by
  unfold launchCauses at h
  simp only [slotLaunch, h]

theorem slotLaunch_mapped {m : TlbEntry} (h : launchCauses (readS s.ctx a) (readS s.ctx b).toNat = []) (hm : Mapped s (readS s.ctx a).toNat m)
    (hr : m.rd = true) (hu : s.ctx.sup = true ∨ m.u = true) :
    slotLaunch a b e s = queueHold s.ctx 4 (.go (fun t => enqueue 4 1 { mkCmd t s.ctx e 0x19 with
      port := 2, a := (readS s.ctx b).toNat, src := m.pa + BitVec.ofNat 56 ((readS s.ctx a).toNat - m.vpn.toNat * 65536) }
      (touchTlb t s.cur (readS s.ctx a).toNat))) := by
  unfold launchCauses at h
  simp only [slotLaunch, h, translate_mapped hm]
  refine check_of_nil (if_neg ?_)
  rcases hu with hu | hu <;> simp [hr, hu]

theorem low_zero {x : DWord} (h : x.toNat % 64 = 0) : bitsN x 0 6 = 0 := by
  rw [bitsN_eq]
  omega

theorem high_zero {x : DWord} (h : x.toNat < 2 ^ 52) : bitsN x 52 12 = 0 := by
  rw [bitsN_eq]
  omega

end

/-- Settles O44: each command by its checks, then by the room of its queue. -/
theorem commandForms : Obligations.CommandForms := by
  unfold Obligations.CommandForms
  intro s d3 d a b l n v m pt hs hwf
  simp -zeta only [← bitsN_eq]
  intro c x sa sb blk fld words tl inc readable room op moves src dst hs' ht fromPage toPage bound region wellFormed sides tile barrier gang wait copy rows kv
  have hcopy : ∀ {ins : Instr} {op' opcode t : Nat} {ops : List Nat},
      exec ins s = single ins.wf op' words 6 (slotCopy opcode ops t a l n v) s → ins.wf = true → copy ins opcode ops t := by
    intro ins op' opcode t ops he hw
    have he' := exec_of_wf he hw
    have hserved : readable ∧ wellFormed ops ∧ sides ∧ tile t ∧ barrier ∧ gang ∧ wait →
        slotCopy opcode ops t a l n v ⟨words, 6⟩ s = queueHold c 1 (.go (copyEffect s blk opcode t l n v ⟨words, 6⟩)) := by
      rintro ⟨⟨ha, ho⟩, ⟨h1, h2, h3, h4, h5, h6, h7, h8, h9⟩, ⟨hfrom, hto, hsrc, hdst, hwin, hmc⟩, htile, hbar, hgang, hwait⟩
      exact slotCopy_served (pt := pt) ha ho ⟨h1, h2, h3, h4, h5, h6, h7, h8, h9⟩ ⟨hsrc, hdst, hwin, hmc, htile, hbar, hgang, hwait⟩ ⟨hfrom, hto⟩
    refine ⟨fun h hr => issues_of_go hs he' ((hserved h).trans (queueHold_room hr)),
      fun h hr => holds_of_hold hs he' ((hserved h).trans (queueHold_full (Nat.not_lt.1 hr))),
      fun ⟨ha, ho⟩ hbad => traps_of_one hs he' (slotCopy_malformed ha ho hbad) rfl, fun ha => ?_⟩
    obtain ⟨q, hq, hlow⟩ := slotCopy_misaligned (opcode := opcode) (tile := t) (ops := ops) (l := l) (n := n) (v := v) (e := ⟨words, 6⟩) ha
    exact traps_of_trap hs he' hq hlow
  refine ⟨hcopy rfl hwf, hcopy rfl hwf, hcopy rfl hwf, hcopy rfl hwf, fun ⟨ha, ho⟩ hb hr => ?_, fun ⟨ha, ho⟩ hb => ?_,
    fun ⟨ha, ho⟩ hk hr => ?_, fun ha hva hb hm hrd hu hr => ?_, fun ha hva hb => ?_⟩
  · exact issues_of_go hs (exec_of_wf rfl hwf) ((slotRmapost_served ha ho hb).trans (queueHold_room hr))
  · exact traps_of_one hs (exec_of_wf rfl hwf) (slotRmapost_beyond ha ho hb) rfl
  · obtain ⟨h1, h2, h3, h4, h5, h6, h7, h8, h9, h10, h11⟩ := hk
    exact issues_of_go hs (exec_of_wf rfl hwf)
      ((slotKvcommit_served ha ho ⟨h1, ⟨h2, h3, h4⟩, h5, h6, h7, h8, h9, h10, h11⟩).trans (queueHold_room hr))
  · have hc : launchCauses (readS c a) sb = [] := by
      rw [launchCauses, low_zero ha, high_zero hva, if_neg (Nat.not_le.2 hb)]
      rfl
    exact issues_of_go hs rfl ((slotLaunch_mapped hc hm hrd hu).trans (queueHold_room hr))
  · have hc : launchCauses (readS c a) sb = [causeAt cBOUND (tiVa sb)] := by
      rw [launchCauses, low_zero ha, high_zero hva, if_pos hb]
      rfl
    exact traps_of_one hs rfl (slotLaunch_trap hc) rfl

end Sys2Proof.Machine
end

section
/-!
SUPPORT. What no instruction changes: memory, the line versions and the poison marks at the homes, the boot state and the cycle (R252, R253,
R364).  Each operation of the state keeps them; then whatever a fetch, a walk, a hold and the end of a bundle do.
-/

namespace Sys2Proof.Machine

open Sys2Proof

/-- The state at the homes, the boot state and the cycle are those of s. -/
structure SameHomes (s t : State) : Prop where
  mem : t.mem = s.mem
  ver : t.ver = s.ver
  poison : t.poison = s.poison
  boot : t.boot = s.boot
  cyc : t.cyc = s.cyc

theorem SameHomes.refl (s : State) : SameHomes s s := ⟨rfl, rfl, rfl, rfl, rfl⟩

theorem SameHomes.trans {s t u : State} (h : SameHomes s t) (k : SameHomes t u) : SameHomes s u :=
  ⟨k.mem.trans h.mem, k.ver.trans h.ver, k.poison.trans h.poison, k.boot.trans h.boot, k.cyc.trans h.cyc⟩

theorem SameHomes.ite {p : Prop} [Decidable p] {s t u : State} (h : SameHomes s t) (k : SameHomes s u) : SameHomes s (if p then t else u) := by
  split
  · exact h
  · exact k

/-- A fold of steps of which each keeps the homes. -/
theorem sameHomes_foldl {α : Type} {f : State → α → State} (h : ∀ t a, SameHomes t (f t a)) (l : List α) (s : State) : SameHomes s (l.foldl f s) := by
  induction l generalizing s with
  | nil => exact .refl s
  | cons a l ih => exact (h s a).trans (ih _)

/-- An effect keeps the homes wherever it happens. -/
def Keeps (f : State → State) : Prop := ∀ t, SameHomes t (f t)

theorem keeps_id : Keeps id := SameHomes.refl

/-! ## Operations of the state -/

theorem sameHomes_setX (s : State) (x : Nat) (c : Ctx) : SameHomes s (setX s x c) := ⟨rfl, rfl, rfl, rfl, rfl⟩
theorem sameHomes_modX (s : State) (x : Nat) (f : Ctx → Ctx) : SameHomes s (modX s x f) := ⟨rfl, rfl, rfl, rfl, rfl⟩
theorem sameHomes_modC (s : State) (k : Nat) (f : Core → Core) : SameHomes s (modC s k f) := ⟨rfl, rfl, rfl, rfl, rfl⟩
theorem sameHomes_setTs (s : State) (x : Nat) (t : TileStore) : SameHomes s (setTs s x t) := ⟨rfl, rfl, rfl, rfl, rfl⟩
theorem sameHomes_modPart (s : State) (p : Nat) (f : Part → Part) : SameHomes s (modPart s p f) := ⟨rfl, rfl, rfl, rfl, rfl⟩
theorem sameHomes_storeTs (s : State) (x a : Nat) (l : List Byte) (b : Bool) : SameHomes s (storeTs s x a l b) := ⟨rfl, rfl, rfl, rfl, rfl⟩
theorem sameHomes_addTimer (s : State) (n : Nat) (e : Instr) (a : EvArg) : SameHomes s (addTimer s n e a) := ⟨rfl, rfl, rfl, rfl, rfl⟩
theorem sameHomes_freeze (s : State) (x n : Nat) : SameHomes s (freeze s x n) := sameHomes_modX _ _ _
theorem sameHomes_touchTlb (s : State) (x va : Nat) : SameHomes s (touchTlb s x va) := sameHomes_modC _ _ _
theorem sameHomes_fillRoots (s : State) (k : Nat) (p : BitVec 3) : SameHomes s (fillRoots s k p) := ⟨rfl, rfl, rfl, rfl, rfl⟩

/-- A change of nothing at the homes, then an operation that keeps them. -/
theorem SameHomes.modX {s t : State} (h : SameHomes s t) (x : Nat) (f : Ctx → Ctx) : SameHomes s (modX t x f) := h.trans (sameHomes_modX _ _ _)
theorem SameHomes.modC {s t : State} (h : SameHomes s t) (k : Nat) (f : Core → Core) : SameHomes s (modC t k f) := h.trans (sameHomes_modC _ _ _)

theorem sameHomes_retS (s : State) (d : BitVec 5) (lat : Nat) (v : DWord) : SameHomes s (retS d lat v s) := .ite (.refl s) (sameHomes_modX _ _ _)
theorem sameHomes_retP (s : State) (d : BitVec 4) (lat : Nat) (b : Bool) : SameHomes s (retP d lat b s) := .ite (.refl s) (sameHomes_modX _ _ _)
theorem sameHomes_retV (s : State) (d : BitVec 5) (lat : Nat) (v m : Tile) : SameHomes s (retV d lat v m s) := sameHomes_modX _ _ _

theorem sameHomes_loadThr (s : State) (k : Nat) (p : BitVec 3) : SameHomes s (loadThr s k p) := by
  unfold loadThr
  split
  · exact .refl s
  · exact (sameHomes_fillRoots s k p).modC _ _

theorem sameHomes_useThr (s : State) : SameHomes s (useThr s) := sameHomes_loadThr _ _ _

theorem sameHomes_enqueue (q n : Nat) (k : Cmd) (s : State) : SameHomes s (enqueue q n k s) := ⟨rfl, rfl, rfl, rfl, rfl⟩

/-! ## Packets, write-backs and accesses -/

theorem sameHomes_bumpSeq (s : State) (f : Flow) : SameHomes s (bumpSeq s f) := .ite ⟨rfl, rfl, rfl, rfl, rfl⟩ ⟨rfl, rfl, rfl, rfl, rfl⟩

theorem sameHomes_enterNet (s : State) (p : Pkt) : SameHomes s (enterNet s p) := ⟨rfl, rfl, rfl, rfl, rfl⟩

theorem sameHomes_sendPkt (s : State) (p : Pkt) : SameHomes s (sendPkt s p) := by
  simp only [sendPkt]
  split
  · split
    · exact ⟨rfl, rfl, rfl, rfl, rfl⟩
    · exact (sameHomes_bumpSeq s _).trans ⟨rfl, rfl, rfl, rfl, rfl⟩
  · exact (sameHomes_bumpSeq s _).trans (sameHomes_enterNet _ _)

theorem sameHomes_mapAccs (k : Nat) (p : BitVec 3) (f : Acc → Acc) (s : State) : SameHomes s (mapAccs k p f s) :=
  sameHomes_foldl (fun t x => .ite (sameHomes_setX t x _) (.refl t)) _ s

theorem sameHomes_rdcStore (s : State) (d pa : Nat) (p : BitVec 3) (l : List Byte) (b : Bool) : SameHomes s (rdcStore s d pa p l b) := ⟨rfl, rfl, rfl, rfl, rfl⟩

theorem sameHomes_sendWriteBack (s : State) (k : Nat) (l : DLine) (r : Nat × List Byte) : SameHomes s (sendWriteBack s k l r) := by
  simp only [sendWriteBack]
  refine .trans ?_ (sameHomes_sendPkt _ _)
  refine .trans ?_ (sameHomes_addTimer _ _ _ _)
  refine .trans ?_ (sameHomes_rdcStore _ _ _ _ _ _)
  exact ⟨rfl, rfl, rfl, rfl, rfl⟩

theorem sameHomes_writeBack (s : State) (k : Nat) (l : DLine) : SameHomes s (writeBack s k l) := by
  simp only [writeBack]
  exact ((sameHomes_mapAccs k l.part _ s).trans (sameHomes_foldl (fun t r => sameHomes_sendWriteBack t k l r) _ _)).modC _ _

theorem sameHomes_cleanPart (s : State) (k : Nat) (p : BitVec 3) : SameHomes s (cleanPart s k p) :=
  sameHomes_foldl (fun t l => sameHomes_writeBack t k l) _ s

theorem sameHomes_orderFlush (s : State) (x : Nat) (p : BitVec 8) : SameHomes s (orderFlush s x p) := by
  simp only [orderFlush]
  exact .ite (.refl s) ⟨rfl, rfl, rfl, rfl, rfl⟩

theorem sameHomes_sendFlush (s : State) (x : Nat) (p : BitVec 8) : SameHomes s (sendFlush s x p) :=
  .ite (.refl s) ((sameHomes_orderFlush s x p).modX _ _)

theorem sameHomes_pushAcc (x : Nat) (s : State) (a : Acc) : SameHomes s (pushAcc x s a) := by
  unfold pushAcc
  split
  · split
    · exact sameHomes_writeBack _ _ _
    · exact .refl s
  · exact sameHomes_orderFlush _ _ _
  · exact .refl s

theorem sameHomes_pushWhere (x : Nat) (p : Acc → Bool) (s : State) : SameHomes s (pushWhere x p s) := sameHomes_foldl (sameHomes_pushAcc x) _ s

theorem sameHomes_addAccess (x : Nat) (kind : AccKind) (pa n : Nat) (cls : BitVec 4) (sem : BitVec 2) (scope : BitVec 3) (mmh nc : Bool)
    (data : List Byte) (s : State) : SameHomes s (addAccess x kind pa n cls sem scope mmh nc data s) := ⟨rfl, rfl, rfl, rfl, rfl⟩

theorem sameHomes_joinInval (x vpn n : Nat) (all : Bool) (s : State) : SameHomes s (joinInval x vpn n all s) := ⟨rfl, rfl, rfl, rfl, rfl⟩

theorem sameHomes_awaitAfter (x : Nat) (a : Await) (n : Nat) (s : State) : SameHomes s (awaitAfter x a n s) := sameHomes_modX _ _ _

theorem sameHomes_acquireAfter (x : Nat) (sc : BitVec 3) (s : State) : SameHomes s (acquireAfter x sc s) := .ite (.refl s) (sameHomes_awaitAfter _ _ _ _)

theorem sameHomes_globalLoad (x form pa n : Nat) (eff : RegWrite) (q : WgLd) (nc : Bool) (s : State) : SameHomes s (globalLoad x form pa n eff q nc s) :=
  have h := (sameHomes_addAccess x .load pa n q.oc q.sem q.scope q.mmh nc [] s).modX x (fun c => c.addResult 12 eff form (.waiting (nextGroup s)))
  .ite (h.trans (sameHomes_awaitAfter _ _ _ _)) h

theorem sameHomes_startDrain (x n : Nat) (s : State) : SameHomes s (startDrain x n s) := by
  have hdrain : SameHomes s (drainCache s (coreOf x)) := by
    unfold drainCache
    exact (sameHomes_foldl (fun t l => sameHomes_writeBack t _ l) _ s).modC _ _
  have hdrop : ∀ t, SameHomes t (dropAllocs t (coreOf x)) := fun t => sameHomes_foldl (fun u p => sameHomes_mapAccs _ _ _ u) _ t
  simp only [startDrain]
  exact (((hdrain.trans (hdrop _)).modC _ _).trans (sameHomes_awaitAfter _ _ _ _)).trans (sameHomes_addTimer _ _ _ _)

theorem sameHomes_arrive (x : Nat) (s : State) : SameHomes s (arrive x s) := by
  simp only [arrive]
  split
  · refine (sameHomes_cleanPart s (coreOf x) (getX s x).part).trans ?_
    exact .ite ⟨rfl, rfl, rfl, rfl, rfl⟩ (.refl _)
  · exact sameHomes_pushWhere _ _ _

theorem sameHomes_openStream (x q : Nat) (d : BitVec 512) (s : State) : SameHomes s (openStream x q d s) := by
  unfold openStream
  generalize freeSid = free
  simp only []
  split
  · exact .refl s
  · exact ((sameHomes_modPart _ _ _).modX _ _).modX _ _

theorem sameHomes_walkNotice (s : State) (k : Nat) (m : TlbEntry) (pte : Nat) (e : BitVec 128) : SameHomes s (walkNotice s k m pte e) := by
  simp only [walkNotice]
  split
  · exact ⟨rfl, rfl, rfl, rfl, rfl⟩
  · exact .refl s

theorem sameHomes_installWalk (s : State) (k : Nat) (p : BitVec 3) (va : Nat) (m : TlbEntry) (pte : Nat) (e : BitVec 128) (nl : List WalkEntry) :
    SameHomes s (installWalk s k p va m pte e nl) := by
  simp only [installWalk]
  exact ((sameHomes_fillRoots s k p).modC _ _).trans (sameHomes_walkNotice _ _ _ _ _)

end Sys2Proof.Machine
end

section
/-!
SUPPORT. No slot changes what stands at the homes: whatever it finds, its effect and what happens while it is held keep memory, the line versions,
the poison marks, the boot state and the cycle (R252, R253, R364).  The shared operations first, then each form.
-/

set_option Elab.async false

namespace Sys2Proof.Machine

open Sys2Proof

/-! ## Outcomes -/

/-- The effect of a slot, or what happens while it is held, keeps the homes. -/
def OutKeeps : SlotOut → Prop
  | .go f => Keeps f
  | .hold _ f => Keeps f
  | .trap _ => True

/-- Whatever the slot finds, it keeps the homes. -/
def SlotKeeps (f : Slot) : Prop := ∀ e s, OutKeeps (f e s)

theorem outKeeps_trap (l : List Cause) : OutKeeps (.trap l) := trivial

theorem outKeeps_wait (n : Nat) : OutKeeps (.hold n id) := keeps_id

theorem outKeeps_ite {p : Prop} [Decidable p] {a b : SlotOut} (ha : OutKeeps a) (hb : OutKeeps b) : OutKeeps (if p then a else b) := by
  split
  · exact ha
  · exact hb

theorem outKeeps_check {l : List Cause} {k : SlotOut} (h : OutKeeps k) : OutKeeps (check l k) := outKeeps_ite h trivial

theorem outKeeps_queueHold {c : Ctx} {q : Nat} {k : SlotOut} (h : OutKeeps k) : OutKeeps (queueHold c q k) := outKeeps_ite keeps_id h

theorem outKeeps_drainHold {s : State} {nc past : Bool} {pa : Nat} {k : SlotOut} (h : OutKeeps k) : OutKeeps (drainHold s nc past pa k) :=
  outKeeps_ite keeps_id h

theorem keeps_sendOldest (c : Ctx) : Keeps (fun t => if flushing c then t else match c.remote with | p :: _ => sendFlush t t.cur p | [] => t) := by
  intro t
  dsimp only
  split
  · exact .refl t
  · split
    · exact sameHomes_sendFlush _ _ _
    · exact .refl t

theorem outKeeps_ninthHold {s : State} {pa : Nat} {k : SlotOut} (h : OutKeeps k) : OutKeeps (ninthHold s pa k) :=
  outKeeps_ite (keeps_sendOldest _) h

theorem slotKeeps_guarded {g : BitVec 5} {f : Slot} (h : SlotKeeps f) : SlotKeeps (guarded g f) := fun e s => outKeeps_ite (h e s) keeps_id

theorem sameHomes_takePipe (fused : Bool) (pos occ : Nat) (s : State) : SameHomes s (takePipe fused pos occ s) := sameHomes_modC _ _ _

theorem slotKeeps_throughPipe {fused : Bool} {occ : Ctx → Nat} {f : Slot} (h : SlotKeeps f) : SlotKeeps (throughPipe fused occ f) := by
  intro e s
  have hf := h e s
  unfold throughPipe
  split
  next g hg =>
    rw [hg] at hf
    exact outKeeps_ite keeps_id (fun t => (sameHomes_takePipe fused e.pos _ t).trans (hf _))
  next => exact hf

/-! ## Waits for a walk, a handle, a line of a fetch -/

/-- A wait for a translation keeps the homes. -/
def TransKeeps : TransOut → Prop
  | .wait _ f => Keeps f
  | _ => True

def HandleKeeps : HandleOut → Prop
  | .wait _ f => Keeps f
  | _ => True

def GlobKeeps : GlobOut → Prop
  | .wait _ f => Keeps f
  | _ => True

def FetchKeeps : FetchOut → Prop
  | .wait _ f => Keeps f
  | _ => True

theorem transKeeps_walkFor (s : State) (x va : Nat) {g : State → State} (hg : Keeps g) : TransKeeps (walkFor s x va g) := by
  unfold walkFor
  dsimp only
  split
  · exact keeps_id
  split
  · exact fun t => sameHomes_fillRoots t _ _
  split
  · exact fun t => ((sameHomes_installWalk t _ _ _ _ _ _ _).modX _ _).trans (hg _)
  split
  · split
    · split
      · trivial
      · exact keeps_id
    · exact fun t => sameHomes_modX t _ _
  · trivial

theorem transKeeps_translate (s : State) (x va : Nat) : TransKeeps (translate s x va) := by
  unfold translate
  split
  · split
    · exact keeps_id
    · split
      · exact keeps_id
      · trivial
  · exact transKeeps_walkFor s x va keeps_id

theorem handleKeeps_resolveHandle (s : State) (x hn va : Nat) : HandleKeeps (resolveHandle s x hn va) := by
  have hw : ∀ page, TransKeeps (if (getX s x).walked = some page then translate s x page
      else walkFor s x page (fun t => modX t x (fun d => { d with walked := some page }))) := by
    intro page
    split
    · exact transKeeps_translate s x page
    · exact transKeeps_walkFor s x page (fun t => sameHomes_modX t _ _)
  unfold resolveHandle
  dsimp only
  split
  · trivial
  split
  · exact keeps_id
  split
  · trivial
  split
  · split
    · trivial
    · exact fun t => (sameHomes_touchTlb t _ _).modX _ _
  · trivial
  next q f hq =>
    have := hw ((readH (getX s x) hn).vpn.toNat * 65536)
    rw [hq] at this
    exact this

theorem globKeeps_globalOperand (s : State) (x hn o n align : Nat) (rd wr : Bool) : GlobKeeps (globalOperand s x hn o n align rd wr) := by
  unfold globalOperand
  split
  · trivial
  next q f hq =>
    have := handleKeeps_resolveHandle s x hn (handleVa (readH (getX s x) hn) o)
    rw [hq] at this
    exact this
  · split
    · split
      · exact keeps_id
      · trivial
    · trivial

theorem outKeeps_withGlobal {g : GlobOut} {k : Handle → Nat → Nat → SlotOut} (hg : GlobKeeps g) (hk : ∀ h pa va, OutKeeps (k h pa va)) :
    OutKeeps (withGlobal g k) := by
  cases g with
  | bad l => trivial
  | wait q f => exact hg
  | ok h pa va => exact hk h pa va

theorem sameHomes_fetchLine (x pa : Nat) (nc : Bool) (s : State) : SameHomes s (fetchLine x pa nc s) := by
  unfold fetchLine
  dsimp only
  split
  · exact .refl s
  · exact ⟨rfl, rfl, rfl, rfl, rfl⟩

theorem fetchKeeps_fetchWords (s : State) (x n va : Nat) : FetchKeeps (fetchWords s x n va) := by
  induction n generalizing va with
  | zero => trivial
  | succ n ih =>
    unfold fetchWords
    split
    · trivial
    next q f hq =>
      have := transKeeps_translate s x va
      rw [hq] at this
      exact this
    · dsimp only
      split
      · trivial
      split
      · trivial
      split
      · exact fun t => sameHomes_fetchLine _ _ _ t
      split
      · trivial
      split
      · trivial
      · exact ih _

theorem outKeeps_bodyEnd {s : State} {x n va : Nat} {o : SlotOut} (h : bodyEnd s x n va = .inr o) : OutKeeps o := by
  induction n generalizing va with
  | zero => exact nomatch h
  | succ n ih =>
    unfold bodyEnd at h
    split at h
    · cases h; trivial
    next q f hq =>
      have := fetchKeeps_fetchWords s x 8 va
      rw [hq] at this
      cases h; exact this
    · split at h
      · exact ih h
      · cases h; trivial

end Sys2Proof.Machine
end

section
/-!
SUPPORT. Every form of a slot keeps the homes, family by family; then every instruction that has a slot.
-/

set_option Elab.async false

namespace Sys2Proof.Machine

open Sys2Proof

/-! ## Scalar forms and control -/

theorem slotKeeps_slotS (d : BitVec 5) (lat : Nat) (f : Ctx → DWord) : SlotKeeps (slotS d lat f) := fun _ _ t => sameHomes_retS t _ _ _
theorem slotKeeps_slotP (d : BitVec 4) (lat : Nat) (f : Ctx → Bool) : SlotKeeps (slotP d lat f) := fun _ _ t => sameHomes_retP t _ _ _
theorem slotKeeps_binS (lat : Nat) (d a b : BitVec 5) (f : DWord → DWord → DWord) : SlotKeeps (binS lat d a b f) := slotKeeps_slotS _ _ _
theorem slotKeeps_unS (d a : BitVec 5) (f : DWord → DWord) : SlotKeeps (unS d a f) := slotKeeps_slotS _ _ _
theorem slotKeeps_cmp (q : Cond) (d : BitVec 4) (a b : BitVec 5) : SlotKeeps (slotCmp q d a b) := slotKeeps_slotP _ _ _
theorem slotKeeps_cmpi (q : Cond) (d : BitVec 4) (a : BitVec 5) (i : BitVec 11) (x : Option (BitVec 28)) : SlotKeeps (slotCmpi q d a i x) :=
  slotKeeps_slotP _ _ _
theorem slotKeeps_nop : SlotKeeps slotNop := fun _ _ => keeps_id

theorem sameHomes_transfer (a : Va) (s : State) : SameHomes s (transfer a s) := sameHomes_modX _ _ _

theorem slotKeeps_divider (d a b : BitVec 5) (f : DWord → DWord → DWord) : SlotKeeps (slotDivider d a b f) := by
  intro e s
  unfold slotDivider
  dsimp only
  split
  · exact keeps_id
  · exact fun t => (sameHomes_modC t _ _).trans (sameHomes_retS _ _ _ _)

theorem slotKeeps_br (g : BitVec 5) (i : BitVec 16) (x : Option (BitVec 28)) : SlotKeeps (slotBr g i x) := fun _ _ =>
  outKeeps_ite (fun t => sameHomes_transfer _ t) keeps_id

theorem slotKeeps_call (d : BitVec 5) (i : BitVec 16) (x : Option (BitVec 28)) : SlotKeeps (slotCall d i x) := fun _ _ t =>
  (sameHomes_transfer _ t).trans (sameHomes_retS _ _ _ _)

theorem slotKeeps_jmp (g a : BitVec 5) : SlotKeeps (slotJmp g a) := fun _ _ =>
  outKeeps_ite (outKeeps_check fun t => sameHomes_transfer _ t) keeps_id

theorem slotKeeps_jcall (d a : BitVec 5) : SlotKeeps (slotJcall d a) := fun _ _ =>
  outKeeps_check fun t => (sameHomes_transfer _ t).trans (sameHomes_retS _ _ _ _)

theorem slotKeeps_lvl (d a b : BitVec 5) (f : BitVec 6) : SlotKeeps (slotLvl d a b f) := fun _ _ => outKeeps_check fun t => sameHomes_modX t _ _

theorem slotKeeps_startLoop (stages len : Nat) : SlotKeeps (startLoop stages len) := by
  intro e s
  unfold startLoop
  dsimp only
  refine outKeeps_check (outKeeps_ite ?_ fun t => sameHomes_modX t _ _)
  split
  · exact fun t => (sameHomes_modX t _ _).trans (sameHomes_transfer _ _)
  next o ho => exact outKeeps_bodyEnd ho

theorem slotKeeps_crr (d : BitVec 5) (c : BitVec 12) : SlotKeeps (slotCrr d c) := fun _ _ => outKeeps_check fun t => sameHomes_retS t _ _ _
theorem slotKeeps_crw (d : BitVec 5) (c : BitVec 12) : SlotKeeps (slotCrw d c) := fun _ _ => outKeeps_check fun t => sameHomes_modX t _ _
theorem slotKeeps_trap (i : BitVec 8) : SlotKeeps (slotTrap i) := fun _ _ t => sameHomes_modX t _ _
theorem slotKeeps_tret : SlotKeeps slotTret := fun _ _ => outKeeps_check fun t => sameHomes_modX t _ _
theorem slotKeeps_tend : SlotKeeps slotTend := fun _ _ t => sameHomes_modX t _ _

/-! ## Memory -/

theorem slotKeeps_tileLoad (form : Nat) (d a : BitVec 5) (i : BitVec 6) (x : Option (BitVec 28)) : SlotKeeps (tileLoad form d a i x) := fun _ _ =>
  outKeeps_check (outKeeps_ite (fun t => sameHomes_modX t _ _) (fun t => sameHomes_retS t _ _ _))

theorem slotKeeps_tileStore (lg : Nat) (g a b : BitVec 5) (i : BitVec 6) (x : Option (BitVec 28)) : SlotKeeps (tileStore lg g a b i x) :=
  slotKeeps_guarded fun _ _ => outKeeps_check fun t => sameHomes_storeTs t _ _ _ _

theorem slotKeeps_ldg (form : Nat) (d a : BitVec 5) (h : BitVec 4) (x : Option WgLd) : SlotKeeps (slotLdg form d a h x) := fun _ _ =>
  outKeeps_withGlobal (globKeeps_globalOperand _ _ _ _ _ _ _ _) fun _ _ _ => outKeeps_drainHold fun t => sameHomes_globalLoad _ _ _ _ _ _ _ t

theorem slotKeeps_ldgV (d a : BitVec 5) (h : BitVec 4) (x : Option WgLd) : SlotKeeps (slotLdgV d a h x) := fun _ _ =>
  outKeeps_withGlobal (globKeeps_globalOperand _ _ _ _ _ _ _ _) fun _ _ _ => outKeeps_drainHold fun t => sameHomes_globalLoad _ _ _ _ _ _ _ t

theorem slotKeeps_globalStore (a : BitVec 5) (h : BitVec 4) (x : Option WgSt) (align : Nat) (l : List Byte) : SlotKeeps (globalStore a h x align l) :=
  fun _ _ => outKeeps_withGlobal (globKeeps_globalOperand _ _ _ _ _ _ _ _) fun _ _ _ =>
    outKeeps_drainHold (outKeeps_ninthHold fun t => sameHomes_addAccess _ _ _ _ _ _ _ _ _ _ t)

theorem slotKeeps_stg (lg : Nat) (g a b : BitVec 5) (h : BitVec 4) (x : Option WgSt) : SlotKeeps (slotStg lg g a b h x) :=
  slotKeeps_guarded fun e s => slotKeeps_globalStore _ _ _ _ _ e s

theorem slotKeeps_stgV (g a b : BitVec 5) (h : BitVec 4) (x : Option WgSt) : SlotKeeps (slotStgV g a b h x) :=
  slotKeeps_guarded fun e s => slotKeeps_globalStore _ _ _ _ _ e s

theorem slotKeeps_xst (g a b c : BitVec 5) : SlotKeeps (slotXst g a b c) := by
  refine slotKeeps_guarded fun e s => ?_
  dsimp only
  refine outKeeps_check ?_
  split
  · split
    · intro t
      refine .trans ?_ (sameHomes_sendPkt _ _)
      exact ⟨rfl, rfl, rfl, rfl, rfl⟩
    · exact keeps_id
  · exact keeps_id

theorem keeps_atomic (x pa n lat form grp : Nat) (k : AccKind) (oc : BitVec 4) (sem : BitVec 2) (scope : BitVec 3) (nc : Bool) (d : BitVec 5)
    (eff : RegWrite) (p : Prop) [Decidable p] (a : Await) (t : State) :
    SameHomes t (let t1 := addAccess x k pa n oc sem scope false nc [] t
      let t2 := if d = 0 then t1 else modX t1 x (fun c => c.addResult lat eff form (.waiting grp))
      if p then awaitAfter x a 1 t2 else t2) := by
  have h1 := sameHomes_addAccess x k pa n oc sem scope false nc [] t
  have h2 := SameHomes.ite (p := d = 0) h1 (h1.modX x fun c => c.addResult lat eff form (.waiting grp))
  exact .ite (h2.trans (sameHomes_awaitAfter _ _ _ _)) h2

theorem slotKeeps_atomic (op : Nat) (d a b : BitVec 5) (h : BitVec 4) (z : BitVec 1) (oc : BitVec 4) (sem : BitVec 2) (scope : BitVec 3)
    (cmp : DWord) (g : BitVec 5) : SlotKeeps (slotAtomic op d a b h z oc sem scope cmp g) :=
  slotKeeps_guarded fun _ _ => outKeeps_withGlobal (globKeeps_globalOperand _ _ _ _ _ _ _ _) fun _ _ _ t =>
    keeps_atomic _ _ _ _ _ _ _ _ _ _ _ _ _ _ _ t

theorem slotKeeps_at (op : Nat) (d a b : BitVec 5) (h : BitVec 4) (z : BitVec 1) (x : AtExt) : SlotKeeps (slotAt op d a b h z x) :=
  slotKeeps_atomic _ _ _ _ _ _ _ _ _ _ _

theorem slotKeeps_acas (d a b : BitVec 5) (h : BitVec 4) (z : BitVec 1) (x : CasExt) : SlotKeeps (slotAcas d a b h z x) := fun e s =>
  slotKeeps_atomic _ _ _ _ _ _ _ _ _ _ _ e s

/-! ## Translation, fences, timelines, barriers -/

theorem slotKeeps_translateInto (ar : Bool) (d : BitVec 4) (a : BitVec 5) : SlotKeeps (translateInto ar d a) := by
  intro e s
  unfold translateInto
  dsimp only
  split
  · trivial
  split
  next q f hq =>
    have := transKeeps_translate s s.cur (readS (getX s s.cur) a).toNat
    rw [hq] at this
    exact this
  · trivial
  · exact outKeeps_check fun t => (sameHomes_touchTlb t _ _).modX _ _

theorem sameHomes_requestInval (x vpn n : Nat) (all : Bool) (s : State) : SameHomes s (requestInval x vpn n all s) := (sameHomes_joinInval _ _ _ _ s).modX _ _

theorem slotKeeps_inv (a b : BitVec 5) : SlotKeeps (slotInv a b) := fun _ _ => outKeeps_check fun t => sameHomes_requestInval _ _ _ _ t
theorem slotKeeps_invAll : SlotKeeps slotInvAll := fun _ _ => outKeeps_check fun t => sameHomes_requestInval _ _ _ _ t
theorem slotKeeps_fenceCm (sc : BitVec 3) (m : BitVec 16) : SlotKeeps (slotFenceCm sc m) := fun _ _ =>
  outKeeps_ite keeps_id fun t => sameHomes_awaitAfter _ _ _ t
theorem slotKeeps_fenceSc : SlotKeeps slotFenceSc := fun _ _ t => sameHomes_awaitAfter _ _ _ t

theorem slotKeeps_gbar : SlotKeeps slotGbar := fun _ _ => outKeeps_ite (outKeeps_ite keeps_id keeps_id) fun t => sameHomes_arrive _ t

theorem slotKeeps_phase (p : BitVec 3) : SlotKeeps (slotPhase p) := fun _ _ =>
  outKeeps_ite trivial (outKeeps_ite keeps_id fun t => sameHomes_startDrain _ _ t)

theorem slotKeeps_tlwait (sc a : BitVec 3) (b : BitVec 5) : SlotKeeps (slotTlwait sc a b) := fun _ _ =>
  outKeeps_ite (fun t => sameHomes_acquireAfter _ _ t) (outKeeps_check keeps_id)

theorem slotKeeps_tlinc (a : BitVec 3) (b : BitVec 5) : SlotKeeps (slotTlinc a b) := fun _ _ => outKeeps_check fun t => sameHomes_modX t _ _

theorem slotKeeps_tlmwait (sc : BitVec 3) (a b : BitVec 5) (h : BitVec 4) : SlotKeeps (slotTlmwait sc a b h) := fun _ _ =>
  outKeeps_withGlobal (globKeeps_globalOperand _ _ _ _ _ _ _ _) fun _ _ _ =>
    outKeeps_ite (fun t => sameHomes_acquireAfter _ _ t) fun t => .ite (.refl t) ((sameHomes_addAccess _ _ _ _ _ _ _ _ _ _ t).modX _ _)

theorem slotKeeps_tlmsig (sc : BitVec 3) (a b : BitVec 5) (h : BitVec 4) : SlotKeeps (slotTlmsig sc a b h) := fun _ _ =>
  outKeeps_withGlobal (globKeeps_globalOperand _ _ _ _ _ _ _ _) fun _ _ _ t => sameHomes_addAccess _ _ _ _ _ _ _ _ _ _ t

theorem slotKeeps_tbinit (c a b : BitVec 5) : SlotKeeps (slotTbinit c a b) := fun _ _ => outKeeps_check fun t => sameHomes_storeTs t _ _ _ _
theorem slotKeeps_tbarr (a b : BitVec 5) : SlotKeeps (slotTbarr a b) := fun _ _ => outKeeps_check fun t => sameHomes_storeTs t _ _ _ _

theorem slotKeeps_tbwait (sc : BitVec 3) (a b : BitVec 5) : SlotKeeps (slotTbwait sc a b) := by
  intro e s
  unfold slotTbwait
  dsimp only
  split
  · split
    · trivial
    · exact outKeeps_ite keeps_id fun t => sameHomes_acquireAfter _ _ t
  · trivial

/-! ## Vectors -/

theorem slotKeeps_laneForm (d : BitVec 5) (causes : Ctx → List Cause) (lat : Nat → Nat) (f : Ctx → Nat → Nat) : SlotKeeps (laneForm d causes lat f) :=
  fun _ _ => outKeeps_check fun t => sameHomes_retV t _ _ _ _

theorem slotKeeps_vec2 (k : Nat) (d a b : BitVec 5) (r t : BitVec 3) (f : Ex → Ex → Ex) : SlotKeeps (vec2 k d a b r t f) :=
  slotKeeps_throughPipe (slotKeeps_laneForm _ _ _ _)
theorem slotKeeps_vec1 (d a : BitVec 5) (r t : BitVec 3) (f : Ex → Ex) : SlotKeeps (vec1 d a r t f) := slotKeeps_throughPipe (slotKeeps_laneForm _ _ _ _)
theorem slotKeeps_vec3 (d a b : BitVec 5) (r t : BitVec 3) (q : BitVec 5) (f : Ex → Ex → Ex → Ex) : SlotKeeps (vec3 d a b r t q f) :=
  slotKeeps_throughPipe (slotKeeps_laneForm _ _ _ _)
theorem slotKeeps_vecSpecial (d : BitVec 5) (t : BitVec 3) (f : Ctx → Nat → Nat) : SlotKeeps (vecSpecial d t f) :=
  slotKeeps_throughPipe (slotKeeps_laneForm _ _ _ _)
theorem slotKeeps_vecBits (d a b : BitVec 5) (t : BitVec 3) (f : Nat → Nat → Nat → Nat) : SlotKeeps (vecBits d a b t f) :=
  slotKeeps_throughPipe (slotKeeps_laneForm _ _ _ _)
theorem slotKeeps_vcmp (d a b : BitVec 5) (t : BitVec 3) (f : Ex → Ex → Bool) : SlotKeeps (slotVcmp d a b t f) :=
  slotKeeps_throughPipe (slotKeeps_laneForm _ _ _ _)
theorem slotKeeps_vecMove (k : Nat) (d : BitVec 5) (causes : Ctx → List Cause) (f : Ctx → Nat → Nat) : SlotKeeps (vecMove k d causes f) :=
  slotKeeps_throughPipe (slotKeeps_laneForm _ _ _ _)
theorem slotKeeps_visab (d a : BitVec 5) (t : BitVec 3) : SlotKeeps (slotVisab d a t) := slotKeeps_throughPipe (slotKeeps_laneForm _ _ _ _)
theorem slotKeeps_vispr (d a : BitVec 5) (t : BitVec 3) : SlotKeeps (slotVispr d a t) := slotKeeps_throughPipe (slotKeeps_laneForm _ _ _ _)
theorem slotKeeps_vfill (d a b : BitVec 5) (t : BitVec 3) : SlotKeeps (slotVfill d a b t) := slotKeeps_throughPipe (slotKeeps_laneForm _ _ _ _)
theorem slotKeeps_vcvt (d a : BitVec 5) (u t : BitVec 3) (x : Option CvtExt) : SlotKeeps (slotVcvt d a u t x) :=
  slotKeeps_throughPipe (slotKeeps_laneForm _ _ _ _)
theorem slotKeeps_vred (d a : BitVec 5) (x : BitVec 1) (t : BitVec 3) (f : List Ex → Ex) : SlotKeeps (slotVred d a x t f) :=
  slotKeeps_throughPipe fun _ _ => outKeeps_check fun t => sameHomes_retV t _ _ _ _
theorem slotKeeps_vext (d a b : BitVec 5) (t : BitVec 3) : SlotKeeps (slotVext d a b t) :=
  slotKeeps_throughPipe fun _ _ => outKeeps_check fun t => sameHomes_retS t _ _ _
theorem slotKeeps_vtmask (d a : BitVec 5) : SlotKeeps (slotVtmask d a) := slotKeeps_throughPipe fun e s => slotKeeps_laneForm _ _ _ _ e s

theorem slotKeeps_vld (d a : BitVec 5) (w : BitVec 4) (x : Option (BitVec 18)) : SlotKeeps (slotVld d a w x) := fun _ _ =>
  outKeeps_check (outKeeps_ite (fun t => sameHomes_modX t _ _) (fun t => sameHomes_retV t _ _ _ _))

theorem slotKeeps_vst (g a b : BitVec 5) (w : BitVec 4) (x : Option (BitVec 18)) : SlotKeeps (slotVst g a b w x) :=
  slotKeeps_guarded fun _ _ => outKeeps_check fun t => sameHomes_storeTs t _ _ _ _

theorem slotKeeps_vldc (d a : BitVec 5) (w : BitVec 4) (x : VldcExt) : SlotKeeps (slotVldc d a w x) := by
  refine slotKeeps_throughPipe fun e s => ?_
  dsimp only
  split
  · trivial
  · refine outKeeps_check ?_
    split
    · exact fun t => (sameHomes_useThr t).modX _ _
    · exact fun t => (sameHomes_useThr t).trans (sameHomes_retV _ _ _ _ _)

theorem slotKeeps_vstc (g a b : BitVec 5) (w : BitVec 4) (x : VstcExt) : SlotKeeps (slotVstc g a b w x) := by
  refine slotKeeps_guarded (slotKeeps_throughPipe fun e s => ?_)
  dsimp only
  split
  · trivial
  · exact outKeeps_check fun t => (sameHomes_useThr t).modX _ _

/-! ## The matrix unit -/

theorem slotKeeps_loadPlane (n : Bool) (a : BitVec 5) (w : BitVec 4) : SlotKeeps (loadPlane n a w) := by
  intro e s
  unfold loadPlane
  dsimp only
  split
  · trivial
  · refine outKeeps_check (outKeeps_ite keeps_id (outKeeps_ite ?_ ?_))
    · exact fun t => (sameHomes_useThr t).modX _ _
    · exact fun t => (sameHomes_useThr t).modC _ _

theorem slotKeeps_startMma (chain : Bool) (t : BitVec 3) (a : BitVec 5) (w : BitVec 4) : SlotKeeps (startMma chain t a w) := by
  refine fun _ _ => outKeeps_check (outKeeps_ite keeps_id fun u => ?_)
  refine .modC (.trans ?_ (sameHomes_useThr _)) _ _
  exact ⟨rfl, rfl, rfl, rfl, rfl⟩

theorem slotKeeps_mdrn (m : Nat) (t : BitVec 3) (a : BitVec 5) (w : BitVec 4) (r : BitVec 2) (x : Option (BitVec 5)) : SlotKeeps (slotMdrn m t a w r x) := by
  intro e s
  unfold slotMdrn
  dsimp only
  split
  · trivial
  · exact outKeeps_check fun u => (sameHomes_useThr u).trans (sameHomes_setTs _ _ _)

theorem slotKeeps_mclr (t : BitVec 3) : SlotKeeps (slotMclr t) := fun _ _ => outKeeps_check fun u => sameHomes_modC u _ _

theorem sameHomes_latchWrite (x : Nat) (b : Bool) (v : Tile) (s : State) : SameHomes s (latchWrite x b v s) := sameHomes_modX _ _ _

theorem slotKeeps_scl (b : Bool) (a : BitVec 5) (w : BitVec 4) : SlotKeeps (slotScl b a w) := fun _ _ =>
  outKeeps_check (outKeeps_ite (fun t => sameHomes_modX t _ _) fun t => sameHomes_latchWrite _ _ _ t)
theorem slotKeeps_sclrA : SlotKeeps slotSclrA := fun _ _ t => sameHomes_latchWrite _ _ _ t
theorem slotKeeps_sclrB : SlotKeeps slotSclrB := fun _ _ t => sameHomes_latchWrite _ _ _ t

/-! ## Engine queues, streams, circuits -/

/-- A wait of a side of a copy keeps the homes. -/
def SideKeeps (o : SideOut) : Prop := ∀ q f, sideWait o = some (q, f) → Keeps f

theorem sideKeeps_none : SideKeeps .none := fun _ _ h => nomatch h

theorem sideKeeps_globRange (s : State) (x hn : Nat) (r : Int × Nat) (wr : Bool) : SideKeeps (globRange s x hn r wr) := by
  have hr := handleKeeps_resolveHandle s x hn (handleVa (readH (getX s x) hn) (r.1 % 2 ^ 56).toNat)
  unfold globRange
  dsimp only
  split
  · exact sideKeeps_none
  split
  · exact fun _ _ h => nomatch h
  next q f hq =>
    rw [hq] at hr
    intro q' f' h
    cases h
    exact hr
  · split
    · exact fun _ _ h => nomatch h
    · exact fun _ _ h => nomatch h

theorem sideKeeps_ite {p : Prop} [Decidable p] {a : SideOut} (h : SideKeeps a) : SideKeeps (if p then a else .none) := by
  split
  · exact h
  · exact sideKeeps_none

theorem slotKeeps_copy (o : Nat) (ops : List Nat) (tile : Nat) (a : BitVec 5) (l : BitVec 3) (n : BitVec 1) (x : Option (BitVec 16)) :
    SlotKeeps (slotCopy o ops tile a l n x) := by
  intro e s
  unfold slotCopy
  dsimp only
  split
  · refine outKeeps_ite trivial (outKeeps_check ?_)
    split
    next h => exact sideKeeps_ite (sideKeeps_globRange _ _ _ _ _) _ _ h
    next h => exact sideKeeps_ite (sideKeeps_globRange _ _ _ _ _) _ _ h
    next => exact outKeeps_queueHold fun t => sameHomes_enqueue _ _ _ t
  · trivial

theorem slotKeeps_rmapost (a b : BitVec 5) (l : BitVec 3) (n : BitVec 1) (x : Option (BitVec 16)) : SlotKeeps (slotRmapost a b l n x) := fun _ _ =>
  outKeeps_check (outKeeps_queueHold fun t => sameHomes_enqueue _ _ _ t)

theorem slotKeeps_kvcommit (d a b : BitVec 5) (l : BitVec 3) (n : BitVec 1) (x : Option (BitVec 16)) : SlotKeeps (slotKvcommit d a b l n x) := by
  intro e s
  unfold slotKvcommit
  dsimp only
  split
  · exact outKeeps_check (outKeeps_queueHold fun t => ((sameHomes_enqueue _ _ _ t).trans (sameHomes_storeTs _ _ _ _ _)).trans (sameHomes_retS _ _ _ _))
  · trivial

theorem slotKeeps_launch (a b : BitVec 5) : SlotKeeps (slotLaunch a b) := by
  intro e s
  unfold slotLaunch
  dsimp only
  split
  · split
    next q f hq =>
      have := transKeeps_translate s s.cur (readS (getX s s.cur) a).toNat
      rw [hq] at this
      exact this
    · trivial
    · exact outKeeps_check (outKeeps_queueHold fun t => (sameHomes_touchTlb t _ _).trans (sameHomes_enqueue _ _ _ _))
  · trivial

theorem slotKeeps_sopen (d : BitVec 3) (a : BitVec 5) : SlotKeeps (slotSopen d a) := by
  intro e s
  unfold slotSopen
  dsimp only
  split
  · refine outKeeps_check ?_
    split
    · exact fun t => sameHomes_modPart t _ _
    · exact outKeeps_ite (fun t => sameHomes_openStream _ _ _ t) (outKeeps_ite (fun t => sameHomes_modX t _ _) trivial)
  · trivial

theorem slotKeeps_spush (d : BitVec 5) (a : BitVec 3) (b : BitVec 5) : SlotKeeps (slotSpush d a b) := fun _ _ =>
  outKeeps_check (outKeeps_ite
    (outKeeps_ite (outKeeps_queueHold fun t => ((sameHomes_enqueue _ _ _ t).modX _ _).trans (sameHomes_retS _ _ _ _)) keeps_id)
    (outKeeps_ite keeps_id fun t => sameHomes_retS t _ _ _))

theorem slotKeeps_spop (d : BitVec 5) (a : BitVec 3) : SlotKeeps (slotSpop d a) :=
  have hput : ∀ (x : Nat) (q : Port) (v : DWord), Keeps fun t => retS d 2 v (modX t x (fun k => setQ k a.toNat q)) :=
    fun _ _ _ t => (sameHomes_modX t _ _).trans (sameHomes_retS _ _ _ _)
  fun _ _ => outKeeps_ite trivial (outKeeps_ite keeps_id (outKeeps_ite (hput _ _ _) (outKeeps_ite (hput _ _ _) (outKeeps_ite (hput _ _ _)
    (outKeeps_ite (hput _ _ _) keeps_id)))))

theorem slotKeeps_sclose (a : BitVec 3) : SlotKeeps (slotSclose a) := fun _ _ =>
  outKeeps_ite trivial (outKeeps_ite keeps_id (outKeeps_queueHold fun t => sameHomes_enqueue _ _ _ t))

theorem slotKeeps_ckopen (d : BitVec 3) (a : BitVec 5) : SlotKeeps (slotCkopen d a) := by
  intro e s
  unfold slotCkopen
  dsimp only
  split
  · exact outKeeps_check (outKeeps_queueHold fun t => (sameHomes_enqueue _ _ _ t).modX _ _)
  · trivial

theorem slotKeeps_ckhold (a : BitVec 3) (b : BitVec 5) : SlotKeeps (slotCkhold a b) := fun _ _ =>
  outKeeps_check fun t => .ite ((sameHomes_modX t _ _).trans (sameHomes_addTimer _ _ _ _)) (.refl t)

theorem slotKeeps_cksend (c : BitVec 5) (a : BitVec 3) (b : BitVec 5) (l : BitVec 3) (n : BitVec 1) (x : Option (BitVec 16)) :
    SlotKeeps (slotCksend c a b l n x) := fun _ _ => outKeeps_check (outKeeps_queueHold fun t => sameHomes_enqueue _ _ _ t)

theorem slotKeeps_ckclose (a : BitVec 3) : SlotKeeps (slotCkclose a) := fun _ _ => outKeeps_queueHold fun t => sameHomes_enqueue _ _ _ t

theorem slotKeeps_ckstat (d : BitVec 5) (a : BitVec 3) : SlotKeeps (slotCkstat d a) := fun _ _ t => sameHomes_retS t _ _ _

end Sys2Proof.Machine
end

section
/-!
SUPPORT AND CERTIFICATE. The issue of a bundle keeps the homes when its slots do: its traps, holds, effects and what ends it; so an instruction that has
an encoding leaves memory as it is (R252, R253, R304, R329).
-/

set_option Elab.async false

namespace Sys2Proof.Machine

open Sys2Proof

/-! ## Every instruction with a slot -/

theorem slotKeeps_of_slotOf {i : Instr} {f : Slot} (h : slotOf i = some f) : SlotKeeps f := by
  cases i
  all_goals cases h
  case nop => exact slotKeeps_nop
  case add | sub | mul | mulh | mulhz | and | or | xor | andn | shl | shr | sar | rol | min | max | minz | maxz => exact (slotKeeps_binS _ _ _ _ _)
  case clz | ctz | popc | extB | extH | extW | extzB | extzH | extzW | mov | addi | andi | ori | xori | shli | shri | sari => exact (slotKeeps_unS _ _ _)
  case muli | movi | movh | sel | hstat | tlrd | sstat => exact (slotKeeps_slotS _ _ _)
  case div | divz | rem | remz => exact (slotKeeps_divider _ _ _ _)
  case cmpEq | cmpNe | cmpLt | cmpLe | cmpLo | cmpLs => exact (slotKeeps_cmp _ _ _ _)
  case cmpiEq | cmpiNe | cmpiLt | cmpiLe | cmpiLo | cmpiLs => exact (slotKeeps_cmpi _ _ _ _ _)
  case pand | por | pxor | pandn | pnot => exact (slotKeeps_slotP _ _ _)
  case br => exact (slotKeeps_br _ _ _)
  case call => exact (slotKeeps_call _ _ _)
  case jmp => exact (slotKeeps_jmp _ _)
  case jcall => exact (slotKeeps_jcall _ _)
  case lvl => exact (slotKeeps_lvl _ _ _ _)
  case loop | loopSp => exact (slotKeeps_startLoop _ _)
  case crr => exact (slotKeeps_crr _ _)
  case crw => exact (slotKeeps_crw _ _)
  case trap => exact (slotKeeps_trap _)
  case tret => exact slotKeeps_tret
  case tend => exact slotKeeps_tend
  case ldB | ldH | ldW | ldD | ldzB | ldzH | ldzW => exact (slotKeeps_tileLoad _ _ _ _ _)
  case stB | stH | stW | stD => exact (slotKeeps_tileStore _ _ _ _ _ _)
  case ldgB | ldgH | ldgW | ldgD | ldgzB | ldgzH | ldgzW => exact (slotKeeps_ldg _ _ _ _ _)
  case ldgV => exact (slotKeeps_ldgV _ _ _ _)
  case stgB | stgH | stgW | stgD => exact (slotKeeps_stg _ _ _ _ _ _)
  case stgV => exact (slotKeeps_stgV _ _ _ _ _)
  case xst => exact (slotKeeps_xst _ _ _ _)
  case aadd | asub | aand | aor | axor | amin | amax | aminz | amaxz | aswp | afadd => exact (slotKeeps_at _ _ _ _ _ _ _)
  case acas => exact (slotKeeps_acas _ _ _ _ _ _)
  case trans | transAr => exact (slotKeeps_translateInto _ _ _)
  case inv => exact (slotKeeps_inv _ _)
  case invAll => exact slotKeeps_invAll
  case fenceCm => exact (slotKeeps_fenceCm _ _)
  case fenceSc => exact slotKeeps_fenceSc
  case gbar => exact slotKeeps_gbar
  case phase => exact (slotKeeps_phase _)
  case tlwait => exact (slotKeeps_tlwait _ _ _)
  case tlinc => exact (slotKeeps_tlinc _ _)
  case tlmwait => exact (slotKeeps_tlmwait _ _ _ _)
  case tlmsig => exact (slotKeeps_tlmsig _ _ _ _)
  case tbinit => exact (slotKeeps_tbinit _ _ _)
  case tbarr => exact (slotKeeps_tbarr _ _)
  case tbwait => exact (slotKeeps_tbwait _ _ _)
  case vadd | vsub | vmul | vmin | vmax | viadd | vimul | vimax | vimin => exact (slotKeeps_vec2 _ _ _ _ _ _ _)
  case vneg | vmag => exact (slotKeeps_vec1 _ _ _ _ _)
  case vfma | vfms | vfnma => exact (slotKeeps_vec3 _ _ _ _ _ _ _)
  case vdiv | vexp | vlog | vrcp | vsqrt | vrsqrt | vtanh | vsigm | vgelu => exact (slotKeeps_vecSpecial _ _ _)
  case vand | vor | vxor | vshl | vshr | vsar => exact (slotKeeps_vecBits _ _ _ _ _)
  case vcmpEq | vcmpNe | vcmpLt | vcmpLe | vcmpGt | vcmpGe => exact (slotKeeps_vcmp _ _ _ _ _)
  case vsel | vselm | vtrn | vperm | vbrow | vbcs | vmov | vins => exact (slotKeeps_vecMove _ _ _ _)
  case visab => exact (slotKeeps_visab _ _ _)
  case vispr => exact (slotKeeps_vispr _ _ _)
  case vfill => exact (slotKeeps_vfill _ _ _ _)
  case vcvt => exact (slotKeeps_vcvt _ _ _ _ _)
  case vredSum | vredMax | vredMin | vredMean | vredCount => exact (slotKeeps_vred _ _ _ _ _)
  case vext => exact (slotKeeps_vext _ _ _ _)
  case vtmask => exact (slotKeeps_vtmask _ _)
  case vld => exact (slotKeeps_vld _ _ _ _)
  case vst => exact (slotKeeps_vst _ _ _ _ _)
  case vldc => exact (slotKeeps_vldc _ _ _ _)
  case vstc => exact (slotKeeps_vstc _ _ _ _ _)
  case mldb | mldbt => exact (slotKeeps_loadPlane _ _ _)
  case mma | mmaC => exact (slotKeeps_startMma _ _ _ _)
  case mdrnRaw | mdrnRawa | mdrnMean | mdrnCount => exact (slotKeeps_mdrn _ _ _ _ _ _)
  case mclr => exact (slotKeeps_mclr _)
  case sclA | sclB => exact (slotKeeps_scl _ _ _)
  case sclrA => exact slotKeeps_sclrA
  case sclrB => exact slotKeeps_sclrB
  case cpy | cpyaw | cpymc | cpyrm => exact (slotKeeps_copy _ _ _ _ _ _ _)
  case rmapost => exact (slotKeeps_rmapost _ _ _ _ _)
  case kvcommit => exact (slotKeeps_kvcommit _ _ _ _ _ _)
  case launch => exact (slotKeeps_launch _ _)
  case sopen => exact (slotKeeps_sopen _ _)
  case spush => exact (slotKeeps_spush _ _ _)
  case spop => exact (slotKeeps_spop _ _)
  case sclose => exact (slotKeeps_sclose _)
  case ckopen => exact (slotKeeps_ckopen _ _)
  case ckhold => exact (slotKeeps_ckhold _ _)
  case cksend => exact (slotKeeps_cksend _ _ _ _ _ _)
  case ckclose => exact (slotKeeps_ckclose _)
  case ckstat => exact (slotKeeps_ckstat _ _)

theorem isNone_slotOf (i : Instr) : (slotOf i).isNone = Laws.isEvent i := by cases i <;> rfl

theorem isNone_encode (i : Instr) : (encode i).isNone = Laws.isEvent i := by cases i <;> rfl

theorem exists_slotOf_of_encode {i : Instr} (h : encode i ≠ none) : ∃ f, slotOf i = some f := by
  have hs : (slotOf i).isNone = false := by
    rw [isNone_slotOf, ← isNone_encode]
    exact Option.isNone_eq_false_iff.mpr (Option.isSome_iff_ne_none.mpr h)
  exact Option.isSome_iff_exists.mp (Option.isNone_eq_false_iff.mp hs)

/-! ## Traps, results, returns -/

theorem sameHomes_endTask (s : State) (x : Nat) (b : Bool) : SameHomes s (endTask s x b) := sameHomes_modX _ _ _

theorem sameHomes_enterTrap (s : State) (x kind slot : Nat) (q : Cause) (opc : Va) (oct : Nat) : SameHomes s (enterTrap s x kind slot q opc oct) := by
  have ht := sameHomes_setX s x (trapCtx s.cyc (getX s x) kind slot q opc oct)
  exact .ite (sameHomes_endTask _ _ _) (.ite (ht.trans (sameHomes_endTask _ _ _)) ht)

theorem sameHomes_issueTrap (s : State) (x slot : Nat) (q : Cause) : SameHomes s (issueTrap s x slot q) := sameHomes_enterTrap _ _ _ _ _ _ _

theorem sameHomes_settle (s : State) (x : Nat) : SameHomes s (settle s x) :=
  SameHomes.trans (.ite (sameHomes_setTs _ _ _) (.refl s)) (sameHomes_setX _ _ _)

theorem sameHomes_returnFrom (s : State) (x : Nat) (skip : Option Nat) : SameHomes s (returnFrom s x skip) := by
  unfold returnFrom
  dsimp only
  refine .ite (sameHomes_endTask _ _ _) ?_
  split
  · exact .ite ((sameHomes_setX _ _ _).trans (sameHomes_settle _ _)) (sameHomes_setX _ _ _)
  · exact sameHomes_setX _ _ _

theorem keeps_of_skipWords {s : State} {x : Nat} {f : State → State} (h : skipWords s x = .inr f) : Keeps f := by
  unfold skipWords at h
  dsimp only at h
  split at h
  · cases h
  · cases h
  next q g hg =>
    have := fetchKeeps_fetchWords (setX s x { getX s x with sup := (getX s x).psup }) x 8 (bitsN (mget 0 (getX s x).ti 1) 0 52)
    rw [hg] at this
    cases h
    exact this

theorem sameHomes_resolveReturn (s : State) (x : Nat) : SameHomes s (resolveReturn s x) := by
  unfold resolveReturn
  dsimp only
  refine .ite (.refl s) ?_
  have h2 : ∀ (p : Prop) [Decidable p] (u : TileStore) (c : Ctx), SameHomes s (setX (if p then setTs s x u else s) x c) :=
    fun p _ u c => SameHomes.trans (.ite (sameHomes_setTs _ _ _) (.refl s)) (sameHomes_setX _ _ _)
  refine .ite ?_ ((h2 _ _ _).trans (sameHomes_returnFrom _ _ _))
  split
  · exact (h2 _ _ _).trans (sameHomes_returnFrom _ _ _)
  next f hf => exact ((h2 _ _ _).trans (keeps_of_skipWords hf _)).modX _ _

/-! ## The issue of a bundle -/

theorem sameHomes_finish (words : Nat) (s : State) (x : Nat) : SameHomes s (finish words s x) := by
  unfold finish
  extract_lets c d s1
  have h1 : SameHomes s s1 := sameHomes_setX _ _ _
  clear_value s1
  split
  · exact h1.trans (sameHomes_endTask _ _ _)
  have h2 : SameHomes s (settle s1 x) := h1.trans (sameHomes_settle _ _)
  split
  · exact .ite (h2.trans (sameHomes_resolveReturn _ _)) h2
  · exact h2.trans (sameHomes_enterTrap _ _ _ _ _ _ _)

theorem keeps_effects {l : List (Nat × SlotOut)} (h : ∀ p ∈ l, OutKeeps p.2) : Keeps (effects l) := by
  induction l with
  | nil => exact keeps_id
  | cons p l ih =>
    obtain ⟨n, o⟩ := p
    have hl := ih fun q hq => h q (List.mem_cons_of_mem _ hq)
    cases o with
    | go f => exact fun t => (h (n, .go f) (List.mem_cons_self ..) t).trans (hl _)
    | trap q => exact hl
    | hold q f => exact hl

theorem keeps_of_mem_holdsOf {l : List (Nat × SlotOut)} (h : ∀ p ∈ l, OutKeeps p.2) : ∀ q ∈ holdsOf l, Keeps q.2 := by
  induction l with
  | nil => exact fun _ hq => nomatch hq
  | cons p l ih =>
    obtain ⟨n, o⟩ := p
    have hl := ih fun q hq => h q (List.mem_cons_of_mem _ hq)
    cases o with
    | go f => exact hl
    | trap q => exact hl
    | hold q f =>
      intro r hr
      rcases List.mem_cons.mp hr with rfl | hr
      · exact h (n, .hold q f) (List.mem_cons_self ..)
      · exact hl r hr

theorem sameHomes_foldl_of_mem {l : List (Nat × (State → State))} (h : ∀ q ∈ l, Keeps q.2) (s : State) : SameHomes s (l.foldl (fun t q => q.2 t) s) := by
  induction l generalizing s with
  | nil => exact .refl s
  | cons q l ih => exact (h q (List.mem_cons_self ..) s).trans (ih (fun r hr => h r (List.mem_cons_of_mem _ hr)) _)

theorem sameHomes_beginHold {l : List (Nat × (State → State))} (h : ∀ q ∈ l, Keeps q.2) (s : State) (x : Nat) : SameHomes s (beginHold s x l) := by
  unfold beginHold
  split
  next q hq => exact (h q (List.mem_of_find?_eq_some hq) s).trans (sameHomes_freeze _ _ _)
  · split
    · exact .refl s
    · exact (sameHomes_foldl_of_mem h s).trans (sameHomes_freeze _ _ _)

theorem outKeeps_of_mem_examineSlots {words : Nat} {l : List (Nat × Slot)} (h : ∀ p ∈ l, SlotKeeps p.2) (s : State) :
    ∀ o ∈ examineSlots words l s, OutKeeps o.2 := by
  intro o ho
  rcases List.mem_append.mp ho with ho | ho <;> obtain ⟨p, hp, rfl⟩ := List.mem_map.mp ho <;> exact h p (List.mem_filter.mp hp).1 _ _

theorem sameHomes_issue {words : Nat} {l : List (Nat × Slot)} (h : ∀ p ∈ l, SlotKeeps p.2) (s : State) : SameHomes s (issue words l s) := by
  have ho := outKeeps_of_mem_examineSlots (words := words) h s
  unfold issue
  dsimp only
  refine .ite (sameHomes_freeze _ _ _) ?_
  split
  · exact sameHomes_issueTrap _ _ _ _
  · split
    · exact (keeps_effects ho s).trans (sameHomes_finish _ _ _)
    · exact sameHomes_beginHold (keeps_of_mem_holdsOf ho) _ _

theorem exists_single_sameHomes {f : Slot} (hf : SlotKeeps f) (ok : Bool) (op words pos : Nat) (s : State) :
    ∃ t, single ok op words pos f s = .next t ∧ SameHomes s t := by
  refine ⟨_, rfl, sameHomes_issue (fun p hp => ?_) s⟩
  cases List.mem_singleton.mp hp
  cases ok with
  | true => exact hf
  | false => exact fun _ _ => trivial

/-- Settles O51: an encoded instruction is the issue of its slot, and no slot, trap, hold or return changes what stands at the homes. -/
theorem encodedKeepMemory : Obligations.EncodedKeepMemory := by
  unfold Obligations.EncodedKeepMemory
  intro i s hi
  obtain ⟨f, hf⟩ := exists_slotOf_of_encode hi
  obtain ⟨op, w, p, he, -⟩ := exec_eq_single hf
  obtain ⟨t, ht, hk⟩ := exists_single_sameHomes (slotKeeps_of_slotOf hf) i.wf op w p s
  exact ⟨t, (he s).trans ht, hk.mem, hk.ver, hk.poison, hk.boot, hk.cyc, fun pa n => by rw [hk.mem], fun h => hk.mem ▸ h⟩

end Sys2Proof.Machine
end

section
/-!
SUPPORT AND CERTIFICATE. The step that presents a bundle of one slot (R185, R188, R232, R242, R305): what is picked, what the presented bundle is, and
what comes of it; then the fetch of a bundle of one word.
-/

set_option Elab.async false

namespace Sys2Proof.Machine

open Sys2Proof

/-! ## What is picked -/

/-- With no event due, the next part of a core's cycle is what its entry says. -/
theorem pick_issue {s : State} {k : Nat} {l : List Nat} (hstop : s.boot.stopped = false) (hag : s.agenda = []) (htm : ∀ q ∈ s.timers, s.cyc < q.1)
    (hauto : autoEvent s = none) (htodo : s.todo = (2 * k + 1) :: l) : pick s = issueOf k s := by
  have hf : s.timers.find? (fun t => t.1 ≤ s.cyc) = none :=
    List.find?_eq_none.mpr fun q hq h => absurd (htm q hq) (Nat.not_lt.mpr (of_decide_eq_true h))
  have hodd : ¬ (2 * k + 1) % 2 = 0 := by omega
  have hhalf : (2 * k + 1) / 2 = k := by omega
  unfold pick
  rw [if_neg (by rw [hstop]; exact Bool.false_ne_true)]
  simp only [hag, hf, hauto]
  unfold pick.nextCycle
  simp only [htodo]
  rw [if_neg hodd, hhalf]

theorem issueOf_of_one {s t : State} {k x w : Nat} {refill : Bool} {i : Instr} {f : Slot} {rows reads : List Nat} (hhalf : (getC s k).half = false)
    (hch : choose s k = some (x, refill)) (hp : present s x = .one i w rows reads t) (hi : slotOf i = some f) :
    issueOf k s = tryIssue k x 1 [(0, f)] w rows reads s t (.one i k refill) := by
  unfold issueOf
  simp only [hhalf, hch, hp, hi, Bool.false_eq_true, if_false]

/-- The presentation of a bundle of one slot that nothing stops before it is examined. -/
theorem present_of_one {s : State} {x p : Nat} {ws : List Word} {i : Instr} :
    let u : State := { settle s x with cur := x }
    let v := latchBody (touchFetch u x ws.length) x ws
    notReady (getX u x) = false → boundaryTrap u x = none → fetchBundle u x = .ok ws → examine ws = .ok [(p, i)] →
    present s x = .one i (bundleWeight (getC u (coreOf x)) [(p, i)]) (bundleRows [(p, i)] v) (bundleReads [(p, i)] v) (needThr [(p, i)] v) := by
  intro u v hr hb hf he
  unfold present
  extract_lets src u' c
  have hr' : notReady c = false := hr
  have hb' : boundaryTrap u' x = none := hb
  have hf' : fetchBundle u' x = .ok ws := hf
  simp only [hr', hb', hf', he, Bool.false_eq_true, if_false]
  rfl

/-! ## What comes of it -/

section
variable {k x w words : Nat} {sl : List (Nat × Slot)} {rows reads : List Nat} {s t : State} {go : Nat → State → Pick}

theorem tryIssue_of_hold (h : wouldHold words sl t = true) : tryIssue k x words sl w rows reads s t go = .cycle (issue words sl t) := if_pos h

theorem overLimit_eq_false {c : Core} {n : Nat} (h : n + windowSum c ≤ c.eff.toNat) : overLimit c n = false := decide_eq_false (by omega)

theorem tryIssue_of_trap (h : wouldHold words sl t = false) (ht : wouldTrap words sl t = true)
    (hl : arrayWeight (getC s k) + windowSum (getC s k) ≤ (getC s k).eff.toNat) :
    tryIssue k x words sl w rows reads s t go = go (arrayWeight (getC s k)) (modC t k (fun d => { d with want := [] })) := by
  unfold tryIssue
  simp only [h, ht, overLimit_eq_false hl, Bool.false_eq_true, if_false, if_true]

theorem bankBlocked_eq_false (h : rows = [] ∨ (serveRows 3 rows (marks t k)).2.length ≠ rows.length) : bankBlocked t k rows = false := by
  rcases h with rfl | h
  · rfl
  · exact Bool.and_eq_false_imp.mpr fun _ => beq_eq_false_iff_ne.mpr h

theorem tryIssue_of_go (h : wouldHold words sl t = false) (ht : wouldTrap words sl t = false)
    (hb : rows = [] ∨ (serveRows 3 rows (marks t k)).2.length ≠ rows.length)
    (hl : w + arrayWeight (getC s k) + windowSum (getC s k) ≤ (getC s k).eff.toNat) :
    tryIssue k x words sl w rows reads s t go =
      go (w + arrayWeight (getC s k)) (eccSectors k x true reads (modC t k (fun d => { d with want := rows }))) := by
  unfold tryIssue
  simp only [h, ht, bankBlocked_eq_false hb, overLimit_eq_false hl, Bool.false_eq_true, if_false]

end

theorem step_of_cycle {s t : State} (h : pick s = .cycle t) : step s = .next t := by unfold step; rw [h]

theorem step_of_one {s t : State} {i : Instr} {k w : Nat} {refill : Bool} (h : pick s = .one i k refill w t) :
    step s = (match exec i t with | .next z => .next (afterIssue t k refill w z) | r => r) := by
  unfold step
  rw [h] <;> rfl

/-! ## The fetch of a bundle -/

theorem latchBody_of_no_loop {s : State} {x : Nat} {ws : List Word} (h : (getX s x).curLoop = none) : latchBody s x ws = s := by
  unfold latchBody
  simp only [h]

theorem isLocal_settle (s : State) (x y pa : Nat) : isLocal { settle s x with cur := y } pa = isLocal s pa := by
  have hmg : (settle s x).mg = s.mg := by
    unfold settle
    dsimp only
    split <;> rfl
  unfold isLocal podPkg mgF mgGet
  dsimp only
  rw [hmg]

/-- The fetch outside a loop of a word with E set, whose line the instruction cache holds (R188, R317). -/
theorem fetchBundle_of_last_word {u : State} {x : Nat} {m : TlbEntry} {e : ILine} {pa : Nat} (hloop : (getX u x).curLoop = none)
    (ht : translate u x (getX u x).pc.toNat = .ok m) (hx : m.x = true) (hu : (getX u x).sup = true ∨ m.u = true)
    (hpa : mappedAt m (getX u x).pc.toNat = pa) (hl : isLocal u pa = true) (hp : populatedRange u (paOf pa) 4 = true)
    (hic : icFind (getC u (coreOf x)) (pa / 64) (getX u x).part = some e) (hE : (memWord u (paOf pa)).getLsbD 31 = true) :
    fetchBundle u x = .ok [memWord u (paOf pa)] := by
  have hperm : ¬ (!m.x || (!(getX u x).sup && !m.u)) = true := by
    rcases hu with h | h <;> simp [hx, h]
  have hw : icWord u e pa = memWord u (paOf pa) := if_pos hl
  have hb : bit (memWord u (paOf pa)) 31 = true := hE
  unfold fetchBundle
  simp only [hloop]
  unfold fetchWords
  simp only [ht, hpa, hic, hw, hb, if_true]
  rw [if_neg hperm, if_neg (by simp [hl, hp])]

/-- Settles O50: the pick is the core's issue, the presented bundle the one that the words decode to, and the three outcomes of its trial. -/
theorem stepRunsDecoded : Obligations.StepRunsDecoded := by
  unfold Obligations.StepRunsDecoded
  intro s k x p l refill ws i f hstop hag htm hauto htodo hhalf hch
  have hpick := pick_issue hstop hag htm hauto htodo
  dsimp only
  refine ⟨fun hr hb hf he hi => ?_, fun hloop => ?_, fun m e hloop ht hx hu hl hp hic hE => ?_⟩
  · have htry := issueOf_of_one hhalf hch (present_of_one hr hb hf he) hi
    refine ⟨fun h => ?_, fun h ht hl => ?_, fun h ht hrows hl => ?_⟩
    · exact step_of_cycle (by rw [hpick, htry, tryIssue_of_hold h])
    · exact step_of_one (by rw [hpick, htry, tryIssue_of_trap h ht hl])
    · exact step_of_one (by rw [hpick, htry, tryIssue_of_go h ht hrows hl])
  · exact latchBody_of_no_loop hloop
  · exact fetchBundle_of_last_word hloop ht hx hu rfl ((isLocal_settle s x x _).trans hl) hp hic hE

end Sys2Proof.Machine
end

section
/-!
SUPPORT. Management registers (R149): what a register and a field read after a write, what an entry of the black box and an interrupt of the host leave
as it is (R37, R41, R151), and what only the registers, the record, the messages to the host and the cores' limits change.
-/

set_option Elab.async false

namespace Sys2Proof.Machine

open Sys2Proof

/-! ## Registers and fields -/

theorem mgGet_mgSet (s : State) (d o d' o' : Nat) (v : DWord) :
    mgGet (mgSet s d o v) d' o' = if mgKey d' o' = mgKey d o then v else mgGet s d' o' := mget_mset ..

theorem mgGet_mgSet_same (s : State) (d o : Nat) (v : DWord) : mgGet (mgSet s d o v) d o = v := mget_mset_same ..

theorem mgGet_mgSet_ne {s : State} {d o d' o' : Nat} {v : DWord} (h : mgKey d' o' ≠ mgKey d o) : mgGet (mgSet s d o v) d' o' = mgGet s d' o' :=
  mget_mset_ne _ _ _ h

theorem mgF_congr {s t : State} {d o : Nat} (h : mgGet t d o = mgGet s d o) (lo n : Nat) : mgF t d o lo n = mgF s d o lo n := by
  unfold mgF
  rw [h]

theorem mgF_mgSetF_same {s : State} {d o lo n x : Nat} (h : lo + n ≤ 64) : mgF (mgSetF s d o lo n x) d o lo n = x % 2 ^ n := by
  unfold mgF mgSetF
  rw [mgGet_mgSet_same, bitsN_setBits_same _ _ h]

theorem mgF_mgSetF_other {s : State} {d o lo n lo' n' x : Nat} (h : lo' + n' ≤ 64) (hdis : lo' + n' ≤ lo ∨ lo + n ≤ lo') :
    mgF (mgSetF s d o lo n x) d o lo' n' = mgF s d o lo' n' := by
  unfold mgF mgSetF
  rw [mgGet_mgSet_same, bitsN_setBits_other _ _ h hdis]

theorem mgGet_mgSetF_ne {s : State} {d o lo n x d' o' : Nat} (h : mgKey d' o' ≠ mgKey d o) : mgGet (mgSetF s d o lo n x) d' o' = mgGet s d' o' :=
  mgGet_mgSet_ne h

/-! ## The host's interrupts and the black box -/

theorem mgGet_hintEdge (old s : State) (d o : Nat) : mgGet (hintEdge old s) d o = mgGet s d o := by
  unfold hintEdge
  split
  · split <;> rfl
  · rfl

theorem mgGet_setHint_ne {s : State} {b d o : Nat} (h : mgKey d o ≠ mgKey 0 oHint) : mgGet (setHint s b) d o = mgGet s d o := by
  unfold setHint
  rw [mgGet_hintEdge, mgGet_mgSet_ne h]

theorem mgGet_setHint_same (s : State) (b : Nat) : mgGet (setHint s b) 0 oHint = mgGet s 0 oHint ||| BitVec.ofNat 64 (2 ^ b) := by
  unfold setHint
  rw [mgGet_hintEdge, mgGet_mgSet_same]

theorem mgGet_bbxLogAt_ne {e d o : Nat} (h : mgKey d o ≠ mgKey e oBbx) (s : State) (cls code cause part unit : Nat) (data : BitVec 128) :
    mgGet (bbxLogAt e s cls code cause part unit data) d o = mgGet s d o := by
  unfold bbxLogAt
  dsimp only
  split
  · rfl
  · split <;> simp only [mgGet_mgSetF_ne h] <;> rfl

/-! ## Registers only -/

/-- The state without the registers, the black box, the messages to the host and the cores. -/
def State.bare (s : State) : State := { s with mg := [], bbx := [], badBbx := [], side := [], cores := [] }

/-- Nothing but registers, the black box, messages to the host and cores differs. -/
def RegsOnly (s t : State) : Prop := t.bare = s.bare

namespace RegsOnly

variable {s t u : State}

theorem refl (s : State) : RegsOnly s s := rfl
theorem trans (h : RegsOnly s t) (k : RegsOnly t u) : RegsOnly s u := Eq.trans k h
theorem proj {α : Type} (h : RegsOnly s t) (f : State → α) (hf : ∀ u : State, f u.bare = f u) : f t = f s := by
  rw [← hf t, ← hf s, show t.bare = s.bare from h]
theorem boot (h : RegsOnly s t) : t.boot = s.boot := h.proj State.boot fun _ => rfl
theorem mgmt (h : RegsOnly s t) : t.mgmt = s.mgmt := h.proj State.mgmt fun _ => rfl
theorem running (h : RegsOnly s t) : t.running = s.running := h.proj State.running fun _ => rfl
theorem cicada (h : RegsOnly s t) : t.cicada = s.cicada := h.proj State.cicada fun _ => rfl
theorem sub (h : RegsOnly s t) : t.sub = s.sub := h.proj State.sub fun _ => rfl
theorem cyc (h : RegsOnly s t) : t.cyc = s.cyc := h.proj State.cyc fun _ => rfl
theorem mem (h : RegsOnly s t) : t.mem = s.mem := h.proj State.mem fun _ => rfl
theorem ver (h : RegsOnly s t) : t.ver = s.ver := h.proj State.ver fun _ => rfl
theorem poison (h : RegsOnly s t) : t.poison = s.poison := h.proj State.poison fun _ => rfl
theorem net (h : RegsOnly s t) : t.net = s.net := h.proj State.net fun _ => rfl
theorem rx (h : RegsOnly s t) : t.rx = s.rx := h.proj State.rx fun _ => rfl
theorem ctxs (h : RegsOnly s t) : t.ctxs = s.ctxs := h.proj State.ctxs fun _ => rfl
theorem gangs (h : RegsOnly s t) : t.gangs = s.gangs := h.proj State.gangs fun _ => rfl
theorem recs (h : RegsOnly s t) : t.recs = s.recs := h.proj State.recs fun _ => rfl
theorem circuits (h : RegsOnly s t) : t.circuits = s.circuits := h.proj State.circuits fun _ => rfl
theorem promos (h : RegsOnly s t) : t.promos = s.promos := h.proj State.promos fun _ => rfl
theorem parts (h : RegsOnly s t) : t.parts = s.parts := h.proj State.parts fun _ => rfl
theorem nextId (h : RegsOnly s t) : t.nextId = s.nextId := h.proj State.nextId fun _ => rfl
theorem hostOut (h : RegsOnly s t) : t.hostOut = s.hostOut := h.proj State.hostOut fun _ => rfl
theorem timers (h : RegsOnly s t) : t.timers = s.timers := h.proj State.timers fun _ => rfl

theorem ite {p : Prop} [Decidable p] (h : RegsOnly s t) (k : RegsOnly s u) : RegsOnly s (if p then t else u) := by
  split
  · exact h
  · exact k

theorem foldl {α : Type} {f : State → α → State} (h : ∀ t a, RegsOnly t (f t a)) (l : List α) (s : State) : RegsOnly s (l.foldl f s) := by
  induction l generalizing s with
  | nil => exact .refl s
  | cons a l ih => exact (h s a).trans (ih _)

end RegsOnly

theorem regsOnly_mgSet (s : State) (d o : Nat) (v : DWord) : RegsOnly s (mgSet s d o v) := rfl
theorem regsOnly_mgSetF (s : State) (d o lo n x : Nat) : RegsOnly s (mgSetF s d o lo n x) := rfl

theorem regsOnly_hintEdge (old s : State) : RegsOnly s (hintEdge old s) := by
  unfold hintEdge
  split
  · split <;> rfl
  · rfl

theorem regsOnly_setHint (s : State) (b : Nat) : RegsOnly s (setHint s b) := RegsOnly.trans (regsOnly_mgSet _ _ _ _) (regsOnly_hintEdge _ _)

theorem regsOnly_bbxLogAt (d : Nat) (s : State) (cls code cause part unit : Nat) (data : BitVec 128) :
    RegsOnly s (bbxLogAt d s cls code cause part unit data) := by
  unfold bbxLogAt
  dsimp only
  split
  · rfl
  · split <;> rfl

theorem regsOnly_bbxLog (s : State) (cls code cause part unit : Nat) (data : BitVec 128) : RegsOnly s (bbxLog s cls code cause part unit data) :=
  regsOnly_bbxLogAt _ _ _ _ _ _ _ _

theorem regsOnly_bbxLogC0 (s : State) (cls code cause part unit : Nat) (data : BitVec 128) : RegsOnly s (bbxLogC0 s cls code cause part unit data) :=
  regsOnly_bbxLogAt _ _ _ _ _ _ _ _

theorem regsOnly_setConfig (s : State) : RegsOnly s (setConfig s) := rfl

theorem regsOnly_setLimits (s : State) : RegsOnly s (setLimits s) := .ite (.refl s) rfl

theorem regsOnly_stepDone (n : Nat) (s : State) : RegsOnly s (stepDone n s) := regsOnly_bbxLog _ _ _ _ _ _ _

theorem regsOnly_podTrained (s : State) (n : Nat) : RegsOnly s (podTrained s n) := .ite (.refl s) rfl

end Sys2Proof.Machine
end

section
/-!
SUPPORT AND CERTIFICATE. The events of boot, of reset, of power and of temperature (R17, R19 to R28, R38, R149, R153).
-/

set_option Elab.async false

namespace Sys2Proof.Machine

open Sys2Proof

/-! ## Cold boot -/

theorem promoOf_no_label {s : State} {p : Pkt} (h : p.label = 0) : promoOf s p = none := by
  unfold promoOf
  rw [if_pos (by rw [h]; rfl)]

/-- A packet without a label enters the packet plane with the next SEQ of its flow. -/
theorem sendPkt_no_label {s : State} {p : Pkt} (h : p.label = 0) :
    sendPkt s p = enterNet (bumpSeq s (stamp s p).flow) { stamp s p with seq := nextSeq s (stamp s p).flow } := by
  have hp : promoOf s (stamp s p) = none := promoOf_no_label h
  unfold sendPkt
  simp only [hp]
  rfl

theorem bumpSeq_boot (s : State) (f : Flow) : (bumpSeq s f).boot = s.boot := by unfold bumpSeq; split <;> rfl
theorem bumpSeq_net (s : State) (f : Flow) : (bumpSeq s f).net = s.net := by unfold bumpSeq; split <;> rfl
theorem bumpSeq_running (s : State) (f : Flow) : (bumpSeq s f).running = s.running := by unfold bumpSeq; split <;> rfl
theorem bumpSeq_cicada (s : State) (f : Flow) : (bumpSeq s f).cicada = s.cicada := by unfold bumpSeq; split <;> rfl
theorem bumpSeq_mem (s : State) (f : Flow) : (bumpSeq s f).mem = s.mem := by unfold bumpSeq; split <;> rfl

/-- What C0 asks for: a read of the first bytes of what it wants, at the UCIe boundary. -/
theorem askPiece_of_want {s : State} {o n : Nat} {l : List (Nat × Nat)} (h : s.boot.want = (o, n) :: l) :
    askPiece s = sendPkt { s with nextId := s.nextId + 1 } (mkPkt 0 0 0 (securityEp 0) ucieEp (newTag s) o [] (.read (min 64 n))) := by
  unfold askPiece wantedPiece
  simp only [h]

/-- Step 1, then step 2 with the header wanted: the state before C0 asks. -/
def headerWanted (s : State) : State :=
  let t := setStep 2 (stepDone 1 (setStep 1 (coldState s)))
  { t with boot := { t.boot with want := [(0, 256)] } }

theorem exec_coldBoot (s : State) (h : s.boot.badModules.contains 0 = false) : exec .coldBoot s = .next (askPiece (headerWanted s)) := by
  show execColdBoot s = _
  rw [execColdBoot, gate_on rfl]
  rw [if_neg (by rw [show (setStep 1 (coldState s)).boot.badModules = s.boot.badModules from rfl, h]; exact Bool.false_ne_true)]
  rfl

theorem exec_coldBoot_stop (s : State) (h : s.boot.badModules.contains 0 = true) : exec .coldBoot s = .next (bootStop (setStep 1 (coldState s))) := by
  show execColdBoot s = _
  rw [execColdBoot, gate_on rfl]
  rw [if_pos (by rw [show (setStep 1 (coldState s)).boot.badModules = s.boot.badModules from rfl, h])]

/-- What a cold boot leaves, with its first request on its way. -/
theorem coldBoot_asks (s : State) : let t := askPiece (headerWanted s)
    t.boot.step = 2 ∧ t.boot.want = [(0, 256)] ∧ t.running = false ∧ t.cicada = 0 ∧ t.mem = []
      ∧ t.net.map (fun f => (f.pkt.src, f.pkt.dst, f.pkt.kind, f.pkt.addr, readLen f.pkt)) = [(securityEp 0, ucieEp, 0, 0, 64)] := by
  have hr := regsOnly_stepDone 1 (setStep 1 (coldState s))
  intro t
  have ht : t = _ := (askPiece_of_want (s := headerWanted s) rfl).trans (sendPkt_no_label rfl)
  refine ⟨?_, ?_, ?_, ?_, ?_, ?_⟩
  · rw [ht, enterNet, bumpSeq_boot]; rfl
  · rw [ht, enterNet, bumpSeq_boot]; rfl
  · rw [ht, enterNet, bumpSeq_running]; exact hr.running
  · rw [ht, enterNet, bumpSeq_cicada]; exact hr.cicada
  · rw [ht, enterNet, bumpSeq_mem]; exact hr.mem
  · rw [ht, enterNet, bumpSeq_net, show ({ headerWanted s with nextId := (headerWanted s).nextId + 1 } : State).net = [] from hr.net]
    rfl

/-! ## Steps 4 and 6 -/

theorem regsOnly_bootReady (s : State) : RegsOnly (setStep 8 s) (bootReady s) := by
  unfold bootReady
  extract_lets fil s1 mem s2 s3 s4
  have h1 : RegsOnly (setStep 8 s) s1 := rfl
  have h2 : RegsOnly (setStep 8 s) s2 := rfl
  have h3 : RegsOnly (setStep 8 s) s3 := .ite h2 rfl
  have h4 : RegsOnly (setStep 8 s) s4 := h3.trans (.foldl (fun _ _ => regsOnly_mgSetF _ _ _ _ _ _) _ _)
  exact ((h4.trans (.foldl regsOnly_podTrained _ _)).trans (regsOnly_setLimits _)).trans ((regsOnly_stepDone _ _).trans (regsOnly_setHint _ _))

/-- The clock runs from 0 and boot is over. -/
theorem bootMapped_runs {s : State} (h : s.boot.t2size ≠ 0) :
    (bootMapped s).running = true ∧ (bootMapped s).cicada = 0 ∧ (bootMapped s).boot.step = 8 ∧ (bootMapped s).boot.t2size = s.boot.t2size := by
  have h6 := regsOnly_stepDone 6 s
  have h7 := regsOnly_stepDone 7 { setStep 7 (stepDone 6 s) with running := true, cicada := 0, sub := 0 }
  have h8 := regsOnly_bootReady (stepDone 7 { setStep 7 (stepDone 6 s) with running := true, cicada := 0, sub := 0 })
  have he : bootMapped s = bootReady (stepDone 7 { setStep 7 (stepDone 6 s) with running := true, cicada := 0, sub := 0 }) := if_neg h
  rw [he]
  refine ⟨h8.running.trans h7.running, h8.cicada.trans h7.cicada, congrArg Boot.step h8.boot, ?_⟩
  exact ((congrArg Boot.t2size h8.boot).trans (congrArg Boot.t2size h7.boot :)).trans (congrArg Boot.t2size h6.boot :)

/-- The die whose turn it is: none before it may still be tried. -/
theorem tryDie_of_first {s : State} {d : Nat} (h0 : 0 < d) (h17 : d < 17) (hf : isFenced s d = false) (hi : s.boot.badImage.contains d = false)
    (ht : mget 0 s.boot.authTries d < 2) (ha : tryFinds s d ≠ 0)
    (hb : ∀ e, 0 < e → e < d → isFenced s e = true ∨ s.boot.badImage.contains e = true ∨ 2 ≤ mget 0 s.boot.authTries e ∨ tryFinds s e = 0) :
    tryDie s = some d := by
  have hrange : tab 16 (· + 1) = List.range' 1 16 := rfl
  unfold tryDie
  rw [hrange, List.find?_range'_eq_some]
  refine ⟨?_, by simp only [List.mem_range']; exact ⟨d - 1, by omega, by omega⟩, fun e he he' => ?_⟩
  · simp only [authFails, hf, hi, decide_eq_false (Nat.not_le.mpr ht), Bool.or_false, Bool.not_false, Bool.true_and]
    exact bne_iff_ne.mpr ha
  · simp only [authFails, Bool.not_eq_true', Bool.and_eq_false_iff, Bool.not_eq_false', Bool.or_eq_true, decide_eq_true_eq, bne_eq_false_iff_eq]
    rcases hb e (by omega) (by omega) with h | h | h | h
    · exact .inl (.inl h)
    · exact .inl (.inr (.inl h))
    · exact .inl (.inr (.inr h))
    · exact .inr h

theorem tryFailed_authTries (d : Nat) (s : State) : (tryFailed d s).boot.authTries = mset s.boot.authTries d (mget 0 s.boot.authTries d + 1) := by
  unfold tryFailed
  dsimp only
  split
  · rfl
  · rw [(regsOnly_bbxLogC0 _ _ _ _ _ _ _).boot]

/-! ## Power and temperature -/

/-- The means of the last ten samples of power, the new one first. -/
def newMeans (watts : Nat) (s : State) : List Nat := (watts :: s.mgmt.means).take 10

/-- The alarm changes neither the management's state nor another field of PKG.POWER than its own. -/
theorem setAlarm_keeps (on : Bool) (s : State) : RegsOnly s (setAlarm on s) := ((regsOnly_mgSetF _ _ _ _ _ _).trans (regsOnly_bbxLog _ _ _ _ _ _ _)).trans (regsOnly_setHint _ _)

theorem mgGet_power_bbxLog (s : State) (cls code cause part unit : Nat) (data : BitVec 128) (d : Nat) (hd : d = 0) :
    mgGet (bbxLogAt d s cls code cause part unit data) 0 oPower = mgGet s 0 oPower := mgGet_bbxLogAt_ne (by rw [hd]; decide) ..

theorem mgGet_power_setHint (s : State) (b : Nat) : mgGet (setHint s b) 0 oPower = mgGet s 0 oPower := mgGet_setHint_ne (by decide)

theorem bbxDie_zero (s : State) : bbxDie s 0 = 0 := by
  unfold bbxDie
  rw [if_pos (by decide)]
  exact ite_self _

theorem mgF_setAlarm {on : Bool} {s : State} {lo n : Nat} (h : lo + n ≤ 29) : mgF (setAlarm on s) 0 oPower lo n = mgF s 0 oPower lo n := by
  unfold setAlarm bbxLog
  rw [mgF_congr ((mgGet_power_setHint _ _).trans (mgGet_power_bbxLog _ _ _ _ _ _ _ _ (bbxDie_zero _))), mgF_mgSetF_other (by omega) (.inl h)]

/-- The registers with a new sample's sums, before the alarm is looked at. -/
def sampled (watts temp calm : Nat) (s : State) : State :=
  mgSetF (mgSetF { s with mgmt := { s.mgmt with means := newMeans watts s, calm := calm } } 0 oPower 16 13
    (min 8191 ((newMeans watts s).foldl (· + ·) 0 / (newMeans watts s).length))) 0 oPower 32 8 (min 255 temp)

theorem takeSamplePower_eq (watts temp : Nat) (s : State) : ∃ calm, takeSamplePower watts temp s = sampled watts temp calm s
    ∨ ∃ on, takeSamplePower watts temp s = setAlarm on (sampled watts temp calm s) := by
  unfold takeSamplePower
  extract_lets means sum n limit calm src s1 on
  refine ⟨calm, ?_⟩
  split
  · exact .inl rfl
  split
  · exact .inr ⟨true, rfl⟩
  split
  · exact .inr ⟨false, rfl⟩
  · exact .inl rfl

theorem mgF_sampled_mean (watts temp calm : Nat) (s : State) : mgF (sampled watts temp calm s) 0 oPower 16 13 =
    min 8191 ((newMeans watts s).foldl (· + ·) 0 / (newMeans watts s).length) := by
  unfold sampled
  rw [mgF_mgSetF_other (by omega) (.inl (by omega)), mgF_mgSetF_same (by omega)]
  exact Nat.mod_eq_of_lt (by omega)

theorem mgF_sampled_limit (watts temp calm : Nat) (s : State) : mgF (sampled watts temp calm s) 0 oPower 0 13 = mgF s 0 oPower 0 13 := by
  unfold sampled
  rw [mgF_mgSetF_other (by omega) (.inl (by omega)), mgF_mgSetF_other (by omega) (.inl (by omega))]
  rfl

theorem takeSamplePower_means (watts temp : Nat) (s : State) : (takeSamplePower watts temp s).mgmt.means = newMeans watts s
    ∧ mgF (takeSamplePower watts temp s) 0 oPower 16 13 = min 8191 ((newMeans watts s).foldl (· + ·) 0 / (newMeans watts s).length)
    ∧ mgF (takeSamplePower watts temp s) 0 oPower 0 13 = mgF s 0 oPower 0 13 := by
  obtain ⟨calm, h | ⟨on, h⟩⟩ := takeSamplePower_eq watts temp s
  · rw [h]
    exact ⟨rfl, mgF_sampled_mean _ _ _ _, mgF_sampled_limit _ _ _ _⟩
  · rw [h, mgF_setAlarm (by omega), mgF_setAlarm (by omega), (setAlarm_keeps _ _).mgmt]
    exact ⟨rfl, mgF_sampled_mean _ _ _ _, mgF_sampled_limit _ _ _ _⟩

/-- The trip of a die is logged, TRIP set, the host interrupted. -/
def tripped (d : Nat) (s : State) : State := setHint (mgSetF (bbxLogC0 s 0x0A d 0 0xFF 0 0) 0 oPower 30 1 1) hintTrip

theorem regsOnly_tripped (d : Nat) (s : State) : RegsOnly s (tripped d s) :=
  ((regsOnly_bbxLogC0 _ _ _ _ _ _ _).trans (regsOnly_mgSetF _ _ _ _ _ _)).trans (regsOnly_setHint _ _)

theorem mgF_tripped (d : Nat) (s : State) : mgF (tripped d s) 0 oPower 30 1 = 1 := by
  unfold tripped
  rw [mgF_congr (mgGet_power_setHint _ _), mgF_mgSetF_same (by omega)]
  rfl

theorem exec_thermalTrip {s : State} (hb : 2 ≤ s.boot.step) (hs : s.boot.stopped = false) (hd : s.arg.a < 17) (hf : isFenced s s.arg.a = false) :
    exec .thermalTrip s = .next (if s.arg.a = 0 then stopDevice (tripped s.arg.a s)
      else if s.boot.step < 6 then tripInBoot s.arg.a (tripped s.arg.a s)
      else if s.arg.a < 8 then fenceCompute s.arg.a (tripped s.arg.a s) else fenceOther s.arg.a (tripped s.arg.a s)) := by
  have hstep : (tripped s.arg.a s).boot = s.boot := (regsOnly_tripped _ _).boot
  show execThermalTrip s = _
  rw [execThermalTrip, gate_on (by simp [hb, hs, hd, hf]), ← hstep]
  rfl

theorem podsDown_none (s : State) : podsDown (fun _ => false) s = s := by
  unfold podsDown
  rw [List.filter_false]
  rfl

theorem regsOnly_fencedHint (s : State) : RegsOnly s (fencedHint s) := .ite (regsOnly_setHint _ _) (.refl s)

/-- A memory die that is not fenced is fenced. -/
theorem isFenced_fenceOther {s : State} {d : Nat} (hf : isFenced s d = false) (hd : d < 16) : isFenced (fenceOther d s) d = true := by
  have hne : ¬ d = 16 := by omega
  have hfun : (fun _ : Nat => d == 16) = fun _ => false := funext fun _ => beq_eq_false_iff_ne.mpr hne
  unfold fenceOther
  rw [if_neg (by rw [hf]; exact Bool.false_ne_true)]
  dsimp only
  rw [if_neg hne, hfun, podsDown_none]
  unfold isFenced
  rw [(regsOnly_fencedHint _).mgmt, (regsOnly_setConfig _).mgmt, (regsOnly_bbxLog _ _ _ _ _ _ _).mgmt]
  simp

/-! ## Reset -/

theorem setLimits_bbx (s : State) : (setLimits s).bbx = s.bbx := by unfold setLimits; split <;> rfl

theorem exec_warmReset {s : State} (hb : s.boot.step = 8) (hs : s.boot.stopped = false) : ∃ t, exec .warmReset s = .next t ∧ t.cicada = s.cicada
    ∧ t.sub = s.sub ∧ t.bbx = s.bbx ∧ t.mem = s.mem ∧ t.ver = s.ver ∧ t.poison = s.poison ∧ t.boot = s.boot ∧ t.net = [] ∧ t.gangs = [] ∧ t.recs = []
    ∧ t.circuits = [] ∧ (∀ x, getX t x = Ctx.init) := by
  refine ⟨_, (show exec .warmReset s = execWarmReset s from rfl).trans (gate_on (by rw [hb, hs]; rfl)), ?_⟩
  have h := fun u : State => regsOnly_setLimits u
  exact ⟨(h _).cicada, (h _).sub, setLimits_bbx _, (h _).mem, (h _).ver, (h _).poison, (h _).boot, (h _).net, (h _).gangs, (h _).recs, (h _).circuits,
    fun x => congrArg (mget Ctx.init · x) (h _).ctxs⟩

/-! ## The statement -/

section
variable {s : State}

theorem exec_t2size (hb : 1 ≤ s.boot.step) (hs : s.boot.stopped = false) : exec .t2size s = .next
    (let v : BitVec 64 := BitVec.ofNat 64 s.arg.a
     if v.toNat % 2 ^ 8 ≠ 3 ∨ 6 < s.boot.step then s
     else
      let t : State := { s with boot := { s.boot with t2size := min 4096 (v.toNat / 2 ^ 16 % 2 ^ 13) + 1 } }
      if s.boot.step = 6 then bootMapped t else t) := by
  show execT2size s = _
  rw [execT2size, gate_on (by simp [hb, hs])]
  simp only [bitsN_eq, pow_zero, Nat.div_one]

theorem exec_t2size_early (h1 : 1 ≤ s.boot.step) (h5 : s.boot.step ≤ 5) (hs : s.boot.stopped = false)
    (hv : (BitVec.ofNat 64 s.arg.a).toNat % 2 ^ 8 = 3) : exec .t2size s =
      .next { s with boot := { s.boot with t2size := min 4096 ((BitVec.ofNat 64 s.arg.a).toNat / 2 ^ 16 % 2 ^ 13) + 1 } } := by
  rw [exec_t2size h1 hs]
  dsimp only
  rw [if_neg (by omega), if_neg (by omega)]

theorem exec_t2size_step6 (h6 : s.boot.step = 6) (hs : s.boot.stopped = false) (hv : (BitVec.ofNat 64 s.arg.a).toNat % 2 ^ 8 = 3) :
    ∃ t, exec .t2size s = .next t ∧ t.running = true ∧ t.cicada = 0 ∧ t.boot.step = 8 := by
  rw [exec_t2size (by omega) hs]
  dsimp only
  rw [if_neg (by omega), if_pos h6]
  obtain ⟨hr, hc, hb, -⟩ := bootMapped_runs (s := { s with boot := { s.boot with t2size := min 4096 ((BitVec.ofNat 64 s.arg.a).toNat / 2 ^ 16 % 2 ^ 13) + 1 } })
    (Nat.succ_ne_zero _)
  exact ⟨_, rfl, hr, hc, hb⟩

theorem exec_t2waitExpiry (h6 : s.boot.step = 6) (hs : s.boot.stopped = false) (ht : s.boot.t2size = 0) :
    ∃ t, exec .t2waitExpiry s = .next t ∧ t.running = true ∧ t.boot.step = 8 ∧ t.boot.t2size = 1 := by
  obtain ⟨hr, -, hb, h2⟩ := bootMapped_runs (s := { s with boot := { s.boot with t2size := 1 } }) Nat.one_ne_zero
  exact ⟨_, gate_on (by rw [h6, hs, ht]; rfl), hr, hb, h2⟩

theorem writeTaken_iff {die off size : Nat} (h8 : off % 8 = 0) (hs8 : size = 8) (hd : dieOk s die = true) (hf : s.mgmt.fw.contains die = false) :
    writeTaken s die off size = true := by
  unfold writeTaken
  rw [h8, hs8, hd, hf]
  rfl

theorem writeTaken_eq_false {die off size : Nat} (h : off % 8 ≠ 0 ∨ size ≠ 8 ∨ dieOk s die = false) : writeTaken s die off size = false := by
  unfold writeTaken
  rcases h with h | h | h
  · rw [beq_eq_false_iff_ne.mpr h]; rfl
  · rw [beq_eq_false_iff_ne.mpr h, Bool.and_false]; rfl
  · rw [h, Bool.and_false]; rfl

end

/-- Settles O53: each event's gate holds, and its effect is read off, through what registers, the black box and interrupts leave as it is. -/
theorem bootEvents : Obligations.BootEvents := by
  unfold Obligations.BootEvents
  intro s p
  dsimp only
  refine ⟨fun h => ?_, fun h => ?_, fun h0 hp hsrc hk ha hl => ?_, fun hp hk hb hs => ?_, fun h1 h5 hs hv => exec_t2size_early h1 h5 hs hv,
    fun h6 hs hv => exec_t2size_step6 h6 hs hv, fun h1 hs hv => ?_, fun h6 hs ht => exec_t2waitExpiry h6 hs ht,
    fun h4 hs h0 h17 hf hi ht ha hb => ?_, fun d => tryFailed_authTries d s, fun hb hs => exec_warmReset hb hs, fun hb hs hfw => ?_,
    fun hb hs hf ha => ?_, fun hb hs h0 h17 hf => ⟨?_, mgF_tripped _ _⟩, fun hb hs h8 h16 hf => ?_, fun hb => ?_, fun hb hf => ?_, fun hb hf => ?_,
    fun hb h8 hs8 hd hf => ?_, fun hb h => ?_⟩
  · exact ⟨_, exec_coldBoot s h, coldBoot_asks s⟩
  · exact ⟨_, exec_coldBoot_stop s h, rfl⟩
  · show execBootImageReadResponse s = _
    unfold execBootImageReadResponse
    simp only [h0, hp]
    exact gate_on (by simp [hsrc, hk, ha, hl])
  · show execBootImageReadResponse s = _
    unfold execBootImageReadResponse
    simp only [hp]
    exact gate_on (by simp [hk, hb, hs])
  · rw [exec_t2size h1 hs]
    dsimp only
    rw [if_pos hv]
  · have hd := tryDie_of_first h0 h17 hf hi ht (by unfold tryFinds; omega) hb
    exact gate_on (by simp [h4, hs, hd, tryFinds, ha])
  · exact ⟨_, (show exec .powerSample s = execPowerSample s from rfl).trans (gate_on (by rw [hb, hs]; rfl)), takeSamplePower_means _ _ _⟩
  · refine ⟨_, exec_thermalTrip hb hs (by omega) (ha ▸ hf), ?_⟩
    rw [if_pos ha]
    exact ⟨rfl, mgF_tripped _ _⟩
  · rw [exec_thermalTrip hb hs h17 hf, if_neg (by omega)]
    rfl
  · refine ⟨_, exec_thermalTrip (by omega) hs (by omega) hf, ?_⟩
    rw [if_neg (by omega), if_neg (by omega), if_neg (by omega)]
    refine isFenced_fenceOther ?_ h16
    unfold isFenced
    rw [(regsOnly_tripped _ _).mgmt]
    exact hf
  · exact ⟨_, gate_on (by rw [hb]; rfl), rfl⟩
  · show execPkgPowerWrite s = _
    rw [execPkgPowerWrite, gate_on (decide_eq_true hb), if_neg (by rw [hf]; exact Bool.false_ne_true)]
  · show execPkgPowerWrite s = _
    rw [execPkgPowerWrite, gate_on (decide_eq_true hb), if_pos hf]
  · show execRegisterWrite s = _
    rw [execRegisterWrite, gate_on (decide_eq_true hb), if_pos (writeTaken_iff h8 hs8 hd hf)]
  · show execRegisterWrite s = _
    rw [execRegisterWrite, gate_on (decide_eq_true hb), if_neg (by rw [writeTaken_eq_false h]; exact Bool.false_ne_true)]

end Sys2Proof.Machine
end

section
/-!
SUPPORT AND CERTIFICATE. The events of the clock and of contexts (R17, R56, R85, R137, R142, R216, R226, R305, R314, R408, R413).
-/

set_option Elab.async false

namespace Sys2Proof.Machine

open Sys2Proof

/-! ## The tick: nothing that it brings changes the clock -/

/-- The cicada and the cycles since its advance are the same. -/
def SameClock (s t : State) : Prop := t.cicada = s.cicada ∧ t.sub = s.sub

namespace SameClock

variable {s t u : State}

theorem refl (s : State) : SameClock s s := ⟨rfl, rfl⟩
theorem trans (h : SameClock s t) (k : SameClock t u) : SameClock s u := ⟨k.1.trans h.1, k.2.trans h.2⟩

theorem ite {p : Prop} [Decidable p] (h : SameClock s t) (k : SameClock s u) : SameClock s (if p then t else u) := by
  split
  · exact h
  · exact k

theorem foldl {α : Type} {f : State → α → State} (h : ∀ t a, SameClock t (f t a)) (l : List α) (s : State) : SameClock s (l.foldl f s) := by
  induction l generalizing s with
  | nil => exact .refl s
  | cons a l ih => exact (h s a).trans (ih _)

end SameClock

theorem sameClock_modX (s : State) (x : Nat) (f : Ctx → Ctx) : SameClock s (modX s x f) := ⟨rfl, rfl⟩
theorem sameClock_modC (s : State) (k : Nat) (f : Core → Core) : SameClock s (modC s k f) := ⟨rfl, rfl⟩
theorem sameClock_addTimer (s : State) (n : Nat) (e : Instr) (a : EvArg) : SameClock s (addTimer s n e a) := ⟨rfl, rfl⟩

theorem sameClock_bumpSeq (s : State) (f : Flow) : SameClock s (bumpSeq s f) := .ite ⟨rfl, rfl⟩ ⟨rfl, rfl⟩

theorem sameClock_sendPkt (s : State) (p : Pkt) : SameClock s (sendPkt s p) := by
  unfold sendPkt
  dsimp only
  split
  · exact .ite ⟨rfl, rfl⟩ (SameClock.trans (sameClock_bumpSeq _ _) ⟨rfl, rfl⟩)
  · exact SameClock.trans (sameClock_bumpSeq _ _) ⟨rfl, rfl⟩

theorem sameClock_filterFree (s : State) (k : Nat) : SameClock s (filterFree s k) := sameClock_modC _ _ _

theorem sameClock_tickCtx (s : State) (x : Nat) : SameClock s (tickCtx s x) := by
  unfold tickCtx
  dsimp only
  have h1 : SameClock s (if (getX s x).inh then s else modX s x (fun d => { d with wdCount := d.wdCount + 1 })) := .ite (.refl s) (sameClock_modX _ _ _)
  exact .ite (.refl s) (.ite (h1.trans (sameClock_modX _ _ _)) h1)

theorem sameClock_sampleOne (x q : Nat) (s : State) : SameClock s (sampleOne x q s) :=
  .ite (SameClock.trans (sameClock_modX _ _ _) (sameClock_sendPkt _ _)) (.refl s)

theorem sameClock_sampleAll (s : State) : SameClock s (sampleAll s) :=
  .foldl (fun t _ => .ite (.foldl (fun u _ => sameClock_sampleOne _ _ u) _ t) (.refl t)) _ s

theorem sameClock_podGone (link : Nat) (s : State) (w : PodWait) : SameClock s (podGone link s w) := by
  unfold podGone
  dsimp only
  split <;> exact ⟨rfl, rfl⟩

theorem sameClock_podPush (link : Nat) (w : PodWait) (s : State) : SameClock s (podPush link w s) :=
  SameClock.trans ⟨rfl, rfl⟩ (SameClock.foldl (sameClock_podGone link) _ _)

theorem sameClock_podOriginate (tag : BitVec 64) (p : Pkt) (s : State) : SameClock s (podOriginate tag p s) := by
  unfold podOriginate
  split
  · exact sameClock_podPush _ _ _
  · exact .refl s

theorem sameClock_sendSack (f : PodRecv) (s : State) : SameClock s (sendSack f s) :=
  SameClock.trans (SameClock.ite ⟨rfl, rfl⟩ ⟨rfl, rfl⟩ : SameClock s (setPodRecv { f with since := 0 } s)) (sameClock_podOriginate _ _ _)

theorem sameClock_tickEvents (s : State) : SameClock s (tickEvents s) := by
  have hadd : ∀ (t : State) (e : Instr), SameClock t (addTimer t 0 e EvArg.zero) := fun t e => sameClock_addTimer t 0 e _
  unfold tickEvents
  extract_lets n s1 s2 s3
  have h1 : SameClock s s1 := .ite (hadd s _) (.refl s)
  have h2 : SameClock s s2 := .ite (h1.trans (hadd s1 _)) h1
  have h3 : SameClock s s3 := .ite (h2.trans (.foldl (fun t d => sameClock_addTimer t 0 _ _) _ _)) h2
  exact h3.trans (.foldl (fun t e => sameClock_addTimer t 0 _ _) _ _)

/-- Everything that a tick brings after the cicada's advance. -/
theorem exec_cicadaTick {s : State} (hr : s.running = true) (h : 256 ≤ s.sub) :
    ∃ t, exec .cicadaTick s = .next t ∧ SameClock { s with sub := s.sub - 256, cicada := s.cicada + 1 } t := by
  refine ⟨_, (show exec .cicadaTick s = execCicadaTick s from rfl).trans (gate_on (by rw [hr, Bool.true_and]; exact decide_eq_true h)), ?_⟩
  refine .trans (.trans ?_ (.trans (sameClock_sampleAll _) (.foldl (fun t f => sameClock_sendSack f t) _ _))) (sameClock_tickEvents _)
  exact .trans (.foldl sameClock_filterFree _ _) (.foldl sameClock_tickCtx _ _)

/-! ## Traps at a boundary and the watchdog -/

section
variable {s : State} {x : Nat} {d : Deferred}

theorem atBoundary_of (h : (getX s x).task = true ∧ (getX s x).halted = false ∧ (getX s x).await = .none ∧ (getX s x).reload = none
    ∧ (getX s x).readyAt ≤ s.cyc ∧ notReady (getX s x) = false ∧ ∀ q ∈ (getC s (coreOf x)).rounds, q.x ≠ x) : atBoundary s x = true := by
  obtain ⟨ht, hh, ha, hr, hc, hn, hq⟩ := h
  have hany : (getC s (coreOf x)).rounds.any (fun r => r.x == x) = false := List.any_eq_false.mpr fun q h => by simpa using hq q h
  simp [atBoundary, ht, hh, ha, hr, hc, hn, hany]

theorem exec_trapEntry {t : State} (hx : s.arg.a = x) (hb : atBoundary s x = true) (h : boundaryTrap s x = some t) : exec .trapEntry s = .next t := by
  subst hx
  show execTrapEntry s = _
  unfold execTrapEntry
  simp only [h]
  exact gate_on hb

theorem boundaryTrap_preempt (hi : (getX s x).inh = false) (hp : pendBit (getX s x) cPREEMPT = true) :
    boundaryTrap s x = some (enterTrap s x 3 15 (causeAt cPREEMPT 0) (getX s x).pc (getX s x).ct) := by
  simp [boundaryTrap, hi, hp]

theorem boundaryTrap_deferred (hi : (getX s x).inh = false) (hp : pendBit (getX s x) cPREEMPT = false) (hd : firstDeferred (getX s x).deferred = some d) :
    boundaryTrap s x = some (enterTrap (setX s x { getX s x with deferred := dropFirst (fun e => e = d) (getX s x).deferred }) x 1 d.slot
      ⟨d.code, d.reason, d.extra, d.addr⟩ d.opc d.oct) := by
  simp [boundaryTrap, hi, hp, hd]

theorem boundaryTrap_softerr (hi : (getX s x).inh = false) (hp : pendBit (getX s x) cPREEMPT = false) (hd : (getX s x).deferred = [])
    (hs : pendBit (getX s x) cSOFTERR = true) :
    boundaryTrap s x = some (enterTrap s x 3 15 ⟨cSOFTERR, 0, 0, mget 0 (getX s x).ti 31⟩ (getX s x).pc (getX s x).ct) := by
  simp [boundaryTrap, hi, hp, hd, firstDeferred, hs]

theorem boundaryTrap_wdog (hi : (getX s x).inh = false) (hp : pendBit (getX s x) cPREEMPT = false) (hd : (getX s x).deferred = [])
    (hs : pendBit (getX s x) cSOFTERR = false) (hw : pendBit (getX s x) cWDOG = true) :
    boundaryTrap s x = some (enterTrap s x 3 15 (causeAt cWDOG 0) (getX s x).pc (getX s x).ct) := by
  simp [boundaryTrap, hi, hp, hd, firstDeferred, hs, hw]

theorem boundaryTrap_double (hi : (getX s x).inh = true) (hd : (getX s x).hdeferred ≠ []) : boundaryTrap s x = some (endTask s x true) := by
  simp [boundaryTrap, hi, hd]

theorem wdExpired_of {c : Ctx} (h : c.task = true ∧ c.inh = false ∧ c.halted = false ∧ wdLimit c ≠ 0 ∧ wdLimit c ≤ c.wdCount ∧ pendBit c cWDOG = false
    ∧ ∀ b, c.await ≠ .ending b) : wdExpired c = true := by
  obtain ⟨ht, hi, hh, h0, hl, hp, ha⟩ := h
  unfold wdExpired
  rw [ht, hi, hh, hp, bne_iff_ne.mpr h0, decide_eq_true hl]
  split
  next b hb => exact absurd hb (ha b)
  · rfl

theorem pendBit_setPend (c : Ctx) (code : Nat) (h : code < 64) : pendBit (setPend c code true) code = true := by
  rw [pendBit, bit_iff]
  unfold setPend
  dsimp only
  rw [mget_mset_same, bitsN_setBits_same _ _ (by omega)]
  rfl

end

/-- The watchdog that interrupts nothing is pending. -/
theorem exec_wdog_pends {s : State} (hl : let c := getX s s.arg.a; c.task = true ∧ c.inh = false ∧ c.halted = false ∧ wdLimit c ≠ 0
    ∧ wdLimit c ≤ c.wdCount ∧ pendBit c cWDOG = false ∧ ∀ b, c.await ≠ .ending b) (hi : interruptible (getX s s.arg.a).await = false) :
    ∃ t, exec .wdog s = .next t ∧ pendBit (getX t s.arg.a) cWDOG = true := by
  show ∃ t, execWdog s = .next t ∧ _
  refine ⟨_, by rw [execWdog, gate_on (wdExpired_of hl)], ?_⟩
  dsimp only
  rw [if_neg (by rw [hi]; exact Bool.false_ne_true)]
  have hx : ∀ (u : State) (a b c d : Nat) (v : BitVec 128) (e : Nat), getX (bbxLog u a b c d e v) s.arg.a = getX u s.arg.a := fun u a b c d v e =>
    congrArg (mget Ctx.init · s.arg.a) (regsOnly_bbxLog u a b c d e v).ctxs
  rw [hx, getX_modX, if_pos rfl]
  exact pendBit_setPend _ _ (by decide)

/-! ## Holds released -/

section
variable {s : State} {x n : Nat}

/-- A held context whose hold is not a result that came in this cycle is presented again; what is left of the hold is nothing when the bundle would
trap. -/
theorem refreshHold_of_trapped {t : State} (hh : (getX s x).hold = some n) (hn : ¬ (n = 2 ∧ (getX s x).fillCyc = s.cyc)) (hp : present s x = .trapped t) :
    refreshHold s x = modX s x (fun y => { y with hold := none }) := by
  have h2 : ¬ ((getX s x).hold = some 2 ∧ (getX s x).fillCyc = s.cyc) := by
    rw [hh]
    exact fun h => hn ⟨Option.some.inj h.1, h.2⟩
  unfold refreshHold
  dsimp only
  rw [if_neg h2]
  simp only [hp]

theorem refreshHold_of_free {i : Instr} {f : Slot} {w : Nat} {rows reads : List Nat} {t : State} (hh : (getX s x).hold = some n)
    (hn : ¬ (n = 2 ∧ (getX s x).fillCyc = s.cyc)) (hp : present s x = .one i w rows reads t) (hi : slotOf i = some f)
    (hw : wouldHold 1 [(0, f)] { t with cur := x } = false) : refreshHold s x = modX s x (fun y => { y with hold := none }) := by
  have h2 : ¬ ((getX s x).hold = some 2 ∧ (getX s x).fillCyc = s.cyc) := by
    rw [hh]
    exact fun h => hn ⟨Option.some.inj h.1, h.2⟩
  unfold refreshHold
  dsimp only
  rw [if_neg h2]
  simp only [hp, hi, hw, Bool.false_eq_true, if_false]

theorem exec_bundleHoldRelease (hx : s.arg.a = x) (ht : (getX s x).task = true) (hl : (getX s x).halted = false) (hh : (getX s x).hold = some n)
    (hr : refreshHold s x = modX s x (fun y => { y with hold := none })) :
    exec .bundleHoldRelease s = .next (modX s x (fun y => { y with hold := none })) := by
  subst hx
  have ho : holdOver s s.arg.a = true := by
    unfold holdOver
    rw [hr, getX_modX, if_pos rfl]
    rfl
  show execBundleHoldRelease s = _
  rw [execBundleHoldRelease, gate_on (by rw [ht, hl, hh, ho]; rfl), hr]

theorem present_of_trap {t : State} (hr : notReady (getX { settle s x with cur := x } x) = false)
    (hb : boundaryTrap { settle s x with cur := x } x = some t) : present s x = .trapped t := by
  unfold present
  extract_lets src u c
  have hr' : notReady c = false := hr
  have hb' : boundaryTrap u x = some t := hb
  simp only [hr', hb', Bool.false_eq_true, if_false]

end

/-! ## Samples -/

theorem samplePort_keeps_due {now : Nat} {p : Port} {m : Sample} (h : m ∈ (samplePort now p).1.samples) : m ∈ p.samples ∧
    ((∀ n ∈ p.samples, ¬ dueTick p n ≤ now) ∨ now < dueTick p m) := by
  have hfilter : ∀ n ∈ p.samples.filter (fun n => decide (now < dueTick p n)), n ∈ p.samples ∧ now < dueTick p n := fun n hn =>
    ⟨(List.mem_filter.mp hn).1, of_decide_eq_true (List.mem_filter.mp hn).2⟩
  unfold samplePort at h
  split at h
  next hnone =>
    refine ⟨h, .inl fun n hn hdue => ?_⟩
    have := List.getLast?_eq_none_iff.mp hnone
    exact List.not_mem_nil (this ▸ List.mem_filter.mpr ⟨hn, decide_eq_true hdue⟩)
  · dsimp only at h
    split at h
    · exact ⟨(hfilter m h).1, .inr (hfilter m h).2⟩
    · exact ⟨(hfilter m h).1, .inr (hfilter m h).2⟩

theorem integrate_samples (c : Ctx) (u : Int) (p : Port) (d : Int) : (integrate c u p d).samples = p.samples := by
  unfold integrate
  split <;> rfl

/-- The samples of each port after the samples due have been applied. -/
theorem samples_applySamples (now : Nat) (c : Ctx) :
    (applySamples now c).qr.map (fun e => e.2.samples) = c.qr.map (fun e => (samplePort now e.2).1.samples) := by
  unfold applySamples weigh
  dsimp only
  rw [List.map_map, List.map_map]
  refine List.map_congr_left fun e _ => ?_
  dsimp only [Function.comp]
  split
  · exact integrate_samples _ _ _ _
  · rfl

/-- A sample that is due changes the context. -/
theorem applySamples_ne {now : Nat} {c : Ctx} {q : Nat × Port} {m : Sample} (hq : q ∈ c.qr) (hm : m ∈ q.2.samples) (hd : dueTick q.2 m ≤ now) :
    c ≠ applySamples now c := by
  intro h
  have hs := samples_applySamples now c
  rw [← h] at hs
  have hsame : q.2.samples = (samplePort now q.2).1.samples := List.map_inj_left.mp hs q hq
  obtain ⟨hall | hlater, -⟩ := And.comm.mp (samplePort_keeps_due (hsame ▸ hm))
  · exact hall m hm hd
  · omega

/-! ## Rows and latches -/

theorem getAcc_setAcc_same (k : Core) (t : Nat) (a : AccTile) : getAcc (setAcc k t a) t = a := mget_mset_same ..

theorem getC_modC_same (s : State) (k : Nat) (f : Core → Core) : getC (modC s k f) k = f (getC s k) := mget_mset_same ..

theorem exec_mmaRowWrite {s : State} {r : AccRow} {rs : List AccRow} (hr : (getAcc (getC s s.arg.a) s.arg.b).rows = r :: rs) (h4 : coreCyc s % 4 ≠ 3)
    (hl : (getC s s.arg.a).limCyc ≠ s.cyc) : exec .mmaRowWrite s =
      .next (modC s s.arg.a (fun c => setAcc c s.arg.b (writeRow (getAcc c s.arg.b) r))) := by
  show execMmaRowWrite s = _
  unfold execMmaRowWrite
  simp only [hr]
  exact gate_on (by simp [portOpen, h4, hl])

theorem any_latch_due {c : Ctx} {st : Nat} (h : ∃ l ∈ c.latches, l.step ≤ st) : c.latches.any (fun l => decide (l.step ≤ st)) = true := by
  obtain ⟨l, hl, hs⟩ := h
  exact List.any_eq_true.mpr ⟨l, hl, decide_eq_true hs⟩

theorem exec_scaleLatchLanding_one {s : State} {v : Tile} {w : Nat} (hl : (getX s s.arg.a).latches = [⟨w, true, v⟩])
    (hw : w ≤ (getC s (coreOf s.arg.a)).step) : ∃ t, exec .scaleLatchLanding s = .next t ∧ (getX t s.arg.a).lb = v
      ∧ (getX t s.arg.a).la = (getX s s.arg.a).la ∧ (getX t s.arg.a).latches = [] := by
  have hgo := any_latch_due (c := getX s s.arg.a) (st := (getC s (coreOf s.arg.a)).step) ⟨⟨w, true, v⟩, by rw [hl]; exact List.mem_singleton.mpr rfl, hw⟩
  show ∃ t, execScaleLatchLanding s = .next t ∧ _
  refine ⟨_, by rw [execScaleLatchLanding, gate_on hgo], ?_⟩
  rw [getX_modX, if_pos rfl, hl]
  simp [hw, Nat.not_lt.mpr hw]

theorem exec_phaseDrainEnd {s : State} {n w : Nat} (ha : (getX s s.arg.a).await = .phase n w) (hw : w ≤ s.cyc) : ∃ t, exec .phaseDrainEnd s = .next t
    ∧ (getC t (coreOf s.arg.a)).split = BitVec.ofNat 3 n ∧ (getX t s.arg.a).await = .none ∧ t.mem = s.mem := by
  show ∃ t, execPhaseDrainEnd s = .next t ∧ _
  unfold execPhaseDrainEnd
  simp only [ha]
  refine ⟨_, gate_on (decide_eq_true hw), ?_⟩
  refine ⟨?_, ?_, rfl⟩
  · rw [getC_modX, getC_modC_same]
  · rw [getX_modX, if_pos rfl]

/-- Settles O54: each event's gate holds, and its effect is read off, through what the boundary, the presentation and the samples of a port do. -/
theorem clockAndContextEvents : Obligations.ClockAndContextEvents := by
  unfold Obligations.ClockAndContextEvents
  intro s v r rs e es d ws p i f n w
  dsimp only
  refine ⟨fun hr h => ?_, fun hr h0 hc h => ?_, fun hr h0 h hp => ?_, fun hr h0 h => ?_, fun hr h => ?_, fun ht hres hwp hst => ?_,
    fun hb ho hp => ?_, fun hb ho hp hd => ?_, fun hb ho hp hd hs => ?_, fun hb ho hp hd hs hw => ?_, fun hb hi hd => ?_, fun hl hi => ?_, fun hl => ?_,
    fun ht hl hh hn hr hb hf he hs hw => ?_, fun ht hl hh hn hr hb => ?_, fun ha hw => ?_, fun hr h0 ht hq => ?_, fun hrows h4 hl => ?_,
    fun hl hw => exec_scaleLatchLanding_one hl hw, fun hl => ?_, fun hr hd h => ?_⟩
  · obtain ⟨t, ht, hc, hs⟩ := exec_cicadaTick hr h
    exact ⟨t, ht, hc, hs⟩
  · exact ⟨_, (show exec .periodicDrain s = execPeriodicDrain s from rfl).trans (gate_on (by rw [hr, h0, h, bne_iff_ne.mpr hc]; rfl)), List.length_map .., rfl, rfl⟩
  · show execSluiceDecay s = _
    rw [execSluiceDecay, gate_on (by simp [hr, h0, h])]
    dsimp only
    rw [hp]
    rfl
  · exact ⟨_, by show execSluiceDecay s = _; rw [execSluiceDecay, gate_on (by simp [hr, h0, h])]⟩
  · show execSailBoundary s = _
    rw [execSailBoundary, gate_on (by simp [hr, h])]
  · have hw : writable (getX s s.arg.a) = true := by
      rw [writable, hres]
      dsimp only
      rw [decide_eq_true hwp, Bool.true_and]
      split
      next g hg => exact absurd hg (hst g)
      · rfl
    show execResultWrite s = _
    rw [execResultWrite, gate_on (by rw [ht, hw]; rfl)]
  · exact exec_trapEntry rfl (atBoundary_of hb) (boundaryTrap_preempt ho hp)
  · exact exec_trapEntry rfl (atBoundary_of hb) (boundaryTrap_deferred ho hp hd)
  · exact exec_trapEntry rfl (atBoundary_of hb) (boundaryTrap_softerr ho hp hd hs)
  · exact exec_trapEntry rfl (atBoundary_of hb) (boundaryTrap_wdog ho hp hd hs hw)
  · exact exec_trapEntry rfl (atBoundary_of hb) (boundaryTrap_double hi hd)
  · exact exec_wdog_pends hl hi
  · exact ⟨_, by show execWdog s = _; rw [execWdog, gate_on (wdExpired_of hl)]⟩
  · exact exec_bundleHoldRelease rfl ht hl hh (refreshHold_of_free hh hn (present_of_one hr hb hf he) hs hw)
  · obtain ⟨t, ht'⟩ := Option.ne_none_iff_exists'.mp hb
    exact exec_bundleHoldRelease rfl ht hl hh (refreshHold_of_trapped hh hn (present_of_trap hr ht'))
  · exact exec_phaseDrainEnd ha hw
  · obtain ⟨q, hq, m, hm, hdue⟩ := hq
    show execStreamSampleApplication s = _
    rw [execStreamSampleApplication, gate_on (by rw [hr, h0, ht, bne_iff_ne.mpr (applySamples_ne hq hm hdue)]; rfl)]
  · refine ⟨_, exec_mmaRowWrite hrows h4 hl, ?_⟩
    rw [getC_modC_same, getAcc_setAcc_same]
    refine ⟨?_, rfl, rfl⟩
    unfold writeRow
    dsimp only
    rw [hrows]
    rfl
  · exact ⟨_, by show execScaleLatchLanding s = _; rw [execScaleLatchLanding, gate_on (any_latch_due hl)]⟩
  · exact ⟨_, by show execPlacementEvaluation s = _; rw [execPlacementEvaluation, gate_on (by simp [hr, hd, h])]⟩

end Sys2Proof.Machine
end

section
/-! SUPPORT AND CERTIFICATE. O55: the commands of the mailbox, their ends, repair, priorities and the reads of the records. -/
set_option Elab.async false

namespace Sys2Proof.Machine

open Sys2Proof

variable {s : State}

/-! ## The mailbox -/

/-- GO is set and taken up, no command is under way, C0's firmware is not updated, and the command is number n. -/
def CommandReady (s : State) (n : Nat) : Prop :=
  s.running = true ∧ mgF s 0 oMbCmd 16 1 = 1 ∧ s.mgmt.heldGo = false ∧ s.mgmt.cmdOpen = false ∧ s.mgmt.fw.contains 0 = false ∧ mgF s 0 oMbCmd 0 8 = n

theorem CommandReady.mbReady {n : Nat} (h : CommandReady s n) : mbReady s = true := by
  obtain ⟨hr, hg, hh, ho, hf, -⟩ := h
  unfold Machine.mbReady
  rw [hr, hg, hh, ho, hf]
  rfl

theorem CommandReady.mbCmd {n : Nat} (h : CommandReady s n) : mbCmd s = n := h.2.2.2.2.2

theorem CommandReady.gate {n : Nat} (h : CommandReady s n) : (Machine.mbReady s && Machine.mbCmd s == n) = true := by
  rw [h.mbReady, h.mbCmd, beq_self_eq_true]; rfl

theorem command_refused {n : Nat} {name : String} {status : State → Nat} {eff : State → State} (h : CommandReady s n) (hs : status s ≠ 0) :
    command n name status eff s = .next (endCommand (status s) s) := by
  rw [command, gate_on h.gate, if_neg hs]

theorem command_done {n : Nat} {name : String} {status : State → Nat} {eff : State → State} (h : CommandReady s n) (hs : status s = 0) :
    command n name status eff s = .next (endCommand 0 (eff s)) := by
  rw [command, gate_on h.gate, if_pos hs]

/-- An instruction that is a command ends with its status, and where it is OK with its effect. -/
theorem command_ends {i : Instr} {n : Nat} {name : String} {status : State → Nat} {eff : State → State} (hi : exec i s = command n name status eff s)
    (h : CommandReady s n) : (status s ≠ 0 → exec i s = .next (endCommand (status s) s)) ∧ (status s = 0 → exec i s = .next (endCommand 0 (eff s))) :=
  ⟨fun hs => hi.trans (command_refused h hs), fun hs => hi.trans (command_done h hs)⟩

theorem exec_create (s : State) : exec .create s = command 1 "CREATE" createStatus createPart s := rfl
theorem exec_destroy (s : State) : exec .destroy s = command 2 "DESTROY" destroyStatus destroyPart s := rfl
theorem exec_fence (s : State) : exec .fence s = command 5 "FENCE" fenceStatus (fun t => fenceCompute (mbTgt t) t) s := rfl

/-- What FWUPD does when its status is OK. -/
def updateBegun (s : State) : State := bbxLog { s with mgmt := { s.mgmt with fw := mbTgt s :: s.mgmt.fw } } 0x0B (mbTgt s) 0 0xFF 0 0

theorem exec_fwupd (s : State) : exec .fwupd s = command 6 "FWUPD" fwupdStatus updateBegun s := rfl

theorem exec_fence_ends (h : CommandReady s 5) : (fenceStatus s ≠ 0 → exec .fence s = .next (endCommand (fenceStatus s) s))
    ∧ (fenceStatus s = 0 → exec .fence s = .next (endCommand 0 (fenceCompute (mbTgt s) s))) :=
  ⟨fun hs => by rw [exec_fence, command_refused h hs], fun hs => by rw [exec_fence, command_done h hs]⟩

/-- The end of a command before its interrupt: STATUS and GO are written. -/
def commandClosed (status : Nat) (s : State) : State :=
  let u := mgSetF (mgSetF s 0 oMbCmd 24 8 status) 0 oMbCmd 16 1 0
  { u with mgmt := { u.mgmt with cmdOpen := false } }

theorem mgGet_of_mg {t u : State} (h : t.mg = u.mg) (d o : Nat) : mgGet t d o = mgGet u d o := by rw [mgGet, mgGet, h]

theorem endCommand_eq (status : Nat) (s : State) : endCommand status s = setHint (commandClosed status s) hintMbDone := by
  unfold endCommand commandClosed
  rfl

theorem mbCmd_key_ne_hint : mgKey 0 oMbCmd ≠ mgKey 0 oHint := by decide

theorem mgGet_commandClosed (status : Nat) (s : State) :
    mgGet (commandClosed status s) 0 oMbCmd = mgGet (mgSetF (mgSetF s 0 oMbCmd 24 8 status) 0 oMbCmd 16 1 0) 0 oMbCmd :=
  mgGet_of_mg (show (commandClosed status s).mg = (mgSetF (mgSetF s 0 oMbCmd 24 8 status) 0 oMbCmd 16 1 0).mg from rfl) 0 oMbCmd

theorem mgGet_endCommand (status : Nat) (s : State) :
    mgGet (endCommand status s) 0 oMbCmd = mgGet (mgSetF (mgSetF s 0 oMbCmd 24 8 status) 0 oMbCmd 16 1 0) 0 oMbCmd := by
  rw [endCommand_eq, mgGet_setHint_ne mbCmd_key_ne_hint, mgGet_commandClosed]

theorem endCommand_status {st : Nat} (h : st < 256) (s : State) : mgF (endCommand st s) 0 oMbCmd 24 8 = st := by
  rw [mgF_congr (mgGet_endCommand st s), mgF_mgSetF_other (by omega) (by omega), mgF_mgSetF_same (by omega)]
  exact Nat.mod_eq_of_lt h

theorem endCommand_go (st : Nat) (s : State) : mgF (endCommand st s) 0 oMbCmd 16 1 = 0 := by
  rw [mgF_congr (mgGet_endCommand st s), mgF_mgSetF_same (by omega)]
  rfl

theorem endCommand_closes (st : Nat) (s : State) : (endCommand st s).mgmt.cmdOpen = false := by
  rw [endCommand_eq, (regsOnly_setHint _ _).mgmt]
  rfl

theorem setHint_sets (s : State) {b : Nat} (hb : b < 64) : (mgGet (setHint s b) 0 oHint).getLsbD b = true := by
  rw [mgGet_setHint_same, BitVec.getLsbD_or, BitVec.getLsbD_ofNat, Nat.testBit_two_pow_self]
  simp [hb]

theorem endCommand_hint (st : Nat) (s : State) : (mgGet (endCommand st s) 0 oHint).getLsbD 1 = true := by
  rw [endCommand_eq]
  exact setHint_sets _ (show hintMbDone < 64 by decide)

/-! ## A gang at rest -/

theorem accDone_of {a : Acc} (h : a.stat = .done) : accDone a = true := by rw [accDone, h]

theorem any_eq_false_of {α : Type} {l : List α} {p : α → Bool} (h : ∀ a ∈ l, p a = false) : l.any p = false :=
  List.any_eq_false.mpr fun a ha => by simp [h a ha]

/-- The test of a context that halts finds at rest one that rests (R201). -/
theorem ctxQuiet_of_rests {x : Nat} (h : Rests s x) : ctxQuiet s x = true := by
  obtain ⟨htret, hphase, hend, haccs, hwbs, hlat, hrel, hruns, hrounds, hloads, hentry, hacc, hkr, hcirc, hqr⟩ := h
  unfold ctxQuiet
  simp only [Bool.and_eq_true]
  refine ⟨⟨⟨⟨⟨⟨⟨⟨⟨⟨⟨⟨?_, ?_⟩, ?_⟩, ?_⟩, ?_⟩, ?_⟩, ?_⟩, ?_⟩, ?_⟩, ?_⟩, ?_⟩, ?_⟩, ?_⟩
  · cases hw : (getX s x).await with
    | tret => exact absurd hw htret
    | phase n w => exact absurd hw (hphase n w)
    | ending f => exact absurd hw (hend f)
    | _ => trivial
  · exact List.all_eq_true.mpr fun a ha => accDone_of (haccs a ha)
  · rw [any_eq_false_of fun w hw => beq_eq_false_iff_ne.mpr (hwbs w hw)]
    rfl
  · rw [hlat]; rfl
  · rw [hrel]; rfl
  · refine List.all_eq_true.mpr fun r hr => ?_
    by_cases hx : r.x = x
    · cases hn : r.node with
      | none => simp [hruns r hr hx hn]
      | some q => simp
    · simp [hx]
  · rw [hasRounds, any_eq_false_of fun r hr => beq_eq_false_iff_ne.mpr (hrounds r hr)]; rfl
  · rw [any_eq_false_of fun l hl => beq_eq_false_iff_ne.mpr (hloads l hl)]; rfl
  · cases he : (getC s (coreOf x)).entry with
    | none => rfl
    | some e => simpa using hentry e he
  · refine List.all_eq_true.mpr fun t ht => ?_
    cases hb : bit (getX s x).acm t with
    | false => rfl
    | true => simp [hacc t (List.mem_range.mp ht) hb]
  · refine List.all_eq_true.mpr fun q hq => ?_
    obtain ⟨h2, h3, h1⟩ := hkr q hq
    simp only [Bool.not_eq_true', Bool.or_eq_false_iff, Bool.and_eq_false_iff, beq_eq_false_iff_ne]
    refine ⟨⟨?_, h2⟩, h3⟩
    by_cases hs : q.2.st = 1
    · obtain ⟨m, hm, hop, ha⟩ := h1 hs
      exact .inr (by rw [Bool.not_eq_false', List.any_eq_true]; exact ⟨m, hm, by simp [hop, ha]⟩)
    · exact .inl hs
  · refine List.all_eq_true.mpr fun q hq => ?_
    by_cases hd : q.dx = x
    · simp [Option.isSome_iff_ne_none.mpr (hcirc q hq hd)]
    · simp [hd]
  · exact List.all_eq_true.mpr fun q hq => hqr q hq

theorem gangQuiet_of_rests {g : Gang} (h : GangRests s g) : gangQuiet s g = true := by
  obtain ⟨hm, hx, hl⟩ := h
  unfold gangQuiet
  rw [hm, hx, List.all_eq_true.mpr fun i hi => ctxQuiet_of_rests (hl i hi)]
  rfl

/-! ## Swapping, repair and updates -/

theorem exec_swapoutSaveEnd (h : (getPart s s.arg.a).swapping = 1) (hq : ∀ g ∈ gangsOfPart s s.arg.a, g.halt = 3 → GangRests s g) :
    ∃ t, exec .swapoutSaveEnd s = .next t := by
  have hall : ((gangsOfPart s s.arg.a).filter (fun g => g.halt == 3)).all (gangQuiet s) = true :=
    List.all_eq_true.mpr fun g hg => by
      obtain ⟨hm, h3⟩ := List.mem_filter.mp hg
      exact gangQuiet_of_rests (hq g hm (beq_iff_eq.mp h3))
  exact ⟨_, by show execSwapoutSaveEnd s = _; rw [execSwapoutSaveEnd, gate_on (by rw [h, hall]; rfl)]⟩

theorem exec_swapinRestoreEnd (h : (getPart s s.arg.a).swapping = 2) : ∃ t, exec .swapinRestoreEnd s = .next t :=
  ⟨_, by show execSwapinRestoreEnd s = _; rw [execSwapinRestoreEnd, gate_on (by rw [h]; rfl)]⟩

theorem exec_fwupdEnd (hk : s.mgmt.fw.contains s.arg.a = true) (h0 : 0 < s.arg.a) (ho : s.arg.ok = true) :
    ∃ t, exec .fwupdEnd s = .next t ∧ t.mgmt.fw.contains s.arg.a = false := by
  show ∃ t, execFwupdEnd s = .next t ∧ _
  refine ⟨_, by rw [execFwupdEnd, gate_on hk], ?_⟩
  dsimp only
  rw [if_pos ho, if_neg (Nat.ne_of_gt h0), (regsOnly_setHint _ _).mgmt, (regsOnly_bbxLog _ _ _ _ _ _ _).mgmt]
  simp

theorem repairReady_of {k : Nat} (hg : ∀ g ∈ gangsOnCore s k, g.halt = 2 ∧ GangRests s g) (hw : (getC s k).wbs = [])
    (hr : ∀ r ∈ (getC s k).runs, r.out = []) : repairReady s k = true := by
  unfold repairReady
  rw [hw, List.all_eq_true.mpr fun g hm => by rw [(hg g hm).1, gangQuiet_of_rests (hg g hm).2]; rfl,
    List.all_eq_true.mpr fun r hm => by rw [hr r hm]; rfl]
  rfl

theorem exec_coreRepair_end {q : Nat × Nat} (hf : s.mgmt.repairs.find? (fun r => r.1 = s.arg.a) = some q) (h : repairReady s s.arg.a = true) :
    exec .coreRepair s = .next (finishRepair s.arg.a q.2 s) := by
  show execCoreRepair s = _
  unfold execCoreRepair
  dsimp only
  rw [hf]
  exact gate_on h

theorem exec_coreRepair_begin (hf : s.mgmt.repairs.find? (fun r => r.1 = s.arg.a) = none) (ha : (getC s s.arg.a).active = true) (h0 : s.arg.b = 0) :
    exec .coreRepair s = .next (beginRepair s.arg.a 0 (logCoreError s.arg.a s)) := by
  show execCoreRepair s = _
  unfold execCoreRepair
  dsimp only
  rw [hf]
  dsimp only
  rw [if_pos h0]
  exact gate_on ha

theorem exec_coreRepair_rate (hf : s.mgmt.repairs.find? (fun r => r.1 = s.arg.a) = none) (ha : (getC s s.arg.a).active = true) (h1 : s.arg.b = 1)
    (hc : (getC s s.arg.a).corr.1 = coreCyc s / 1048576) (hn : 64 < (getC s s.arg.a).corr.2) :
    exec .coreRepair s = .next (beginRepair s.arg.a 1 s) := by
  show execCoreRepair s = _
  unfold execCoreRepair
  dsimp only
  rw [hf]
  dsimp only
  rw [if_neg (by omega)]
  exact gate_on (by rw [ha, h1, errorRate, hc, decide_eq_true hn]; simp)

/-! ## Failures of a memory die -/

theorem contains_insertNew (l : List Nat) (a b : Nat) : (if l.contains a then l else a :: l).contains b = (l.contains b || a == b) := by
  by_cases h : l.contains a = true
  · rw [if_pos h]
    by_cases hb : a = b
    · subst hb; rw [h]; rfl
    · rw [beq_eq_false_iff_ne.mpr hb, Bool.or_false]
  · rw [if_neg h, List.contains_cons, Bool.or_comm, Bool.beq_comm]

theorem contains_foldl_insertNew (m : List Nat) (b : Nat) : ∀ l : List Nat,
    (m.foldl (fun q a => if q.contains a then q else a :: q) l).contains b = (l.contains b || m.contains b) := by
  induction m with
  | nil => intro l; simp
  | cons a m ih =>
    intro l
    rw [List.foldl_cons, ih, contains_insertNew, List.contains_cons, Bool.or_assoc, Bool.beq_comm]

theorem contains_filter_map_fst (l : List (Nat × Nat)) (ok : Nat → Bool) (b : Nat) :
    ((l.map (·.1)).filter ok).contains b = (l.any (fun q => q.1 == b) && ok b) := by
  rw [Bool.eq_iff_iff, Bool.and_eq_true, List.contains_iff_mem, List.mem_filter, List.mem_map, List.any_eq_true]
  simp

theorem exec_memoryDieFailure (hm : memOk s s.arg.a = true) : ∃ t, exec .memoryDieFailure s = .next t ∧ t.mem = s.mem ∧ (8 + s.arg.a) ∈ t.boot.badTest
    ∧ ∀ l, t.poison.contains l = (s.poison.contains l || (s.arg.pairs.any (fun q => q.1 == l) && !isTier2 (64 * l) && homeMem s (64 * l) == s.arg.a)) := by
  show ∃ t, execMemoryDieFailure s = .next t ∧ _
  refine ⟨_, by rw [execMemoryDieFailure, gate_on hm], ?_, ?_, fun l => ?_⟩
  · exact (regsOnly_bbxLog _ _ _ _ _ _ _).mem
  · dsimp only
    split
    next h => exact List.contains_iff_mem.mp h
    · exact List.mem_cons_self ..
  · dsimp only
    rw [contains_foldl_insertNew, (regsOnly_bbxLog _ _ _ _ _ _ _).poison, contains_filter_map_fst, Bool.and_assoc]

/-! ## Entries of the records -/

theorem exec_blackBoxEntryRead (hd : dieOk s s.arg.a = true) (hi : s.arg.b < 32768) : exec .blackBoxEntryRead s = .next (
    if s.mgmt.fw.contains s.arg.a then { s with hostOut := s.hostOut ++ [List.replicate 32 0] }
    else if !s.arg.ok || s.badBbx.contains (s.arg.a, s.arg.b) then
      let t1 := mgSetF s s.arg.a oBbx 48 1 1
      { t1 with badBbx := if t1.badBbx.contains (s.arg.a, s.arg.b) then t1.badBbx else (s.arg.a, s.arg.b) :: t1.badBbx, hostOut := t1.hostOut ++ [List.replicate 32 0xFF] }
    else { s with hostOut := s.hostOut ++ [leBytes 32 (mget 0 s.bbx (s.arg.a * 32768 + s.arg.b)).toNat] }) := by
  show execBlackBoxEntryRead s = _
  rw [execBlackBoxEntryRead, gate_on (by rw [hd, decide_eq_true hi]; rfl)]

theorem exec_priorityChange (hp : partState s s.arg.a = 1) (hx : ∃ i < 4, (getX s (4 * s.arg.b + i)).task = true
      ∧ (getX s (4 * s.arg.b + i)).part.toNat = s.arg.a ∧ (getX s (4 * s.arg.b + i)).pri ≠ partPri s s.arg.a (getX s (4 * s.arg.b + i)).rset) :
    exec .priorityChange s = .next ((stalePri s s.arg.a s.arg.b).foldl (fun u x => modX u x (fun c => { c with pri := partPri s s.arg.a c.rset })) s) := by
  obtain ⟨i, hi, ht, hpart, hpri⟩ := hx
  have hmem : 4 * s.arg.b + i ∈ stalePri s s.arg.a s.arg.b := mem_stalePri (show (4 * s.arg.b + i) / 4 = s.arg.b by omega) ht hpart hpri
  have hne : (stalePri s s.arg.a s.arg.b).isEmpty = false := List.isEmpty_eq_false_iff.mpr (List.ne_nil_of_mem hmem)
  show execPriorityChange s = _
  rw [execPriorityChange, gate_on (by rw [hp, hne]; rfl)]

theorem exec_swapout (h : CommandReady s 3) (hg : (gangsOfPart s (mbTgt s)).any (fun g => g.halt != 0) = false) : exec .swapout s = .next (
    if swapOutStatus s ≠ 0 then endCommand (swapOutStatus s) s
    else
      let t1 := (gangsOfPart s (mbTgt s)).foldl (stopGang 3) s
      modPart { t1 with mgmt := { t1.mgmt with cmdOpen := true } } (mbTgt s) (fun u => { u with swapping := 1 })) := by
  show execSwapout s = _
  rw [execSwapout, gate_on (by rw [h.gate, hg]; rfl)]

theorem exec_swapin (h : CommandReady s 4) : exec .swapin s = .next (
    if swapInStatus s ≠ 0 then endCommand (swapInStatus s) s
    else
      let t1 := (getPart s (mbTgt s)).saved.foldl (fun u v => setX u v.1 { restoredCtx u v.2 with halted := true }) s
      modPart { t1 with mgmt := { t1.mgmt with cmdOpen := true } } (mbTgt s) (fun u => { u with swapping := 2 })) := by
  show execSwapin s = _
  rw [execSwapin, gate_on h.gate]

theorem exec_retire (h : CommandReady s 7) (hr : s.mgmt.repairs.any (fun r => r.1 == retireCore s) = false) : exec .retire s = .next (
    if retireStatus s ≠ 0 then endCommand (retireStatus s) s
    else beginRepair (retireCore s) 2 { s with mgmt := { s.mgmt with cmdOpen := true } }) := by
  show execRetire s = _
  rw [execRetire, gate_on (by rw [h.gate, hr]; rfl)]

theorem exec_partRsWrite (h : s.arg.a < 8) : exec .partRsWrite s = .next (
    if s.mgmt.fw.contains 0 then { s with mgmt := { s.mgmt with heldRs := s.mgmt.heldRs ++ [(s.arg.a, BitVec.ofNat 64 s.arg.b)] } }
    else writeRs s.arg.a (BitVec.ofNat 64 s.arg.b) s) := by
  show execPartRsWrite s = _
  rw [execPartRsWrite, gate_on (decide_eq_true h)]

/-- Settles O55: each command's gate and status, and each later event's condition, choose the branch that the statement names. -/
theorem mailboxEvents : Obligations.MailboxEvents := by
  unfold Obligations.MailboxEvents
  intro s
  dsimp only
  simp only [show mgF s 0 oMbCmd 8 8 = mbTgt s from rfl]
  refine ⟨fun st hst => ⟨endCommand_status hst s, endCommand_go st s, endCommand_closes st s, endCommand_hint st s⟩,
    command_ends (exec_create s), command_ends (exec_destroy s), exec_fence_ends, command_ends (exec_fwupd s), fun n h hn => ?_, fun h hg => ⟨fun hs => ?_, fun hs => ?_⟩, fun h => ⟨fun hs => ?_, fun hs => ?_⟩,
    fun h hr => ⟨fun hs => ?_, fun hs => ?_⟩, exec_swapoutSaveEnd, exec_swapinRestoreEnd, exec_fwupdEnd, fun ha h0 hf => exec_coreRepair_begin hf ha h0,
    fun ha h1 hf hc hn => exec_coreRepair_rate hf ha h1 hc hn, fun q hf hg hw hr => exec_coreRepair_end hf (repairReady_of hg hw hr),
    fun hp hf => ?_, fun hp hf => ?_, exec_priorityChange, exec_memoryDieFailure, fun hd hi hf => ?_, fun hd hi hf => ⟨fun ho hb => ?_, fun ho => ?_⟩⟩
  · show execMailboxUnlistedCommand s = _
    have hcmd : CommandReady s n := h
    rw [execMailboxUnlistedCommand, gate_on (by rw [hcmd.mbReady, hcmd.mbCmd]; simpa using hn)]
  · exact (exec_swapout h hg).trans (congrArg _ (if_pos hs))
  · exact (exec_swapout h hg).trans (congrArg _ (if_neg (not_not_intro hs)))
  · exact (exec_swapin h).trans (congrArg _ (if_pos hs))
  · exact (exec_swapin h).trans (congrArg _ (if_neg (not_not_intro hs)))
  · exact (exec_retire h hr).trans (congrArg _ (if_pos hs))
  · exact (exec_retire h hr).trans (congrArg _ (if_neg (not_not_intro hs)))
  · rw [exec_partRsWrite hp, hf]; rfl
  · rw [exec_partRsWrite hp, hf]; rfl
  · rw [exec_blackBoxEntryRead hd hi, hf]; rfl
  · rw [exec_blackBoxEntryRead hd hi, hf, ho, hb]; rfl
  · refine ⟨_, exec_blackBoxEntryRead hd hi, ?_⟩
    rw [hf, ho]
    exact ⟨rfl, mgF_mgSetF_same (by omega)⟩

end Sys2Proof.Machine
end

section
/-!
SUPPORT AND CERTIFICATE. O56: the events of the packet plane, of the homes, of answers and of the links complete.
-/

set_option Elab.async false

namespace Sys2Proof.Machine

open Sys2Proof

variable {s : State}

/-! ## Arbitration: the order of R52 -/

/-- A packet's place in the order of R52: its VC, DISP, its arrival, its input port. -/
def flightRank (f : Flight) : ℕ ×ₗ ℕ ×ₗ ℕ ×ₗ ℕ :=
  toLex ((!decide (f.pkt.vc = 2)).toNat, toLex ((!f.pkt.disp).toNat, toLex (f.arr, inPort f.loc)))

theorem goesBefore_iff_rank (f g : Flight) : goesBefore f g = true ↔ flightRank f < flightRank g := by
  unfold goesBefore flightRank
  rw [Prod.Lex.toLex_lt_toLex, Prod.Lex.toLex_lt_toLex, Prod.Lex.toLex_lt_toLex]
  generalize decide (f.pkt.vc = 2) = vf
  generalize decide (g.pkt.vc = 2) = vg
  generalize f.pkt.disp = df
  generalize g.pkt.disp = dg
  have harr : (if f.arr ≠ g.arr then decide (f.arr < g.arr) else decide (inPort f.loc < inPort g.loc)) = true
      ↔ f.arr < g.arr ∨ f.arr = g.arr ∧ inPort f.loc < inPort g.loc := by
    split
    next h => simp [h]
    next h => simp [not_not.mp h]
  cases vf <;> cases vg <;> cases df <;> cases dg <;> simpa using harr

theorem mem_insertFlight {f g : Flight} {l : List Flight} : g ∈ insertFlight f l ↔ g = f ∨ g ∈ l := by
  induction l with
  | nil => simp [insertFlight]
  | cons h l ih =>
    unfold insertFlight
    split
    · simp
    · rw [List.mem_cons, ih, List.mem_cons]; tauto

theorem mem_foldl_insertFlight {g : Flight} (m : List Flight) : ∀ l, g ∈ m.foldl (fun l f => insertFlight f l) l ↔ g ∈ l ∨ g ∈ m := by
  induction m with
  | nil => simp
  | cons f m ih => intro l; rw [List.foldl_cons, ih, mem_insertFlight, List.mem_cons]; tauto

theorem mem_flightOrder {g : Flight} : g ∈ flightOrder s ↔ g ∈ s.net := by
  unfold flightOrder inOrder
  rw [mem_foldl_insertFlight]
  simp

/-- No packet stands in the list after one that it goes before. -/
def InRank (l : List Flight) : Prop := l.Pairwise (fun f g => ¬ goesBefore g f = true)

theorem inRank_insertFlight {f : Flight} {l : List Flight} (h : InRank l) : InRank (insertFlight f l) := by
  induction l with
  | nil => exact List.pairwise_singleton _ _
  | cons g l ih =>
    obtain ⟨hg, hl⟩ := List.pairwise_cons.mp h
    unfold insertFlight
    split
    next hfg =>
      refine List.pairwise_cons.mpr ⟨fun k hk hkf => ?_, h⟩
      rw [goesBefore_iff_rank] at hfg hkf
      rcases List.mem_cons.mp hk with rfl | hk
      · exact lt_asymm hfg hkf
      · exact hg k hk ((goesBefore_iff_rank _ _).mpr (hkf.trans hfg))
    next hfg =>
      refine List.pairwise_cons.mpr ⟨fun k hk => ?_, ih hl⟩
      rcases mem_insertFlight.mp hk with rfl | hk
      · exact hfg
      · exact hg k hk

theorem inRank_foldl (m : List Flight) : ∀ l, InRank l → InRank (m.foldl (fun l f => insertFlight f l) l) := by
  induction m with
  | nil => exact fun l h => h
  | cons f m ih => exact fun l h => ih _ (inRank_insertFlight h)

theorem inRank_flightOrder (s : State) : InRank (flightOrder s) := inRank_foldl s.net [] List.Pairwise.nil

theorem of_mem_takeWhile {α : Type} {p : α → Bool} {l : List α} {a : α} (h : a ∈ l.takeWhile p) : p a = true := by
  induction l with
  | nil => simp at h
  | cons b l ih =>
    rw [List.takeWhile_cons] at h
    split at h
    · rcases List.mem_cons.mp h with rfl | h
      · assumption
      · exact ih h
    · simp at h

/-- One that comes before a packet of the order, with another number, is a packet of the network that the packet does not go before. -/
theorem before_in_order {f g : Flight} (hf : f ∈ s.net) (hg : g ∈ (flightOrder s).takeWhile (fun h => h.id != f.id)) :
    g ∈ s.net ∧ g.id ≠ f.id ∧ ¬ goesBefore f g = true := by
  have hid : g.id ≠ f.id := by simpa using of_mem_takeWhile hg
  have hsplit : (flightOrder s).takeWhile (fun h => h.id != f.id) ++ (flightOrder s).dropWhile (fun h => h.id != f.id) = flightOrder s :=
    List.takeWhile_append_dropWhile
  have hdrop : f ∈ (flightOrder s).dropWhile (fun h => h.id != f.id) := by
    have hmem := mem_flightOrder.mpr hf
    rw [← hsplit, List.mem_append] at hmem
    refine hmem.resolve_left fun ht => ?_
    have := of_mem_takeWhile ht
    simp at this
  have hrank := inRank_flightOrder s
  rw [InRank, ← hsplit, List.pairwise_append] at hrank
  refine ⟨mem_flightOrder.mp ?_, hid, hrank.2.2 g hg f hdrop⟩
  rw [← hsplit]
  exact List.mem_append_left _ hg

theorem wins_of_first {f : Flight} (hf : f ∈ s.net)
    (h : ∀ g ∈ s.net, g.id ≠ f.id → samePlace g.loc f.loc = true → hopOf s g.loc g.pkt = hopOf s f.loc f.pkt → ¬ MayGo s g ∨ goesBefore f g = true) :
    wins s f = true := by
  refine wins_of_order fun g hg hs => ?_
  obtain ⟨hmem, hid, hnb⟩ := before_in_order hf hg
  rw [sameOutput, Bool.and_eq_true, beq_iff_eq] at hs
  obtain ⟨hplace, hhop⟩ := hs
  exact (h g hmem hid hplace hhop).resolve_right hnb

theorem exec_packetRoute {f : Flight} (hf : s.net.find? (fun g => g.id = s.arg.a) = some f)
    (h : ((canMove s f && wins s f) || s.arg.b == 1) = true) :
    exec .packetRoute s = .next (routeFlight (findError s f s.arg.b).1 (findError s f s.arg.b).2) := by
  show execPacketRoute s = _
  unfold execPacketRoute
  rw [hf]
  exact gate_on h

theorem exec_packetRoute_free {f : Flight} (hf : s.net.find? (fun g => g.id = s.arg.a) = some f) (hgo : MayGo s f)
    (h : ∀ g ∈ s.net, g.id ≠ f.id → samePlace g.loc f.loc = true → hopOf s g.loc g.pkt = hopOf s f.loc f.pkt → ¬ MayGo s g ∨ goesBefore f g = true) :
    exec .packetRoute s = .next (routeFlight (findError s f s.arg.b).1 (findError s f s.arg.b).2) :=
  exec_packetRoute hf (by rw [(mayGo_iff_canMove s f).mp hgo, wins_of_first (List.mem_of_find?_eq_some hf) h]; rfl)

theorem routeFlight_bad {f : Flight} (h : f.pkt.bad = true) : routeFlight s f = discard s f := by
  unfold routeFlight
  rw [if_pos (by rw [badHeader, h]; rfl)]

/-! ## Homes -/

theorem homeEvent_served {kinds : List (BitVec 4)} {name : String} {p : Pkt} {t : State} (hp : rxHead s (argEp s) = some p)
    (hk : kinds.contains p.kind = true) (hs : serve s (argEp s) p = some t) : homeEvent kinds name s = .next t := by
  unfold homeEvent
  dsimp only
  rw [hp]
  dsimp only
  rw [if_pos hk, hs]
  exact gate_on rfl

/-- The events of an access that reaches its home, by its kind. -/
theorem exec_home {p : Pkt} {t : State} (hp : rxHead s (argEp s) = some p) (hs : serve s (argEp s) p = some t) :
    (p.kind = 0 → exec .readRequest s = .next t) ∧ (p.kind = 2 → exec .write s = .next t) ∧ (p.kind = 4 → exec .atomicRequest s = .next t)
    ∧ (p.kind = 6 → 8 ≤ epDie (argEp s) → epDie (argEp s) ≠ 16 → exec .engineData s = .next t) := by
  refine ⟨fun hk => ?_, fun hk => ?_, fun hk => ?_, fun hk h8 h16 => ?_⟩
  · exact (show exec .readRequest s = homeEvent [0] "READ_REQUEST" s from rfl).trans (homeEvent_served hp (by rw [hk]; rfl) hs)
  · exact (show exec .write s = homeEvent [2] "WRITE" s from rfl).trans (homeEvent_served hp (by rw [hk]; rfl) hs)
  · exact (show exec .atomicRequest s = homeEvent [4] "ATOMIC_REQUEST" s from rfl).trans (homeEvent_served hp (by rw [hk]; rfl) hs)
  · show execEngineData s = _
    rw [execEngineData, if_pos ⟨h8, h16⟩]
    exact homeEvent_served hp (by rw [hk]; rfl) hs

theorem exec_engineData_core {p : Pkt} (hp : rxHead s (argEp s) = some p) (hk : p.kind = 6) (h8 : epDie (argEp s) < 8) (hm : isResumeMsg p.msg = false) :
    exec .engineData s = .next (landData p (rxTake s (argEp s))) := by
  show execEngineData s = _
  rw [execEngineData, if_neg (by omega), hp]
  refine gate_on ?_
  rw [hk, hm, bne_iff_ne.mpr (show epDie (argEp s) ≠ 16 by omega)]
  rfl

/-- The slice takes an access, in one of the ways that R125 and R130 list. -/
theorem sliceArrive_takes {t : State} {m : Nat} {p : Pkt} (hpin : ¬ (p.opc = 1 ∧ 15 < pinCount t (p.addr.toNat / 64)))
    (h : (getSlice t m).miss.contains (p.addr.toNat / 64) = true ∨ slicePresent (getSlice t m) (p.addr.toNat / 64) = true
      ∨ ((getSlice t m).miss.length < 256 ∧ (p.kind ≠ 0 ∨ setPinned t (getSlice t m) (p.addr.toNat / 64) = false))
      ∨ (p.kind = 0 ∧ (getSlice t m).pend.contains (p.addr.toNat / 64) = false)) : sliceArrive t m p ≠ .input := by
  have hlater : (p.opc == 1 && decide (15 < pinCount t (p.addr.toNat / 64))) = false := by
    simpa [Bool.and_eq_false_iff] using hpin
  unfold sliceArrive
  dsimp only
  rw [hlater]
  generalize getSlice t m = l at h ⊢
  generalize p.addr.toNat / 64 = line at h ⊢
  rw [if_neg Bool.false_ne_true]
  split
  · exact Arrival.noConfusion
  next hm =>
    split
    · exact Arrival.noConfusion
    next hs =>
      have hrest := (h.resolve_left hm).resolve_left hs
      split
      next hk =>
        have hpend : l.pend.contains line = false := by
          rcases hrest with ⟨-, hk' | hs'⟩ | ⟨-, hpd⟩
          · exact absurd hk.1 hk'
          · exact absurd hk.2 (by rw [hs']; exact Bool.false_ne_true)
          · exact hpd
        rw [if_neg (by rw [hpend]; exact Bool.false_ne_true)]
        exact Arrival.noConfusion
      · split
        · exact Arrival.noConfusion
        next hl =>
          obtain ⟨hk, hpd⟩ := hrest.resolve_left fun hr => hl hr.1
          rw [if_pos ⟨hk, by rw [hpd]; exact Bool.false_ne_true⟩]
          exact Arrival.noConfusion

theorem serve_slice {p : Pkt} (h8 : 8 ≤ epDie (argEp s)) (h16 : epDie (argEp s) < 16)
    (hpin : ¬ (p.opc = 1 ∧ 15 < pinCount (rxTake s (argEp s)) (p.addr.toNat / 64)))
    (h : (getSlice s (epDie (argEp s) - 8)).miss.contains (p.addr.toNat / 64) = true ∨ slicePresent (getSlice s (epDie (argEp s) - 8)) (p.addr.toNat / 64) = true
      ∨ ((getSlice s (epDie (argEp s) - 8)).miss.length < 256
          ∧ (p.kind ≠ 0 ∨ setPinned (rxTake s (argEp s)) (getSlice s (epDie (argEp s) - 8)) (p.addr.toNat / 64) = false))
      ∨ (p.kind = 0 ∧ (getSlice s (epDie (argEp s) - 8)).pend.contains (p.addr.toNat / 64) = false)) : ∃ t, serve s (argEp s) p = some t := by
  have htake : sliceArrive (if epDie p.src < 8 then plcSample (samplingDie (rxTake s (argEp s)) p (epDie (argEp s))) p (rxTake s (argEp s)) else rxTake s (argEp s))
      (epDie (argEp s) - 8) p ≠ .input := by
    split
    · exact sliceArrive_takes hpin h
    · exact sliceArrive_takes hpin h
  unfold serve
  dsimp only
  rw [if_neg (by omega), if_pos ⟨h8, h16⟩]
  split
  · exact ⟨_, rfl⟩
  · exact ⟨_, rfl⟩
  next hi => exact absurd hi htake

theorem serve_ucie {p : Pkt} (h17 : epDie (argEp s) = 17) (hsrc : p.src ≠ securityEp 0) : ∃ t, serve s (argEp s) p = some t := by
  unfold serve
  dsimp only
  rw [if_pos h17, if_neg hsrc]
  exact ⟨_, rfl⟩

theorem homePerform_read {p : Pkt} {n : Nat} (h : p.msg = .read n) : homePerform p s = sendPkt s { (answer p 1 (homeRead s p.addr.toNat n) .none) with
    orig := p.orig, poison := rangePoison s p.addr.toNat n, opc := p.opc, ver := lineVer s (p.addr.toNat / 64) } := by
  unfold homePerform
  dsimp only
  rw [h]
  rfl

/-! ## The fills of a slice -/

theorem exec_homeSliceFill_pend (hm : memOk s s.arg.a = true) (hp : (getSlice s s.arg.a).pend.contains s.arg.b = true) :
    exec .homeSliceFill s = .next (setSlice s s.arg.a { getSlice s s.arg.a with pend := (getSlice s s.arg.a).pend.filter (· != s.arg.b) }) := by
  show execHomeSliceFill s = _
  unfold execHomeSliceFill
  dsimp only
  rw [hm, if_neg (by simp), if_pos hp]
  exact gate_on rfl

theorem exec_homeSliceFill_miss {l1 : Slice} (hm : memOk s s.arg.a = true) (hp : (getSlice s s.arg.a).pend.contains s.arg.b = false)
    (hl : (getSlice s s.arg.a).miss.contains s.arg.b = true) (hr : sliceRoom s (getSlice s s.arg.a) s.arg.b = some l1) :
    exec .homeSliceFill s = .next (performWaiting s.arg.a s.arg.b (stackError s.arg.a s.arg.b s.arg.c s.arg.d
      (setSlice s s.arg.a { l1 with miss := l1.miss.filter (· != s.arg.b), lines := (s.arg.b, false) :: l1.lines }))) := by
  show execHomeSliceFill s = _
  unfold execHomeSliceFill
  dsimp only
  rw [hm, if_neg (by simp), if_neg (by rw [hp]; simp), if_pos hl, hr]
  exact gate_on rfl

/-- A set with a line that no transfer pins has room, while the filter of pending writes has. -/
theorem sliceRoom_of_unpinned {l : Slice} {line : Nat} {v : Nat × Bool} (hv : v ∈ l.lines.filter (fun e => sliceSet e.1 == sliceSet line))
    (h0 : pinCount s v.1 = 0) (hp : l.pend.length < 64) : ∃ l1, sliceRoom s l line = some l1 := by
  have hvic : ∃ e, sliceVictim s l line = some e := by
    unfold sliceVictim
    rw [← Option.isSome_iff_exists, List.find?_isSome]
    refine ⟨v, ?_, beq_iff_eq.mpr h0⟩
    rw [List.mem_filter] at hv ⊢
    exact ⟨List.mem_reverse.mpr hv.1, hv.2⟩
  obtain ⟨e, he⟩ := hvic
  unfold sliceRoom
  rw [he]
  dsimp only
  rw [if_pos hp]
  split
  · exact ⟨_, rfl⟩
  · split <;> exact ⟨_, rfl⟩

/-! ## Answers and timeouts -/

theorem answerEvent_taken {kind : BitVec 4} {name : String} {eff : Pkt → State → State} {p : Pkt} (hp : rxHead s (argEp s) = some p)
    (hk : p.kind = kind) (hd : p.dst ≠ securityEp 0) :
    answerEvent kind name eff s = .next (eff p (cancelTimer p.dst.toNat p.tag.toNat (rxTake s (argEp s)))) := by
  unfold answerEvent answerAt
  rw [hp]
  show (match (if p.kind = kind ∧ p.dst ≠ securityEp 0 then some p else none) with
    | some p => gate true name (fun t => eff p (cancelTimer p.dst.toNat p.tag.toNat (rxTake t (argEp t)))) s
    | none => gate false name id s) = _
  rw [if_pos ⟨hk, hd⟩]
  exact gate_on rfl

theorem timerOver_of (h : ∀ g ∈ s.timers, isRequestTimer s.arg.a s.arg.b g.2.1 g.2.2 = true → g.1 ≤ s.cyc) : timerOver s s.arg.a s.arg.b = true := by
  unfold timerOver
  rw [any_eq_false_of fun g hg => ?_]
  · rfl
  · cases hr : isRequestTimer s.arg.a s.arg.b g.2.1 g.2.2 with
    | false => rfl
    | true => exact (Bool.true_and _).trans (decide_eq_false (by have := h g hg hr; omega))

theorem exec_timeouts {eff : State → State} (hl : lostAnswer s (argEp s) s.arg.b = some eff)
    (h : ∀ g ∈ s.timers, isRequestTimer s.arg.a s.arg.b g.2.1 g.2.2 = true → g.1 ≤ s.cyc) :
    exec .requestTimeout s = .next (eff s) ∧ exec .remoteAccessTimeout s = .next (eff s) := by
  have hev : ∀ name, timeoutEvent name s = .next (eff s) := fun name => by
    unfold timeoutEvent
    rw [hl]
    exact gate_on (timerOver_of h)
  exact ⟨hev "REQUEST_TIMEOUT", hev "REMOTE_ACCESS_TIMEOUT"⟩

theorem lostAnswer_access {k x : Nat} {c : Acc} (h16 : epDie (argEp s) ≠ 16) (h73 : epUnit (argEp s) ≠ 73) (hk : epCore s (argEp s) = some k)
    (ha : accAt s k s.arg.b = some (x, c)) : lostAnswer s (argEp s) s.arg.b = some (accFailed x c 3) := by
  unfold lostAnswer
  rw [if_neg h16, if_neg h73, hk]
  show (match accAt s k s.arg.b with
    | some (x, a) => some (accFailed x a 3)
    | none => _) = _
  rw [ha]

theorem oldestSeq_isSome {n : BitVec 12} {l : List (BitVec 12)} (h : l ≠ []) : ∃ q, oldestSeq n l = some q := by
  cases l with
  | nil => exact absurd rfl h
  | cons q l =>
    unfold oldestSeq
    split
    · exact ⟨_, rfl⟩
    · split <;> exact ⟨_, rfl⟩

theorem exec_reorderTimeout {q : BitVec 12} {n : Nat} (hq : oldestSeq (recvOf s s.arg.flow).next (reachedSeqs s s.arg.flow) = some q)
    (hn : (recvOf s s.arg.flow).since = some n) (h : n + 262144 ≤ s.cyc) : exec .reorderTimeout s = .next (skipTo s.arg.flow q s) := by
  show execReorderTimeout s = _
  unfold execReorderTimeout
  dsimp only
  rw [hq, hn]
  exact gate_on (decide_eq_true h)

/-! ## Links -/

theorem exec_linkReplay (h16 : s.arg.a < 16) (h5 : s.arg.b < 5) (h3 : s.arg.a < 8 ∨ 3 ≤ s.arg.b) (hr : retraining s s.arg.a s.arg.b = false)
    (hw : firstOnWire s (linkKey (across s.arg.a s.arg.b).1 (across s.arg.a s.arg.b).2) ≠ none) (hl : s.arg.data.length = 64)
    (hg : flitGood (wireOf s (linkKey (across s.arg.a s.arg.b).1 (across s.arg.a s.arg.b).2)) s.arg.data (BitVec.ofNat 8 s.arg.c) s.arg.d = false) :
    exec .linkReplay s = .next (replayLink s.arg.a s.arg.b s) := by
  show execLinkReplay s = _
  unfold execLinkReplay
  dsimp only
  rw [if_neg (Nat.ne_of_lt h16)]
  refine gate_on ?_
  rw [decide_eq_true h16, decide_eq_true h5, decide_eq_true h3, hr, Option.isSome_iff_ne_none.mpr hw, hl, hg]
  rfl

/-- The state with the bad flit counted and logged at its receiver. -/
def replayLogged (d n : Nat) (s : State) : State := bbxLog (if d < 8 then mgBump s d (oLink n) 0 32 else s) 0x07 d 0 0xFF n 0

theorem regsOnly_replayLogged (d n : Nat) (s : State) : RegsOnly s (replayLogged d n s) :=
  RegsOnly.trans (.ite (regsOnly_mgSetF _ _ _ _ _ _) (.refl s)) (regsOnly_bbxLog _ _ _ _ _ _ _)

theorem replayLink_again {d n : Nat} (h : (wireOf s (linkKey (across d n).1 (across d n).2)).errors < 8) :
    replayLink d n s = setLink (replayLogged d n s) (linkKey (across d n).1 (across d n).2)
      { wireOf (replayLogged d n s) (linkKey (across d n).1 (across d n).2) with errors := (wireOf s (linkKey (across d n).1 (across d n).2)).errors + 1 } := by
  unfold replayLink
  dsimp only
  rw [if_neg (by omega)]
  rfl

/-- The compute dies' ends of a link. -/
def replayEnds (d n : Nat) : List (Nat × Nat) := [(d, n), across d n].filter (fun e => e.1 < 8)

theorem replayLink_retrain {d n : Nat} (h : 8 ≤ (wireOf s (linkKey (across d n).1 (across d n).2)).errors) :
    replayLink d n s = (replayEnds d n).foldl (fun t e => mgSetF t e.1 (oLink e.2) 49 1 1)
      { setLink (replayLogged d n s) (linkKey (across d n).1 (across d n).2)
          { wireOf (replayLogged d n s) (linkKey (across d n).1 (across d n).2) with errors := 0 } with
        mgmt := { (replayLogged d n s).mgmt with
          retrain := (replayEnds d n).map (fun e => linkKey e.1 e.2) ++ (replayLogged d n s).mgmt.retrain } } := by
  unfold replayLink
  dsimp only
  rw [if_pos (by omega)]
  rfl

theorem wireOf_setLink_same (s : State) (k : Nat) (l : Link) : wireOf (setLink s k l) k = l := mget_mset_same ..

theorem RegsOnly.wireOf {t : State} (h : RegsOnly s t) (k : Nat) : wireOf t k = Machine.wireOf s k := h.proj (fun u => Machine.wireOf u k) fun _ => rfl

theorem regsOnly_foldl_mgSetF {α : Type} (die off lo n x : α → Nat) (l : List α) (s : State) :
    RegsOnly s (l.foldl (fun t e => mgSetF t (die e) (off e) (lo e) (n e) (x e)) s) :=
  .foldl (fun t e => regsOnly_mgSetF t (die e) (off e) (lo e) (n e) (x e)) l s

theorem replayLink_net (d n : Nat) (s : State) : (replayLink d n s).net = s.net := by
  by_cases h : (wireOf s (linkKey (across d n).1 (across d n).2)).errors < 8
  · rw [replayLink_again h]
    exact (regsOnly_replayLogged d n s).net
  · rw [replayLink_retrain (Nat.le_of_not_lt h), (regsOnly_foldl_mgSetF _ _ _ _ _ _ _).net]
    exact (regsOnly_replayLogged d n s).net

theorem link_key_ne_bbx {d n : Nat} (hn : n < 7) (e : Nat) : mgKey d (oLink n) ≠ mgKey e oBbx := by
  unfold mgKey oLink oBbx
  omega

theorem mgF_replayLogged {d n : Nat} (hd : d < 8) (hn : n < 7) :
    mgF (replayLogged d n s) d (oLink n) 0 32 = min (mgF s d (oLink n) 0 32 + 1) (2 ^ 32 - 1) := by
  unfold replayLogged
  rw [if_pos hd, bbxLog, mgF_congr (mgGet_bbxLogAt_ne (link_key_ne_bbx hn _) _ _ _ _ _ _ _), mgBump, mgF_mgSetF_same (by omega)]
  exact Nat.mod_eq_of_lt (by omega)

theorem exec_linkRetrainEnd_good (h8 : s.arg.a < 8) (h5 : s.arg.b < 5) (hr : s.mgmt.retrain.contains (linkKey s.arg.a s.arg.b) = true) :
    exec .linkRetrainEnd s = .next (if s.arg.ok then linkTrained s.arg.a s.arg.b s else linkDown s.arg.a s.arg.b (linkTrained s.arg.a s.arg.b s)) := by
  show execLinkRetrainEnd s = _
  unfold execLinkRetrainEnd
  dsimp only
  rw [if_neg (by omega), if_neg (by omega), gate_on hr, if_neg (by omega)]

theorem linkTrained_eq (k n : Nat) (s : State) : RegsOnly { s with mgmt := { s.mgmt with
    retrain := s.mgmt.retrain.filter (fun q => !((linkEnds k n).map (fun e => linkKey e.1 e.2)).contains q) } } (linkTrained k n s) :=
  regsOnly_foldl_mgSetF _ _ _ _ _ _ _

theorem mem_linkEnds {k n : Nat} (hk : k < 8) : (k, n) ∈ linkEnds k n := by
  unfold linkEnds
  rw [List.mem_filter]
  refine ⟨?_, decide_eq_true hk⟩
  split <;> simp

theorem linkTrained_retrain {k n : Nat} (hk : k < 8) (s : State) : (linkTrained k n s).mgmt.retrain.contains (linkKey k n) = false := by
  rw [(linkTrained_eq k n s).mgmt]
  have hm : linkKey k n ∈ (linkEnds k n).map (fun e => linkKey e.1 e.2) := List.mem_map.mpr ⟨_, mem_linkEnds hk, rfl⟩
  rw [Bool.eq_false_iff, Ne, List.contains_iff_mem, List.mem_filter]
  rintro ⟨-, hn⟩
  rw [List.contains_iff_mem.mpr hm] at hn
  exact Bool.false_ne_true hn

theorem exec_linkRetrainEnd_port (hd : dieOk s s.arg.a = true) (h5 : 5 ≤ s.arg.b) (h7 : s.arg.b < 7) (ho : s.arg.ok = false) :
    exec .linkRetrainEnd s = .next (linkDown s.arg.a s.arg.b s) := by
  have h8 : s.arg.a < 8 := by rw [dieOk, Bool.and_eq_true, decide_eq_true_eq] at hd; exact hd.1
  show execLinkRetrainEnd s = _
  unfold execLinkRetrainEnd
  dsimp only
  rw [if_neg (by omega), if_pos ⟨h8, h5⟩]
  refine gate_on ?_
  rw [hd, ho, decide_eq_true h7]
  rfl

theorem exec_linkRetrainEnd_mesh (hd : dieOk s s.arg.a = true) (h8 : 8 ≤ s.arg.b) (h296 : s.arg.b < 296) (ho : s.arg.ok = false) :
    exec .linkRetrainEnd s = .next (meshDown s.arg.a ((s.arg.b - 8) / 4) ((s.arg.b - 8) % 4) s) := by
  have ha : s.arg.a < 8 := by rw [dieOk, Bool.and_eq_true, decide_eq_true_eq] at hd; exact hd.1
  show execLinkRetrainEnd s = _
  unfold execLinkRetrainEnd
  dsimp only
  rw [if_pos ⟨ha, h8⟩]
  refine gate_on ?_
  rw [hd, ho, decide_eq_true h296]
  rfl

theorem exec_linkRetrainEnd_pod (h : s.arg.a = 16) (hr : s.mgmt.retrain.contains (linkKey s.arg.a s.arg.b) = true) :
    ∃ t, exec .linkRetrainEnd s = .next t ∧ t.mgmt.retrain = dropFirst (· == linkKey s.arg.a s.arg.b) s.mgmt.retrain := by
  show ∃ t, execLinkRetrainEnd s = .next t ∧ _
  unfold execLinkRetrainEnd
  dsimp only
  rw [if_neg (by omega), if_neg (by omega)]
  refine ⟨_, gate_on hr, ?_⟩
  rw [if_pos h]
  split
  · rfl
  · rw [(regsOnly_setHint _ _).mgmt, (regsOnly_mgSetF _ _ _ _ _ _).mgmt]

/-! ## The host's accesses -/

theorem exec_hostMemoryAccess (hr : s.running = true) (h0 : 0 < (if (s.arg.a == 1) = true then s.arg.data.length else s.arg.c))
    (h64 : s.arg.b % 64 + (if (s.arg.a == 1) = true then s.arg.data.length else s.arg.c) ≤ 64) (hp : populated s s.arg.b = true) :
    ∃ t, exec .hostMemoryAccess s = .next t := by
  show ∃ t, execHostMemoryAccess s = .next t
  unfold execHostMemoryAccess
  refine ⟨_, gate_on ?_⟩
  rw [hr, hp, decide_eq_true h0, decide_eq_true h64]
  rfl

/-- Settles O56: arbitration by the order of R52, what a home takes, what awaits an answer, and the ends of a link, event by event. -/
theorem packetEvents : Obligations.PacketEvents := by
  unfold Obligations.PacketEvents
  intro s t f p q eff x c v
  dsimp only
  refine ⟨fun hf _ hgo hfirst => ⟨fun h0 => ?_, fun h2 hd => ?_⟩, fun hf h1 => ?_, fun hp hs => exec_home hp hs, fun hp hs => ?_,
    fun hp hk h8 hm => exec_engineData_core hp hk h8 hm, fun n hm => homePerform_read hm, exec_homeSliceFill_pend, fun hm hp hl hw => ?_,
    fun hm hp hl hv h0 h64 => ?_, fun hp hd => ⟨fun hk => ?_, fun hk => ?_, fun hk => ?_⟩, exec_timeouts,
    fun k h16 h73 hk ha hl => exec_timeouts (lostAnswer_access h16 h73 hk ha) hl, fun n hq hn h => exec_reorderTimeout hq hn h, fun n he hn h => ?_,
    fun h8 h5 hb => ?_, fun h8 h16 h3 h5 hb => ?_, fun h16 hb hr => ?_, fun h8 h5 hr => ⟨fun ho => ?_, fun ho => ?_⟩, fun h8 h5 hr ho => ?_,
    exec_linkRetrainEnd_port, exec_linkRetrainEnd_mesh, exec_linkRetrainEnd_pod, fun hr h0 h64 hp ha => ?_, fun hr h0 h64 hp ha => ?_⟩
  · rw [exec_packetRoute_free hf hgo hfirst, h0]; rfl
  · rw [exec_packetRoute_free hf hgo hfirst, h2, findError, if_neg (by omega), if_pos ⟨rfl, by simpa using hd⟩]
  · rw [exec_packetRoute hf (by rw [h1]; exact Bool.or_true _), h1]
    exact congrArg _ (routeFlight_bad rfl)
  · have h8 : 8 ≤ epDie (argEp s) ∧ epDie (argEp s) ≠ 16 := by rcases hs with ⟨h17, -⟩ | ⟨h8, h16, -⟩ <;> omega
    obtain ⟨t, ht⟩ : ∃ t, serve s (argEp s) p = some t := by
      rcases hs with ⟨h17, hsrc⟩ | ⟨h8, h16, hpin, hs⟩
      · exact serve_ucie h17 hsrc
      · exact serve_slice h8 h16 hpin hs
    obtain ⟨hread, hwrite, hatom, hdata⟩ := exec_home hp ht
    exact ⟨fun hk => ⟨t, hread hk⟩, fun hk => ⟨t, hwrite hk⟩, fun hk => ⟨t, hatom hk⟩, fun hk => ⟨t, hdata hk h8.1 h8.2⟩⟩
  · exact exec_homeSliceFill_miss hm hp hl (by rw [sliceRoom, if_pos hw])
  · obtain ⟨l1, hl1⟩ := sliceRoom_of_unpinned hv h0 h64
    exact ⟨_, exec_homeSliceFill_miss hm hp hl hl1⟩
  · exact (show exec .readResponse s = answerEvent 1 "READ_RESPONSE" readAnswered s from rfl).trans (answerEvent_taken hp hk hd)
  · exact (show exec .writeAcknowledgement s = answerEvent 3 "WRITE_ACKNOWLEDGEMENT" writeAnswered s from rfl).trans (answerEvent_taken hp hk hd)
  · exact (show exec .atomicResponse s = answerEvent 5 "ATOMIC_RESPONSE" oldAnswered s from rfl).trans (answerEvent_taken hp hk hd)
  · obtain ⟨m, hm⟩ := oldestSeq_isSome (n := (recvOf s s.arg.flow).next) (l := reachedSeqs s s.arg.flow) (by simp [reachedSeqs, he])
    exact ⟨_, exec_reorderTimeout hm hn h⟩
  · obtain ⟨hr, hw, hl, hg⟩ := hb
    refine ⟨_, exec_linkReplay (by omega) h5 (.inl h8) hr hw hl hg, replayLink_net _ _ _, fun he => ?_, fun he => ?_⟩
    · rw [replayLink_again he, wireOf_setLink_same]
      exact ⟨rfl, congrArg Mgmt.retrain (regsOnly_replayLogged _ _ _).mgmt, mgF_replayLogged h8 (by omega)⟩
    · rw [replayLink_retrain he, (regsOnly_foldl_mgSetF _ _ _ _ _ _ _).wireOf, (regsOnly_foldl_mgSetF _ _ _ _ _ _ _).mgmt]
      refine ⟨congrArg Link.errors (wireOf_setLink_same _ _ _), List.contains_iff_mem.mpr (List.mem_append_left _ (List.mem_map.mpr ⟨(s.arg.a, s.arg.b), ?_, rfl⟩))⟩
      exact List.mem_filter.mpr ⟨List.mem_cons_self .., decide_eq_true h8⟩
  · obtain ⟨hr, hw, hl, hg⟩ := hb
    exact ⟨_, exec_linkReplay h16 h5 (.inr h3) hr hw hl hg, replayLink_net _ _ _⟩
  · show execLinkReplay s = _
    unfold execLinkReplay
    dsimp only
    rw [if_pos h16]
    exact gate_on (by rw [decide_eq_true hb, hr]; rfl)
  · rw [exec_linkRetrainEnd_good h8 h5 hr, if_pos ho]
  · rw [exec_linkRetrainEnd_good h8 h5 hr, if_neg (by rw [ho]; exact Bool.false_ne_true)]
  · refine ⟨_, exec_linkRetrainEnd_good h8 h5 hr, ?_⟩
    rw [if_pos ho]
    exact ⟨linkTrained_retrain h8 s, (linkTrained_eq _ _ _).net⟩
  · exact exec_hostMemoryAccess hr (by rw [ha]; exact h0) (by rw [ha]; exact h64) hp
  · exact exec_hostMemoryAccess hr (by rw [ha]; exact h0) (by rw [ha]; exact h64) hp

end Sys2Proof.Machine
end

section
/-!
SUPPORT. The choice of the oldest command of a core's contexts (R493), and lists of which one element passes a test.
-/

set_option Elab.async false

namespace Sys2Proof.Machine

open Sys2Proof

variable {s : State}

/-- A command of a context goes before another's: by its issue cycle, and then by the context. -/
def ElderCmd (p q : Nat × Cmd) : Prop := p.2.cyc < q.2.cyc ∨ (p.2.cyc = q.2.cyc ∧ p.1 < q.1)

theorem oldest_of_first {p : Nat × Cmd} {l : List (Nat × Cmd)} (h : ∀ q ∈ l, p.2.cyc ≤ q.2.cyc) : oldest (p :: l) = some p := by
  have hmem : ∀ (m : List (Nat × Cmd)) (q : Nat × Cmd), oldest m = some q → q ∈ m := by
    intro m
    induction m with
    | nil => intro q hq; cases hq
    | cons r m ih =>
      intro q hq
      unfold oldest at hq
      split at hq
      · cases hq; exact List.mem_cons_self ..
      next u hu =>
        split at hq
        · cases hq; exact List.mem_cons_of_mem _ (ih _ hu)
        · cases hq; exact List.mem_cons_self ..
  unfold oldest
  split
  · rfl
  next q hq => rw [if_neg (Nat.not_lt.mpr (h q (hmem l q hq)))]

theorem oldest_of_later {p q : Nat × Cmd} {l : List (Nat × Cmd)} (h : oldest l = some q) (hc : q.2.cyc < p.2.cyc) : oldest (p :: l) = some q := by
  unfold oldest
  rw [h]
  exact if_pos hc

/-- The command that goes before every other of a list in the order of the contexts is the one chosen. -/
theorem oldest_of_elder {p : Nat × Cmd} {l : List (Nat × Cmd)} (hp : p ∈ l) (hs : l.Pairwise (fun a b => a.1 < b.1))
    (h : ∀ q ∈ l, q.1 ≠ p.1 → ElderCmd p q) : oldest l = some p := by
  induction l with
  | nil => cases hp
  | cons r l ih =>
    obtain ⟨hr, hl⟩ := List.pairwise_cons.mp hs
    rcases List.mem_cons.mp hp with rfl | hp
    · refine oldest_of_first fun q hq => ?_
      rcases h q (List.mem_cons_of_mem _ hq) (Nat.ne_of_gt (hr q hq)) with hc | ⟨hc, -⟩ <;> omega
    · refine oldest_of_later (ih hp hl fun q hq => h q (List.mem_cons_of_mem _ hq)) ?_
      have hlt := hr p hp
      rcases h r (List.mem_cons_self ..) (Nat.ne_of_lt hlt) with hc | ⟨-, hx⟩ <;> omega

/-- The contexts of a core. -/
def ctxsOf (k : Nat) : List Nat := tab 4 (fun i => 4 * k + i)

theorem mem_ctxsOf {k x : Nat} : x ∈ ctxsOf k ↔ coreOf x = k := by
  unfold ctxsOf tab coreOf
  rw [List.mem_map]
  refine ⟨fun ⟨i, hi, hx⟩ => by have := List.mem_range.mp hi; omega, fun h => ⟨x % 4, List.mem_range.mpr (Nat.mod_lt _ (by omega)), by omega⟩⟩

theorem pairwise_ctxsOf (k : Nat) : (ctxsOf k).Pairwise (· < ·) :=
  List.Pairwise.map _ (fun a b h => by show 4 * k + a < 4 * k + b; omega) List.pairwise_lt_range

/-- What each context of a core offers. -/
def offers (k : Nat) (f : Nat → Option Cmd) : List (Nat × Cmd) := (ctxsOf k).filterMap (fun x => (f x).map (fun m => (x, m)))

theorem mem_offers {k : Nat} {f : Nat → Option Cmd} {q : Nat × Cmd} : q ∈ offers k f ↔ coreOf q.1 = k ∧ f q.1 = some q.2 := by
  unfold offers
  rw [List.mem_filterMap]
  constructor
  · rintro ⟨x, hx, h⟩
    obtain ⟨m, hm, rfl⟩ := Option.map_eq_some_iff.mp h
    exact ⟨mem_ctxsOf.mp hx, hm⟩
  · rintro ⟨hk, hf⟩
    exact ⟨q.1, mem_ctxsOf.mpr hk, by rw [hf]; rfl⟩

theorem pairwise_offers (k : Nat) (f : Nat → Option Cmd) : (offers k f).Pairwise (fun a b => a.1 < b.1) := by
  unfold offers
  refine (List.pairwise_filterMap).mpr ((pairwise_ctxsOf k).imp fun {a b} hab p hp q hq => ?_)
  obtain ⟨m, -, rfl⟩ := Option.map_eq_some_iff.mp hp
  obtain ⟨n, -, rfl⟩ := Option.map_eq_some_iff.mp hq
  exact hab

/-- The command that a context offers is the core's oldest when what every other context offers goes after it. -/
theorem oldest_offers {k x : Nat} {m : Cmd} {f : Nat → Option Cmd} (hx : coreOf x = k) (hf : f x = some m)
    (h : ∀ y, coreOf y = k → y ≠ x → ∀ e, f y = some e → m.cyc < e.cyc ∨ (m.cyc = e.cyc ∧ x < y)) : oldest (offers k f) = some (x, m) := by
  refine oldest_of_elder (mem_offers.mpr ⟨hx, hf⟩) (pairwise_offers k f) fun q hq hne => ?_
  obtain ⟨hk, hq⟩ := mem_offers.mp hq
  exact h q.1 hk hne q.2 hq

theorem find?_eq_none_of {α : Type} {l : List α} {p : α → Bool} (h : ∀ a ∈ l, p a = false) : l.find? p = none :=
  List.find?_eq_none.mpr fun a ha => by rw [h a ha]; exact Bool.false_ne_true

/-- Where only one element of a list passes, the search finds it. -/
theorem find?_of_only {α : Type} {l : List α} {p : α → Bool} {a : α} (ha : a ∈ l) (hp : p a = true) (h : ∀ b ∈ l, p b = true → b = a) :
    l.find? p = some a := by
  cases hf : l.find? p with
  | none => exact absurd hp (List.find?_eq_none.mp hf a ha)
  | some b => rw [h b (List.mem_of_find?_eq_some hf) (List.find?_some hf)]

end Sys2Proof.Machine
end

section
/-!
SUPPORT AND CERTIFICATE. O57: the events of circuits, of the mill and of promoted flows complete.
-/

set_option Elab.async false

namespace Sys2Proof.Machine

open Sys2Proof

variable {s : State} {q : Circuit} {f : Promo} {p : Pkt} {e : Ep} {t : Msg → Bool}

/-! ## Messages of a circuit at its endpoints -/

theorem ckMessage_of (h : rxHead s e = some p) (ht : t p.msg = true) : ckMessage s t e = some p := by
  unfold ckMessage
  rw [h]
  exact if_pos ht

theorem ckMessage_none (h : rxHead s e = none) : ckMessage s t e = none := by
  unfold ckMessage
  rw [h]
  rfl

/-- The number is that of a program circuit, not of a promoted flow. -/
def Program (s : State) (n : Nat) (q : Circuit) : Prop := findCircuit s n = some q ∧ ∀ g ∈ s.promos, g.fid ≠ n

theorem Program.find (h : Program s s.arg.a q) : findCircuit s s.arg.a = some q := h.1

theorem no_promo {n : Nat} (h : ∀ g ∈ s.promos, g.fid ≠ n) : s.promos.find? (fun f => f.fid = n) = none :=
  find?_eq_none_of fun g hg => decide_eq_false (h g hg)

theorem Program.cid {n : Nat} (h : Program s n q) : q.cid = n := by
  have := List.find?_some h.1
  simpa using this

theorem Program.mem {n : Nat} (h : Program s n q) : q ∈ s.circuits := List.mem_of_find?_eq_some h.1

theorem flow_fid {n : Nat} (h : s.promos.find? (fun g => g.fid = n) = some f) : f.fid = n := by
  have := List.find?_some h
  simpa using this

/-- A message for no circuit, alone at the endpoints, is taken. -/
theorem strayMessage_taken {name : String} (hx : s.rx = [p]) (ht : t p.msg = true) : strayMessage t name s = .next (rxTake s p.dst) := by
  unfold strayMessage
  have hhead : rxHead s p.dst = some p := by
    unfold rxHead
    rw [hx]
    exact List.find?_cons_of_pos (by exact beq_self_eq_true _)
  rw [hx, List.find?_cons_of_pos (by rw [ht, hhead]; exact beq_self_eq_true _)]
  exact gate_on rfl

/-! ## Probes and the open -/

theorem ackCame_of {d : Nat} (h : d ≠ 0 ∧ d ≤ s.cyc) : ackCame s d = true := by
  rw [ackCame, bne_iff_ne.mpr h.1, decide_eq_true h.2]; rfl

theorem ackCame_eq_false {d : Nat} (h : ¬ (d ≠ 0 ∧ d ≤ s.cyc)) : ackCame s d = false := by
  rw [Bool.eq_false_iff]
  intro hc
  rw [ackCame, Bool.and_eq_true, bne_iff_ne, decide_eq_true_eq] at hc
  exact h hc

theorem exec_probeAcknowledgement_first (hm : Program s s.arg.a q) (h0 : q.stage = 0) (hd : q.due ≠ 0 ∧ q.due ≤ s.cyc) :
    exec .probeAcknowledgement s = .next (if dieOf (coreOf q.x) = dieOf (coreOf q.dx) then openNow q s
      else modCircuit s s.arg.a (fun r => { r with stage := 1, due := s.cyc })) := by
  show execProbeAcknowledgement s = _
  unfold execProbeAcknowledgement
  dsimp only
  rw [no_promo hm.2, hm.1]
  dsimp only
  rw [if_pos ⟨ackCame_of hd, h0⟩]
  exact gate_on rfl

theorem exec_probeAcknowledgement_far (hm : Program s s.arg.a q) (h3 : q.stage = 3) (hd : q.due ≠ 0 ∧ q.due ≤ s.cyc) :
    exec .probeAcknowledgement s = .next (sendPkt (modCircuit s s.arg.a (fun r => { r with due := 0 }))
      (mkPkt 8 2 q.part (farHub q) (coreEp s (coreOf q.x)) 0 0 [] (.probeAck s.arg.a))) := by
  show execProbeAcknowledgement s = _
  unfold execProbeAcknowledgement
  dsimp only
  rw [no_promo hm.2, hm.1]
  dsimp only
  rw [if_neg (by omega), if_pos ⟨ackCame_of hd, h3⟩]
  exact gate_on rfl

theorem exec_probeAcknowledgement_sender (hm : Program s s.arg.a q) (h3 : q.stage = 3) (hd : ¬ (q.due ≠ 0 ∧ q.due ≤ s.cyc))
    (hp : ckMessage s (isAck s.arg.a) (coreEp s (coreOf q.x)) = some p) :
    exec .probeAcknowledgement s = .next (openNow q (rxTake s (coreEp s (coreOf q.x)))) := by
  show execProbeAcknowledgement s = _
  unfold execProbeAcknowledgement
  dsimp only
  rw [no_promo hm.2, hm.1]
  dsimp only
  rw [if_neg (by omega), if_neg (by rw [ackCame_eq_false hd]; simp)]
  exact gate_on (by rw [hp, h3]; rfl)

theorem exec_probeAcknowledgement_flow (hf : s.promos.find? (fun g => g.fid = s.arg.a) = some f) : exec .probeAcknowledgement s = promoAck f s := by
  show execProbeAcknowledgement s = _
  unfold execProbeAcknowledgement
  dsimp only
  rw [hf]

theorem promoAck_probe (hp : f.probing = true) (hd : f.due ≠ 0 ∧ f.due ≤ s.cyc) : promoAck f s = .next (
    if f.leg = 1 ∧ crosses f then
      sendPkt (modPromo f.fid (fun g => { g with leg := 2, due := 0 }) s) (mkPkt 8 2 f.part f.nearHub f.farHub 0 0 [] (.setup f.fid))
    else if f.leg = 1 then promoProbed f s
    else sendPkt (modPromo f.fid (fun g => { g with due := 0 }) s) (mkPkt 8 2 f.part f.farHub f.src 0 0 [] (.probeAck f.fid))) := by
  unfold promoAck
  rw [if_pos (ackCame_of hd)]
  exact gate_on hp

theorem promoAck_message (hp : f.probing = true) (hd : ¬ (f.due ≠ 0 ∧ f.due ≤ s.cyc)) (hm : ckMessage s (isAck f.fid) f.src = some p) :
    promoAck f s = .next (promoProbed f (rxTake s f.src)) := by
  unfold promoAck
  rw [if_neg (by rw [ackCame_eq_false hd]; simp)]
  exact gate_on (by rw [hp, hm]; rfl)

theorem getX_modHandle (q : Circuit) (g : CkHandle → CkHandle) (s : State) : getX (modHandle q g s) q.x =
    if (readK (getX s q.x) q.k).cid = q.cid then setK (getX s q.x) q.k (g (readK (getX s q.x) q.k)) else getX s q.x := by
  rw [modHandle, getX_modX, if_pos rfl]

theorem getX_of_addTimer (s : State) (n : Nat) (i : Instr) (a : EvArg) (x : Nat) : getX (addTimer s n i a) x = getX s x := rfl

/-- The handle of a circuit that is open now is OPEN, with the lease that its open named (R89). -/
theorem openNow_handle (hc : (readK (getX s q.x) q.k).cid = q.cid) : (readK (getX (openNow q s) q.x) q.k).st = 2
    ∧ (readK (getX (openNow q s) q.x) q.k).leaseEnd = s.cyc + q.lease := by
  have hx : getX (openNow q s) q.x = setK (getX s q.x) q.k { readK (getX s q.x) q.k with st := 2, cause := 0, leaseEnd := s.cyc + q.lease } := by
    rw [openNow, getX_of_addTimer, getX_modHandle, if_pos (show (readK (getX (modCircuit s q.cid _) q.x) q.k).cid = q.cid from hc)]
    rfl
  rw [hx, readK, setK]
  dsimp only
  rw [mget_mset_same]
  exact ⟨rfl, rfl⟩

theorem exec_probeRefusal_hub (hm : Program s s.arg.a q) (hp : ckMessage s (isRefusal s.arg.a) (farHub q) = some p) :
    exec .probeRefusal s = .next (passRefusal q.part (farHub q) (coreEp s (coreOf q.x)) s.arg.a p s) := by
  show execProbeRefusal s = _
  unfold execProbeRefusal
  dsimp only
  rw [no_promo hm.2, hm.1]
  dsimp only
  rw [hp]
  exact gate_on rfl

theorem exec_probeRefusal_sender (hm : Program s s.arg.a q) (hn : ckMessage s (isRefusal s.arg.a) (farHub q) = none)
    (hp : ckMessage s (isRefusal s.arg.a) (coreEp s (coreOf q.x)) = some p) :
    exec .probeRefusal s = .next (failOpen q (refusalCause p) (rxTake s (coreEp s (coreOf q.x)))) := by
  show execProbeRefusal s = _
  unfold execProbeRefusal
  dsimp only
  rw [no_promo hm.2, hm.1]
  dsimp only
  rw [hn]
  dsimp only
  rw [hp]
  exact gate_on rfl

theorem exec_probeRefusal_flow (hf : s.promos.find? (fun g => g.fid = s.arg.a) = some f) (hn : ckMessage s (isRefusal s.arg.a) f.farHub = none)
    (hb : f.probing = true) (hp : ckMessage s (isRefusal s.arg.a) f.src = some p) :
    exec .probeRefusal s = .next (dropPromo s.arg.a (dropLanes (promoVal s.arg.a) (setEntry f 4 (rxTake s f.src)))) := by
  show execProbeRefusal s = _
  unfold execProbeRefusal
  dsimp only
  rw [hf]
  dsimp only
  rw [hn]
  exact gate_on (by rw [hp, hb]; rfl)

/-! ## Grains and the setup request -/

/-- The circuit that asked first, or as early as another with a higher endpoint, is the next that its die's calendar serves (R80). -/
theorem nextReserve_of_first (hq : q ∈ s.circuits) (h1 : q.stage = 1)
    (h : ∀ r ∈ s.circuits, r.stage = 1 → dieOf (coreOf r.x) = dieOf (coreOf q.x) → r = q ∨ q.due < r.due
      ∨ (q.due = r.due ∧ (coreEp s (coreOf q.x)).toNat < (coreEp s (coreOf r.x)).toNat)) : nextReserve s (dieOf (coreOf q.x)) = some q := by
  have hasks : ∀ r, r ∈ s.circuits.filter (fun q' => q'.stage == 1 && dieOf (coreOf q'.x) == dieOf (coreOf q.x)) ↔
      r ∈ s.circuits ∧ r.stage = 1 ∧ dieOf (coreOf r.x) = dieOf (coreOf q.x) := fun r => by
    rw [List.mem_filter, Bool.and_eq_true, beq_iff_eq, beq_iff_eq]
  have hmem := (hasks q).mpr ⟨hq, h1, rfl⟩
  unfold nextReserve
  dsimp only
  refine find?_of_only hmem (List.all_eq_true.mpr fun r hr => ?_) fun r hr hall => ?_
  · obtain ⟨hr, hr1, hrd⟩ := (hasks r).mp hr
    rw [Bool.or_eq_true, Bool.and_eq_true, decide_eq_true_eq, beq_iff_eq, decide_eq_true_eq]
    rcases h r hr hr1 hrd with rfl | hlt | ⟨heq, hep⟩
    · exact .inr ⟨rfl, Nat.le_refl _⟩
    · exact .inl hlt
    · exact .inr ⟨heq, Nat.le_of_lt hep⟩
  · obtain ⟨hr, hr1, hrd⟩ := (hasks r).mp hr
    have hbest := List.all_eq_true.mp hall q hmem
    rw [Bool.or_eq_true, Bool.and_eq_true, decide_eq_true_eq, beq_iff_eq, decide_eq_true_eq] at hbest
    rcases h r hr hr1 hrd with heq | hlt | ⟨heq, hep⟩
    · exact heq
    · omega
    · omega

theorem exec_grainReservation (hm : findCircuit s s.arg.a = some q) (hn : nextReserve s (dieOf (coreOf q.x)) = some q) :
    exec .grainReservation s = .next (
      match reserveGrains s (dieOf (coreOf q.x)) (dieOf (coreOf q.dx)) q.part.toNat q.g with
      | none => failOpen q ckNOGRAIN s
      | some (c, gs) =>
        let sail := directSail (dieOf (coreOf q.x)) (dieOf (coreOf q.dx))
        let keys := gs.map (calKey (dieOf (coreOf q.x)) sail)
        let t1 : State := { s with calendar := keys.foldl (fun m n => mset m n (BitVec.ofNat 16 (c + 256 * q.part.toNat))) s.calendar }
        let t2 := modCircuit t1 q.cid (fun r => { r with stage := 2, grains := keys, usable := nextSail s sail, due := 0 })
        sendPkt t2 (mkPkt 8 2 q.part (nearHub q) (farHub q) 0 0 [] (.setup q.cid))) := by
  show execGrainReservation s = _
  unfold execGrainReservation
  rw [hm]
  refine (gate_on ?_).trans rfl
  rw [hn]
  exact beq_self_eq_true _

theorem sameHomes_modCircuit (s : State) (c : Nat) (g : Circuit → Circuit) : SameHomes s (modCircuit s c g) := ⟨rfl, rfl, rfl, rfl, rfl⟩

theorem exec_grainReservation_some {r : Nat × List Nat} (hm : findCircuit s s.arg.a = some q) (hn : nextReserve s (dieOf (coreOf q.x)) = some q)
    (hr : reserveGrains s (dieOf (coreOf q.x)) (dieOf (coreOf q.dx)) q.part.toNat q.g = some r) : ∃ t, exec .grainReservation s = .next t ∧ t.mem = s.mem := by
  refine ⟨_, exec_grainReservation hm hn, ?_⟩
  rw [hr]
  exact (sameHomes_sendPkt _ _).1

theorem exec_circuitSetupRequest (hm : Program s s.arg.a q) (h2 : q.stage = 2) (hp : ckMessage s (isSetup q.cid) (farHub q) = some p) :
    ∃ t, exec .circuitSetupRequest s = .next t ∧ t.probes.length = s.probes.length + 1 := by
  show ∃ t, execCircuitSetupRequest s = .next t ∧ _
  unfold execCircuitSetupRequest
  rw [no_promo hm.2]
  dsimp only
  rw [hm.1]
  refine ⟨_, gate_on (by rw [h2, hp]; rfl), ?_⟩
  exact List.length_append

theorem exec_circuitSetupRequest_flow (hf : s.promos.find? (fun g => g.fid = s.arg.a) = some f) (hb : f.probing = true)
    (hp : ckMessage s (isSetup f.fid) f.farHub = some p) : exec .circuitSetupRequest s = .next (farPromoProbe f (rxTake s f.farHub)) := by
  show execCircuitSetupRequest s = _
  unfold execCircuitSetupRequest
  rw [hf]
  exact gate_on (by rw [hb, hp]; rfl)

/-! ## Beats -/

/-- A row whose bank no other row of a list takes can be served. -/
theorem rowFree_of {l : List (Nat × Nat)} {r : Nat} (h : ∀ g ∈ l, g.1 % 32 = r % 32 → g.1 = r) : rowFree l r = true := by
  refine List.all_eq_true.mpr fun g hg => ?_
  by_cases hb : g.1 % 32 = r % 32
  · rw [h g hg hb]; simp
  · simp [hb]

theorem beatFits_of {b : Beat} {bs : List Beat} (hf : q.far = b :: bs) (ht : s.todo = []) (hd : b.due ≤ 2 * s.cyc + 1)
    (h : b.last = true ∨ ∀ r ∈ beatRows q b.ws s, (∀ g ∈ gatherRows s (coreOf q.dx), g % 32 = r % 32 → g = r)
      ∧ (∀ g ∈ marks s (coreOf q.dx), g.1 % 32 = r % 32 → g.1 = r)) : beatFits q s = true := by
  unfold beatFits
  dsimp only
  rw [hf]
  dsimp only
  rw [arrived, dueBy, ht, decide_eq_true hd, List.isEmpty_nil, Bool.and_self, Bool.true_and, Bool.or_eq_true]
  refine h.imp id fun h => List.all_eq_true.mpr fun r hr => rowFree_of fun g hg hb => ?_
  obtain ⟨hgather, hmarks⟩ := h r hr
  rcases List.mem_append.mp hg with hg | hg
  · obtain ⟨g', hg', rfl⟩ := List.mem_map.mp hg
    exact hgather g' hg' hb
  · exact hmarks g hg hb

theorem exec_circuitBeat (hm : Program s s.arg.a q) (hf : q.far ≠ []) (hr : q.report = none) (h : beatFits q s = true) :
    exec .circuitBeat s = .next (circuitBeat q s.arg.bits s.arg.c s) := by
  show execCircuitBeat s = _
  unfold execCircuitBeat
  rw [no_promo hm.2]
  dsimp only
  rw [hm.1]
  exact gate_on (by rw [List.isEmpty_eq_false_iff.mpr hf, hr, h]; rfl)

theorem exec_circuitBeat_flow (hf : s.promos.find? (fun g => g.fid = s.arg.a) = some f) :
    exec .circuitBeat s = promoBeat f s.arg.bits s.arg.c s.arg.b s := by
  show execCircuitBeat s = _
  unfold execCircuitBeat
  rw [hf]

theorem leBytes_leNat (l : List Byte) : leBytes l.length (leNat l) = l := by
  induction l with
  | nil => rfl
  | cons b l ih =>
    have hb := b.isLt
    show BitVec.ofNat 8 (b.toNat + 256 * leNat l) :: leBytes l.length ((b.toNat + 256 * leNat l) / 256) = b :: l
    rw [show (b.toNat + 256 * leNat l) / 256 = leNat l by omega, ih]
    congr 1
    apply BitVec.eq_of_toNat_eq
    rw [BitVec.toNat_ofNat]
    omega

theorem packetBeatGood_clean (p : Pkt) (n : Nat) (seq : BitVec 4) : packetBeatGood p n seq 0 = true := by
  unfold packetBeatGood
  dsimp only
  rw [show (0 : BitVec 256).toNat = 0 from rfl, Nat.xor_zero]
  have hl := leBytes_leNat (tab 32 (fun i => (packetBytes p).getD (32 * n + i) 0))
  rw [show (tab 32 (fun i => (packetBytes p).getD (32 * n + i) 0)).length = 32 by rw [tab, List.length_map, List.length_range]] at hl
  rw [hl]
  exact beq_self_eq_true _

theorem sameHomes_modPromo (n : Nat) (g : Promo → Promo) (s : State) : SameHomes s (modPromo n g s) := ⟨rfl, rfl, rfl, rfl, rfl⟩

theorem sameHomes_setRecv (s : State) (f : Flow) (r : Recv) : SameHomes s (setRecv s f r) := .ite ⟨rfl, rfl, rfl, rfl, rfl⟩ ⟨rfl, rfl, rfl, rfl, rfl⟩

theorem sameHomes_releaseFrom (s : State) (f : Flow) (l : List Pkt) (r : Recv) : SameHomes s (releaseFrom s f l r) :=
  .trans (t := { s with rx := s.rx ++ l ++ (drainEarly (r.early.length + r.gone.length) r).1 }) ⟨rfl, rfl, rfl, rfl, rfl⟩
    (.ite (sameHomes_setRecv _ _ _) ((sameHomes_setRecv _ _ _).trans (sameHomes_addTimer _ _ _ _)))

theorem sameHomes_refusePkt (s : State) (p : Pkt) : SameHomes s (refusePkt s p) :=
  .ite (.refl s) ((sameHomes_setRecv _ _ _).trans (sameHomes_addTimer _ _ _ _))

theorem sameHomes_receive (s : State) (p : Pkt) : SameHomes s (receive s p) :=
  .ite ⟨rfl, rfl, rfl, rfl, rfl⟩ (.ite (sameHomes_releaseFrom _ _ _ _) (.ite ((sameHomes_setRecv _ _ _).trans (sameHomes_refusePkt _ _)) (.refl s)))

theorem sameHomes_drainHeld (n : Nat) (s : State) : SameHomes s (drainHeld n s) := by
  unfold drainHeld
  split
  · exact .refl s
  · exact sameHomes_foldl (fun t p => .ite ((sameHomes_receive _ _).trans (sameHomes_modPromo _ _ _)) (.refl t)) _ s

/-- A packet that its flow expects is handed over as it arrives on a promoted circuit (R51, R88). -/
theorem promoArrive_next (hc : f.change = none) (hn : p.seq = (recvOf s p.flow).next) : ∃ t, promoArrive f p s = some t ∧ t.mem = s.mem := by
  unfold promoArrive
  dsimp only
  rw [hc]
  dsimp only
  rw [Bool.false_and, if_neg Bool.false_ne_true]
  have hacc : ∀ g, accepts (modPromo f.fid g s) p = true := fun g => by
    have hr : recvOf (modPromo f.fid g s) p.flow = recvOf s p.flow := rfl
    unfold accepts
    rw [hr, hn]
    simp
  rw [if_pos (hacc _)]
  exact ⟨_, rfl, (((sameHomes_modPromo _ _ _).trans (sameHomes_receive _ _)).trans (sameHomes_drainHeld _ _)).1⟩

theorem promoBeat_good {d n : Nat} {ps : List (BitVec 4 × Nat × Pkt)} (hf : f.far = (f.rseq, d, p) :: ps) (ht : s.todo = []) (hd : d ≤ 2 * s.cyc + 1)
    (hc : f.change = none) (hn : p.seq = (recvOf s p.flow).next) : ∃ t, promoBeat f 0 0 n s = .next t ∧ t.mem = s.mem := by
  obtain ⟨t, hta, hmem⟩ := promoArrive_next hc hn
  have harr : arrived s d = true := by rw [arrived, dueBy, ht, decide_eq_true hd]; rfl
  refine ⟨t, ?_, hmem⟩
  unfold promoBeat
  rw [hf]
  dsimp only
  rw [harr, if_neg (by simp), packetBeatGood_clean, if_pos (by simp), hta]
  exact gate_on rfl

theorem promoBeat_bad {u : BitVec 4} {d c n : Nat} {bits : BitVec 256} {ps : List (BitVec 4 × Nat × Pkt)} (hf : f.far = (u, d, p) :: ps) (ht : s.todo = [])
    (hd : d ≤ 2 * s.cyc + 1) (hu : u ≠ f.rseq) : promoBeat f bits c n s = .next (fallback f.fid true s) := by
  have harr : arrived s d = true := by rw [arrived, dueBy, ht, decide_eq_true hd]; rfl
  unfold promoBeat
  rw [hf]
  dsimp only
  rw [harr, if_neg (by simp), beq_eq_false_iff_ne.mpr hu, Bool.and_false, if_neg Bool.false_ne_true]
  exact gate_on rfl

/-! ## The ends of a circuit -/

theorem exec_collapseNotice (hm : findCircuit s s.arg.a = some q) (hp : ckMessage s (isNotice q.cid) (coreEp s (coreOf q.dx)) = some p) :
    exec .collapseNotice s = .next (receiverStop q (rxTake s (coreEp s (coreOf q.dx)))) := by
  show execCollapseNotice s = _
  unfold execCollapseNotice
  rw [hm]
  exact gate_on (by rw [hp]; rfl)

theorem exec_resumePointReport (hm : findCircuit s s.arg.a = some q) (hc : q.collapsed ≠ some s.cyc)
    (hp : ckMessage s (isResume q.cid) (coreEp s (coreOf q.x)) = some p) : exec .resumePointReport s = .next (retireCircuit q
      (modHandle q (fun h => { h with st := 4, resume := BitVec.ofNat 24 (resumeWords p) }) (rxTake s (coreEp s (coreOf q.x))))) := by
  show execResumePointReport s = _
  unfold execResumePointReport
  rw [hm]
  dsimp only
  rw [hp]
  exact gate_on (bne_iff_ne.mpr hc)

theorem exec_resumeReportTimeout {c : Nat} (hm : findCircuit s s.arg.a = some q) (hc : q.collapsed = some c) (hd : c + 262144 ≤ s.cyc) :
    exec .resumeReportTimeout s = .next (retireCircuit q (modHandle q (fun h => { h with st := 4, cause := 7, resume := 0 }) s)) := by
  show execResumeReportTimeout s = _
  unfold execResumeReportTimeout
  rw [hm]
  refine (gate_on ?_).trans rfl
  rw [hc]
  exact decide_eq_true hd

theorem exec_leaseExpiry (hm : findCircuit s s.arg.a = some q) (hc : (readK (getX s q.x) q.k).cid = q.cid) (hs : (readK (getX s q.x) q.k).st = 2)
    (hl : (readK (getX s q.x) q.k).leaseEnd ≤ s.cyc) : exec .leaseExpiry s = .next (collapse q.cid 2 false s) := by
  show execLeaseExpiry s = _
  unfold execLeaseExpiry
  rw [hm]
  refine (gate_on ?_).trans rfl
  rw [handleIs, hc, hs, decide_eq_true hl]
  simp

theorem sameHomes_settleIncs (s : State) (x : Nat) : SameHomes s (settleIncs s x) :=
  .ite (.refl s) ((sameHomes_setX _ _ _).trans (sameHomes_pushWhere _ _ _))

theorem sameHomes_sendDone (x n : Nat) (s : State) : SameHomes s (sendDone x n s) := (sameHomes_modX _ _ _).trans (sameHomes_settleIncs _ _)

theorem exec_sendAcknowledgement (hm : findCircuit s s.arg.a = some q) (hp : ckMessage s (isSendAck q.cid) (coreEp s (coreOf q.x)) = some p) :
    ∃ t, exec .sendAcknowledgement s = .next t ∧ t.mem = s.mem := by
  show ∃ t, execSendAcknowledgement s = .next t ∧ _
  unfold execSendAcknowledgement
  rw [hm]
  dsimp only
  rw [hp]
  refine ⟨_, gate_on rfl, ?_⟩
  exact (SameHomes.trans ⟨rfl, rfl, rfl, rfl, rfl⟩ (sameHomes_foldl (f := fun (u : State) (m : Nat × Nat × Nat × Nat) => sendDone q.x m.1 u)
    (fun t m => sameHomes_sendDone q.x m.1 t) _ _)).1

/-! ## The circuit port -/

theorem nextCircuitCmd_of {k x : Nat} {m : Cmd} (hk : coreOf x = k) (hs : mfind (getC s k).starts 2 ≠ some s.cyc) (hr : Runs (getX s x))
    (hf : FirstIn (getX s x).q2 m (fun e => decide (e.cyc < s.cyc) && ckEligible s x (getX s x) e)) (he : NoElder s x m (·.q2)) :
    nextCircuitCmd s k = some (x, m) := by
  unfold nextCircuitCmd
  rw [if_neg hs]
  let offer (y : Nat) : Option Cmd := if (getX s y).task && !(getX s y).halted then
    (getX s y).q2.find? (fun e => decide (e.cyc < s.cyc) && ckEligible s y (getX s y) e) else none
  have hoffer : ∀ y, (if (getX s y).task && !(getX s y).halted then
      ((getX s y).q2.find? (fun e => decide (e.cyc < s.cyc) && ckEligible s y (getX s y) e)).map (fun m => (y, m)) else none)
      = (offer y).map (fun m => (y, m)) := fun y => by dsimp only [offer]; split <;> rfl
  have hlist : (tab 4 (fun i => 4 * k + i)).filterMap (fun y => if (getX s y).task && !(getX s y).halted then
      ((getX s y).q2.find? (fun e => decide (e.cyc < s.cyc) && ckEligible s y (getX s y) e)).map (fun m => (y, m)) else none) = offers k offer := by
    unfold offers ctxsOf
    exact congrArg (fun g => List.filterMap g _) (funext hoffer)
  refine (congrArg oldest hlist).trans (oldest_offers hk ?_ fun y hy hne e hye => ?_)
  · dsimp only [offer]
    rw [if_pos (by rw [hr.1, hr.2]; rfl)]
    exact hf
  · dsimp only [offer] at hye
    split at hye
    next hrun =>
      rw [Bool.and_eq_true] at hrun
      exact he y (hy.trans hk.symm) hne hrun.1 e (List.mem_of_find?_eq_some hye)
    · cases hye

theorem exec_circuitPortCommandStart {x : Nat} {m : Cmd} (h : nextCircuitCmd s s.arg.a = some (x, m)) :
    exec .circuitPortCommandStart s = .next (startCircuitCmd s.arg.a x m s) := by
  show execCircuitPortCommandStart s = _
  unfold execCircuitPortCommandStart
  rw [h]
  exact gate_on rfl

/-! ## Markers -/

theorem exec_pathMarker (hp : rxHead s (argEp s) = some p) (hk : p.kind = 7) : ∃ t, exec .pathMarker s = .next t := by
  show ∃ t, execPathMarker s = .next t
  unfold execPathMarker
  dsimp only
  rw [hp]
  exact ⟨_, gate_on (by rw [hk]; rfl)⟩

theorem exec_markerAcknowledgement {fid fl : Nat} (hp : rxHead s (argEp s) = some p) (hm : p.msg = .markerAck fid fl) :
    ∃ t, exec .markerAcknowledgement s = .next t ∧ (s.promos = [] → t = rxTake s (argEp s)) := by
  show ∃ t, execMarkerAcknowledgement s = .next t ∧ _
  unfold execMarkerAcknowledgement
  dsimp only
  rw [hp]
  dsimp only
  rw [hm]
  refine ⟨_, gate_on rfl, fun h => ?_⟩
  have hnone : (rxTake s (argEp s)).promos.find? (fun f => f.fid = fid) = none := by
    show s.promos.find? _ = none
    rw [h]; rfl
  rw [hnone]

/-! ## Grains -/

theorem exec_grain (hr : s.running = true) (h8 : s.arg.a < 8) (h128 : s.arg.b < 128) (ho : sailOffset s = 10 + 8 * s.arg.b)
    (hg : (grainTake s s.arg.a s.arg.b).1 ≠ []) (hl : ∀ l ∈ s.grains, ¬ (l.source = s.arg.a ∧ l.arrive = s.cyc + 23)) : ∃ t, exec .grain s = .next t := by
  show ∃ t, execGrain s = .next t
  unfold execGrain
  refine ⟨_, gate_on ?_⟩
  have hsent : (s.grains.any fun l => l.source == s.arg.a && l.arrive == s.cyc + 23) = false :=
    any_eq_false_of fun l hm => by simpa [Bool.and_eq_false_iff] using hl l hm
  rw [hr, ho, decide_eq_true h8, decide_eq_true h128, beq_self_eq_true, List.isEmpty_eq_false_iff.mpr hg, hsent]
  rfl

theorem flitBytes_le (p : Pkt) : flitBytes p ≤ 512 := by
  have := p.len.isLt
  unfold flitBytes
  omega

theorem relayLeft_final (s : State) (m : Nat) (used : Nat → Nat) (fid : Nat) : relayLeft s m used fid m = 1073741824 := by
  unfold relayLeft
  split
  · exact if_pos rfl
  · rfl

/-- An open grain takes the packet that stands first in the queue for its partner and is that die's own (R83, R84). -/
theorem grainTake_ne_nil {n d : Nat} {is : List PondItem} (hi : dieOk s s.arg.a = true) (hj : dieOk s (partner s.arg.a (sailIndex s)) = true)
    (hf : filashOk s = true) (hc : calEntry s s.arg.a (sailIndex s) s.arg.b = 0) (hrel : (getPond s s.arg.a).relay = [])
    (hq : mget [] (getPond s s.arg.a).dep (partner s.arg.a (sailIndex s)) = .pkt n p d :: is) (hd : d ≤ 2 * s.cyc + 1)
    (hp : epDie p.dst = partner s.arg.a (sailIndex s)) : (grainTake s s.arg.a s.arg.b).1 ≠ [] := by
  have hb := flitBytes_le p
  have hthere : (PondItem.pkt n p d :: is).takeWhile (fun x => dueBy s (itemDue x)) = .pkt n p d :: is.takeWhile (fun x => dueBy s (itemDue x)) :=
    List.takeWhile_cons_of_pos (decide_eq_true hd)
  unfold grainTake
  dsimp only
  rw [hi, hj, hf, hc, hrel, hq, if_neg (by simp), if_pos (by simp), hthere]
  unfold takeRelay
  rw [if_neg (by simp), List.nil_append]
  unfold takePkts
  dsimp only
  rw [show pktDie p = partner s.arg.a (sailIndex s) from hp, relayLeft_final, if_neg (by simp; omega), if_pos (by rw [queueBytes]; simp; omega)]
  exact List.cons_ne_nil _ _

theorem exec_grainDelivery {l : GrainLoad} (hg : s.grains = [l]) (hd : l.dest = s.arg.a) (ha : l.arrive ≤ s.cyc) : exec .grainDelivery s = .next (
    if grainGood l s.arg.bits then l.items.foldl (landItem s.arg.a) { s with grains := [] }
    else (itemCircuits l.items).foldl (fun u c => collapse c ckLINK false u) { s with grains := [] }) := by
  show execGrainDelivery s = _
  unfold execGrainDelivery
  dsimp only
  rw [hg, List.find?_cons_of_pos (by simpa using ⟨hd, ha⟩)]
  refine (gate_on rfl).trans ?_
  rw [hg, dropFirst, if_pos (decide_eq_true rfl)]

theorem exec_relaySpaceReport {n : Nat} (hx : s.rx = [p]) (hm : p.msg = .relaySpace s.arg.a n) : ∃ t, exec .relaySpaceReport s = .next t := by
  have hhead : rxHead s p.dst = some p := by
    unfold rxHead
    rw [hx]
    exact List.find?_cons_of_pos (by exact beq_self_eq_true _)
  show ∃ t, execRelaySpaceReport s = .next t
  unfold execRelaySpaceReport
  dsimp only
  split
  next hn =>
    have hp := List.find?_eq_none.mp hn p (by rw [hx]; exact List.mem_singleton.mpr rfl)
    simp [hm] at hp
  next r hr =>
    have hrp := List.mem_of_find?_eq_some hr
    rw [hx] at hrp
    obtain rfl := List.mem_singleton.mp hrp
    exact ⟨_, gate_on (by rw [hhead]; exact beq_self_eq_true _)⟩

/-- Settles O57: which message stands where, which beat or command is next, and which probe has come back decide each event. -/
theorem circuitEvents : Obligations.CircuitEvents := by
  unfold Obligations.CircuitEvents
  intro s q p f c x n m b bs ps d is
  dsimp only
  refine ⟨fun hm h0 hd => ⟨fun h1 => ?_, fun h1 => ?_⟩, fun hm h3 hd => exec_probeAcknowledgement_far hm h3 hd, fun hm h3 hd ha => ?_, openNow_handle,
    fun hf hp hd => ⟨fun hl hc => ?_, fun hl hc => ?_, fun hl => ?_⟩, fun hf hp hd ha => ?_, fun hm ha => ?_, fun hm hn ha => ?_, fun hf hn hp ha => ?_,
    fun hm h1 hr => ⟨fun hn => ?_, fun r hr' => exec_grainReservation_some hm.1 (nextReserve_of_first (Program.mem hm) h1 hr) hr'⟩, fun hm h2 ha => ?_,
    fun hf hp ha => ?_, fun hm hf ht hd hr h => exec_circuitBeat hm (by rw [hf]; exact List.cons_ne_nil _ _) hr (beatFits_of hf ht hd h),
    fun hf hb ht hd hbits hc hch hn => ?_, fun u hf hb ht hd hu => ?_, fun hm ha => ?_, fun hm hc ha => ?_, fun hm hc hd => exec_resumeReportTimeout hm.1 hc hd,
    fun hm hc hs hl => exec_leaseExpiry hm.1 hc hs hl, fun hm ha => ?_, fun hn => ⟨fun ha => ?_, fun ha => ?_, fun ha => ?_, fun ha => ?_, fun ha => ?_, fun ha => ?_⟩,
    fun hk hs hr hf he => exec_circuitPortCommandStart (nextCircuitCmd_of hk hs hr hf he), exec_pathMarker, fun fid fl hp hm h0 => ?_, fun fid fl hp hm => ?_,
    exec_grain, fun hr h8 h128 ho hi hj hf hc hrel hq hd hp hl => exec_grain hr h8 h128 ho (grainTake_ne_nil hi hj hf hc hrel hq hd hp) hl,
    fun l hg hd ha hb => ?_, fun l hg hd ha => ⟨_, exec_grainDelivery hg hd ha⟩, exec_relaySpaceReport⟩
  · rw [exec_probeAcknowledgement_first hm h0 hd, if_pos h1]
  · rw [exec_probeAcknowledgement_first hm h0 hd, if_neg h1]
  · exact exec_probeAcknowledgement_sender hm h3 hd (ckMessage_of ha.1 (by rw [ha.2]; exact beq_self_eq_true _))
  · rw [exec_probeAcknowledgement_flow hf, promoAck_probe hp hd, if_neg (by rw [hc]; simp), if_pos hl]
  · rw [exec_probeAcknowledgement_flow hf, promoAck_probe hp hd, if_pos ⟨hl, hc⟩]
  · rw [exec_probeAcknowledgement_flow hf, promoAck_probe hp hd, if_neg fun h => hl h.1, if_neg hl]
  · rw [exec_probeAcknowledgement_flow hf]
    exact promoAck_message hp hd (ckMessage_of ha.1 (by rw [ha.2, flow_fid hf]; exact beq_self_eq_true _))
  · rw [exec_probeRefusal_hub hm (ckMessage_of ha.1 (by rw [ha.2]; exact beq_self_eq_true _)), passRefusal, refusalCause, ha.2]
  · rw [exec_probeRefusal_sender hm (ckMessage_none hn) (ckMessage_of ha.1 (by rw [ha.2]; exact beq_self_eq_true _)), refusalCause, ha.2]
  · exact exec_probeRefusal_flow hf (ckMessage_none hn) hp (ckMessage_of ha.1 (by rw [ha.2]; exact beq_self_eq_true _))
  · rw [exec_grainReservation hm.1 (nextReserve_of_first (Program.mem hm) h1 hr), hn]
  · exact exec_circuitSetupRequest hm h2 (ckMessage_of ha.1 (by rw [ha.2, Program.cid hm]; exact beq_self_eq_true _))
  · exact exec_circuitSetupRequest_flow hf hp (ckMessage_of ha.1 (by rw [ha.2, flow_fid hf]; exact beq_self_eq_true _))
  · rw [exec_circuitBeat_flow hf, hbits, hc]
    exact promoBeat_good hb ht hd hch hn
  · rw [exec_circuitBeat_flow hf, promoBeat_bad hb ht hd hu, flow_fid hf]
  · exact exec_collapseNotice hm.1 (ckMessage_of ha.1 (by rw [ha.2, Program.cid hm]; exact beq_self_eq_true _))
  · rw [exec_resumePointReport hm.1 hc (ckMessage_of ha.1 (by rw [ha.2, Program.cid hm]; exact beq_self_eq_true _)), resumeWords, ha.2]
  · exact exec_sendAcknowledgement hm.1 (ckMessage_of ha.1 (by rw [ha.2, Program.cid hm]; exact beq_self_eq_true _))
  · show execProbeAcknowledgement s = _
    unfold execProbeAcknowledgement
    dsimp only
    rw [no_promo hn.2.1, hn.1]
    exact strayMessage_taken hn.2.2 (by rw [ha]; exact beq_self_eq_true _)
  · show execProbeRefusal s = _
    unfold execProbeRefusal
    dsimp only
    rw [no_promo hn.2.1, hn.1]
    exact strayMessage_taken hn.2.2 (by rw [ha]; exact beq_self_eq_true _)
  · show execCircuitSetupRequest s = _
    unfold execCircuitSetupRequest
    rw [no_promo hn.2.1, hn.1]
    exact strayMessage_taken hn.2.2 (by rw [ha]; exact beq_self_eq_true _)
  · show execCollapseNotice s = _
    unfold execCollapseNotice
    rw [hn.1]
    exact strayMessage_taken hn.2.2 (by rw [ha]; exact beq_self_eq_true _)
  · show execResumePointReport s = _
    unfold execResumePointReport
    rw [hn.1]
    exact strayMessage_taken hn.2.2 (by rw [ha]; exact beq_self_eq_true _)
  · show execSendAcknowledgement s = _
    unfold execSendAcknowledgement
    rw [hn.1]
    exact strayMessage_taken hn.2.2 (by rw [ha]; exact beq_self_eq_true _)
  · obtain ⟨t, ht, hrx⟩ := exec_markerAcknowledgement hp hm
    rw [ht, hrx h0]
  · obtain ⟨t, ht, -⟩ := exec_markerAcknowledgement hp hm
    exact ⟨t, ht⟩
  · rw [exec_grainDelivery hg hd ha, if_pos (by rw [grainGood, hb]; rfl)]

end Sys2Proof.Machine
end

section
/-!
SUPPORT AND CERTIFICATE. O58: the events of the pod links and of the RMA queues complete.
-/

set_option Elab.async false

namespace Sys2Proof.Machine

open Sys2Proof

variable {s : State} {p : Pkt}

/-! ## The package's next packet -/

theorem podOutgoing_of (hp : rxHead s filashEp = some p) (hr : isRemoteRequest s p = true) : podOutgoing s = some p := by
  unfold podOutgoing
  rw [hp]
  exact if_pos hr

theorem podCame_of (h : filashOk s = true ∧ (cameBy s).1 < 16 ∧ podUp s (cameBy s).1 = true) : podCame s = true := by
  obtain ⟨hf, hl, hu⟩ := h
  rw [podCame, hf, decide_eq_true hl, hu]
  rfl

theorem exec_podNextHop_own (hb : s.arg.b = 0) (ho : podOutgoing s = some p) : exec .podNextHop s =
    if podAllowed s p then gate (podWindow s (podFlow s p.src p.pkg 0)) "POD_NEXT_HOP"
      (fun t => podSendPkt 0 (mgF t 0 (oPodPart p.part.toNat) 0 16) p (rxTake t filashEp)) s
    else gate true "POD_NEXT_HOP" (fun t => refuseRequest p (rxTake t filashEp)) s := by
  show execPodNextHop s = _
  unfold execPodNextHop
  rw [if_pos hb, ho]

theorem podAllowed_iff : podAllowed s p = true ↔ mgF s 0 oPodId 8 1 = 1 ∧ filashOk s = true ∧ podLink s p ≠ none ∧ mgF s 0 (oPodPart p.part.toNat) 16 1 = 1 := by
  unfold podAllowed
  rw [Bool.and_eq_true, Bool.and_eq_true, Bool.and_eq_true, beq_iff_eq, beq_iff_eq, Option.isSome_iff_ne_none, and_assoc, and_assoc]

theorem exec_podNextHop_sent (hb : s.arg.b = 0) (ho : podOutgoing s = some p) (ha : podAllowed s p = true) (hw : podWindow s (podFlow s p.src p.pkg 0) = true) :
    exec .podNextHop s = .next (podSendPkt 0 (mgF s 0 (oPodPart p.part.toNat) 0 16) p (rxTake s filashEp)) := by
  rw [exec_podNextHop_own hb ho, if_pos ha]
  exact gate_on hw

theorem exec_podNextHop_refused (hb : s.arg.b = 0) (ho : podOutgoing s = some p) (ha : ¬ podAllowed s p = true) :
    exec .podNextHop s = .next (refuseRequest p (rxTake s filashEp)) := by
  rw [exec_podNextHop_own hb ho, if_neg ha]
  exact gate_on rfl

/-! ## Packets and credits that come by a link -/

theorem exec_podNextHop_transit (hb : s.arg.b = 1) (hc : podCame s = true) (ht : tagDpkg (s.arg.bits.truncate 64) ≠ ownPkg s) :
    exec .podNextHop s = .next (podTransit (cameBy s).1 (cameBy s).2 (s.arg.bits.truncate 64) s.arg.pkt s) := by
  show execPodNextHop s = _
  unfold execPodNextHop
  rw [if_neg (by omega), if_neg (by omega)]
  exact gate_on (by rw [hc, bne_iff_ne.mpr ht]; rfl)

theorem exec_podNextHop_credits (hb : s.arg.b = 2) (hf : filashOk s = true) (ha : s.arg.a < 16) (hp : ∀ e ∈ s.arg.pairs, e.1 ≤ 18) :
    exec .podNextHop s = .next (podReturn s.arg.a s.arg.pairs s) := by
  show execPodNextHop s = _
  unfold execPodNextHop
  rw [if_neg (by omega), if_pos hb]
  exact gate_on (by rw [hf, decide_eq_true ha, List.all_eq_true.mpr fun e he => decide_eq_true (hp e he)]; rfl)

theorem exec_podAccessAdmission (hc : podCame s = true) (h1 : mgF s 0 oPodId 8 1 = 1) (ht : tagDpkg (s.arg.bits.truncate 64) = ownPkg s)
    (hk : tagCls (s.arg.bits.truncate 64) < 3) : exec .podAccessAdmission s = .next (podTaken (s.arg.bits.truncate 64) s.arg.pkt
      (podFree (cameBy s).1 (podVc (s.arg.bits.truncate 64)) (cameBy s).2 (flitCount s.arg.pkt) s)) := by
  show execPodAccessAdmission s = _
  unfold execPodAccessAdmission
  exact gate_on (by rw [hc, h1, ht, decide_eq_true hk]; simp)

/-- The flow of the sender that an event names. -/
def argFlow (s : State) : PodSend := podFlow s (BitVec.ofNat 16 s.arg.a) (BitVec.ofNat 8 s.arg.b) (BitVec.ofNat 2 s.arg.c)

theorem exec_sack (hc : podCame s = true) (hf : ∃ h ∈ s.podSend, isFlow (argFlow s).src (argFlow s).dpkg (argFlow s).cls h = true) :
    ∃ t, exec .sack s = .next t ∧ ((argFlow s).held = [] →
      t = podFree (cameBy s).1 (12 + (s.arg.pairs.getD 1 (0, 0)).1) (cameBy s).2 2 (podFlushAll (setPodFlow (argFlow s) s))) := by
  show ∃ t, execSack s = .next t ∧ _
  unfold execSack
  refine ⟨_, gate_on (by rw [hc, Bool.true_and]; exact List.any_eq_true.mpr hf), fun h => ?_⟩
  dsimp only
  have hflow : podFlow s (BitVec.ofNat 16 s.arg.a) (BitVec.ofNat 8 s.arg.b) (BitVec.ofNat 2 s.arg.c) = argFlow s := rfl
  rw [hflow, h, List.filter_nil, List.filter_nil, List.foldl_nil, ← h]

theorem exec_podResendTimeout (h : ∃ h ∈ (argFlow s).held, h.seq = BitVec.ofNat 16 s.arg.d ∧ h.tick + podRto s ≤ s.cicada.toNat) :
    exec .podResendTimeout s = .next (resend (argFlow s) (BitVec.ofNat 16 s.arg.d) s) := by
  show execPodResendTimeout s = _
  unfold execPodResendTimeout
  obtain ⟨w, hw, hs, ht⟩ := h
  refine (gate_on (List.any_eq_true.mpr ⟨w, hw, ?_⟩)).trans rfl
  rw [hs, resendDue, decide_eq_true ht]
  simp

theorem exec_flushingReadResponse {tg : BitVec 64} {w : List Nat} (hf : s.flushes = [(s.arg.a, p, tg, w)]) (hw : ∀ n ∈ w, ∀ d ∈ s.admitted, d.tag ≠ n) :
    exec .flushingReadResponse s = .next (podAnswer p tg (answer p 1 [] .none) { s with flushes := [] }) := by
  show execFlushingReadResponse s = _
  unfold execFlushingReadResponse
  rw [hf, List.find?_cons_of_pos (by exact decide_eq_true rfl)]
  refine (gate_on (List.all_eq_true.mpr fun n hn => ?_)).trans ?_
  · rw [any_eq_false_of fun d hd => beq_eq_false_iff_ne.mpr (hw n hn d hd)]
    rfl
  · rw [hf, dropFirst, if_pos (by exact decide_eq_true rfl)]

theorem exec_rejectedStoreReport (hc : podCame s = true) (h : s.arg.c = 1 ∨ s.arg.c = 2) : exec .rejectedStoreReport s = .next
    (recordStore (BitVec.ofNat 16 s.arg.a) (BitVec.ofNat 8 s.arg.b) s.arg.c (podFree (cameBy s).1 (12 + (s.arg.pairs.getD 1 (0, 0)).1) (cameBy s).2 1 s)) := by
  show execRejectedStoreReport s = _
  unfold execRejectedStoreReport
  exact gate_on (by rw [hc]; simpa using h)

/-! ## Registrations -/

theorem exec_registrationStateWrite (ha : s.arg.a < 8) (hb : s.arg.b < 256) : exec .registrationStateWrite s = .next
    (if s.mgmt.fw.contains 0 then s else { s with mgmt := { s.mgmt with regWrites := s.mgmt.regWrites ++ [(s.arg.a, s.arg.b, s.arg.c)] } }) := by
  show execRegistrationStateWrite s = _
  unfold execRegistrationStateWrite
  rw [gate_on (by rw [decide_eq_true ha, decide_eq_true hb]; rfl)]

theorem applyRegWrites_one {w : Nat × Nat × Nat} (h : s.mgmt.regWrites = [w]) :
    applyRegWrites s = applyRegWrite { s with mgmt := { s.mgmt with regWrites := [] } } w := by
  unfold applyRegWrites
  rw [h]
  rfl

/-! ## The registers of the RMA queues -/

/-- The partition and the queue that an event names are in range. -/
theorem argRange (ha : s.arg.a < 8) (hb : s.arg.b < 64) : (decide (s.arg.a < 8) && decide (s.arg.b < 64)) = true := by
  rw [decide_eq_true ha, decide_eq_true hb]; rfl

theorem exec_rmaTailWrite (ha : s.arg.a < 8) (hb : s.arg.b < 64) : exec .rmaTailWrite s = .next
    (if s.mgmt.fw.contains 0 then s else rmaSettle s.arg.a s.arg.b (mgSetF s 0 (oRma s.arg.a s.arg.b + 8) 0 32 s.arg.c)) := by
  show execRmaTailWrite s = _
  unfold execRmaTailWrite
  rw [gate_on (argRange ha hb)]

/-- HEAD, TAIL and COMPLETE of the queue that an event names are zero. -/
def rmaZeroed (s : State) : State := mgSet (mgSet s 0 (oRma s.arg.a s.arg.b + 8) 0) 0 (oRma s.arg.a s.arg.b + 16) 0

theorem exec_rmaEnableWrite (ha : s.arg.a < 8) (hb : s.arg.b < 64) : exec .rmaEnableWrite s = .next
    (if s.mgmt.fw.contains 0 then s
    else if s.arg.ok && !rmaEn s s.arg.a s.arg.b then rmaSettle s.arg.a s.arg.b (mgSetF (rmaZeroed s) 0 (oRma s.arg.a s.arg.b + 24) 3 1 1)
    else if !s.arg.ok && rmaEn s s.arg.a s.arg.b then mgSet (setRma s.arg.a s.arg.b [] (rmaZeroed s)) 0 (oRma s.arg.a s.arg.b + 24) 0
    else s) := by
  show execRmaEnableWrite s = _
  unfold execRmaEnableWrite
  exact gate_on (argRange ha hb)

theorem exec_rmaErrstopWrite (ha : s.arg.a < 8) (hb : s.arg.b < 64) : exec .rmaErrstopWrite s = .next
    (if mgF s 0 (oRma s.arg.a s.arg.b + 24) 2 1 = 1 ∧ ¬ s.mgmt.fw.contains 0 then
      let t1 := setRmaState s.arg.a s.arg.b 1 (mgSetF s 0 (oRma s.arg.a s.arg.b + 24) 2 1 0)
      match rmaRuns t1 s.arg.a s.arg.b with
      | r :: _ => rmaRetire s.arg.a s.arg.b r t1
      | [] => rmaSettle s.arg.a s.arg.b t1
    else s) := by
  show execRmaErrstopWrite s = _
  unfold execRmaErrstopWrite
  exact gate_on (argRange ha hb)

theorem rmaRuns_of_errstop (s : State) (p q : Nat) : rmaRuns (setRmaState p q 1 (mgSetF s 0 (oRma p q + 24) 2 1 0)) p q = rmaRuns s p q := rfl

theorem exec_rmaErrstopWrite_retires {r : RmaRun} {rs : List RmaRun} (ha : s.arg.a < 8) (hb : s.arg.b < 64) (hf : s.mgmt.fw.contains 0 = false)
    (h1 : mgF s 0 (oRma s.arg.a s.arg.b + 24) 2 1 = 1) (hr : rmaRuns s s.arg.a s.arg.b = r :: rs) : exec .rmaErrstopWrite s = .next
      (rmaRetire s.arg.a s.arg.b r (setRmaState s.arg.a s.arg.b 1 (mgSetF s 0 (oRma s.arg.a s.arg.b + 24) 2 1 0))) := by
  rw [exec_rmaErrstopWrite ha hb, if_pos ⟨h1, by rw [hf]; exact Bool.false_ne_true⟩]
  dsimp only
  rw [rmaRuns_of_errstop, hr]

/-! ## Descriptors -/

/-- The queue's next descriptor, as its 64 bytes in memory give it. -/
def rmaDesc (s : State) (p q : Nat) : BitVec 512 := BitVec.ofNat 512 (leNat (homeRead s (rmaSlot s p q (rmaHead s p q)) 64))

theorem bitsN_low {w : Nat} (v : BitVec w) (n : Nat) : bitsN v 0 n = v.toNat % 2 ^ n := by
  rw [bitsN_eq, pow_zero, Nat.div_one]

theorem rmaNext_of {p q : Nat} (he : rmaEn s p q = true) (h1 : rmaState s p q = 1) (hf : filashOk s = true) (h0 : 0 < (rmaTail s p q - rmaHead s p q).toNat)
    (hm : (rmaTail s p q - rmaHead s p q).toNat < 2 ^ 31) (h8 : (rmaRuns s p q).length < 8) (hr : ∀ w ∈ rmaRuns s p q, w.err = 0)
    (hd : rmaRuns s p q = [] ∨ ((rmaDesc s p q).getLsbD 4 = false ∧ (rmaDesc s p q).toNat % 2 ^ 4 ≠ 3)) :
    rmaNext s p q = some ⟨rmaHead s p q, rmaDesc s p q⟩ := by
  have hstart : ((bit (rmaDesc s p q) 4 || bitsN (rmaDesc s p q) 0 4 == 3) && !(rmaRuns s p q).isEmpty) = false := by
    rcases hd with hd | ⟨h4, h3⟩
    · rw [hd]; exact Bool.and_false _
    · rw [bitsN_low, show bit (rmaDesc s p q) 4 = (rmaDesc s p q).getLsbD 4 from rfl, h4, beq_eq_false_iff_ne.mpr h3]; rfl
  unfold rmaNext
  dsimp only
  rw [he, h1, hf, rmaMore, decide_eq_true h0, decide_eq_true (show _ < 2147483648 from hm), decide_eq_true h8,
    List.all_eq_true.mpr fun w hw => beq_iff_eq.mpr (hr w hw), if_pos (by rfl)]
  exact if_neg (by rw [← rmaDesc, hstart]; exact Bool.false_ne_true)

theorem rmaStartEvent_of {ops : Nat → Bool} {name : String} {d : RmaNext} (hn : rmaNext s s.arg.a s.arg.b = some d) (ha : s.arg.a < 8) (hb : s.arg.b < 64)
    (ho : ops (bitsN d.desc 0 4) = true) : rmaStartEvent ops name s = .next (rmaStart s.arg.a s.arg.b d s) := by
  unfold rmaStartEvent
  dsimp only
  rw [hn]
  exact gate_on (by rw [decide_eq_true ha, decide_eq_true hb, ho]; rfl)

theorem rmaWaitOver_eq_false {p q : Nat} (h : rmaState s p q = 1) : rmaWaitOver s p q = false := by
  unfold rmaWaitOver
  rw [h]
  rfl

/-- A descriptor that may start does, as the event of its operation; one of a reserved operation as a NOP (R113, R114). -/
theorem exec_rmaStart {d : RmaNext} (hn : rmaNext s s.arg.a s.arg.b = some d) (ha : s.arg.a < 8) (hb : s.arg.b < 64) (h1 : rmaState s s.arg.a s.arg.b = 1) :
    (bitsN d.desc 0 4 = 0 ∨ 3 < bitsN d.desc 0 4 → exec .rmaNop s = .next (rmaStart s.arg.a s.arg.b d s))
    ∧ (bitsN d.desc 0 4 = 1 → exec .rmaPut s = .next (rmaStart s.arg.a s.arg.b d s))
    ∧ (bitsN d.desc 0 4 = 2 → exec .rmaGet s = .next (rmaStart s.arg.a s.arg.b d s))
    ∧ (bitsN d.desc 0 4 = 3 → exec .rmaWait s = .next (rmaStart s.arg.a s.arg.b d s)) := by
  refine ⟨fun ho => ?_, fun ho => ?_, fun ho => ?_, fun ho => ?_⟩
  · show execRmaNop s = _
    exact rmaStartEvent_of hn ha hb (by simpa using ho)
  · show execRmaPut s = _
    exact rmaStartEvent_of hn ha hb (beq_iff_eq.mpr ho)
  · show execRmaGet s = _
    exact rmaStartEvent_of hn ha hb (beq_iff_eq.mpr ho)
  · show execRmaWait s = _
    unfold execRmaWait
    dsimp only
    rw [rmaWaitOver_eq_false h1, if_neg Bool.false_ne_true]
    exact rmaStartEvent_of hn ha hb (beq_iff_eq.mpr ho)

/-- The runs of a queue with its WAIT complete. -/
def waitsDone (l : List RmaRun) : List RmaRun := l.map (fun r => if bitsN r.desc 0 4 = 3 then { r with complete := true } else r)

theorem waitsDone_all (l : List RmaRun) : (waitsDone l).all (fun w => bitsN w.desc 0 4 != 3 || w.complete) = true := by
  unfold waitsDone
  rw [List.all_map, List.all_eq_true]
  intro r _
  show (bitsN (if bitsN r.desc 0 4 = 3 then { r with complete := true } else r).desc 0 4 != 3 || (if bitsN r.desc 0 4 = 3 then { r with complete := true } else r).complete) = true
  by_cases h : bitsN r.desc 0 4 = 3
  · rw [if_pos h]; exact Bool.or_true _
  · rw [if_neg h, bne_iff_ne.mpr h]; rfl

theorem rmaRuns_setRma (p q st : Nat) (l : List RmaRun) (s : State) : rmaRuns (setRmaState p q st (setRma p q l s)) p q = l := mget_mset_same ..

theorem exec_rmaWait_over (h2 : rmaState s s.arg.a s.arg.b = 2) (h : ∃ w ∈ rmaRuns s s.arg.a s.arg.b, bitsN w.desc 0 4 = 3 ∧ w.complete = false
      ∧ bitsN w.desc 192 64 ≤ (rmaComplete s s.arg.a (bitsN w.desc 16 6)).toNat) :
    exec .rmaWait s = .next (setRmaState s.arg.a s.arg.b 1 (setRma s.arg.a s.arg.b (waitsDone (rmaRuns s s.arg.a s.arg.b)) s)) := by
  obtain ⟨w, hw, h3, hc, hn⟩ := h
  have hover : rmaWaitOver s s.arg.a s.arg.b = true := by
    unfold rmaWaitOver
    rw [h2, beq_self_eq_true, Bool.true_and, List.any_eq_true]
    exact ⟨w, hw, by rw [h3, hc, decide_eq_true hn]; rfl⟩
  show execRmaWait s = _
  unfold execRmaWait
  dsimp only
  rw [if_pos hover]
  exact gate_on rfl

theorem exec_rmaDescriptorRetire {r : RmaRun} {rs : List RmaRun} (hr : rmaRuns s s.arg.a s.arg.b = r :: rs) (h3 : rmaState s s.arg.a s.arg.b ≠ 3)
    (h : r.complete = true ∨ r.err ≠ 0) : exec .rmaDescriptorRetire s = .next
      (if r.err = 0 then rmaRetire s.arg.a s.arg.b r s else rmaStop s.arg.a s.arg.b r.err s) := by
  show execRmaDescriptorRetire s = _
  unfold execRmaDescriptorRetire
  dsimp only
  rw [hr]
  exact gate_on (by rw [bne_iff_ne.mpr h3, Bool.true_and]; simpa using h)

/-- Settles O58: what stands at the Filash die's endpoint, what came by which link, and the state of a queue and its next descriptor decide each event. -/
theorem podEvents : Obligations.PodEvents := by
  unfold Obligations.PodEvents
  intro s p r rs l
  dsimp only
  refine ⟨fun ⟨hb, hp, hr⟩ ⟨h1, hf, hl, he⟩ hw hn => ?_, fun ⟨hb, hp, hr⟩ h => ?_, fun hb hc ht => exec_podNextHop_transit hb (podCame_of hc) ht,
    exec_podNextHop_credits, fun hc h1 ht hk => exec_podAccessAdmission (podCame_of hc) h1 ht hk, fun hc hf => ?_, fun hc hf hh => ?_,
    exec_podResendTimeout, fun tg w hf hw => exec_flushingReadResponse hf hw, fun ha hb hf => ?_, fun ha hb hf => ?_, applyRegWrites_one,
    fun hc h => exec_rejectedStoreReport (podCame_of hc) h, fun ⟨ha, hb, hf⟩ => ?_, fun ⟨ha, hb, hf⟩ ho he => ?_, fun ⟨ha, hb, hf⟩ ho he => ?_,
    fun ⟨ha, hb, hf⟩ he => ?_, fun ⟨ha, hb, hf⟩ h0 => ?_, fun ⟨ha, hb, hf⟩ h1 hr => exec_rmaErrstopWrite_retires ha hb hf h1 hr,
    fun ha hb hf => ⟨?_, ?_, ?_⟩, fun ⟨ha, hb, he, h1, hf, h0, hm, h8, hr, hd⟩ => ?_, fun ⟨h2, hw⟩ => ?_,
    fun hr h3 h => ⟨fun h0 => ?_, fun h0 => ?_⟩⟩
  · have ha : podAllowed s p = true := podAllowed_iff.mpr ⟨h1, hf, by rw [hl]; exact Option.some_ne_none _, he⟩
    refine exec_podNextHop_sent hb (podOutgoing_of hp hr) ha ?_
    rw [podWindow, decide_eq_true hw, Bool.true_and]
    simpa [List.isEmpty_iff] using hn
  · refine exec_podNextHop_refused hb (podOutgoing_of hp hr) fun ha => ?_
    obtain ⟨h1, hf, hl, he⟩ := podAllowed_iff.mp ha
    rcases h with h | h | h | h
    · omega
    · exact Bool.false_ne_true (h.symm.trans hf)
    · exact hl h
    · omega
  · obtain ⟨t, ht, -⟩ := exec_sack (podCame_of hc) hf
    exact ⟨t, ht⟩
  · obtain ⟨t, ht, heq⟩ := exec_sack (podCame_of hc) hf
    rw [ht, heq hh]
    rfl
  · rw [exec_registrationStateWrite ha hb, if_neg (by rw [hf]; exact Bool.false_ne_true)]
  · rw [exec_registrationStateWrite ha hb, if_pos hf]
  · rw [exec_rmaTailWrite ha hb, if_neg (by rw [hf]; exact Bool.false_ne_true)]
  · rw [exec_rmaEnableWrite ha hb, if_neg (by rw [hf]; exact Bool.false_ne_true), if_pos (by rw [ho, he]; rfl)]
    rfl
  · rw [exec_rmaEnableWrite ha hb, if_neg (by rw [hf]; exact Bool.false_ne_true), if_neg (by rw [ho]; exact Bool.false_ne_true), if_pos (by rw [ho, he]; rfl)]
    rfl
  · rw [exec_rmaEnableWrite ha hb, if_neg (by rw [hf]; exact Bool.false_ne_true), he, Bool.and_not_self, Bool.not_and_self]
    rfl
  · rw [exec_rmaErrstopWrite ha hb, if_neg (by omega)]
  · rw [exec_rmaTailWrite ha hb, if_pos hf]
  · rw [exec_rmaEnableWrite ha hb, if_pos hf]
  · rw [exec_rmaErrstopWrite ha hb, if_neg fun h => h.2 hf]
  · have h := exec_rmaStart (rmaNext_of he h1 hf h0 hm h8 hr hd) ha hb h1
    rw [bitsN_low] at h
    exact h
  · refine ⟨_, exec_rmaWait_over h2 hw, ?_⟩
    rw [rmaRuns_setRma]
    exact waitsDone_all _
  · rw [exec_rmaDescriptorRetire hr h3 h, if_pos h0]
  · rw [exec_rmaDescriptorRetire hr h3 h, if_neg h0]

end Sys2Proof.Machine
end

section
/-!
SUPPORT AND CERTIFICATE. O59: the events of launch queues, of records and nodes, of gangs, and of the walker complete.
-/

set_option Elab.async false

namespace Sys2Proof.Machine

open Sys2Proof

variable {s : State} {r : Rec} {g : Gang}

/-! ## The registers of a launch queue -/

theorem inRanges_of {p q : Nat} (h : p < 8 ∧ q < 32) : inRanges p q = true := by
  rw [inRanges, decide_eq_true h.1, decide_eq_true h.2]; rfl

theorem exec_queueTlWrite (h : s.arg.a < 8 ∧ s.arg.b < 32) : exec .queueTlWrite s = .next (if s.mgmt.fw.contains 0 then s
    else releaseHost { s with mgmt := { s.mgmt with heldTl := s.mgmt.heldTl ++ [(s.arg.a, s.arg.b, BitVec.ofNat 64 s.arg.c)] } }) := by
  show execQueueTlWrite s = _
  unfold execQueueTlWrite
  exact gate_on (inRanges_of h)

/-- The state with EN of the queue that an event names as the event gives it. -/
def enWritten (s : State) : State := mgSetF s 0 (oQueue s.arg.a s.arg.b) 52 1 (if s.arg.ok then 1 else 0)

theorem exec_queueEnableWrite (h : s.arg.a < 8 ∧ s.arg.b < 32) : exec .queueEnableWrite s = .next (if s.mgmt.fw.contains 0 then s
    else if s.arg.ok && !qEn s s.arg.a s.arg.b then
      mgSet (mgSet (enWritten s) 0 (oQueue s.arg.a s.arg.b + 8) 0) 0 (oQueue s.arg.a s.arg.b + 16) 0
    else enWritten s) := by
  show execQueueEnableWrite s = _
  unfold execQueueEnableWrite
  exact gate_on (inRanges_of h)

theorem queue_key_tl (p q : Nat) : mgKey 0 (oQueue p q) ≠ mgKey 0 (oQueue p q + 8) := by unfold mgKey oQueue; omega
theorem queue_key_taken (p q : Nat) : mgKey 0 (oQueue p q) ≠ mgKey 0 (oQueue p q + 16) := by unfold mgKey oQueue; omega
theorem queue_key_tl_taken (p q : Nat) : mgKey 0 (oQueue p q + 8) ≠ mgKey 0 (oQueue p q + 16) := by unfold mgKey oQueue; omega

theorem qEn_enWritten (s : State) : qEn (enWritten s) s.arg.a s.arg.b = s.arg.ok := by
  unfold qEn enWritten
  rw [mgF_mgSetF_same (by omega)]
  cases s.arg.ok <;> rfl

theorem qTl_enWritten (s : State) : qTl (enWritten s) s.arg.a s.arg.b = qTl s s.arg.a s.arg.b :=
  congrArg BitVec.toNat (mgGet_mgSetF_ne (queue_key_tl _ _).symm)

theorem qTaken_enWritten (s : State) : qTaken (enWritten s) s.arg.a s.arg.b = qTaken s s.arg.a s.arg.b :=
  congrArg BitVec.toNat (mgGet_mgSetF_ne (queue_key_taken _ _).symm)

/-- A queue that is enabled anew starts from entry 0 (R155). -/
theorem queue_zeroed (u : State) (p q : Nat) : let t := mgSet (mgSet u 0 (oQueue p q + 8) 0) 0 (oQueue p q + 16) 0
    qEn t p q = qEn u p q ∧ qTl t p q = 0 ∧ qTaken t p q = 0 := by
  intro t
  refine ⟨?_, ?_, ?_⟩
  · refine congrArg (fun n => n == 1) (mgF_congr (s := u) (t := t) ?_ 52 1)
    exact (mgGet_mgSet_ne (queue_key_taken p q)).trans (mgGet_mgSet_ne (queue_key_tl p q))
  · refine (congrArg BitVec.toNat ((mgGet_mgSet_ne (queue_key_tl_taken p q)).trans (mgGet_mgSet_same _ _ _ _))).trans ?_
    rfl
  · refine (congrArg BitVec.toNat (mgGet_mgSet_same _ _ _ _)).trans ?_
    rfl

theorem exec_queueStopWrite (h : s.arg.a < 8 ∧ s.arg.b < 32) : exec .queueStopWrite s = .next (if s.mgmt.fw.contains 0 then s
    else if qStop s s.arg.a s.arg.b then setTaken s.arg.a s.arg.b (qTaken s s.arg.a s.arg.b + 1)
        (mgSetF (mgSetF s 0 (oQueue s.arg.a s.arg.b + 24) 0 4 0) 0 (oQueue s.arg.a s.arg.b + 24) 4 1 0)
    else mgSetF (mgSetF s 0 (oQueue s.arg.a s.arg.b + 24) 0 4 0) 0 (oQueue s.arg.a s.arg.b + 24) 4 1 0) := by
  show execQueueStopWrite s = _
  unfold execQueueStopWrite
  exact gate_on (inRanges_of h)

/-! ## Entries and records -/

/-- A queue that can act is served when none of its walker that comes before it can (R197). -/
theorem servedFirst_of {can : Nat → Nat → Bool} {p q : Nat} (hc : can p q = true)
    (h : ∀ a ∈ liveQueues s, walkerDie s a.1 = walkerDie s p → queueBefore s a (p, q) = true → can a.1 a.2 = false) : servedFirst s can p q = true := by
  unfold servedFirst
  rw [hc, Bool.true_and]
  refine List.all_eq_true.mpr fun a ha => ?_
  rw [Bool.not_eq_true', Bool.and_eq_false_iff, Bool.and_eq_false_iff]
  by_cases hw : walkerDie s a.1 = walkerDie s p
  · cases hb : queueBefore s a (p, q) with
    | false => exact .inl (.inr rfl)
    | true => exact .inr (h a ha hw hb)
  · exact .inl (.inl (beq_eq_false_iff_ne.mpr hw))

theorem canTake_of {p q : Nat} (hr : p < 8 ∧ q < 32) (hp : partState s p = 1) (he : qEn s p q = true) (hs : qStop s p q = false)
    (ht : qTaken s p q < qTl s p q) (hf : (inFlight s p q).length < 4) (hn : mfind (getPart s p).fetching q = none) : canTake s p q = true := by
  unfold canTake
  rw [inRanges_of hr, hp, he, hs, decide_eq_true ht, decide_eq_true hf, hn]
  rfl

/-- The entry that a queue's walker takes next. -/
def nextEntry (s : State) (p q : Nat) : Nat := leNat (homeRead s (qBase s p q + 8 * (qTaken s p q % 256)) 8)

theorem exec_queueEntryTake (h : servedFirst s (canTake s) s.arg.a s.arg.b = true) : exec .queueEntryTake s = .next (
    if nextEntry s s.arg.a s.arg.b % 64 ≠ 0 ∨ 2 ^ 48 ≤ nextEntry s s.arg.a s.arg.b ∨ ¬ populated s (nextEntry s s.arg.a s.arg.b)
    then stopQueue s.arg.a s.arg.b 1 s
    else modPart s s.arg.a (fun u => { u with fetching := mset u.fetching s.arg.b (nextEntry s s.arg.a s.arg.b) })) := by
  show execQueueEntryTake s = _
  unfold execQueueEntryTake
  exact gate_on h

theorem exec_recordFetch {n : Nat} (hn : mfind (getPart s s.arg.a).fetching s.arg.b = some n)
    (h : ∀ q ∈ liveQueues s, walkerDie s q.1 = walkerDie s s.arg.a → queueBefore s q (s.arg.a, s.arg.b) = true → mfind (getPart s q.1).fetching q.2 = none) :
    exec .recordFetch s = .next (
      let t := modPart s s.arg.a (fun u => { u with fetching := mdel u.fetching s.arg.b })
      let r := readRecord t n
      if !qEn t s.arg.a s.arg.b || qStop t s.arg.a s.arg.b || partState t s.arg.a != 1 then t
      else if recordBad t s.arg.a (partDies t s.arg.a) ((getPart t s.arg.a).devs.contains (s.arg.b, qTaken t s.arg.a s.arg.b)) r.1 r.2 then
        stopQueue s.arg.a s.arg.b 3 t
      else
        let u := setTaken s.arg.a s.arg.b (qTaken t s.arg.a s.arg.b + 1)
          (modPart t s.arg.a (fun v => { v with devs := v.devs.filter (fun d => d != (s.arg.b, qTaken t s.arg.a s.arg.b)) }))
        { u with recs := u.recs ++ [newRec u s.arg.a s.arg.b n r.1 r.2 0 none ((getPart t s.arg.a).devs.contains (s.arg.b, qTaken t s.arg.a s.arg.b))],
                 nextId := u.nextId + 1 }) := by
  show execRecordFetch s = _
  unfold execRecordFetch
  dsimp only
  rw [hn]
  refine gate_on (servedFirst_of (by rw [hn]; rfl) fun q hq hw hb => ?_)
  rw [h q hq hw hb]
  rfl

theorem partState_fetching (s : State) (p q : Nat) : partState (modPart s p (fun u => { u with fetching := mdel u.fetching q })) p = partState s p := by
  unfold partState
  have hg : getPart (modPart s p (fun u => { u with fetching := mdel u.fetching q })) p = { getPart s p with fetching := mdel (getPart s p).fetching q } :=
    mget_mset_same ..
  rw [hg]
  rfl

theorem mayStart_of (hs : r.started = false) (hp : r.parent = none)
    (hb : ∀ e ∈ (inFlight s r.part.toNat r.q).takeWhile (fun e => e.id != r.id), e.started = true)
    (hser : hdSerial r.hdr = true → (inFlight s r.part.toNat r.q).takeWhile (fun e => e.id != r.id) = [])
    (hw : hdWaitTl r.hdr ≠ 0 → s.sub = 0 ∧ memReached s (hdWaitTl r.hdr) (hdWaitVal r.hdr) = true) (h1 : partState s r.part.toNat = 1) :
    mayStart s r = true := by
  have hserial : (!hdSerial r.hdr || ((inFlight s r.part.toNat r.q).takeWhile (fun e => e.id != r.id)).isEmpty) = true := by
    cases hd : hdSerial r.hdr with
    | false => rfl
    | true => rw [hser hd]; rfl
  have hwait : (hdWaitTl r.hdr == 0 || (s.sub == 0 && memReached s (hdWaitTl r.hdr) (hdWaitVal r.hdr))) = true := by
    by_cases h0 : hdWaitTl r.hdr = 0
    · rw [h0]; rfl
    · obtain ⟨hsub, hmem⟩ := hw h0
      rw [hsub, hmem]
      exact Bool.or_true _
  unfold mayStart
  dsimp only
  rw [hs, hp, h1, List.all_eq_true.mpr hb, hserial, hwait]
  rfl

theorem queueBefore_irrefl (s : State) (a : Nat × Nat) : queueBefore s a a = false := by
  unfold queueBefore
  simp

theorem exec_recordStart (hf : findRec s s.arg.a = some r) (hm : mayStart s r = true)
    (h : ∀ q ∈ liveQueues s, walkerDie s q.1 = walkerDie s r.part.toNat → queueBefore s q (r.part.toNat, r.q) = true →
      ∀ e ∈ inFlight s q.1 q.2, mayStart s e = false) : exec .recordStart s = .next (modRec r.id startRec s) := by
  show execRecordStart s = _
  unfold execRecordStart
  rw [hf]
  refine gate_on ?_
  rw [hm, Bool.true_and]
  refine servedFirst_of (by simp) fun a ha hw hb => ?_
  rw [any_eq_false_of (h a ha hw hb), Bool.or_false, Bool.and_eq_false_iff]
  by_cases hp : a.1 = r.part.toNat
  · refine .inr (beq_eq_false_iff_ne.mpr fun hq => ?_)
    rw [show a = (r.part.toNat, r.q) from Prod.ext hp hq, queueBefore_irrefl] at hb
    exact Bool.false_ne_true hb
  · exact .inl (beq_eq_false_iff_ne.mpr hp)

/-! ## Nodes -/

theorem nextNode_eq_none (h : r.started = true → ∀ i < r.nodes.length, nodeSt r i = 1 → ndType (r.nodes.getD i 0) = 0) : nextNode r = none := by
  unfold nextNode
  split
  next hs =>
    refine find?_eq_none_of fun i hi => ?_
    rw [Bool.and_eq_false_iff]
    by_cases h1 : nodeSt r i = 1
    · exact .inr (by rw [h hs i (List.mem_range.mp hi) h1]; rfl)
    · exact .inl (beq_eq_false_iff_ne.mpr h1)
  · rfl

theorem find?_range_of_least {p : Nat → Bool} {n m : Nat} (hm : m < n) (hp : p m = true) (h : ∀ i < m, p i = false) : (List.range n).find? p = some m := by
  rw [List.find?_range_eq_some]
  exact ⟨hp, List.mem_range.mpr hm, fun i hi => by rw [h i hi]; rfl⟩

theorem nextNode_of {n : Nat} (hs : r.started = true) (hn : n < r.nodes.length) (h1 : nodeSt r n = 1) (ht : ndType (r.nodes.getD n 0) ≠ 0)
    (hb : ∀ i < n, nodeSt r i = 1 → ndType (r.nodes.getD i 0) = 0) : nextNode r = some n := by
  unfold nextNode
  rw [if_pos hs]
  refine find?_range_of_least hn (by rw [h1, bne_iff_ne.mpr ht]; rfl) fun i hi => ?_
  rw [Bool.and_eq_false_iff]
  by_cases hi1 : nodeSt r i = 1
  · exact .inr (by rw [hb i hi hi1]; rfl)
  · exact .inl (beq_eq_false_iff_ne.mpr hi1)

/-- The walker is free in the cycle, and no record before this one has a node to start (R196, R197). -/
theorem walkerTurn_of (hw : mget 0 s.walks (walkerDie s r.part.toNat) ≤ s.cyc)
    (h : ∀ e ∈ s.recs, e.id ≠ r.id → walkerDie s e.part.toNat = walkerDie s r.part.toNat → recBefore s e r = true → e.started = true →
      ∀ i < e.nodes.length, nodeSt e i = 1 → ndType (e.nodes.getD i 0) = 0) : walkerTurn s r = true := by
  unfold walkerTurn
  dsimp only
  rw [decide_eq_true hw, Bool.true_and]
  refine List.all_eq_true.mpr fun e he => ?_
  rw [Bool.not_eq_true']
  by_cases hid : e.id = r.id
  · simp [hid]
  by_cases hd : walkerDie s e.part.toNat = walkerDie s r.part.toNat
  · cases hb : recBefore s e r with
    | false => simp
    | true => rw [nextNode_eq_none (h e he hid hd hb)]; simp
  · simp [hd]

theorem nodeStart_of {ty : Nat} {name : String} {eff : Rec → Nat → BitVec 512 → State → State} (hf : findRec s s.arg.a = some r)
    (hn : nextNode r = some s.arg.b) (ht : ndType (r.nodes.getD s.arg.b 0) = ty) (hw : walkerTurn s r = true) :
    nodeStart ty name eff s = .next (eff r s.arg.b (r.nodes.getD s.arg.b 0) (noteWalk r s)) := by
  unfold nodeStart
  rw [hf]
  exact gate_on (by rw [hn, ht, hw]; simp)

theorem exec_circuitOpenNode_first (hf : findRec s s.arg.a = some r) (hn : nextNode r = some s.arg.b) (h1 : nodeSt r s.arg.b = 1)
    (ht : ndType (r.nodes.getD s.arg.b 0) = 3) (hw : walkerTurn s r = true) : exec .circuitOpenNode s = .next
      (modRec r.id (fun e => { setNodeSt s.arg.b 2 e with cnt := mset e.cnt s.arg.b 0 }) (noteWalk r s)) := by
  show execCircuitOpenNode s = _
  unfold execCircuitOpenNode
  rw [hf]
  dsimp only
  rw [if_neg (by omega)]
  exact nodeStart_of hf hn ht hw

theorem exec_circuitOpenNode_opened (hf : findRec s s.arg.a = some r) (ht : ndType (r.nodes.getD s.arg.b 0) = 3) (h2 : nodeSt r s.arg.b = 2)
    (hc : mget 0 r.cnt s.arg.b = 1) (ho : nodeOpening s r.id s.arg.b = false) : exec .circuitOpenNode s = .next (nodeDone r.id s.arg.b 0 s) := by
  show execCircuitOpenNode s = _
  unfold execCircuitOpenNode
  rw [hf]
  dsimp only
  rw [if_pos ⟨ht, h2⟩, if_pos hc]
  exact gate_on (by rw [ho]; rfl)

theorem exec_circuitOpenNode_opens (hf : findRec s s.arg.a = some r) (ht : ndType (r.nodes.getD s.arg.b 0) = 3) (h2 : nodeSt r s.arg.b = 2)
    (hc : mget 0 r.cnt s.arg.b ≠ 1) (he : nodeSt r (coSnode (r.nodes.getD s.arg.b 0)) = 3 ∨ nodeSt r (coDnode (r.nodes.getD s.arg.b 0)) = 3
      ∨ endReady s r (coSnode (r.nodes.getD s.arg.b 0)) = true ∧ endReady s r (coDnode (r.nodes.getD s.arg.b 0)) = true) :
    exec .circuitOpenNode s = .next (openFromNode r s.arg.b (r.nodes.getD s.arg.b 0) (modRec r.id (fun e => { e with cnt := mset e.cnt s.arg.b 1 }) s)) := by
  show execCircuitOpenNode s = _
  unfold execCircuitOpenNode
  rw [hf]
  dsimp only
  rw [if_pos ⟨ht, h2⟩, if_neg hc]
  refine gate_on ?_
  rw [Bool.or_eq_true, Bool.or_eq_true, Bool.and_eq_true, beq_iff_eq, beq_iff_eq, or_assoc]
  exact he

theorem exec_waitNode_first (hf : findRec s s.arg.a = some r) (hn : nextNode r = some s.arg.b) (ht : ndType (r.nodes.getD s.arg.b 0) = 7)
    (hw : walkerTurn s r = true) : exec .waitNode s = .next (walkerSend r s.arg.b 2 0 (.read 8)
      (modRec r.id (fun e => { setNodeSt s.arg.b 2 e with cnt := mset e.cnt s.arg.b s.cicada.toNat }) (noteWalk r s))) := by
  have hfirst : (nextNode r == some s.arg.b && ndType (r.nodes.getD s.arg.b 0) == 7 && walkerTurn s r) = true := by rw [hn, ht, hw]; simp
  show execWaitNode s = _
  unfold execWaitNode
  rw [hf]
  dsimp only
  rw [hfirst]
  exact gate_on rfl

theorem waitPending_eq_false {n : Nat} (h : ∀ q ∈ s.reqs, q.use = 2 → q.a = r.id → q.b ≠ n) : waitPending s r.id n = false :=
  any_eq_false_of fun q hq => by
    rw [Bool.and_eq_false_iff, Bool.and_eq_false_iff]
    by_cases hu : q.use = 2
    · by_cases ha : q.a = r.id
      · exact .inr (beq_eq_false_iff_ne.mpr (h q hq hu ha))
      · exact .inl (.inr (beq_eq_false_iff_ne.mpr ha))
    · exact .inl (.inl (beq_eq_false_iff_ne.mpr hu))

theorem nextNode_nodeSt {n : Nat} (h : nextNode r = some n) : nodeSt r n = 1 := by
  unfold nextNode at h
  split at h
  · have := List.find?_some h
    rw [Bool.and_eq_true, beq_iff_eq] at this
    exact this.1
  · cases h

theorem exec_waitNode_again (hf : findRec s s.arg.a = some r) (hs : r.started = true) (ht : ndType (r.nodes.getD s.arg.b 0) = 7)
    (h2 : nodeSt r s.arg.b = 2) (h0 : s.sub = 0) (hc : mget 0 r.cnt s.arg.b < s.cicada.toNat)
    (hq : ∀ q ∈ s.reqs, q.use = 2 → q.a = r.id → q.b ≠ s.arg.b) : exec .waitNode s = .next (walkerSend r s.arg.b 2 0 (.read 8)
      (modRec r.id (fun e => { setNodeSt s.arg.b 2 e with cnt := mset e.cnt s.arg.b s.cicada.toNat }) s)) := by
  have hfirst : (nextNode r == some s.arg.b && ndType (r.nodes.getD s.arg.b 0) == 7 && walkerTurn s r) = false := by
    rw [beq_eq_false_iff_ne.mpr fun hn => by have := nextNode_nodeSt hn; omega]; rfl
  have hagain : waitAgain s r s.arg.b = true := by
    unfold waitAgain
    rw [h2, ht, waitPending_eq_false hq, decide_eq_true hc, h0]
    rfl
  show execWaitNode s = _
  unfold execWaitNode
  rw [hf]
  dsimp only
  rw [hfirst, hagain, hs]
  exact gate_on rfl

end Sys2Proof.Machine
end

section
/-!
SUPPORT AND CERTIFICATE. O59, its second half: gangs, invalidation, walk notices; and the certificate.
-/

set_option Elab.async false

namespace Sys2Proof.Machine

open Sys2Proof

variable {s : State} {r : Rec} {g : Gang}

/-! ## Gangs: placement, start, restore -/

/-- No queue of the walker before this one has a head that could act (R197). -/
def NoneBefore (s : State) (p q : Nat) : Prop := ∀ d ∈ waitingQueues s, walkerDie s d.1 = walkerDie s p → queueBefore s d (p, q) = true →
  ∀ e, queueHead s d.1 d.2 = some e → (turnOf s d.1 d.2 e).acts = false

theorem queueTurn_of {p q : Nat} {e : Head} (hh : queueHead s p q = some e) (ha : (turnOf s p q e).acts = true) (hb : NoneBefore s p q) :
    queueTurn s p q = turnOf s p q e := by
  have hall : ((waitingQueues s).filter (fun a => walkerDie s a.1 == walkerDie s p && queueBefore s a (p, q))).all
      (fun a => !((queueHead s a.1 a.2).map (turnOf s a.1 a.2)).any Turn.acts) = true := by
    refine List.all_eq_true.mpr fun a hm => ?_
    obtain ⟨hw, hc⟩ := List.mem_filter.mp hm
    rw [Bool.and_eq_true, beq_iff_eq] at hc
    cases hq : queueHead s a.1 a.2 with
    | none => rfl
    | some k =>
      show (!(turnOf s a.1 a.2 k).acts) = true
      rw [hb a hw hc.1 hc.2 k hq]
      rfl
  unfold queueTurn
  rw [hh]
  dsimp only
  rw [ha, hall]
  rfl

theorem turnOf_place {p q n : Nat} {l : List Seat} (h : chooseSeats s p (recDies s p r.hdr) [] (r.nodes.getD n 0) = some l) :
    turnOf s p q (.node r n) = .place l := by
  unfold turnOf
  dsimp only
  rw [h]

theorem turnOf_never {p q n : Nat} (h : chooseSeats s p (recDies s p r.hdr) [] (r.nodes.getD n 0) = none)
    (hn : ∀ c ∈ recClusters s (recDies s p r.hdr), couldHold s p c.1 c.2 (r.nodes.getD n 0) = false) : turnOf s p q (.node r n) = .never := by
  unfold turnOf
  dsimp only
  rw [h]
  exact if_pos (List.all_eq_true.mpr fun c hc => by rw [hn c hc]; rfl)

theorem turnOf_preempt {p q n : Nat} (h : chooseSeats s p (recDies s p r.hdr) [] (r.nodes.getD n 0) = none)
    (hn : ∃ c ∈ recClusters s (recDies s p r.hdr), couldHold s p c.1 c.2 (r.nodes.getD n 0) = true)
    (hv : (victims s p q).find? (fun e => (chooseSeats s p (recDies s p r.hdr) (liveXs e) (r.nodes.getD n 0)).isSome) = some g) :
    turnOf s p q (.node r n) = .preempt g := by
  unfold turnOf
  dsimp only
  rw [h]
  dsimp only
  rw [if_neg, hv]
  intro hall
  obtain ⟨c, hc, hcan⟩ := hn
  have := List.all_eq_true.mp hall c hc
  rw [hcan] at this
  exact Bool.false_ne_true this

section

variable (hf : findRec s s.arg.a = some r) (hp : partState s r.part.toNat = 1) (hh : queueHead s r.part.toNat r.q = some (.node r s.arg.b))
include hf hp hh

theorem exec_gangNode_place {l : List Seat} (ht : queueTurn s r.part.toNat r.q = .place l) : exec .gangNode s = .next (placeGang r s.arg.b l s) := by
  show execGangNode s = _
  unfold execGangNode
  rw [hf]
  dsimp only
  rw [if_pos (by rw [hp, hh]; simp), ht]
  exact gate_on rfl

theorem exec_gangNode_never (ht : queueTurn s r.part.toNat r.q = .never) : exec .gangNode s = .next (nodeDone r.id s.arg.b 3 s) := by
  show execGangNode s = _
  unfold execGangNode
  rw [hf]
  dsimp only
  rw [if_pos (by rw [hp, hh]; simp), ht]
  exact gate_on rfl

theorem exec_gangNode_preempt (ht : queueTurn s r.part.toNat r.q = .preempt g) : exec .gangNode s = .next (haltGang 1 g s) := by
  show execGangNode s = _
  unfold execGangNode
  rw [hf]
  dsimp only
  rw [if_pos (by rw [hp, hh]; simp), ht]
  exact gate_on rfl

end

theorem exec_gangStart (hg : findGang s s.arg.a = some g) (hr : findRec s g.rcd = some r) (h0 : g.st = 0) (hp : partState s g.part.toNat = 1) :
    exec .gangStart s = .next (startGang r g s) := by
  show execGangStart s = _
  unfold execGangStart
  rw [hg]
  dsimp only
  rw [hr]
  exact gate_on (by rw [h0, hp]; rfl)

theorem turnOf_restore {p q : Nat} {l : List (Nat × Nat)} (h : restoreSeats s g [] = some l) : turnOf s p q (.saved g) = .restore l := by
  unfold turnOf
  dsimp only
  rw [h]

theorem turnOf_saved_preempt {p q : Nat} {v : Gang} (h : restoreSeats s g [] = none)
    (hv : (victims s p q).find? (fun e => (restoreSeats s g (liveXs e)).isSome) = some v) : turnOf s p q (.saved g) = .preempt v := by
  unfold turnOf
  dsimp only
  rw [h]
  dsimp only
  rw [hv]

section

variable (hg : findGang s s.arg.a = some g) (hp : partState s g.part.toNat = 1) (hm : s.moves = [])
  (hh : queueHead s g.part.toNat g.q = some (.saved g))
include hg hp hm hh

theorem exec_gangRestore_restore {l : List (Nat × Nat)} (ht : queueTurn s g.part.toNat g.q = .restore l) :
    exec .gangRestore s = .next (restoreGang g l s) := by
  show execGangRestore s = _
  unfold execGangRestore
  rw [hg]
  dsimp only
  rw [if_pos (by rw [hp, hm, hh]; simp), ht]
  exact gate_on rfl

theorem exec_gangRestore_preempt {v : Gang} (ht : queueTurn s g.part.toNat g.q = .preempt v) : exec .gangRestore s = .next (haltGang 1 v s) := by
  show execGangRestore s = _
  unfold execGangRestore
  rw [hg]
  dsimp only
  rw [if_pos (by rw [hp, hm, hh]; simp), ht]
  exact gate_on rfl

end

theorem exec_recordRetirement (hf : findRec s s.arg.a = some r) (hs : r.started = true) (h : ∀ i < r.nodes.length, nodeSt r i = 3) :
    exec .recordRetirement s = .next (retireRec r r.code r.node s) := by
  show execRecordRetirement s = _
  unfold execRecordRetirement
  rw [hf]
  refine gate_on ?_
  rw [recFinished, hs, Bool.true_and]
  exact List.all_eq_true.mpr fun i hi => beq_iff_eq.mpr (h i (List.mem_range.mp hi))

/-! ## What leaves the translation caches as they are -/

/-- Every core's translation cache is the same. -/
def SameTlbs (s t : State) : Prop := ∀ k, (getC t k).tlb = (getC s k).tlb

namespace SameTlbs

variable {s t u : State}

theorem refl (s : State) : SameTlbs s s := fun _ => rfl
theorem trans (h : SameTlbs s t) (k : SameTlbs t u) : SameTlbs s u := fun n => (k n).trans (h n)

theorem ite {p : Prop} [Decidable p] (h : SameTlbs s t) (k : SameTlbs s u) : SameTlbs s (if p then t else u) := by
  split
  · exact h
  · exact k

theorem foldl {α : Type} {f : State → α → State} (h : ∀ t a, SameTlbs t (f t a)) (l : List α) (s : State) : SameTlbs s (l.foldl f s) := by
  induction l generalizing s with
  | nil => exact .refl s
  | cons a l ih => exact (h s a).trans (ih _)

theorem of_cores (h : t.cores = s.cores) : SameTlbs s t := fun k => by rw [getC, getC, h]

end SameTlbs

theorem sameTlbs_modC {f : Core → Core} (h : ∀ c, (f c).tlb = c.tlb) (s : State) (k : Nat) : SameTlbs s (modC s k f) := fun n => by
  rw [getC_modC]
  split
  next hn => rw [hn, h]
  · rfl

theorem sameTlbs_sendPkt (s : State) (p : Pkt) : SameTlbs s (sendPkt s p) := by
  have hb : ∀ f, SameTlbs s (bumpSeq s f) := fun f => .ite (.of_cores rfl) (.of_cores rfl)
  unfold sendPkt
  dsimp only
  split
  · exact .ite (.of_cores rfl) ((hb _).trans (.of_cores rfl))
  · exact (hb _).trans (.of_cores rfl)

theorem sameTlbs_sendWriteBack (s : State) (k : Nat) (l : DLine) (r : Nat × List Byte) : SameTlbs s (sendWriteBack s k l r) := by
  unfold sendWriteBack
  dsimp only
  refine .trans ?_ (sameTlbs_sendPkt _ _)
  refine .trans (t := modC { s with nextId := s.nextId + 1 } k (fun c => { c with wbs := c.wbs ++ [(s.nextId % 65536, l.line, l.part)] })) ?_ (.of_cores rfl)
  exact .trans (t := { s with nextId := s.nextId + 1 }) (.of_cores rfl)
    (sameTlbs_modC (f := fun c => { c with wbs := c.wbs ++ [(s.nextId % 65536, l.line, l.part)] }) (fun _ => rfl) _ _)

theorem sameTlbs_setX (s : State) (x : Nat) (c : Ctx) : SameTlbs s (setX s x c) := .of_cores rfl

theorem sameTlbs_mapAccs (k : Nat) (p : BitVec 3) (f : Acc → Acc) (s : State) : SameTlbs s (mapAccs k p f s) :=
  .foldl (fun t x => .ite (sameTlbs_setX t x _) (.refl t)) _ s

theorem sameTlbs_writeBack (s : State) (k : Nat) (l : DLine) : SameTlbs s (writeBack s k l) := by
  unfold writeBack
  dsimp only
  exact ((sameTlbs_mapAccs _ _ _ _).trans (.foldl (fun t r => sameTlbs_sendWriteBack t k l r) _ _)).trans (sameTlbs_modC
    (f := fun c => { c with dc := c.dc.map (fun q => if q.line == l.line && q.part == l.part then { q with dirty := 0 } else q) }) (fun _ => rfl) _ _)

theorem sameTlbs_cleanPart (s : State) (k : Nat) (p : BitVec 3) : SameTlbs s (cleanPart s k p) := .foldl (fun t l => sameTlbs_writeBack t k l) _ s

theorem sameTlbs_pushAcc (x : Nat) (s : State) (a : Acc) : SameTlbs s (pushAcc x s a) := by
  unfold pushAcc
  split
  · split
    · exact sameTlbs_writeBack _ _ _
    · exact .refl s
  · unfold orderFlush
    dsimp only
    exact .ite (.refl s) (.of_cores rfl)
  · exact .refl s

theorem sameTlbs_pushWhere (x : Nat) (p : Acc → Bool) (s : State) : SameTlbs s (pushWhere x p s) := .foldl (sameTlbs_pushAcc x) _ s

theorem sameTlbs_loadThr (s : State) (k : Nat) (p : BitVec 3) : SameTlbs s (loadThr s k p) := by
  unfold loadThr
  split
  · exact .refl s
  · have hroots : SameTlbs s (fillRoots s k p) := sameTlbs_modC (f := fun c => { c with roots := mset c.roots p.toNat (rootsOf s k p) }) (fun _ => rfl) s k
    exact hroots.trans (sameTlbs_modC (f := fun c => { c with thr := mset c.thr p.toNat (thrTable (fillRoots s k p) k p) }) (fun _ => rfl) _ k)

theorem sameTlbs_eachHandle (f : Ctx → Ctx) (xs : List Nat) (s : State) : SameTlbs s (xs.foldl (fun u x => modX u x f) s) :=
  .foldl (fun t x => sameTlbs_setX t x _) xs s

theorem sameTlbs_settleInval (s : State) : SameTlbs s (settleInval s) := by
  unfold settleInval
  split
  · refine .ite (.of_cores ?_) (.refl s)
    unfold endInval
    dsimp only
    split <;> rfl
  · exact .refl s

/-! ## Invalidation -/

variable {v : Inval} {vs : List Inval}

theorem exec_invalidationRequest (h : s.invals = v :: vs) (hs : v.started = false) : exec .invalidationRequest s = .next (
    if v.count = 0 ∧ !v.all then endInval v { s with invals := { v with started := true } :: vs }
    else settleInval { s with invals := { v with started := true } :: vs }) := by
  show execInvalidationRequest s = _
  unfold execInvalidationRequest
  rw [h]
  exact gate_on (by rw [hs]; rfl)

theorem movingMatch_eq_false {k : Nat} (ht : ∀ e ∈ (getC s k).tlb, tlbMatches v e = true → moving s e.pa.toNat = false)
    (hh : ∀ y ∈ partCtxs s k v.part, ∀ q ∈ (getX s y).hr, q.2.st ≠ 0 → handleMatches v q.2 = true → moving s q.2.pa.toNat = false) :
    movingMatch s k v = false := by
  unfold movingMatch
  have htlb : (getC s k).tlb.any (fun e => tlbMatches v e && moving s e.pa.toNat) = false := any_eq_false_of fun e he => by
    cases hm : tlbMatches v e with
    | false => rfl
    | true => rw [ht e he hm]; rfl
  have hhr : (partCtxs s k v.part).any (fun x => (getX s x).hr.any (fun h => h.2.st != 0 && handleMatches v h.2 && moving s h.2.pa.toNat)) = false :=
    any_eq_false_of fun y hy => any_eq_false_of fun q hq => by
      by_cases h0 : q.2.st = 0
      · rw [h0]; rfl
      · cases hm : handleMatches v q.2 with
        | false => rw [Bool.and_false]; rfl
        | true => rw [hh y hy q hq h0 hm, Bool.and_false]
  rw [htlb, hhr]
  exact Bool.and_false _

/-- Phase 1 as the caches of the core take it. -/
def tlbStopped (v : Inval) (k : Nat) (s : State) : State :=
  modC s k (fun c => { c with tlb := c.tlb.map (fun e => if tlbMatches v e then { e with stop := true } else e),
                              wcache := c.wcache.map (fun e => if walkMatches v e then { e with stop := true } else e) })

theorem tlbStopped_stops {k : Nat} : ∀ e ∈ (getC (tlbStopped v k s) k).tlb, tlbMatches v e = true → e.stop = true := by
  intro e he hm
  rw [tlbStopped, getC_modC_same] at he
  obtain ⟨d, -, rfl⟩ := List.mem_map.mp he
  by_cases hd : tlbMatches v d = true
  · rw [if_pos hd]
  · rw [if_neg hd] at hm
    exact absurd hm hd

theorem exec_invalidationMarking (h : s.invals = v :: vs) (hs : v.started = true) (hc : (partCores s v.part.toNat).contains s.arg.a = true)
    (hn : mfind v.marked s.arg.a = none) (hm : movingMatch s s.arg.a v = false) :
    ∃ t, exec .invalidationMarking s = .next t ∧ (mfind ((t.invals.headD v).marked) s.arg.a).isSome = true
      ∧ (∀ e ∈ (getC t s.arg.a).tlb, tlbMatches v e = true → e.stop = true) := by
  show ∃ t, execInvalidationMarking s = .next t ∧ _
  unfold execInvalidationMarking
  dsimp only
  rw [h]
  refine ⟨_, gate_on (by rw [hs, hc, hn, hm]; rfl), ?_, fun e he hmatch => ?_⟩
  · dsimp only
    rw [List.headD_cons, mfind_mset, if_pos rfl]
    rfl
  · refine tlbStopped_stops (s := s) (v := v) (k := s.arg.a) e ?_ hmatch
    have hsame := ((sameTlbs_eachHandle (mapHandlesAll (drainHandle v)) (partCtxs (tlbStopped v s.arg.a s) s.arg.a v.part) (tlbStopped v s.arg.a s)).trans
      (sameTlbs_cleanPart _ s.arg.a v.part)).trans (SameTlbs.foldl (fun t x => sameTlbs_pushWhere x (fun _ => true) t)
        (partCtxs ((partCtxs (tlbStopped v s.arg.a s) s.arg.a v.part).foldl (fun u x => modX u x (mapHandlesAll (drainHandle v))) (tlbStopped v s.arg.a s))
          s.arg.a v.part) _)
    rw [← hsame s.arg.a]
    exact he

theorem quiet_of {k mark : Nat} {p : BitVec 3} (hx : ∀ y ∈ partCtxs s k p, (∀ m ∈ (getX s y).accs, writePending mark m = false)
      ∧ (∀ m ∈ (getX s y).q1, m.id < mark → cmdWrites m = false)) (hw : ∀ q ∈ (getC s k).wbs, q.2.2 ≠ p)
    (hr : ∀ e ∈ (getC s k).runs, e.cmd.id < mark → cmdWrites e.cmd = true → runPart s e = p → e.stopped = true) : quiet s k p mark = true := by
  unfold quiet
  have hctx : (partCtxs s k p).all (fun x => !(getX s x).accs.any (writePending mark) && !(getX s x).q1.any (fun m => decide (m.id < mark) && cmdWrites m)) = true :=
    List.all_eq_true.mpr fun y hy => by
      obtain ⟨haccs, hq⟩ := hx y hy
      rw [any_eq_false_of haccs, any_eq_false_of fun m hm => ?_]
      · rfl
      · by_cases hid : m.id < mark
        · rw [hq m hm hid, Bool.and_false]
        · rw [decide_eq_false hid]; rfl
  rw [hctx, any_eq_false_of fun q hq => beq_eq_false_iff_ne.mpr (hw q hq), any_eq_false_of fun e he => ?_]
  · rfl
  · by_cases hid : e.cmd.id < mark
    · cases hc : cmdWrites e.cmd with
      | false => simp
      | true =>
        by_cases hp : runPart s e = p
        · rw [hr e he hid hc hp]; exact Bool.and_false _
        · rw [beq_eq_false_iff_ne.mpr hp, Bool.and_false]; rfl
    · rw [decide_eq_false hid]; rfl

/-- Phase 2 as the caches of the core take it. -/
def tlbDropped (v : Inval) (k : Nat) (s : State) : State :=
  modC s k (fun c => { c with tlb := c.tlb.filter (fun e => !tlbMatches v e), wcache := c.wcache.filter (fun e => !walkMatches v e),
                              roots := if v.all then mdel c.roots v.part.toNat else c.roots })

theorem tlbDropped_drops {k : Nat} : ∀ e ∈ (getC (tlbDropped v k s) k).tlb, tlbMatches v e = false := by
  intro e he
  rw [tlbDropped, getC_modC_same] at he
  simpa using (List.mem_filter.mp he).2

theorem exec_invalidationConfirmation {n : Nat} (h : s.invals = v :: vs) (hs : v.started = true) (hm : mfind v.marked s.arg.a = some n)
    (hc : v.confirmed.contains s.arg.a = false) (hq : quiet s s.arg.a v.part n = true) :
    ∃ t, exec .invalidationConfirmation s = .next t ∧ (∀ e ∈ (getC t s.arg.a).tlb, tlbMatches v e = false) := by
  show ∃ t, execInvalidationConfirmation s = .next t ∧ _
  unfold execInvalidationConfirmation
  dsimp only
  rw [h]
  dsimp only
  rw [hm]
  refine ⟨_, gate_on (by rw [hs, hc, hq]; rfl), fun e he => tlbDropped_drops (s := s) (v := v) (k := s.arg.a) e ?_⟩
  rw [sameTlbs_settleInval] at he
  have h2 := sameTlbs_eachHandle (mapHandlesAll (dropHandle v)) (partCtxs (tlbDropped v s.arg.a s) s.arg.a v.part) (tlbDropped v s.arg.a s)
  have h3 := SameTlbs.ite (p := (mfind (getC ((partCtxs (tlbDropped v s.arg.a s) s.arg.a v.part).foldl (fun u x => modX u x (mapHandlesAll (dropHandle v)))
      (tlbDropped v s.arg.a s)) s.arg.a).thr v.part.toNat).isSome = true)
    ((h2.trans (sameTlbs_modC (f := fun c => { c with thr := mdel c.thr v.part.toNat }) (fun _ => rfl) _ s.arg.a)).trans (sameTlbs_loadThr _ s.arg.a v.part)) h2
  rw [← h3 s.arg.a]
  exact he

/-! ## Walk notices -/

theorem exec_walkNotice (h : (getPlc s s.arg.a).notices ≠ []) :
    ∃ t, exec .walkNotice s = .next t ∧ (getPlc t s.arg.a).notices = (getPlc s s.arg.a).notices.tail := by
  obtain ⟨⟨frame, big, part, pte⟩, l, hl⟩ := List.exists_cons_of_ne_nil h
  show ∃ t, execWalkNotice s = .next t ∧ _
  unfold execWalkNotice
  dsimp only
  rw [hl]
  refine ⟨_, gate_on rfl, ?_⟩
  unfold modPlc
  rw [getPlc, mget_mset_same, List.tail_cons]
  dsimp only
  simp only [apply_ite Plc.notices, ite_self]

/-! ## The certificate -/

/-- A record that passes its checks joins the records (R189, R194). -/
theorem exec_recordFetch_admits {n : Nat} (hn : mfind (getPart s s.arg.a).fetching s.arg.b = some n)
    (h : ∀ q ∈ liveQueues s, walkerDie s q.1 = walkerDie s s.arg.a → queueBefore s q (s.arg.a, s.arg.b) = true → mfind (getPart s q.1).fetching q.2 = none) :
    ∃ t, exec .recordFetch s = .next t ∧ (qEn s s.arg.a s.arg.b = true → qStop s s.arg.a s.arg.b = false → partState s s.arg.a = 1 →
      let u := modPart s s.arg.a (fun w => { w with fetching := mdel w.fetching s.arg.b })
      recordBad u s.arg.a (partDies u s.arg.a) ((getPart u s.arg.a).devs.contains (s.arg.b, qTaken s s.arg.a s.arg.b)) (readRecord u n).1 (readRecord u n).2 = false →
      t.recs.length = s.recs.length + 1) := by
  refine ⟨_, exec_recordFetch hn h, fun he hs hp hb => ?_⟩
  dsimp only at hb ⊢
  have hEn : qEn (modPart s s.arg.a (fun w => { w with fetching := mdel w.fetching s.arg.b })) s.arg.a s.arg.b = true := he
  have hStop : qStop (modPart s s.arg.a (fun w => { w with fetching := mdel w.fetching s.arg.b })) s.arg.a s.arg.b = false := hs
  have hTaken : qTaken (modPart s s.arg.a (fun w => { w with fetching := mdel w.fetching s.arg.b })) s.arg.a s.arg.b = qTaken s s.arg.a s.arg.b := rfl
  rw [if_neg (by rw [hEn, hStop, partState_fetching, hp]; exact Bool.false_ne_true), if_neg (by rw [hTaken, hb]; exact Bool.false_ne_true)]
  exact List.length_append

section

variable (hf : findRec s s.arg.a = some r) (hn : nextNode r = some s.arg.b) (hw : walkerTurn s r = true)
include hf hn hw

theorem exec_copyNode (ht : ndType (r.nodes.getD s.arg.b 0) = 1) : exec .copyNode s = .next (startReplay opCopyNode
    (bitsN (r.nodes.getD s.arg.b 0) 208 3) (bitsN (r.nodes.getD s.arg.b 0) 211 2) r s.arg.b (noteWalk r s)) := by
  show execCopyNode s = _
  unfold execCopyNode
  exact nodeStart_of hf hn ht hw

theorem exec_collectiveNode (ht : ndType (r.nodes.getD s.arg.b 0) = 2) : exec .collectiveNode s = .next (startReplay opCollective
    (bitsN (r.nodes.getD s.arg.b 0) 364 3) (bitsN (r.nodes.getD s.arg.b 0) 367 2) r s.arg.b (noteWalk r s)) := by
  show execCollectiveNode s = _
  unfold execCollectiveNode
  exact nodeStart_of hf hn ht hw

theorem exec_signalNode (ht : ndType (r.nodes.getD s.arg.b 0) = 4) : exec .signalNode s = .next (walkerSend r s.arg.b 1 4
    (.atom 12 true (sgVal (r.nodes.getD s.arg.b 0)) 0 false) (modRec r.id (setNodeSt s.arg.b 2) (noteWalk r s))) := by
  show execSignalNode s = _
  unfold execSignalNode
  exact nodeStart_of hf hn ht hw

theorem exec_joinNode (ht : ndType (r.nodes.getD s.arg.b 0) = 6) : exec .joinNode s = .next (nodeDone r.id s.arg.b 0 (noteWalk r s)) := by
  show execJoinNode s = _
  unfold execJoinNode
  exact nodeStart_of hf hn ht hw

theorem exec_subgraphNode (ht : ndType (r.nodes.getD s.arg.b 0) = 5) :
    ∃ t, exec .subgraphNode s = .next t ∧ (4 ≤ r.depth → t = nodeDone r.id s.arg.b 6 (noteWalk r s)) := by
  show ∃ t, execSubgraphNode s = .next t ∧ _
  unfold execSubgraphNode
  exact ⟨_, nodeStart_of hf hn ht hw, fun hd => if_pos (by omega)⟩

end

theorem exec_plcRetHeadWrite (h : dieOk s s.arg.a = true) : exec .plcRetHeadWrite s = .next (mgSetF s s.arg.a (oPlcRet + 8) 32 32 s.arg.b) := by
  show execPlcRetHeadWrite s = _
  unfold execPlcRetHeadWrite
  exact gate_on h

theorem exec_plcLostHeadWrite (h : dieOk s s.arg.a = true) : exec .plcLostHeadWrite s = .next (mgSetF s s.arg.a (oPlcLost + 8) 32 32 s.arg.b) := by
  show execPlcLostHeadWrite s = _
  unfold execPlcLostHeadWrite
  exact gate_on h

/-- Settles O59: the walker's order decides whose turn it is, and what the registers, the record, the seats and the requests hold decides what is done. -/
theorem launchEvents : Obligations.LaunchEvents := by
  unfold Obligations.LaunchEvents
  intro s r g h n v vs
  dsimp only
  refine ⟨fun hi hf => ⟨?_, ?_, ?_⟩, fun hi hf => ?_, fun hi hf ho he => ?_, fun hi hf ho he => ?_, fun hi hf ho => ?_, fun hi hf hs => ?_, fun hi hf hs => ?_,
    fun ⟨hi, hp, he, hs, ht, hl, hn, hb⟩ => ⟨fun h64 h48 hpop => ?_, fun hbad => ?_⟩, exec_recordFetch_admits,
    fun hf hs hp hb hser hw h1 hq => exec_recordStart hf (mayStart_of hs hp hb hser hw h1) hq,
    fun ⟨hf, hs, hn, h1, h0, hb, hw, hbef⟩ => ?_, fun hf hs h7 h2 h0 hc hq => exec_waitNode_again hf hs ((bitsN_low _ 4).trans h7) h2 h0 hc hq,
    fun hf h3 h2 => ⟨fun hc ho => exec_circuitOpenNode_opened hf ((bitsN_low _ 4).trans h3) h2 hc ho,
      fun hc he => exec_circuitOpenNode_opens hf ((bitsN_low _ 4).trans h3) h2 hc he⟩,
    fun ⟨hf, hp, hh, hb⟩ => ⟨fun l hl => ?_, fun hl hn => ?_, fun hl hn hv => ?_⟩, exec_gangStart,
    fun ⟨hg, hp, hm, hh, hb⟩ => ⟨fun l hl => ?_, fun hl hv => ?_⟩, exec_recordRetirement,
    fun hi hs => ⟨fun hc => ?_, fun hc ha => ?_⟩, fun hi hs hc hn ht hh => exec_invalidationMarking hi hs hc hn (movingMatch_eq_false ht hh), fun hi hs hm hc hx hw hr =>
      exec_invalidationConfirmation hi hs hm hc (quiet_of hx hw hr), exec_walkNotice, fun hd => ⟨exec_plcRetHeadWrite hd, exec_plcLostHeadWrite hd⟩⟩
  · rw [exec_queueTlWrite hi, if_pos hf]
  · rw [exec_queueEnableWrite hi, if_pos hf]
  · rw [exec_queueStopWrite hi, if_pos hf]
  · rw [exec_queueTlWrite hi, if_neg (by rw [hf]; exact Bool.false_ne_true)]
  · refine ⟨_, (exec_queueEnableWrite hi).trans (by rw [if_neg (by rw [hf]; exact Bool.false_ne_true), if_pos (by rw [ho, he]; rfl)]), ?_⟩
    obtain ⟨hen, htl, htaken⟩ := queue_zeroed (enWritten s) s.arg.a s.arg.b
    exact ⟨hen.trans ((qEn_enWritten s).trans ho), htl, htaken⟩
  · refine ⟨enWritten s, (exec_queueEnableWrite hi).trans (by rw [if_neg (by rw [hf]; exact Bool.false_ne_true), if_neg (by rw [ho, he]; exact Bool.false_ne_true)]), ?_⟩
    exact ⟨(qEn_enWritten s).trans ho, qTl_enWritten s, qTaken_enWritten s⟩
  · refine ⟨enWritten s, (exec_queueEnableWrite hi).trans (by rw [if_neg (by rw [hf]; exact Bool.false_ne_true), if_neg (by rw [ho]; exact Bool.false_ne_true)]), ?_⟩
    exact ⟨(qEn_enWritten s).trans ho, qTl_enWritten s, qTaken_enWritten s⟩
  · rw [exec_queueStopWrite hi, if_neg (by rw [hf]; exact Bool.false_ne_true), if_neg (by rw [hs]; exact Bool.false_ne_true)]
  · rw [exec_queueStopWrite hi, if_neg (by rw [hf]; exact Bool.false_ne_true), if_pos hs]
  · rw [exec_queueEntryTake (servedFirst_of (canTake_of hi hp he hs ht hl hn) hb), if_neg (by
      rintro (h | h | h)
      · exact h h64
      · exact Nat.not_lt.mpr h h48
      · exact h hpop)]
    rfl
  · rw [exec_queueEntryTake (servedFirst_of (canTake_of hi hp he hs ht hl hn) hb), if_pos]
    rcases hbad with h | h | h
    · exact .inl h
    · exact .inr (.inl h)
    · exact .inr (.inr (by rw [show populated s (nextEntry s s.arg.a s.arg.b) = false from h]; exact Bool.false_ne_true))
  · have hty : ∀ {k}, (r.nodes.getD s.arg.b 0).toNat % 2 ^ 4 = k → ndType (r.nodes.getD s.arg.b 0) = k := fun h => (bitsN_low _ 4).trans h
    have hnext : nextNode r = some s.arg.b := nextNode_of hs hn h1 (by rw [hty rfl]; exact h0) hb
    have hturn : walkerTurn s r = true := walkerTurn_of hw hbef
    refine ⟨fun ht => ?_, fun ht => ?_, fun ht => exec_circuitOpenNode_first hf hnext h1 (hty ht) hturn, fun ht => exec_signalNode hf hnext hturn (hty ht),
      fun ht hd => ?_, fun ht => ?_, fun ht => exec_joinNode hf hnext hturn (hty ht), fun ht => exec_waitNode_first hf hnext (hty ht) hturn⟩
    · rw [exec_copyNode hf hnext hturn (hty ht), bitsN_eq, bitsN_eq]
    · rw [exec_collectiveNode hf hnext hturn (hty ht), bitsN_eq, bitsN_eq]
    · obtain ⟨t, he, hdeep⟩ := exec_subgraphNode hf hnext hturn (hty ht)
      rw [he, hdeep hd]
    · obtain ⟨t, he, -⟩ := exec_subgraphNode hf hnext hturn (hty ht)
      exact ⟨t, he⟩
  · have ht := turnOf_place (q := r.q) hl
    exact exec_gangNode_place hf hp hh ((queueTurn_of hh (by rw [ht]; rfl) hb).trans ht)
  · have ht := turnOf_never (q := r.q) hl hn
    exact exec_gangNode_never hf hp hh ((queueTurn_of hh (by rw [ht]; rfl) hb).trans ht)
  · have ht := turnOf_preempt hl hn hv
    exact exec_gangNode_preempt hf hp hh ((queueTurn_of hh (by rw [ht]; rfl) hb).trans ht)
  · have ht := turnOf_restore (p := g.part.toNat) (q := g.q) hl
    exact exec_gangRestore_restore hg hp hm hh ((queueTurn_of hh (by rw [ht]; rfl) hb).trans ht)
  · have ht := turnOf_saved_preempt hl hv
    exact exec_gangRestore_preempt hg hp hm hh ((queueTurn_of hh (by rw [ht]; rfl) hb).trans ht)
  · rw [exec_invalidationRequest hi hs, if_neg]
    rintro ⟨h0, ha⟩
    rcases hc with hc | hc
    · exact hc h0
    · rw [hc] at ha; exact Bool.false_ne_true ha
  · rw [exec_invalidationRequest hi hs, if_pos ⟨hc, by rw [ha]; rfl⟩]

end Sys2Proof.Machine
end

section
/-!
SUPPORT AND CERTIFICATE. O60: the events of engines, of gang barriers and of streams complete.
-/

set_option Elab.async false

namespace Sys2Proof.Machine

open Sys2Proof

variable {s : State} {m : Cmd} {r : Run} {g : Gang} {p : Pkt} {k x q port part : Nat} {w : BitVec 128} {back : Bool}

/-! ## Copy ports (R427, R428) -/

/-- No run of the port has work of a stage begun (R427). -/
def PortFree (s : State) (k port : Nat) : Prop := ∀ e ∈ (getC s k).runs, e.cmd.port = port → runBusy e = false

theorem portRuns_rest (h : PortFree s k port) : (portRuns (getC s k) port).any runBusy = false := any_eq_false_of fun e he => by
  obtain ⟨hm, hp⟩ := List.mem_filter.mp he
  exact h e hm (beq_iff_eq.mp hp)

theorem stagesLeft_eq_false (h : ∀ e ∈ (getC s k).runs, e.cmd.port = port → e.x = x → e.node = none → e.stopped = true ∨ e.cmd.stage ≤ e.step) :
    stagesLeft (getC s k) x port = false := any_eq_false_of fun e he => by
  obtain ⟨hm, hp⟩ := List.mem_filter.mp he
  by_cases hx : e.x = x
  · cases hn : e.node with
    | some _ => simp
    | none =>
      rcases h e hm (beq_iff_eq.mp hp) hx hn with h | h
      · rw [h]; simp
      · rw [decide_eq_false (Nat.not_lt.mpr h), Bool.and_false]
  · rw [beq_eq_false_iff_ne.mpr hx]; rfl

/-- The command does not wait for its timeline (R429). -/
def WaitMet (c : Ctx) (m : Cmd) : Prop :=
  m.op ≤ 3 → cpWen m.blk = true → tlReached (readTl c (cpWtl m.blk)) (cpWval m.blk + BitVec.ofNat 64 m.c) = true

theorem headFor_of (hr : Runs (getX s x)) (hst : stagesLeft (getC s k) x port = false)
    (hf : FirstIn (getX s x).q1 m (fun e => e.port == port && !(getC s k).runs.any (fun f => f.cmd.id == e.id))) (hc : m.cyc < s.cyc)
    (hw : WaitMet (getX s x) m) : headFor s k port x = some m := by
  have hfirst : (getX s x).q1.find? (fun e => e.port == port && !(getC s k).runs.any (fun f => f.cmd.id == e.id)) = some m := hf
  have hwaits : (decide (m.op ≤ 3) && cpWen m.blk && !tlReached (readTl (getX s x) (cpWtl m.blk)) (cpWval m.blk + BitVec.ofNat 64 m.c)) = false := by
    by_cases ho : m.op ≤ 3
    · cases hen : cpWen m.blk with
      | false => simp
      | true => rw [hw ho hen]; simp
    · rw [decide_eq_false ho]; rfl
  unfold headFor
  dsimp only
  rw [if_pos (by rw [hr.1, hr.2, hst]; rfl), hfirst, Option.bind_some, hwaits, decide_eq_true hc]
  rfl

theorem nextCopy_of (hfree : PortFree s k port) (hx : coreOf x = k) (hh : headFor s k port x = some m)
    (he : ∀ y e, coreOf y = k → y ≠ x → headFor s k port y = some e → m.cyc < e.cyc ∨ m.cyc = e.cyc ∧ x < y) : nextCopy s k port = some (x, m) := by
  unfold nextCopy
  rw [if_neg (by rw [portRuns_rest hfree]; exact Bool.false_ne_true)]
  exact oldest_offers hx hh fun y hy hne e hye => he y e hy hne hye

theorem exec_copyCommandStart (h : nextCopy s s.arg.a s.arg.b = some (x, m)) (h4 : m.op ≠ 4) :
    exec .copyCommandStart s = .next (startCopy s.arg.a x m s) := by
  show execCopyCommandStart s = _
  unfold execCopyCommandStart
  rw [h]
  exact gate_on (bne_iff_ne.mpr h4)

theorem exec_rmapostCommandStart (h : nextCopy s s.arg.a s.arg.b = some (x, m)) (h4 : m.op = 4) (hn : postReady s s.arg.a s.arg.b 4 = none) :
    exec .rmapostCommandStart s = .next (startCopy s.arg.a x m s) := by
  show execRmapostCommandStart s = _
  unfold execRmapostCommandStart
  dsimp only
  rw [hn]
  dsimp only
  rw [h]
  exact gate_on (beq_iff_eq.mpr h4)

theorem exec_rmapostCommandStart_writes (h : postReady s s.arg.a s.arg.b 4 = some r) (hroom : rmaHasRoom s (getX s r.x).part.toNat r.cmd.a = true) :
    exec .rmapostCommandStart s = .next (writePost s.arg.a r s) := by
  show execRmapostCommandStart s = _
  unfold execRmapostCommandStart
  dsimp only
  rw [h]
  exact gate_on hroom

theorem exec_copyStageStart (hfree : PortFree s s.arg.a s.arg.b) (hr : r ∈ (getC s s.arg.a).runs) (hp : r.cmd.port = s.arg.b) (hs : r.stopped = false)
    (hstage : r.step < r.cmd.stage) (hd : r.done = r.step) (hh : (getX s r.x).halted = false)
    (hw : tlReached (readTl (getX s r.x) (cpWtl r.cmd.blk)) (cpWval r.cmd.blk + BitVec.ofNat 64 r.step) = true) :
    ∃ t, exec .copyStageStart s = .next t ∧ t.mem = s.mem := by
  have hsome : (nextStage s s.arg.a s.arg.b).isSome = true := by
    unfold nextStage
    rw [if_neg (by rw [portRuns_rest hfree]; exact Bool.false_ne_true), List.find?_isSome]
    refine ⟨r, List.mem_filter.mpr ⟨hr, beq_iff_eq.mpr hp⟩, ?_⟩
    rw [hs, decide_eq_true hstage, hd, hh, hw, beq_self_eq_true]
    rfl
  obtain ⟨n, hn⟩ := Option.isSome_iff_exists.mp hsome
  show ∃ t, execCopyStageStart s = .next t ∧ _
  unfold execCopyStageStart
  rw [hn]
  refine ⟨_, gate_on rfl, ?_⟩
  dsimp only
  split <;> rfl

theorem runEnded_of (ho : r.out = []) (hb : r.buf = []) (h4 : r.cmd.op ≠ 4) (h19 : r.cmd.op ≠ 0x19) (ha : arrivalsDue r = false)
    (h : r.stopped = true ∨ runGoal r ≤ r.pos ∧ (r.cmd.stage = 0 ∨ r.done < r.step)) : runEnded r = true := by
  unfold runEnded
  rw [ho, hb, bne_iff_ne.mpr h4, bne_iff_ne.mpr h19, ha]
  simpa using h

theorem exec_copyCommandCompletion (hr : runAt s s.arg.a s.arg.b = some r) (he : runEnded r = true) (hn : r.node = none) :
    exec .copyCommandCompletion s = .next (completeRun s.arg.a r s) := by
  show execCopyCommandCompletion s = _
  unfold execCopyCommandCompletion
  dsimp only
  rw [hr]
  refine (gate_on he).trans ?_
  rw [hn]

theorem exec_copyCommandCompletion_node {n : Nat × Nat} (hr : runAt s s.arg.a s.arg.b = some r) (he : runEnded r = true) (hn : r.node = some n) :
    exec .copyCommandCompletion s = .next (nodeDone n.1 n.2 (if r.stopped then 1 else 0) (dropRun s.arg.a r.cmd.id s)) := by
  show execCopyCommandCompletion s = _
  unfold execCopyCommandCompletion
  dsimp only
  rw [hr]
  refine (gate_on he).trans ?_
  rw [hn]

/-! ## The launch engine (R444) -/

theorem exec_launchCommandStart_writes (h : postReady s s.arg.a 2 0x19 = some r) (hroom : launchHasRoom s (getX s r.x).part.toNat r.cmd.a = true) :
    exec .launchCommandStart s = .next (writeLaunch s.arg.a r s) := by
  show execLaunchCommandStart s = _
  unfold execLaunchCommandStart
  dsimp only
  rw [h]
  exact gate_on hroom

/-- What a context offers the launch engine. -/
def launchOffer (s : State) (y : Nat) : Option Cmd :=
  if (getX s y).task && !(getX s y).halted then (getX s y).q4.head?.bind (fun m => if m.cyc < s.cyc then some m else none) else none

theorem launchOffer_eq_some : launchOffer s x = some m ↔ Runs (getX s x) ∧ (getX s x).q4.head? = some m ∧ m.cyc < s.cyc := by
  unfold launchOffer Runs
  split
  next h =>
    rw [Bool.and_eq_true, Bool.not_eq_true'] at h
    rw [Option.bind_eq_some_iff, and_iff_right h]
    constructor
    · rintro ⟨e, he, hc⟩
      split at hc
      next hlt => cases hc; exact ⟨he, hlt⟩
      · cases hc
    · rintro ⟨he, hlt⟩
      exact ⟨m, he, if_pos hlt⟩
  next h =>
    rw [Bool.and_eq_true, Bool.not_eq_true'] at h
    exact ⟨fun hn => (by cases hn), fun ⟨hr, _⟩ => absurd hr h⟩

theorem nextLaunch_of (hfree : PortFree s k 2) (hx : coreOf x = k) (hm : launchOffer s x = some m)
    (he : ∀ y e, coreOf y = k → y ≠ x → launchOffer s y = some e → m.cyc < e.cyc ∨ m.cyc = e.cyc ∧ x < y) : nextLaunch s k = some (x, m) := by
  have hoffer : ∀ y, (if (getX s y).task && !(getX s y).halted then (getX s y).q4.head?.bind (fun m => if m.cyc < s.cyc then some (y, m) else none) else none)
      = (launchOffer s y).map (fun m => (y, m)) := fun y => by
    unfold launchOffer
    split
    · cases (getX s y).q4.head? with
      | none => rfl
      | some e => rw [Option.bind_some, Option.bind_some]; split <;> rfl
    · rfl
  have hlist : (tab 4 (fun i => 4 * k + i)).filterMap (fun y => if (getX s y).task && !(getX s y).halted then
      (getX s y).q4.head?.bind (fun m => if m.cyc < s.cyc then some (y, m) else none) else none) = offers k (launchOffer s) :=
    congrArg (fun f => List.filterMap f _) (funext hoffer)
  unfold nextLaunch
  rw [if_neg (by rw [portRuns_rest hfree]; exact Bool.false_ne_true)]
  exact (congrArg oldest hlist).trans (oldest_offers hx hm fun y hy hne e hye => he y e hy hne hye)

theorem exec_launchCommandStart (hn : postReady s s.arg.a 2 0x19 = none) (h : nextLaunch s s.arg.a = some (x, m)) :
    ∃ t, exec .launchCommandStart s = .next t ∧ (getX t x).q4 = dropFirst (fun e => e.id = m.id) (getX s x).q4
      ∧ (getC t s.arg.a).runs = (getC s s.arg.a).runs ++ [mkRun x none m] := by
  show ∃ t, execLaunchCommandStart s = .next t ∧ _
  unfold execLaunchCommandStart
  dsimp only
  rw [hn]
  dsimp only
  rw [h]
  refine ⟨_, gate_on rfl, ?_, ?_⟩
  · rw [getX_modC, getX_modX, if_pos rfl]
  · rw [getC_modC_same]
    rfl

/-! ## The stream unit (R493) -/

/-- The commands of the stream queue that may start. -/
def streamMayStart (s : State) (d : Ctx) (e : Cmd) : Bool :=
  decide (e.cyc < s.cyc) && (before d.q3 e).all (fun f => f.a != e.a) && !(e.op == 9 && (readQ d e.a).st == 2)

/-- What a context offers the stream unit. -/
def streamOffer (s : State) (y : Nat) : Option Cmd :=
  if (getX s y).task && !(getX s y).halted then (getX s y).q3.find? (streamMayStart s (getX s y)) else none

theorem streamOffer_eq_some : streamOffer s x = some m ↔ Runs (getX s x) ∧ FirstIn (getX s x).q3 m (streamMayStart s (getX s x)) := by
  unfold streamOffer Runs FirstIn
  split
  next h =>
    rw [Bool.and_eq_true, Bool.not_eq_true'] at h
    rw [and_iff_right h]
  next h =>
    rw [Bool.and_eq_true, Bool.not_eq_true'] at h
    exact ⟨fun hn => (by cases hn), fun ⟨hr, _⟩ => absurd hr h⟩

theorem exec_streamUnitCommandStart (hs : mfind (getC s s.arg.a).starts 3 ≠ some s.cyc) (hx : coreOf x = s.arg.a) (hm : streamOffer s x = some m)
    (he : ∀ y e, coreOf y = s.arg.a → y ≠ x → streamOffer s y = some e → m.cyc < e.cyc ∨ m.cyc = e.cyc ∧ x < y) :
    exec .streamUnitCommandStart s = .next (startStreamCmd s.arg.a x m s) := by
  have hoffer : ∀ y, (if (getX s y).task && !(getX s y).halted then
      ((getX s y).q3.find? (streamMayStart s (getX s y))).map (fun m => (y, m)) else none) = (streamOffer s y).map (fun m => (y, m)) := fun y => by
    unfold streamOffer
    split <;> rfl
  have hlist : (tab 4 (fun i => 4 * s.arg.a + i)).filterMap (fun y => if (getX s y).task && !(getX s y).halted then
      ((getX s y).q3.find? (streamMayStart s (getX s y))).map (fun m => (y, m)) else none) = offers s.arg.a (streamOffer s) :=
    congrArg (fun f => List.filterMap f _) (funext hoffer)
  have hnext : nextStreamCmd s s.arg.a = some (x, m) := by
    unfold nextStreamCmd
    rw [if_neg hs]
    exact (congrArg oldest hlist).trans (oldest_offers hx hm fun y hy hne e hye => he y e hy hne hye)
  show execStreamUnitCommandStart s = _
  unfold execStreamUnitCommandStart
  rw [hnext]
  exact gate_on rfl

/-! ## Opens (R220) -/

theorem exec_streamOpenCheck {d : BitVec 512} {rest : List (Nat × Nat × BitVec 512)}
    (ho : (getPart (reapStreams s.arg.a s) s.arg.a).opens.filter (fun o => openWaits s o.1) = (x, q, d) :: rest)
    (hb : s.ctxs.any (fun e => e.2.task && e.2.part.toNat == s.arg.a && e.2.opened == some 0) = false) :
    ∃ t, exec .streamOpenCheck s = .next t ∧ (getX t x).opened = some (openOutcome (reapStreams s.arg.a s) s.arg.a x d) ∧ (getPart t s.arg.a).opens = rest := by
  show ∃ t, execStreamOpenCheck s = .next t ∧ _
  unfold execStreamOpenCheck
  dsimp only
  rw [ho]
  refine ⟨_, gate_on (by rw [hb]; rfl), ?_, ?_⟩
  · rw [getX_modX, if_pos rfl]
  · show (getPart (modPart (reapStreams s.arg.a s) s.arg.a (fun t => { t with opens := rest })) s.arg.a).opens = rest
    rw [getPart_modPart, if_pos rfl]

/-! ## Gang barriers (R373) -/

theorem exec_gangBarrierCompletion (hg : findGang s s.arg.a = some g) (h1 : g.st = 1) (hr : g.release = none) (ha : g.arrived ≠ [])
    (hl : ∀ i ∈ g.live, i ∈ g.arrived) (hx : g.xstOut = 0) : exec .gangBarrierCompletion s = .next
      (addTimer (modGang g.id (fun e => { e with release := some (s.cyc + 8) }) s) 8 .gangBarrierRelease (EvArg.of g.id)) := by
  have hall : g.live.all (fun i => g.arrived.contains i) = true := List.all_eq_true.mpr fun i hi => List.contains_iff_mem.mpr (hl i hi)
  show execGangBarrierCompletion s = _
  unfold execGangBarrierCompletion
  rw [hg]
  refine gate_on ?_
  rw [h1, hr, hall, hx, List.isEmpty_eq_false_iff.mpr ha]
  rfl

theorem exec_gangBarrierRelease (hg : findGang s s.arg.a = some g) (h1 : g.st = 1) (hr : g.release = some x) (hx : x ≤ s.cyc) :
    exec .gangBarrierRelease s = .next ((g.live.map (fun i => g.xs.getD i 0)).foldl (fun t y => releaseMember y t)
      (modGang g.id (fun e => { e with arrived := [], release := none }) s)) := by
  show execGangBarrierRelease s = _
  unfold execGangBarrierRelease
  rw [hg]
  refine gate_on ?_
  rw [hr, h1]
  exact (Bool.and_true _).trans (decide_eq_true hx)

/-! ## Flits of streams (R212 to R214, R221, R222) -/

theorem ctxs_sendPkt (s : State) (p : Pkt) : (sendPkt s p).ctxs = s.ctxs := by
  have hb : ∀ f, (bumpSeq s f).ctxs = s.ctxs := fun f => by unfold bumpSeq; split <;> rfl
  unfold sendPkt
  dsimp only
  split
  · split
    · rfl
    · exact hb _
  · exact hb _

theorem getX_sendFlit (x : Nat) (p : Port) (ty tick occ sent : Nat) (s : State) (y : Nat) : getX (sendFlit x p ty tick occ sent s) y = getX s y := by
  unfold getX sendFlit
  rw [ctxs_sendPkt]

theorem readQ_modQ (x q : Nat) (f : Port → Port) (s : State) : readQ (getX (modQ x q f s) x) q = f (readQ (getX s x) q) := by
  unfold modQ
  rw [getX_modX, if_pos rfl]
  exact mget_mset_same ..

/-- A flit of a stream for a side of it stands at the endpoint that the event names. -/
def FlitAt (s : State) (p : Pkt) (ty part : Nat) (back : Bool) (w : BitVec 128) : Prop :=
  rxHead s (argEp s) = some p ∧ p.msg = .stream (part + if back then 8 else 0) w ∧ part < 8 ∧ w.toNat % 2 ^ 4 = ty

theorem flitAt_of {ty : Nat} (h : FlitAt s p ty part back w) : flitAt s ty = some (p, part, back, w) := by
  obtain ⟨hp, hm, h8, ht⟩ := h
  have hty : flitTy w = ty := (bitsN_low w 4).trans ht
  have hpart : (part + if back then 8 else 0) % 8 = part := by
    cases back
    · exact Nat.mod_eq_of_lt h8
    · exact (Nat.add_mod_right part 8).trans (Nat.mod_eq_of_lt h8)
  have hback : decide (8 ≤ part + if back then 8 else 0) = back := by
    cases back
    · exact decide_eq_false (Nat.not_le.mpr h8)
    · exact decide_eq_true (Nat.le_add_left 8 part)
  unfold flitAt
  rw [hp]
  dsimp only
  rw [hm]
  dsimp only
  rw [if_pos hty, hpart, hback]

section

variable {ty : Nat} {name : String} {eff : Nat → Nat → BitVec 128 → State → State} {none' : Pkt → Nat → Bool → BitVec 128 → State → State}
  (hf : FlitAt s p ty part back w)
include hf

theorem flitEvent_live (hl : livePort (rxTake s (argEp s)) part (flitSid w) back = some (x, q)) :
    flitEvent ty name eff none' s = .next (eff x q w (rxTake s (argEp s))) := by
  unfold flitEvent
  rw [flitAt_of hf]
  refine (gate_on rfl).trans ?_
  dsimp only
  rw [hl]

theorem flitEvent_gone (hl : livePort (rxTake s (argEp s)) part (flitSid w) back = none) :
    flitEvent ty name eff none' s = .next (none' p part back w (rxTake s (argEp s))) := by
  unfold flitEvent
  rw [flitAt_of hf]
  refine (gate_on rfl).trans ?_
  dsimp only
  rw [hl]

end

section

variable (hl : livePort (rxTake s (argEp s)) part (flitSid w) back = some (x, q))
include hl

theorem exec_sampleFlit (hf : FlitAt s p 0 part back w) : exec .sampleFlit s = .next
    (modQ x q (fun e => if e.st = 1 then takeSample s.cicada.toNat w (takeRd w e) else takeRd w e) (rxTake s (argEp s))) := by
  show execSampleFlit s = _
  unfold execSampleFlit
  exact flitEvent_live hf hl

theorem exec_creditFlit (hf : FlitAt s p 1 part back w) : exec .creditFlit s = .next (modQ x q (takeRd w) (rxTake s (argEp s))) := by
  show execCreditFlit s = _
  unfold execCreditFlit
  exact flitEvent_live hf hl

theorem exec_detachFlit_producer (hf : FlitAt s p 2 part back w) (hr : (readQ (getX (rxTake s (argEp s)) x) q).role = false) :
    ∃ t, exec .detachFlit s = .next t ∧ ((readQ (getX (rxTake s (argEp s)) x) q).st = 1 → (readQ (getX t x) q).st = 2) := by
  show ∃ t, execDetachFlit s = .next t ∧ _
  unfold execDetachFlit
  refine ⟨_, flitEvent_live hf hl, fun h1 => ?_⟩
  dsimp only
  rw [if_neg (by rw [hr]; exact Bool.false_ne_true), getX_sendFlit, readQ_modQ]
  exact if_pos h1

theorem exec_detachFlit_consumer (hf : FlitAt s p 2 part back w) (hr : (readQ (getX (rxTake s (argEp s)) x) q).role = true) :
    exec .detachFlit s = .next
      (nameSent x q w (modQ x q (fun e => { e with st := if e.st = 1 then 2 else e.st, samples := [] }) (rxTake s (argEp s)))) := by
  show execDetachFlit s = _
  unfold execDetachFlit
  refine (flitEvent_live hf hl).trans ?_
  rw [if_pos hr]

section

variable {e : Nat × Nat × Nat × Nat × BitVec 512} (hf : FlitAt s p 3 part back w)
  (he : edgeOf (rxTake s (argEp s)) (readQ (getX (rxTake s (argEp s)) x) q).part (flitSid w) = some e)
include hf he

theorem exec_attachFlit_opens (h2 : (readQ (getX (rxTake s (argEp s)) x) q).st = 2) (h1 : (readQ (getX (rxTake s (argEp s)) x) q).susp ≠ 1)
    (h4 : (readQ (getX (rxTake s (argEp s)) x) q).susp ≠ 4) : ∃ t, exec .attachFlit s = .next t ∧ (readQ (getX t x) q).st = 1 := by
  show ∃ t, execAttachFlit s = .next t ∧ _
  unfold execAttachFlit
  refine ⟨_, flitEvent_live hf hl, ?_⟩
  dsimp only
  rw [he]
  dsimp only
  rw [if_pos ⟨h2, h1, h4⟩, getX_sendFlit, readQ_modQ]
  exact if_pos h2

theorem exec_attachFlit_stays (h : (readQ (getX (rxTake s (argEp s)) x) q).st ≠ 2 ∨ (readQ (getX (rxTake s (argEp s)) x) q).susp = 1
    ∨ (readQ (getX (rxTake s (argEp s)) x) q).susp = 4) : exec .attachFlit s = .next (rxTake s (argEp s)) := by
  show execAttachFlit s = _
  unfold execAttachFlit
  refine (flitEvent_live hf hl).trans ?_
  dsimp only
  rw [he]
  dsimp only
  rw [if_neg]
  rintro ⟨h2, h1, h4⟩
  rcases h with h | h | h
  · exact h h2
  · exact h1 h
  · exact h4 h

end

theorem exec_closeFlit_producer (hf : FlitAt s p 4 part back w) (hr : (readQ (getX (rxTake s (argEp s)) x) q).role = false) :
    exec .closeFlit s = .next (modQ x q (breakPort cPCLOSE) (rxTake s (argEp s))) := by
  show execCloseFlit s = _
  unfold execCloseFlit
  refine (flitEvent_live hf hl).trans ?_
  rw [if_neg (by rw [hr]; exact Bool.false_ne_true)]

theorem exec_closeFlit_consumer (hf : FlitAt s p 4 part back w) (hr : (readQ (getX (rxTake s (argEp s)) x) q).role = true) :
    exec .closeFlit s = .next (settleClosing x q (nameSent x q w (modQ x q closingPort (rxTake s (argEp s))))) := by
  show execCloseFlit s = _
  unfold execCloseFlit
  refine (flitEvent_live hf hl).trans ?_
  rw [if_pos hr]

theorem exec_breakFlit (hf : FlitAt s p 5 part back w) : ∃ t, exec .breakFlit s = .next t ∧ (readQ (getX t x) q).st = 5 := by
  show ∃ t, execBreakFlit s = .next t ∧ _
  unfold execBreakFlit
  refine ⟨_, flitEvent_live hf hl, ?_⟩
  dsimp only
  rw [readQ_modQ]
  rfl

end

/-! ## Flits for a port that has gone -/

section

variable (hl : livePort (rxTake s (argEp s)) part (flitSid w) back = none)
include hl

theorem exec_sampleFlit_gone (hf : FlitAt s p 0 part back w) : exec .sampleFlit s = .next (rxTake s (argEp s)) := by
  show execSampleFlit s = _
  unfold execSampleFlit
  exact flitEvent_gone hf hl

theorem exec_creditFlit_gone (hf : FlitAt s p 1 part back w) : exec .creditFlit s = .next (rxTake s (argEp s)) := by
  show execCreditFlit s = _
  unfold execCreditFlit
  exact flitEvent_gone hf hl

theorem exec_detachFlit_gone (hf : FlitAt s p 2 part back w) (hs : savedPort (rxTake s (argEp s)) part (flitSid w) back = none) :
    exec .detachFlit s = .next (rxTake s (argEp s)) := by
  show execDetachFlit s = _
  unfold execDetachFlit
  refine (flitEvent_gone hf hl).trans ?_
  rw [hs]

theorem exec_attachFlit_saved (hf : FlitAt s p 3 part back w) (hs : (savedPort (rxTake s (argEp s)) part (flitSid w) back).isSome = true) :
    exec .attachFlit s = .next (rxTake s (argEp s)) := by
  show execAttachFlit s = _
  unfold execAttachFlit
  refine (flitEvent_gone hf hl).trans ?_
  dsimp only
  rw [if_pos hs]

theorem exec_closeFlit_saved (hf : FlitAt s p 4 part back w) : exec .closeFlit s = .next
    (modSaved part (flitSid w) back (closeSaved (rxTake s (argEp s)) w) (rxTake s (argEp s))) := by
  show execCloseFlit s = _
  unfold execCloseFlit
  exact flitEvent_gone hf hl

theorem exec_breakFlit_gone (hf : FlitAt s p 5 part back w) : ∃ t, exec .breakFlit s = .next t := by
  show ∃ t, execBreakFlit s = .next t
  unfold execBreakFlit
  exact ⟨_, flitEvent_gone hf hl⟩

end

theorem exec_streamLossTimeout (ht : (getX s s.arg.a).task = true) (hr : (readQ (getX s s.arg.a) s.arg.b).role = true)
    (hs : (readQ (getX s s.arg.a) s.arg.b).st = 2 ∨ (readQ (getX s s.arg.a) s.arg.b).st = 3) (hd : (readQ (getX s s.arg.a) s.arg.b).due = some x)
    (hw : (readQ (getX s s.arg.a) s.arg.b).wr < x) : exec .streamLossTimeout s = .next (lostRecord s.arg.a s.arg.b s) := by
  show execStreamLossTimeout s = _
  unfold execStreamLossTimeout
  refine gate_on ?_
  rw [ht, hr, hd]
  rcases hs with h | h
  · rw [h]; exact decide_eq_true hw
  · rw [h]; exact decide_eq_true hw

/-! ## The certificate -/

/-- Settles O60: what a port, a queue, a barrier or the side of a stream holds decides each event. -/
theorem engineEvents : Obligations.EngineEvents := by
  unfold Obligations.EngineEvents
  intro s m r g p x q part w back
  have hsid : w.toNat / 2 ^ 16 % 2 ^ 10 = flitSid w := (bitsN_eq w 16 10).symm
  dsimp only
  rw [hsid]
  refine ⟨fun ⟨hfree, hx, hrun, hst, hf, hc, hw, he⟩ => ?_, exec_copyStageStart, fun hr ho hb h4 h19 ha h => ⟨fun hn => ?_, fun id n hn => ?_⟩,
    fun P hr hP he ht => ?_, fun P hr hP he ht => ?_, fun hn hfree hx hrun hm hc he => ?_, fun hs hx hrun hm he => ?_,
    fun d rest ho hb => exec_streamOpenCheck ho hb, exec_gangBarrierCompletion, exec_gangBarrierRelease,
    fun hl => ⟨exec_sampleFlit hl, exec_creditFlit hl, exec_detachFlit_producer hl, exec_detachFlit_consumer hl,
      fun hf e he => ⟨exec_attachFlit_opens hl hf he, exec_attachFlit_stays hl hf he⟩, exec_closeFlit_producer hl, exec_closeFlit_consumer hl, exec_breakFlit hl⟩,
    fun hl => ⟨exec_sampleFlit_gone hl, exec_creditFlit_gone hl, exec_detachFlit_gone hl, exec_attachFlit_saved hl, exec_closeFlit_saved hl,
      exec_breakFlit_gone hl⟩,
    exec_streamLossTimeout⟩
  · have hnext := nextCopy_of hfree hx (headFor_of hrun (stagesLeft_eq_false hst) hf hc hw) he
    exact ⟨exec_copyCommandStart hnext, exec_rmapostCommandStart hnext⟩
  · exact exec_copyCommandCompletion hr (runEnded_of ho hb h4 h19 ha h) hn
  · exact exec_copyCommandCompletion_node hr (runEnded_of ho hb h4 h19 ha h) hn
  · subst hP
    exact exec_rmapostCommandStart_writes hr (by rw [rmaHasRoom, he, decide_eq_true ht]; rfl)
  · subst hP
    exact exec_launchCommandStart_writes hr (by rw [launchHasRoom, he, decide_eq_true ht]; rfl)
  · refine exec_launchCommandStart hn (nextLaunch_of hfree hx (launchOffer_eq_some.mpr ⟨hrun, hm, hc⟩) fun y e hy hne hye => ?_)
    obtain ⟨hr, hq, hlt⟩ := launchOffer_eq_some.mp hye
    exact he y e hy hne hr hq hlt
  · refine exec_streamUnitCommandStart hs hx (streamOffer_eq_some.mpr ⟨hrun, hm⟩) fun y e hy hne hye => ?_
    obtain ⟨hr, hq⟩ := streamOffer_eq_some.mp hye
    exact he y e hy hne hr hq

end Sys2Proof.Machine
end
